-- ==== Sys2Proof/Word.lean ====
section
/-! DEFINITION. Words and bytes: the widths the manual uses, and big-endian fields (00 R2, R3). -/

namespace Sys2Proof

/-- One byte; within a byte on the wire bit 7 is the most significant (R3). -/
abbrev Byte := BitVec 8

/-- A register, 32 bits wide, accessed as a whole word (R4). -/
abbrev Word := BitVec 32

/-- A byte string: a frame, a parameter block, an image, a record. -/
abbrev Bytes := List Byte

end Sys2Proof
end

