-- ==== Sys2Proof/Syntax.lean ====
section
/-! DEFINITION. The commands of the block: one constructor for every row of spec/opcode_table.json, with the row's operands. -/

namespace Sys2Proof

/-- A half of a host port, in the order in which frames of one Dealer cycle are checked (R84). -/
inductive Half where
  | a0 | a1 | b0 | b1
deriving DecidableEq, Repr

/-- A port that carries MACsec: a host port half or the partner port (R61, R349). -/
inductive Port where
  | host (h : Half)
  | partner
deriving DecidableEq, Repr

/-- How XCT travels (R63). -/
inductive Encap where
  | eth | udp4 | udp6
deriving DecidableEq, Repr

/-- What the port found when a frame arrived, before XCT reads it (R61 to R64).
The outcomes of the FCS, RS-FEC and MACsec checks are given, because the line's keys and bits are outside the part. -/
structure Arrival where
  half      : Half
  fcsOk     : Bool          -- FCS good
  fecFixed  : Nat           -- RS-FEC codewords corrected in it
  fecFailed : Nat           -- RS-FEC codewords that could not be decoded
  secTag    : Bool          -- the frame carries a SecTAG
  icvOk     : Bool          -- MACsec ICV and replay check passed (meaningful with a SecTAG)
  encap     : Encap
  csumZero  : Bool          -- UDP checksum field is zero
  fragment  : Bool          -- an IP fragment
  udpPort   : BitVec 16     -- UDP destination port
  dst       : BitVec 128    -- IP destination address (IPv4 in the low 32 bits)
  vlan      : Option (BitVec 12)
  stacked   : Bool          -- more than one VLAN tag
  wireLen   : Nat           -- Ethernet frame size including FCS
  srcMac    : BitVec 48
  src       : BitVec 128    -- IP source address (IPv4 in the low 32 bits)
  srcPort   : BitVec 16     -- UDP source port
  full      : Bool          -- the ingress buffer has no room for the frame (R87)
deriving DecidableEq, Repr

/-- Who issued a command: a host, by session ID and request ID, or an applet, by its core and call descriptor (R82, R278). -/
inductive Origin where
  | host (session : BitVec 32) (request : BitVec 64)
  | call (seat core : Nat) (desc : BitVec 32)
deriving DecidableEq, Repr

/-- Internet service frames the part answers on its own (R61). -/
inductive IpService where
  | arp | neighbour | echo4 | echo6 | other
deriving DecidableEq, Repr

/-- Why a partner-port frame is dropped (R349, R353). -/
inductive PartnerDrop where
  | fcs | fec | icv | mirrorTag | other
deriving DecidableEq, Repr

/-- The four engine kinds, numbered as tile groups 0 to 3 (R13, R111). -/
inductive Engine where
  | tu | lane | pke | digest
deriving DecidableEq, Repr

/-- The kind of a memory access the Slot Guard checks (R285). -/
inductive Access where
  | read | write | fetch
deriving DecidableEq, Repr

/-- How an instance takes an exception (R277, R321). -/
inductive CoreException where
  | illegalInstruction | breakpoint | hardwareError
deriving DecidableEq, Repr

/-- What is wrong with a line the patrol reads (R18, R140, R141). -/
inductive LineFinding where
  | single | double | uncorrectable | macFail | treeFail
deriving DecidableEq, Repr

/-- What the 80/64 code makes of a word that is read (R18). -/
inductive Decoded where
  | clean | single | double | uncorrectable
deriving DecidableEq, Repr

/-- The test a noise source failed (R322). -/
inductive TrngTest where
  | repetition | proportion | startUp
deriving DecidableEq, Repr

/-- A debug master's target (R293, R295). -/
inductive DebugTarget where
  | reg (addr : Word)
  | sram (seat core : Nat) (addr : BitVec 32)
  | halt (seat core : Nat)
  | resume (seat core : Nat)
  | step (seat core : Nat)
  | coreReg (seat core : Nat) (index : Nat)
  | protectedRegion (index : Nat)
deriving DecidableEq, Repr

/-- The clear part of a mirror frame's header and the outcome of its tag check (R353). -/
structure MirrorHdr where
  version   : Byte
  reserved  : Bool          -- a reserved field is nonzero
  pairingId : BitVec 32
  seq       : BitVec 64
  ack       : BitVec 64
  held      : BitVec 64
  tagOk     : Bool
deriving DecidableEq, Repr

/-- A heartbeat's payload (R355). -/
structure Beat where
  serial : BitVec 64
  digest : Bytes
  epoch  : BitVec 64
  role   : Byte
  state  : Byte
  level  : Byte
  sent   : BitVec 64
  echo   : BitVec 64
  delay  : BitVec 64
deriving DecidableEq, Repr

/-- What start-up finds of the board and of the dies (R408, R414). -/
structure BootFindings where
  railLow      : Bool       -- PORST_N was released with a rail outside its window
  badSeats     : BitVec 8   -- bit n: Seat n failed its link, PLL, TRNG or self-test
  dealerTrngOk : Bool
  badStacks    : BitVec 2   -- bit n: vault stack n did not train
  badFirmware  : BitVec 2   -- bit n: boot firmware bank n holds an uncorrectable word (R19)
  badDeal      : BitVec 2   -- bit n: Deal bank n holds an uncorrectable word (R19)
  offSeconds   : BitVec 32  -- the Off duration the guard domain counted
  badLogBlocks : List (Bool × Nat)   -- uncorrectable log blocks met by the scan: (pinned?, block)
  kittyBad     : Bool       -- an uncorrectable word in the kitty (R382)
deriving DecidableEq, Repr

/-- The commands. Each constructor is a row of the table; LAWS.json names the row. -/
inductive Instr where
  -- Sessions and streams (03)
  | sessionHello (a : Arrival) (payload : Bytes)
  | sessionProve (a : Arrival) (session : BitVec 32) (payload : Bytes)
  | sessionClose (o : Origin) (p : Bytes)
  | sessionStatus (o : Origin) (p : Bytes)
  | streamAck (session : BitVec 32) (p : Bytes)
  | streamData (session : BitVec 32) (p : Bytes)
  -- The Deal, the guard, Fold, the system (02, 12, 16, 01)
  | dealStage (o : Origin) (p : Bytes)
  | dealCut (o : Origin) (p : Bytes)
  | dealDiscard (o : Origin) (p : Bytes)
  | dealQuery (o : Origin) (p : Bytes)
  | guardReadmit (o : Origin) (p : Bytes)
  | foldEnter (o : Origin) (p : Bytes)
  | foldExit (o : Origin) (p : Bytes)
  | portCtl (o : Origin) (p : Bytes)
  | sysStatus (o : Origin) (p : Bytes)
  | fwLoad (o : Origin) (p : Bytes)
  | retire (o : Origin) (p : Bytes)
  | regRead (o : Origin) (p : Bytes)
  | regWrite (o : Origin) (p : Bytes)
  -- Keys, counters, journal, deck (05)
  | keyImport (seat unit : Nat)
  | keyExport (seat unit : Nat)
  | keyGenerate (seat core : Nat)
  | keyComponent (seat unit : Nat)
  | keyErase (o : Origin) (p : Bytes)
  | keyAttrRead (o : Origin) (p : Bytes)
  | keyGenRead (o : Origin) (p : Bytes)
  | ctrInit (o : Origin) (p : Bytes)
  | ctrNext (o : Origin) (p : Bytes)
  | ctrRead (o : Origin) (p : Bytes)
  | deckSnapshot (o : Origin) (p : Bytes)
  | deckCommit (o : Origin) (p : Bytes)
  | deckLoad (o : Origin) (p : Bytes)
  | journalAttach (o : Origin) (p : Bytes)
  | journalAck (o : Origin) (p : Bytes)
  | journalReplay (o : Origin) (p : Bytes)
  | vaultOpen (o : Origin) (p : Bytes)
  -- Transaction-unit programs (06)
  | pinTranslate (seat unit : Nat)
  | pinVerify (seat unit : Nat)
  | dukptPinTranslate (seat unit : Nat)
  | dukptMac (seat unit : Nat)
  | emvArqc (seat unit : Nat)
  | emvScript (seat unit : Nat)
  | macGenerate (seat unit : Nat)
  | macVerify (seat unit : Nat)
  | ff1Encrypt (seat unit : Nat)
  | ff1Decrypt (seat unit : Nat)
  | tdeaCbcEncrypt (seat unit : Nat)
  | tdeaCbcDecrypt (seat unit : Nat)
  -- Cipher lanes (07): lane 0 is A, 1 is B
  | laneEcb (seat lane slot : Nat)
  | laneCbc (seat lane slot : Nat)
  | laneCtr (seat lane slot : Nat)
  | laneGcm (seat lane slot : Nat)
  | laneXts (seat lane slot : Nat)
  | laneCmac (seat lane slot : Nat)
  | laneCtxExport (seat lane slot : Nat)
  | laneCtxImport (seat lane slot : Nat)
  | laneCtxDiscard (seat lane slot : Nat)
  -- Public-key engine (08)
  | pkeEcdsaSign (seat core : Nat)
  | pkeEcdsaVerify (seat core : Nat)
  | pkeEd25519Sign (seat core : Nat)
  | pkeEd25519Verify (seat core : Nat)
  | pkeAgree (seat core : Nat)
  | pkeRsaSign (seat core : Nat)
  | pkeRsaPublic (seat core : Nat)
  | pkeRsaUnwrap (seat core : Nat)
  | pkeMldsaVerify (seat core : Nat)
  -- Digest engines (09): engine 0 is A, 1 is B
  | dgstHash (seat engine : Nat)
  | dgstCtxExport (seat engine : Nat)
  | dgstCtxImport (seat engine : Nat)
  | dgstCtxDiscard (seat engine : Nat)
  -- Applets (10)
  | appletInvoke (seat core : Nat)
  | appdataRead (o : Origin) (p : Bytes)
  | appdataWrite (o : Origin) (p : Bytes)
  -- Partner, events, ceremonies (13, 14, 15)
  | pairBegin (o : Origin) (p : Bytes)
  | partStatus (o : Origin) (p : Bytes)
  | promoteChallenge (o : Origin) (p : Bytes)
  | promote (o : Origin) (p : Bytes)
  | noticeResend (o : Origin) (p : Bytes)
  | eventRead (o : Origin) (p : Bytes)
  | eventFreeze (o : Origin) (p : Bytes)
  | eventThaw (o : Origin) (p : Bytes)
  | timeAnnotate (o : Origin) (p : Bytes)
  | cerBegin (o : Origin) (p : Bytes)
  | cerStep (o : Origin) (p : Bytes)
  | cerEnd (o : Origin) (p : Bytes)
  | cerCert (o : Origin) (p : Bytes)
  -- Frames and responses (03)
  | hostFrameReceive (a : Arrival) (frame : Bytes)
  | mkaFrameReceive (port : Port) (ca : Nat) (joins : Bool)
  | sakRenew (port : Port) (ca : Nat)
  | ipServiceFrame (half : Half) (service : IpService) (dst : BitVec 128)
  | responseSend (session : BitVec 32) (request : BitVec 64)
  | noticeFrameSend (session : BitVec 32)
  | streamAckDelay (session : BitVec 32) (stream : BitVec 32)
  | streamOutputResend (session : BitVec 32) (stream : BitVec 32)
  | streamInputIdle (session : BitVec 32) (stream : BitVec 32)
  | sessionOfferTimeout (session : BitVec 32)
  | sessionIdleTimeout (session : BitVec 32)
  | sessionClosingTimeout (session : BitVec 32)
  -- Dispatcher, antes, tiles, links (04, 11, 01)
  | dispatchPass
  | anteTake (die : Nat)
  | anteWindowEnd (die group : Nat) (peak : BitVec 8)
  | tileWakeComplete (seat group index : Nat)
  | tileIdleEnter (seat group index : Nat)
  | tileGateEnter (seat group index : Nat)
  | tilePowerDownComplete (seat group index : Nat)
  | linkFlitReceive (seat : Nat) (toDealer : Bool) (seq : BitVec 16) (crcOk : Bool) (ecc : Decoded) (response : Option Nat)
  | linkRetrain (seat : Nat)
  | linkRetrainComplete (seat : Nat) (ok : Bool)
  | seatDescriptorArrive (seat : Nat) (ecc : Decoded)
  | keyFetchComplete (seat slot : Nat) (ecc : Decoded)
  -- Engines (06 to 09)
  | trickStart (seat unit : Nat) (ecc : Decoded)
  | trickComplete (seat unit : Nat) (faultOk : Bool) (ecc : Decoded)
  | laneCommandResident (seat lane : Nat) (ecc : Decoded)
  | laneCommandComplete (seat lane slot : Nat) (ecc : Decoded)
  | laneCompareFail (seat lane : Nat)
  | laneReseedRequest (seat lane : Nat)
  | laneMaskReseed (seat lane : Nat)
  | pkeJobStart (seat core : Nat) (ecc : Decoded)
  | pkeJobComplete (seat core : Nat) (faultOk : Bool) (ecc : Decoded)
  | pkeYieldPoint (seat core : Nat)
  | pkeLongResume (seat core : Nat)
  | keygenStepComplete (seat core : Nat)
  | digestJobStart (seat engine : Nat) (ecc : Decoded)
  | digestJobComplete (seat engine : Nat) (ecc : Decoded)
  | digestParityFault (seat engine : Nat)
  | engineScrubComplete (seat : Nat) (engine : Engine) (index : Nat)
  | keyInvalidate (seat slot : Nat)
  | keyEraseOrder (seat slot : Nat)
  | eraseConfirm (seat slot : Nat)
  -- Vault events (05)
  | mutationCommit (id : Nat)
  | ackRootWrite
  | journalDeferredRecord (id : Nat)
  | leaseGrant (counter : Nat)
  | vaultReencryptComplete (group : Nat)
  | vaultPatrol (found : List (Nat × LineFinding))
  | deckSnapshotComplete
  -- Cut events (02)
  | cutInstant
  | seatEpochFlip (seat : Nat)
  | cutDrainDeadline
  | handTeardown (hand : Nat)
  | teardownComplete (hand : Nat)
  | dealMirrorCopyComplete
  | cutComplete
  | privateSeatRelease (seat : Nat)
  -- Guard and lattice (11, 12)
  | witnessReport (die cls index : Nat) (magnitude : BitVec 16)
  | holdEnd (die : Nat)
  | seatReadmit (seat : Nat)
  | seatSelfTestComplete (seat : Nat) (ok : Bool)
  | thermalReport (die : Nat) (raised : Bool)
  | temperatureSample (die : Nat) (diodes : List (BitVec 16))
  | tempRateCompute (die : Nat)
  | slowVoltageMean (die window : Nat) (millivolts : Nat)
  | refclkMonitorWindow (count : Nat) (lockLost : Bool)
  | shieldResistanceCheck (net : Nat) (milliohms : Nat)
  | calibrationSlice (die cls index : Nat) (correction : Int) (inBound : Bool)
  | drbgReseed (die : Nat)
  | drbgStopped (die : Nat)
  | trngSourceFail (die source : Nat) (test : TrngTest)
  | trngSourceRestored (die source : Nat)
  | trngOutRead (seat core : Nat)
  | trngOutTimeout (seat core : Nat)
  -- Applet events (10)
  | appletInstanceStart (seat core : Nat)
  | appletEcall (seat core : Nat) (a7 a0 a1 : BitVec 64)
  | appletException (seat core : Nat) (kind : CoreException) (cause pc : BitVec 64)
  | appletBudgetExpired (seat core : Nat)
  | coreDoorbell (seat core : Nat) (value : Word)
  | slotGuardViolation (seat master : Nat) (core : Nat) (access : Access) (addr : BitVec 32) (len : Nat) (pc : BitVec 32)
  | slotGuardStoreDrain (seat core : Nat) (addr : BitVec 32) (data : Bytes)
  | ntcRaise (seat core : Nat) (value : Word)
  | dgstbClaim (seat core : Nat)
  | dgstbRelease (seat core : Nat)
  | dgstbClaimGrant (seat : Nat)
  | dgstbClaimTimeout (seat : Nat)
  | dgstbGo (seat core : Nat) (ctrl : Word) (key len : BitVec 64)
  | dgstbData (seat core : Nat) (value : Word)
  | dgstbLast (seat core : Nat) (value : Word)
  | dgstbBlockDone (seat : Nat)
  | dgstbCmp (seat core : Nat) (value : Word) (expected : Bytes)
  -- Joker port (10)
  | jokerAuth (token : Bytes)
  | jokerAccess (target : DebugTarget) (write : Bool) (data : Word)
  | jokerClose
  | jokerExpiry
  | trstNLow
  | extest
  | bypass
  | idcode
  | samplePreload
  -- Partner events (13)
  | pairingFrame (identity : BitVec 128) (payload : Bytes)
  | heartbeatSend
  | heartbeat (h : MirrorHdr) (b : Beat)
  | heartbeatMissed
  | mutation (h : MirrorHdr) (p : Bytes)
  | forward (h : MirrorHdr) (p : Bytes)
  | leaseRequest (h : MirrorHdr) (p : Bytes)
  | repairRequest (h : MirrorHdr) (p : Bytes)
  | repairData (h : MirrorHdr) (p : Bytes)
  | resyncMap (h : MirrorHdr) (p : Bytes)
  | resyncObject (h : MirrorHdr) (p : Bytes)
  | resyncComplete
  | event (h : MirrorHdr) (p : Bytes)
  | mirrorFrameResend (seq : BitVec 64)
  -- Recorder events (14)
  | evrFreezeSet
  | evrFreezeClear
  | freezeTimeout
  | optimeSave
  -- Ceremony ports (15): port 0 is A, 1 is B
  | cardInserted (port : Nat)
  | cardRemoved (port : Nat)
  | cardResponse (port : Nat) (data : Bytes) (sw : BitVec 16) (repeats : Nat)
  | cardWaitTimeExpired (port : Nat)
  | cardClockStop (port : Nat)
  | cerStepCardTimeout (port : Nat)
  | ceremonyIdleTimeout (port : Nat)
  | authorisationLapse (port : Nat)
  -- Power, clocks, ports, Fold (16, 03)
  | powerUp (f : BootFindings)
  | powerFail (orderly : Bool)
  | offWitness (cls index : Nat) (magnitude : BitVec 16)
  | hostPortLinkUp (half : Half) (secured : Bool)
  | portTrainingRetry (half : Half)
  | hpxModeWrite (portB : Bool) (value : Word)
  | portDrainEnd (port : Port)
  | foldDrainLimit
  | foldEntryComplete
  | foldWakeComplete (failed : BitVec 8)
  | osc32Fail
  | osc32Restart
  -- Shuffle (17)
  | shuffleArm (value : Word)
  | shuffleDisarm
  | shuffleExpire
  -- Links and battery (01, 13, 12, 18)
  | hostPortLinkDown (half : Half)
  | partnerLinkUp
  | partnerLinkDown
  | pfcFrameReceive (half : Half) (paused : BitVec 8)
  | partnerPortFrame (why : PartnerDrop)
  | vbatLoss
  | vbatReturn (millivolts : BitVec 16)
  | batteryLow (millivolts : BitVec 16)
  | pairingTimeout
  | dealStagingComplete
deriving DecidableEq, Repr

end Sys2Proof
end

