-- ==== Sys2Proof/Decode.lean ====
section
/-! DEFINITION. Decoding by spec/opcode_table.json: no row of the table carries bits, because a command reaches the block as its
operands and not as an instruction word, so no word spells a command. -/

namespace Sys2Proof

/-- The command a word spells by the table's bits: none, for the table gives bits to no row. -/
def decodeTableWord (nbits w : Nat) : Option Instr :=
  match nbits, w with
  | _, _ => none

end Sys2Proof
end

