-- ==== Sys2Proof/Config.lean ====
section
/-! DEFINITION. What the manual leaves open: free values, and what is fused or kept secret in one part. Nothing here has a
body, so no proof can see a value (log 4). Algorithms the manual only names are in Machine/Cipher.lean, Hash.lean, Curve.lean, KemDsa.lean and PkeOps.lean (log 5). -/

namespace Sys2Proof.Config

/-- The n-th byte drawn from a DRBG or left undefined by the manual (11 R315, R320); State counts the draws. -/
opaque freeByte : Nat → Byte

/-- The part identity key, a P-384 private key in the XCT handshake engine (01 R12, 03 R76). -/
opaque identityKey : Nat

/-- Fused ante table: the nominal entry of a die, step class and tile group, in 0.25 mV units (11 R308, R309). -/
opaque anteNominal : Nat → Nat → Nat → Nat

/-- Fused lower bound of an ante entry below the nominal value, in 0.25 mV units (11 R309). -/
opaque anteDown : Nat → Nat → Nat → Nat

/-- Fused upper bound of an ante entry above the nominal value, in 0.25 mV units (11 R309). -/
opaque anteUp : Nat → Nat → Nat → Nat

/-- Fused factory trim of a sensor: die, class, index (11 R312). -/
opaque factoryTrim : Nat → Nat → Nat → BitVec 8

/-- The idle floor of a die's predicted power, in mW (11 R303). -/
opaque idleFloor : Nat → Nat

/-- The fused thermal coefficient of a die, in units of 0.01 K/W (11 R303). -/
opaque kappa : Nat → Nat

/-- The fused resistance of a shield net at 25 °C, in milliohms (11 R304). -/
opaque netResistance : Nat → Nat

/-- One step of Shuffle's 32-bit LFSR, whose polynomial the manual does not give (17 R434). -/
opaque lfsrNext : BitVec 32 → BitVec 32

/-- The counter block of a vault line: address, minor and major counter, in a layout the manual does not give (05 R140). -/
opaque lineBlock : Nat → Nat → Nat → Bytes

/-- The 64-bit MAC of a vault line under the MAC key, over ciphertext, address and counters; the manual does not name it (05 R140). -/
opaque lineMac : Bytes → Bytes → Nat → Nat → Nat → BitVec 64

/-- The root of the integrity tree over the line counters; the manual does not give its form (05 R140). -/
opaque treeRoot : Bytes → List (Nat × Nat) → List (Nat × Nat) → List (Nat × Nat) → BitVec 64

/-- The P-256 or P-384 public key an X.509 certificate carries, none when it is malformed or of another type (log 5). -/
opaque certKey : Bytes → Option Bytes

/-- True when an X.509 certificate names a part identity (13 R351, log 5). -/
opaque certNames : Bytes → Bytes → Bool

/-- The failure code a STARTUP_FAIL record carries, by what failed; the manual lists no codes (16 R427). -/
opaque failureCode : Nat → Nat

/-- The key that signs boot firmware, as its verification reads it (16 R418). -/
opaque firmwareKeys : Bytes

/-- The time a house core takes inside a bound the manual gives, in engine cycles, by what it does (04 R455). -/
opaque serviceTime : Nat → Nat

end Sys2Proof.Config
end

