-- ==== Sys2Proof/Machine/State.lean ====
section
/-! DEFINITION. The state of the part as plain data: every register, table, queue and pin the manual names, with its reset value as the field's default.
Sparse tables are lists of (key, value) pairs in rising key order that hold no default value; Machine/Ops.lean reads and writes them. -/

namespace Sys2Proof.Machine

/-! ### The part -/

/-- The three variants (00 R1). -/
inductive Variant where
  | xf2402 | xf2404 | xf2408
deriving DecidableEq, Repr

/-- What is fused into the part (16 SYS_ID, SYS_PID; 01 SEAT_ID; 06 TU_ROM). DESIGN CHOICE values, log 3. -/
structure Fuses where
  variant  : Variant := .xf2408
  identity : BitVec 128 := 0
  sirev    : Byte := 1
  romrev   : BitVec 16 := 1
deriving DecidableEq, Repr

/-! ### Commands, sessions, streams (03, 04) -/

/-- The dispatch class of a command (04 R92). -/
inductive Cls where
  | dealer | trump | plain | long
deriving DecidableEq, Repr

/-- The kinds of unit on a Seat that run dealt work: the four engine classes and the applet cores (04 R95). -/
inductive Site where
  | tu | lane | pke | digest | core
deriving DecidableEq, Repr

/-- Where an accepted command stands (01 'The life of one command', 04 R94 to R96). -/
inductive Place where
  | dealer                          -- in its session's Dealer order
  | queued                          -- in its hand queue
  | link (seat : Nat)               -- dealt, its descriptor on the link
  | seatQ (seat : Nat)              -- in the Seat's local queue
  | engine (seat : Nat) (site : Site) (index : Nat)
  | scrubbing (seat : Nat) (site : Site) (index : Nat)   -- stopped; its scrub is running
  | up (seat : Nat)                 -- its response crosses the link
  | waiting                         -- waits on the Dealer: a commit, a grant, a stream, a card, a shutdown
  | xct                             -- answered; the response waits to be sent
deriving DecidableEq, Repr

/-- Output a lane command has released, as a RETRACT notice would name it (07 R199, R200). -/
structure Retract where
  seat    : Nat
  lane    : Nat
  session : BitVec 32               -- session and request of the message's first command
  stream  : BitVec 32
  request : BitVec 64
  first   : Nat
  last    : Nat
deriving DecidableEq, Repr

/-- The path of a request, on which its answer goes back (03 R63): the half, the encapsulation, and the two ends. -/
structure Path where
  half     : Half := .a0
  encap    : Encap := .eth
  secured  : Bool := true            -- under MACsec
  vlan     : Option (BitVec 12) := none
  mac      : BitVec 48 := 0          -- the peer's MAC address
  peer     : BitVec 128 := 0         -- the peer's IP address, and the part's
  own      : BitVec 128 := 0
  peerPort : BitVec 16 := 0
  ownPort  : BitVec 16 := 0
deriving DecidableEq, Repr

/-- A command that XCT (or a Seat's call DMA) has accepted and whose response has not been sent (03 R82, R85). -/
structure Cmd where
  uid       : Nat
  origin    : Origin
  code      : Nat
  params    : Bytes
  hand      : Nat
  epoch     : Nat
  cls       : Cls
  ordered   : Bool
  path      : Path                  -- how it came, and its response goes (03 R63, R84)
  stamp     : Nat                   -- arrival cycle (R109)
  place     : Place
  dealSeq   : Nat := 0              -- order of dealing
  dealtAt   : Nat := 0
  startMark : Bool := false         -- the Dealer holds its start mark (R96)
  missed    : Bool := false         -- a key-cache miss occurred for it (R101)
  woke      : Bool := false         -- a wake occurred for it (R101)
  fixed     : Nat := 0              -- fixed time of its job in cycles (R99)
  predicted : Nat := 0              -- its predicted time at the deal, in cycles (R99)
  seat      : Nat := 0              -- the Seat it was dealt to, 0 before
  frag      : Bool := false         -- a call whose digest data is a fragment list (10 R278)
  retract   : Option Retract := none
  target    : Option Nat := none    -- the generation of the slot it writes, when a PKE core checked it (08 R225)
  hold      : Nat := 0              -- hold-buffer bytes its inline plaintext keeps until its response is sent, on its Seat (07 R198)
  status    : BitVec 16 := 0
  payload   : Bytes := []
  doneSeq   : Nat := 0              -- the order in which outcomes left their Seat, and then reached the XCT response path (R85, R108)
  doneAt    : Nat := 0              -- the Dealer cycle of that
deriving DecidableEq, Repr

abbrev Cmd.half (c : Cmd) : Half := c.path.half

/-- A reply to a frame or entry that was not accepted (03 R66 to R70, R82, R85 to R87): it holds no credit. -/
structure Reply where
  session : BitVec 32
  request : BitVec 64
  code    : Nat
  status  : BitVec 16
  payload : Bytes
  path    : Path
  ordered : Bool := false
  bare    : Bool := false           -- of the handshake: sequence 0, unsealed (R76)
  doneSeq : Nat := 0                -- its place among the outcomes (R85), and its Dealer cycle
  doneAt  : Nat := 0
deriving DecidableEq, Repr

abbrev Reply.half (r : Reply) : Half := r.path.half

/-- A notice as it is sent to a session (03 R88). -/
structure Notice where
  source : Nat
  code   : BitVec 16
  sev    : Nat
  hand   : Nat
  optime : Nat
  body   : Bytes
deriving DecidableEq, Repr

/-- A notice with the session's sequence (R89). -/
structure SentNotice where
  seq    : BitVec 32
  notice : Notice
deriving DecidableEq, Repr

/-- The states of a session's table entry that hold a session (03 R77). -/
inductive SessState where
  | offered | open_ | closing
deriving DecidableEq, Repr

/-- A session (03 R74 to R89). -/
structure Session where
  id         : BitVec 32
  st         : SessState
  hand       : Nat
  cert       : Bytes                -- SHA-384 fingerprint of its certificate
  sealOn     : Bool
  th         : Bytes := []
  prk        : Bytes := []
  hostKey    : Bytes := []          -- the host certificate's key, as the handshake verifies with it
  keyIn      : Bytes := []          -- k_hp, in the XCT seal engine (01 R12)
  keyOut     : Bytes := []          -- k_ph
  mgmt       : Bool := false
  drill      : Bool := false
  credit     : Nat := 0
  window     : Nat := 0
  idle       : Nat := 0             -- seconds
  swin       : Nat := 0             -- stream window, KiB
  slimit     : Nat := 0
  seqIn      : Nat := 0             -- S
  seen       : List Nat := []       -- accepted sequences within the window
  reqHigh    : Nat := 0             -- H
  recorded   : List (Nat × Option (BitVec 16)) := []   -- none: in flight; some: the original status
  orderedHigh : Nat := 0
  seqOut     : Nat := 0
  path       : Path := {}           -- that of the most recently accepted frame (R84)
  lastAt     : Nat := 0
  offeredAt  : Nat := 0
  closingAt  : Nat := 0
  noticeSeq  : BitVec 32 := 0       -- sequence of the last notice sent
  kept       : List SentNotice := []   -- the last 64, newest first
  waiting    : List Notice := []    -- routed and not yet sent
deriving DecidableEq, Repr

abbrev Session.half (x : Session) : Half := x.path.half

/-- A stream of a session (03 R71 to R73). -/
structure Stream where
  session  : BitVec 32
  id       : BitVec 32
  input    : Bool
  uid      : Nat                    -- the command that opened it
  declared : Option Nat             -- declared length of an input stream
  acked    : Nat := 0               -- acknowledged offset: by the part (input) or by the host (output)
  segs     : List (Nat × Bytes) := []   -- input bytes held beyond the acknowledged offset
  data     : Bytes := []            -- input: delivered bytes; output: bytes produced
  ended    : Option Nat := none     -- end offset given by a last flag
  lastAt   : Nat := 0               -- last new byte (input), last transmission (output)
  announced : Nat := 0              -- input: offset of the last STREAM_ACK; output: bytes sent
  advAt    : Nat := 0               -- input: when the acknowledged offset first passed the last STREAM_ACK's (R72)
  resends  : Nat := 0
  used     : Nat := 0               -- input: bytes its command has acted on
  hold     : Nat := 0               -- hold-buffer bytes its data still reserves (07 R198)
  holdSeat : Nat := 0
deriving DecidableEq, Repr

/-- A frame that has left the part (the output port): what it says, and `wire`, the XCT frame as it travels (03 R63 to R65, R80). -/
structure OutFrame where
  session  : BitVec 32
  seq      : Nat
  request  : BitVec 64
  code     : Nat
  status   : BitVec 16
  payload  : Bytes                  -- in the clear
  sealed_  : Bool
  path     : Path
  flags    : Byte
  hand     : Nat
  wire     : Bytes                  -- header, then payload, or ciphertext and tag
  df       : Bool                   -- the IPv4 DF bit
  checksum : Option (BitVec 16)     -- the UDP checksum
  corrupt  : Bool := false          -- damaged by Shuffle after all protection (17 R435)
deriving DecidableEq, Repr

abbrev OutFrame.half (f : OutFrame) : Half := f.path.half

/-! ### The Deal (02) -/

/-- A hand entry (R35). -/
structure HandEntry where
  hand : Nat
  flags : Byte
  inst : Nat
  slotBase : Nat
  slotCount : Nat
  ctrBase : Nat
  ctrCount : Nat
  appSize : Nat
  appBase : Nat
deriving DecidableEq, Repr

/-- A seat assignment entry (R37). -/
structure SeatEntry where
  hand : Nat
  mask : Byte
  priv : Bool
  trick : Nat
  lane : Nat
  pke : Nat
  digest : Nat
  inflight : Nat
deriving DecidableEq, Repr

/-- A key policy entry (05 R125). -/
structure PolicyEntry where
  hand : Nat
  ktype : Nat
  usages : BitVec 16
  flags : Byte
  tdeaLimit : Nat
  usageLimit : Nat
deriving DecidableEq, Repr

/-- A session admission entry (03 R74). -/
structure AdmissionEntry where
  cert : Bytes
  hand : Nat
  flags : Byte
  limit : Nat
  credit : Nat
  window : Nat
  idle : Nat
  swin : Nat
  slimit : Nat
deriving DecidableEq, Repr

/-- One window of a Slot Guard map (10 R281): base, length, attributes. -/
structure GuardWindow where
  base : Nat
  len : Nat
  attrs : BitVec 32
deriving DecidableEq, Repr

/-- A Slot Guard map entry (10 R281). -/
structure MapEntry where
  image : Nat
  hand : Nat
  master : Nat
  grants : Byte
  windows : List GuardWindow
deriving DecidableEq, Repr

/-- A guard policy matrix entry (12 R327). -/
structure MatrixEntry where
  cls : Nat
  sev : Nat
  count : Nat
  window : Nat
  resp : Nat
  scope : Byte
deriving DecidableEq, Repr

/-- A recorder limits entry (14 R376). -/
structure LimitEntry where
  code : BitVec 16
  mask : Byte
  rate : Nat
  burst : Nat
deriving DecidableEq, Repr

/-- A notice routing entry (14 R387). -/
structure RouteEntry where
  source : Nat
  dest : Byte
  hand : Nat
  minsev : Nat
deriving DecidableEq, Repr

/-- The partner parameters (13 R350). -/
structure PartnerEntry where
  lead : Bool
  rate : Nat
  pairing : BitVec 32
  peer : Bytes
deriving DecidableEq, Repr

/-- The drill permissions (17 R433). -/
structure DrillEntry where
  targets : Byte
  actions : Byte
  duration : Nat
  dropFloor : Nat
  probCeil : Nat
deriving DecidableEq, Repr

/-- A custodian of the registry (15 R396). -/
structure Custodian where
  index : Nat
  components : Bool
  cardId : Bytes
  ecdsa : Bytes
  mldsa : Bytes
deriving DecidableEq, Repr

/-- The custodian registry (15 R396) with the SHA-384 fingerprint of its section value (R31). -/
structure Registry where
  deal : Nat
  joker : Nat
  promote : Nat
  pairing : Nat
  gap : Nat
  custodians : List Custodian
  fingerprint : Bytes
deriving DecidableEq, Repr

/-- An applet image (10 R272). -/
structure Image where
  id : Nat
  hand : Nat
  code : Bytes
  data : Bytes
  zeroLen : Nat
  stackLen : Nat
  entry : Nat
  budget : Nat
deriving DecidableEq, Repr

/-- A verified Deal, decoded. -/
structure Deal where
  serial : Nat
  hands : List HandEntry
  seats : List SeatEntry
  policy : List PolicyEntry
  admission : List AdmissionEntry
  maps : List MapEntry
  matrix : List MatrixEntry
  limits : List LimitEntry
  routing : Option (List RouteEntry)
  partner : Option PartnerEntry
  drill : Option DrillEntry
  registry : Registry
  images : List Image
  digest : Bytes                    -- structure digest (R57)
  imageDigest : Bytes               -- SHA-384 of the bank (R48)
deriving DecidableEq, Repr

/-- What a Deal bank holds (R44). -/
inductive BankRole where
  | empty | active | mirror | staged
deriving DecidableEq, Repr

/-- One 8 MiB Deal bank (R10, R44). `good` is false when an uncorrectable word was found in it (R19). -/
structure Bank where
  role  : BankRole := .empty
  image : Bytes := []
  good  : Bool := true
deriving DecidableEq, Repr

inductive SlotState where
  | empty | head | cont | retired
deriving DecidableEq, Repr

/-- A key-table slot (R122). The payload is held as the key material it wraps (log 8). -/
structure Slot where
  st       : SlotState := .empty
  hand     : Nat := 0
  gen      : Nat := 0
  ktype    : Nat := 0
  run      : Nat := 0
  flags    : Byte := 0
  usages   : BitVec 16 := 0
  uses     : Nat := 0
  tdea     : Nat := 0
  version  : BitVec 16 := 0
  kcv      : BitVec 24 := 0
  size     : Nat := 0
  material : Bytes := []
  leftAt   : Nat := 0               -- MODEL'S OWN: the order of dealing when its key was erased or retired (R137, R138)
  limitSeen : Bool := false         -- MODEL'S OWN: its TDEA_LIMIT record has been written (R132)
  retiredBy : Option Nat := none    -- the hand that retired it (R138); none where the deck does not tell (log 61)
deriving DecidableEq, Repr

/-- A cut in progress (R49 to R55). -/
structure Cut where
  uid       : Nat                   -- the DEAL_CUT that answers at completion
  t0        : Nat
  tc        : Option Nat := none
  removed   : List HandEntry := []  -- hands whose old ranges are torn down
  gone      : List Nat := []        -- hands that do not survive (R36)
  torn      : List Nat := []        -- hands whose teardown has run
  clearing  : List (Nat × Nat) := []   -- hands whose background zeroizing is unfinished, and when it is expected to end
  copied    : Bool := false
  deadline  : Bool := false         -- tc + 100 ms has passed
  returned  : List (Nat × Slot) := []   -- retired slots that came back empty for the new epoch, as they were (05 R138)
deriving DecidableEq, Repr

/-- DEAL_STATE.STATE (02). -/
inductive DealSt where
  | idle | staging | armed | cutting | teardown | noDeal
deriving DecidableEq, Repr

/-- The Deal loader. -/
structure DealUnit where
  st        : DealSt := .idle
  banks     : Bank × Bank := ({}, {})
  activeBank : Bool := false        -- DEAL_STATE.ACTIVE
  mirror    : Bool := false         -- DEAL_STATE.MIRROR
  active    : Option Deal := none
  recSerial : Nat := 0              -- recorded active serial (root area)
  recDigest : Bytes := []           -- digest recorded at the bank's cut (R48)
  staged    : Option Deal := none
  verdict   : Option (Nat × Nat) := none   -- result of the verification that runs: (reason, section), reason 0 good
  stagingUid : Option Nat := none
  reject    : Word := 0             -- DEAL_REJECT
  cuts      : BitVec 32 := 0        -- DEAL_CUTS
  cut       : Option Cut := none
  olds      : List (Nat × Deal) := []   -- by epoch: structures that old-epoch commands still run under (R50, R52)
  epoch     : Nat := 0
  key       : Option Bytes := none  -- the Deal key (R42)
  failed    : Bool := false         -- R48: neither bank yields the active Deal
  past      : List (Nat × List HandEntry × List HandEntry) := []   -- MODEL'S OWN: the cuts so far, newest first: serial, hands before, hands after (log 61)
  peerKnown : Bool := false
  peerMatch : Bool := false
  peerSerial : Nat := 0
deriving DecidableEq, Repr

/-! ### Host ports and XCT (03) -/

/-- A MACsec connectivity association of a port (R61). -/
structure Assoc where
  ca      : Nat                     -- on a host port the slot of its CAK, an AES-256 key of hand 0
  cak     : Bytes := []
  key     : Bytes := []             -- the SAK in use
  sak     : Nat := 0                -- how many SAKs were generated
  members : Nat := 0
deriving DecidableEq, Repr

/-- One host port half: its link, priorities and configuration (03, 16 R425). -/
structure HalfSt where
  link    : BitVec 2 := 0
  enabled : Bool := true
  draining : Option Nat := none     -- start of a PORT_CTL drain
  retained : Bool := false          -- an enable retained during the drain (R424)
  paused  : BitVec 8 := 0
  vlan    : BitVec 16 := 0          -- EN in bit 15, VID in bits 11 to 0
  ip4     : Word := 0
  ip6     : BitVec 128 := 0
  assocs  : List Assoc := []
deriving DecidableEq, Repr

/-- One host port: HPx_MODE and HPx_UDP (03). -/
structure HostPort where
  split   : Bool := false
  msreq0  : Bool := true
  msreq1  : Bool := true
  newMode : Option Word := none     -- a mode written, in effect when the link comes up
  udp     : BitVec 16 := 0xB4C5
deriving DecidableEq, Repr

/-- XCT: sessions, commands, streams. -/
structure XctUnit where
  sessions : List Session := []
  incs     : List (Nat × Nat) := [] -- incarnation of each table entry that was ever used
  retired  : List Nat := []         -- entries retired until power-up (R79)
  hellos   : List Nat := []         -- times of the SESSION_HELLO answers of the last second
  cmds     : List Cmd := []
  replies  : List Reply := []
  streams  : List Stream := []
  nextUid  : Nat := 1
  nextDone : Nat := 1               -- orders the outcomes of commands (R85)
  lastIn   : Option (Nat × Half) := none   -- the Dealer cycle and the half of the last frame checked (R84)
  inbox    : List (Arrival × Bytes) := []  -- frames that wait in the ingress buffer while XCT accepts none (12 R334), oldest first
  tamperList : List Bytes := []     -- the Tamper admission list (12 R342)
  claimCert : Option Bytes := none  -- the claiming certificate (15 R401)
deriving DecidableEq, Repr

/-! ### Dispatcher (04) -/

/-- An entry of the affinity directory (R98): full slot index and up to two Seats, newer first. -/
structure Affinity where
  slot  : Nat
  seats : List Nat
deriving DecidableEq, Repr

/-- Engine time a hand receives of a class on a Seat while its work is continuously queued (R102, R457). -/
structure Share where
  seat : Nat
  site : Site
  hand : Nat
  from_ : Nat                       -- since when its work is continuously queued
  paid : List (Nat × Nat) := []     -- jobs begun since then: when, and engine cycles; newest first
deriving DecidableEq, Repr

/-- An ante flit on its way to a guard shell (R114). -/
structure AnteFlit where
  die   : Nat
  bytes : Bytes
deriving DecidableEq, Repr

structure DispUnit where
  affinity : List (Nat × Affinity) := []
  overhead : List (Nat × Nat) := [] -- key seat × 8 + class, in ns; 100 when not listed
  shares   : List Share := []
  handPtr  : Nat := 0
  seatPtr  : Nat := 1
  arb      : List (Nat × Nat) := [] -- rotating pointers over the requesters of R108: 0 the vault's request port, 1 the XCT response path,
                                    -- 8 + n the transmit side of Seat n's link
  dealSeq  : Nat := 0
  affEn    : Bool := true
  slack    : BitVec 16 := 400
  longCap  : BitVec 4 := 6
  hqSel    : Byte := 0
  svcSel   : BitVec 6 := 1          -- CLASS in bits 5 to 4, SEAT in bits 2 to 0
  split    : Bool := false
  anteDie  : BitVec 3 := 0
  anteGroup : BitVec 2 := 0
  anteClass : BitVec 4 := 0
  flits    : List AnteFlit := []
deriving DecidableEq, Repr

/-! ### Vault, counters, journal, deck (05) -/

inductive CtrState where
  | uninit | live | exhausted
deriving DecidableEq, Repr

/-- A counter-table entry (R142) and its mirrored high-water M (13 R360). -/
structure Counter where
  st : CtrState := .uninit
  hw : Nat := 0
  mirrored : Nat := 0
deriving DecidableEq, Repr

/-- The leases held for one counter (R143): unissued ranges [lo, hi), oldest first. -/
structure Lease where
  ctr : Nat
  ranges : List (Nat × Nat)
  lastIssue : Nat
deriving DecidableEq, Repr

/-- A record of the context store (07 R210, R213; 09 R263). -/
structure Ctx where
  gen : Nat := 0
  used : Bool := false
  data : Bytes := []
deriving DecidableEq, Repr

/-- What a journal record states (R148, 13 R366). -/
inductive JBody where
  | slotWrite (head : Nat) (slot : Slot)
  | slotErase (head run gen : Nat)
  | slotRetire (head run : Nat)
  | counter (index : Nat) (st : CtrState) (hw : Nat)
  | allowance (head uses tdea : Nat)
  | appData (offset : Nat) (data : Bytes)
  | cut (serial : Nat) (digest : Bytes)
  | teardown (hand inst slot0 slots ctr0 ctrs app0 apps : Nat)
  | pairing (id : BitVec 32) (peer : Bytes) (lead : Bool)
  | partnerLost (epoch held : Nat)
  | promote (epoch : Nat)
  | rejoin (epoch objects : Nat) (full : Bool)
deriving DecidableEq, Repr

/-- A journal record (R147). -/
structure JRec where
  seq : Nat
  incarnation : Nat
  hand : Nat
  solo : Bool
  fromPartner : Bool
  epoch : Nat
  optime : Nat
  body : JBody
deriving DecidableEq, Repr

/-- An object a mutation changes (R134). -/
inductive Obj where
  | slot (index : Nat)
  | ctr (index : Nat)
  | app (block : Nat)               -- 4 KiB block of the applet data region
deriving DecidableEq, Repr

/-- What a mutation does (05 'Mutations'). -/
inductive MutKind where
  | keyWrite (slot : Nat) (key : Slot)
  | keyErase (slot gen : Nat)
  | ctrInit (ctr start : Nat)
  | lease (ctr : Nat) (forPartner : Bool)
  | allowance (slot seat uses blocks : Nat)
  | appData (addr : Nat) (data : Bytes)
  | remote (body : JBody)           -- received from the partner
  | note (body : JBody)             -- a record of what the part has already done (13 R362, 10 R294)
deriving DecidableEq, Repr

/-- A mutation that has not committed (R133, R134). -/
structure Mutation where
  id      : Nat
  kind    : MutKind
  hand    : Nat
  owner   : Option Nat              -- the command it answers
  pub     : Bytes := []             -- public key returned after the handle
  objs    : List Obj
  formed  : Option JRec := none     -- its record, once formed
  frame   : Option Nat := none      -- its mirror frame's sequence
  held    : Bool := false           -- the partner holds it
  forwarded : Bool := false         -- a follow's, sent to the lead for ordering (13 R359)
  own     : Bool := false           -- a record the part writes on its own (R146)
  te        : Nat := 0              -- the order of dealing at an erase's commit (R137)
  committed : Bool := false         -- committed, waiting for wipe confirmations or context zeroizing
  confirms : List Nat := []         -- Seats whose wipe confirmation is awaited (R137)
  stamp   : Nat := 0                -- the order of 04 R109: arrival cycle,
  source  : Nat := 5                -- requester (R108),
  index   : Nat := 0                -- session index; then `id`, the order of entry
deriving DecidableEq, Repr

inductive VaultSt where
  | initialising | awaitingDeck | replaying | open_ | erased
deriving DecidableEq, Repr

/-- A deck snapshot (R149 to R151). -/
structure Snapshot where
  uid     : Option Nat              -- the command while it runs
  version : Nat
  start   : Nat
  stop    : Nat
  chain   : Bytes
  header  : Bytes := []
deriving DecidableEq, Repr

/-- The journal (R145, R146). -/
structure Journal where
  next     : Nat := 1               -- VAULT_JNEXT
  acked    : Nat := 0               -- VAULT_JACK
  inMram   : Nat := 0               -- acknowledged sequence in the root area
  sent     : Nat := 0               -- last sequence given to the sink's stream
  marks    : List (Nat × Nat) := [] -- of the records given to it: sequence, and where its bytes end in the stream
  buffer   : List JRec := []        -- records not yet acknowledged, in order
  used     : Nat := 0               -- bytes in the buffer
  reserved : Nat := 0               -- bytes a cut has reserved (R49)
  sink     : Option (BitVec 32 × BitVec 32 × Nat) := none   -- session, stream, command
deriving DecidableEq, Repr

structure VaultUnit where
  st       : VaultSt := .initialising
  incarnation : Nat := 0            -- VAULT_INCARN
  slots    : List (Nat × Slot) := []
  torn     : List (Nat × Nat) := [] -- (first, count) of the slot ranges torn down so far (02 R53): each adds 1 to the
                                    -- generation of a slot that is not listed in `slots`
  ctrs     : List (Nat × Counter) := []
  app      : List Host.Cell := []   -- applet data region, byte addressed
  ctxs     : List (Nat × Ctx) := [] -- key hand × 65,536 + index
  poisoned : List Nat := []         -- poisoned line numbers (64-byte lines of the vault address space)
  minors   : List (Nat × Nat) := [] -- writes of each line since its group's major counter moved
  majors   : List (Nat × Nat) := []
  sweeps   : List (Nat × Nat) := [] -- (first line, count) of the ranges zeroized in one go, oldest first: one write of each line
  swept    : List (Nat × Nat) := [] -- by group: how many sweeps came before its major counter last moved
  lineKey  : Bytes := []            -- the line and MAC keys, drawn at each vault initialisation (R140)
  macKey   : Bytes := []
  reenc    : List Nat := []         -- groups under re-encryption
  leases   : List Lease := []
  muts     : List Mutation := []
  nextMut  : Nat := 1
  journal  : Journal := {}
  deckVer  : Nat := 0               -- VAULT_DECKVER, V
  deckStart : Nat := 0              -- S
  deckEnd  : Nat := 0               -- E
  snapshot : Option Snapshot := none
  completed : Option Snapshot := none
  deckLoaded : Bool := false
  replayNext : Nat := 1             -- s of R152
  replayOf  : Option Nat := none    -- MODEL'S OWN: serial of the Deal whose records the restore has reached (02 R56; log 61)
  replaySolo : Bool := false        -- replay stands after a partner-lost record with no rejoin record since (13 R363)
  ktk      : Option Bytes := none   -- the key-table key
  root     : Option Bytes := none   -- the battery-backed root register
  rootTag  : Bool := false          -- its validity tag (12 R344)
  offErase : Bool := false          -- Off-Erase flag (12 R344)
  leaseWaits : List (Nat × Nat) := []   -- (counter, command): requests that wait for a grant
deriving DecidableEq, Repr

/-! ### Seats: tiles, engines, caches (01, 05 to 10) -/

/-- SEAT_STATE.STATE, with parked Seats told apart (12 R337). -/
inductive SeatSt where
  | inService | held | shed | selfTest | folded
deriving DecidableEq, Repr

structure Seat where
  st       : SeatSt := .selfTest
  parked   : Bool := false
  thermal  : Bool := false          -- shed by a thermal report
  ecc1     : BitVec 32 := 0
  ecc2     : BitVec 32 := 0
  eccu     : BitVec 32 := 0
  link     : BitVec 2 := 0          -- FAB_LINK.STATE
  replay   : BitVec 32 := 0
  retrain  : BitVec 16 := 0
  rxSeq    : BitVec 16 := 0         -- next flit sequence the Seat expects
  txSeq    : BitVec 16 := 0         -- next flit sequence the Dealer expects
  fails    : Nat := 0               -- receptions of one flit towards the Seat that failed, its first one included
  failsUp  : Nat := 0               -- the same towards the Dealer
  failedTrainings : Nat := 0
  holds    : List Nat := []         -- times of its Holds within 1 s
  sheds    : List Nat := []         -- times of its non-thermal Sheds within 1 h
  holdEnd  : Option Nat := none
  quiet    : Nat := 0               -- since when it has reported no witness
  cool     : Nat := 0               -- since when every Tj is below 110 °C
  epoch    : Nat := 0               -- the epoch flip received (R51)
  privFor  : Option Nat := none     -- becomes private to this hand (R55)
  armed    : Bool := true           -- holds the staged structure (R47)
  pll      : Bool := false
  power    : Bool := false          -- rails ungated
  readmitBy : Bool := false         -- re-admission started by GUARD_READMIT
deriving DecidableEq, Repr

inductive TileSt where
  | gated | idle | running | scrubbing | poweringDown
deriving DecidableEq, Repr

/-- A tile (R13 to R15). -/
structure Tile where
  st     : TileSt := .gated
  since  : Nat := 0                 -- when the state was entered
  demand : Option Nat := none       -- a wake demand not yet served
  scrubEnd : Nat := 0
deriving DecidableEq, Repr

/-- What a finished job does beside answering. -/
inductive Effect where
  | none
  | writeKey (slot : Nat) (key : Slot) (pub : Bytes)
  | saveCtx (data : Bytes)
  | retract (first last : Nat)
deriving DecidableEq, Repr

/-- The outcome of a job, held until it is released. -/
structure Outcome where
  status  : BitVec 16
  payload : Bytes
  effect  : Effect := .none
deriving DecidableEq, Repr

/-- A job on an engine. -/
structure Job where
  uid    : Nat
  prog   : Nat                      -- program or operation ID
  start  : Nat
  count  : Nat := 0                 -- cycles
  out    : Option Outcome := none
  resumed : Option Bytes := none    -- the context it resumed
  answerAfterScrub : Option (BitVec 16) := none
  elapsed : Nat := 0                -- time lost to yields, in cycles (08 R241)
  offset  : Nat := 0                -- cycle offset of the last yield taken
  sound   : Bool := true            -- the fault check of what it computed holds (08 R239)
deriving DecidableEq, Repr

/-- RSA key-generation progress (08 R243). -/
structure KeyGen where
  stage    : Nat := 0               -- 0 none, 1 candidate step, 2 confirmation rounds, 3 finishing step
  candidate : Nat := 0
  primes   : List Nat := []
  rejected : Nat := 0               -- r
  cycles   : Nat := 0               -- of the steps that have ended
deriving DecidableEq, Repr

structure PkeCore where
  bank0   : Option Job := none
  bank1   : Option Job := none
  parked  : Bool := false
  keygen  : KeyGen := {}
  starved : Bool := false
deriving DecidableEq, Repr

/-- A command resident in a lane (07 R202). -/
structure LaneJob where
  uid      : Nat
  mode     : Nat                    -- 1 to 6; 0 for a context command
  chained  : Bool
  start    : Nat
  count    : Nat := 0
  resumed  : Option Bytes := none
  msgStart : Nat := 0               -- message offset at which this command starts
  firstSession : BitVec 32 := 0
  firstRequest : BitVec 64 := 0
  released : Nat := 0               -- text bytes released
  provisional : Bool := false
  holdBytes : Nat := 0
  iv       : Bytes := []
  issued   : Nat := 0               -- blocks issued into the pipeline
  out      : Option Outcome := none
  output   : Bytes := []
deriving DecidableEq, Repr

structure Lane where
  slots     : List (Nat × LaneJob) := []   -- at most 12
  duty      : BitVec 3 := 0
  dutyAt    : Nat := 0              -- when its duty last rose (04 R113)
  starved   : Bool := false
  seeded    : Bool := false
  requested : Bool := false         -- reseed requested, seed not used yet
  seedDue   : Nat := 0
deriving DecidableEq, Repr

/-- A register-fed digest job (09 R260). -/
structure RegJob where
  alg    : Nat
  inject : Nat
  outLen : Nat
  len    : Nat
  key    : BitVec 64
  fed    : Bytes := []
  lastSeen : Bool := false
  begun  : Nat := 0                 -- when GO started it
deriving DecidableEq, Repr

structure Dgst where
  job     : Option Job := none
  hand    : Byte := 0
  starved : Bool := false
  matched : Bool := false
  done    : Bool := false
  busy    : Bool := false
  claim   : Option Nat := none      -- the core that holds the granted claim
  wanted  : Option Nat := none      -- a claim waiting for the grant
  claimAt : Option Nat := none      -- when the last claim was written, and by which core
  claimBy : Nat := 0
  claimPtr : Nat := 0               -- the rotating pointer over core numbers (R259)
  lastAccess : Nat := 0
  ctrl    : Word := 0
  key     : BitVec 64 := 0
  len     : BitVec 64 := 0
  status  : BitVec 16 := 0
  res     : Bytes := []             -- RES0 to RES15, unused bytes read zero
  resHand : Nat := 0
  exp     : Bytes := []
  reg     : Option RegJob := none
  due     : Nat := 0                -- when BUSY clears
  output  : Bytes := []             -- what the comparator compares; RES shows it unless it is withheld
deriving DecidableEq, Repr

/-- A key-cache entry (05 R136, R139) with the allowance its Seat holds (R131, R132). -/
structure CacheEntry where
  seat     : Nat
  hand     : Nat
  slot     : Nat
  gen      : Nat
  draining : Bool := false
  cutoff   : Option Nat := none     -- its key was rewritten: only commands dealt no later than this may use it (R136)
  lastUse  : Nat := 0
  uses     : Nat := 0
  blocks   : Nat := 0
  key      : Slot
deriving DecidableEq, Repr

/-- An applet call outstanding (10 R278). -/
structure Call where
  desc : BitVec 32
  uid  : Nat
deriving DecidableEq, Repr

inductive CoreRun where
  | idle | loading | running | ending | halted
deriving DecidableEq, Repr

structure Core where
  run    : CoreRun := .idle
  hand   : Byte := 0
  image  : Nat := 0                 -- resident image
  serial : Nat := 0                 -- serial of the Deal the resident image is of
  uid    : Option Nat := none       -- the invocation it runs
  started : Nat := 0
  lastHand : Nat := 0               -- hand of the previous instance
  dirty  : List Nat := []           -- 4 KiB pages the instance wrote
  pendingEnd : Option Outcome := none   -- a normal exit that waits for its calls
  calls  : List Call := []
  lastRaise : Option Nat := none
  stalledAt : Option Nat := none    -- a TRNG_OUT read stalls the core since then
  lastRandom : Word := 0
  regs : List (Nat × BitVec 64) := []   -- integer registers a debug master wrote while the core is halted
  a0 : BitVec 64 := 0
  a1 : BitVec 64 := 0
  a2 : BitVec 64 := 0
  pc : BitVec 64 := 0
deriving DecidableEq, Repr

/-- Every Seat's parts, keyed by Seat and index. -/
structure SeatsUnit where
  seats  : List (Nat × Seat) := []
  tiles  : List (Nat × Tile) := []  -- key seat × 32 + tile (0 to 15 TU, 16 to 17 lanes, 18 to 25 PKE, 26 to 27 digest)
  tus    : List (Nat × Job) := []   -- key seat × 16 + unit
  lanes  : List (Nat × Lane) := []  -- key seat × 2 + lane
  pkes   : List (Nat × PkeCore) := []   -- key seat × 8 + core
  dgsts  : List (Nat × Dgst) := []  -- key seat × 2 + engine
  cores  : List (Nat × Core) := []  -- key seat × 4 + core
  sram   : List Host.Cell := []     -- (seat × 4 + core) × 2 MiB + core address
  cache  : List CacheEntry := []
  fetching : List (Nat × Nat) := [] -- (seat, slot) of the fetches outstanding
  turn   : List (Nat × Nat) := []   -- hand served last, key seat × 8 + engine class (04 R102)
  sgrdSel : List (Nat × Nat) := []
  sgrdLast : List (Nat × BitVec 32) := []   -- key seat × 8 + master
  appNotices : List (Nat × Notice) := []    -- key seat × 256 + the hand it was routed to, oldest first
deriving DecidableEq, Repr

/-! ### Lattice and TRNG (11) -/

/-- A sensor's calibration (R312 to R314). -/
structure Sensor where
  trim : Int := 0                   -- steps from the factory trim
  refusals : Nat := 0
  retired : Bool := false
deriving DecidableEq, Repr

/-- An ante window that is open (R307). -/
structure AnteWindow where
  group : Nat
  cls   : Nat
  units : Nat                       -- table entry when taken, 0.25 mV
  from_ : Nat
  until_ : Nat
  spoiled : Bool := false           -- a droop witness of the die came within it (R309)
deriving DecidableEq, Repr

structure Lat where
  thermal : Bool := false
  cover   : Bool := false
  tmin    : BitVec 16 := 0
  tj      : BitVec 16 := 0
  pred    : BitVec 16 := 0
  meas    : BitVec 16 := 0
  anteSel : BitVec 6 := 0
  entries : List (Nat × BitVec 8) := []     -- learned entries (group × 16 + class); an entry not listed is nominal
  peaks   : List (Nat × BitVec 8) := []
  windows : List AnteWindow := []           -- newest first
  sensSel : BitVec 12 := 0x100
  sensors : List (Nat × Sensor) := []       -- key class × 128 + index
  lastW   : Word := 0
  shield  : BitVec 24 := 0
  refclk  : BitVec 16 := 0
  diodes  : List (BitVec 16) := []
  hotRun  : Nat := 0                -- consecutive samples above 120 °C
  badTemp : List Nat := []          -- diodes out of range in the last sample
  tempRun : List Nat := []          -- diodes in a running excursion
  rateRun : Nat := 0
  badMeans : List Nat := []         -- slow voltage windows outside in the last mean
  meanRun : List Nat := []          -- windows in a running excursion
  history : List (Int × Int) := []  -- (mean diode, P_hat) of the last 25 computations, newest first
  badNets : List Nat := []          -- nets outside in the last resistance check
  netRun  : List Nat := []          -- nets in a running excursion
  round   : Nat := 0
deriving DecidableEq, Repr

structure Trng where
  hband  : BitVec 2 := 0
  drbg   : BitVec 2 := 0            -- 0 uninstantiated, 1 serving, 2 reseed overdue, 3 stopped
  src0   : BitVec 2 := 0            -- 0 start-up test, 1 in service, 2 restarting, 3 out of service
  src1   : BitVec 2 := 0
  apt    : BitVec 10 := 827
  rct    : BitVec 8 := 81
  due    : Nat := 0
  requests : Nat := 0               -- generate requests since the last reseed (R316)
  fails  : List (Nat × Nat) := []   -- (source, time) within 1 s
deriving DecidableEq, Repr

/-! ### Guard (12) -/

/-- A witness as the guard counted it (R328). -/
structure Witness where
  die : Nat
  cls : Nat
  sev : Nat
  at_ : Nat
deriving DecidableEq, Repr

structure GuardUnit where
  last      : Word := 0x8000        -- GUARD_LAST, NONE set
  seen      : List Witness := []    -- newest first, within the longest window
  dealerHold : Option Nat := none   -- end of the Dealer's Hold
  dealerHolds : List Nat := []      -- starts of the Dealer's Holds of the last 1 s, newest first
  dealerFree : Nat := 0             -- until then the Dealer is not held again
  dealerCap : Bool := false         -- GUARD_STATE.THERMAL
  offrec    : Nat := 0
  vbat      : BitVec 16 := 0
  vbatOk    : Bool := true          -- VBAT is connected
  vbatLow   : Bool := false         -- the mean is below 2.5 V
  erases    : BitVec 32 := 0
  tamperLow : Bool := false         -- TAMPER_N driven low
  offAt     : Nat := 0              -- when Off was entered
  offSlots  : List (BitVec 16 × Byte × Word × Word × Nat) := []   -- code, flags, parameters 1 and 2, time
  offLost   : Nat := 0
deriving DecidableEq, Repr

/-- An event record (R370). -/
structure Rec where
  code   : BitVec 16
  flags  : Byte
  die    : Byte
  optime : Nat
  pcycle : Nat
  seq    : Nat
  p1     : Word
  p2     : Word
  p3     : Word
  supp   : Byte
deriving DecidableEq, Repr

/-! ### Partner (13) -/

/-- The pairing record in the MRAM root area (R351). -/
structure Pairing where
  id : BitVec 32
  peer : Bytes
  cak : Bytes
  k1 : Bytes
  k2 : Bytes
  epoch : Nat
  lead : Option Bool                -- the role recorded, none before the first exchange
deriving DecidableEq, Repr

inductive PairSt where
  | unpaired | linking | resync | mirrored | solo
deriving DecidableEq, Repr

/-- The payload of a mirror frame this part sent (R353). -/
inductive MirrorMsg where
  | mutation (epoch hand flags : Nat) (body : JBody)
  | forward (session : BitVec 32) (request : BitVec 64) (epoch hand : Nat) (body : JBody)
  | leaseRequest (ctr : Nat)
  | repairRequest (line : Nat)
  | repairData (line : Nat) (data : Bytes)
  | resyncMap (kind first : Nat) (objs : List Obj)
  | resyncObject (epoch hand : Nat) (body : JBody)
  | event (record : Bytes)
deriving DecidableEq, Repr

/-- A pairing exchange in progress (R351). -/
structure PairExchange where
  uid  : Nat
  peer : Bytes
  lead : Bool
  start : Nat
  sent : Bytes
  secret : Bytes                    -- the ephemeral values of this part
  received : Bytes := []
deriving DecidableEq, Repr

structure PartUnit where
  link     : BitVec 2 := 0          -- PPORT_LINK.STATE
  enabled  : Bool := true
  draining : Option Nat := none
  retained : Bool := false
  st       : PairSt := .unpaired
  lead     : Bool := false
  pairing  : Option Pairing := none
  missed   : Nat := 0
  rtt      : BitVec 16 := 0
  sendSeq  : Nat := 0
  sentMsgs : List (Nat × MirrorMsg × Nat) := []   -- unacknowledged frames: sequence, message, last sent
  recvSeq  : Nat := 0               -- highest sequence delivered in order
  early    : List (Nat × MirrorHdr × Nat × Bytes) := []   -- out-of-order frames held: sequence, header, type, payload
  heldSeq  : Nat := 0               -- Held this part reports
  applied  : List (Nat × Nat) := [] -- partner frame sequence, own journal sequence of its record
  beatOut  : Nat := 0
  beatIn   : Nat := 0
  beatAt   : Nat := 0
  beatSent : BitVec 64 := 0
  beatDue  : Nat := 0
  peerSt   : Nat := 0
  peerEpoch : Nat := 0
  exchanged : Bool := false
  oneWay   : Bool := false          -- waits for a heartbeat in Linking (17 R437)
  soloMap  : List Obj := []
  peerMap  : List Obj := []
  maps     : List Nat := []         -- object kinds whose map frame has arrived
  settled  : List Obj := []
  voids    : List (BitVec 64 × BitVec 64) := []   -- void handle, current handle; newest first, at most 4,096
  full     : Bool := false
  todo     : List Obj := []         -- objects this part has still to send in Resync
  fresh    : Bool := true           -- the next frame from the partner starts the order anew: frames before it were given up (R354)
  leadInSolo : Bool := false
  received : Nat := 0               -- objects received in this rejoin
  exchange : Option PairExchange := none
  challenge : Bytes := []
  evSent   : List Nat := []         -- times of the records forwarded within 1 s
  evOut    : List Rec := []         -- records of severity 2 or more to forward (R367), oldest first
  pairTx   : List Bytes := []       -- MODEL'S OWN: 0x88B7 items that have left, newest first
  bypartner : List (Nat × BitVec 32 × BitVec 64) := []   -- forwarded mutations: id, the follow's session and request
deriving DecidableEq, Repr

/-! ### Recorder and notices (14) -/

/-- A token bucket (R375, R389): tokens in units of 1/3,000,000,000 (so that a rate of r per second adds r units a
cycle), and when they were last counted. -/
structure Bucket where
  amount : Nat
  at_   : Nat
deriving DecidableEq, Repr

structure EvrUnit where
  ring    : List (Nat × Rec) := []  -- by slot
  pinned  : List (Nat × Rec) := []
  kitty   : List (Nat × Rec) := []
  regfile : List (Nat × Rec) := []
  ringPtr : Nat := 0                -- next ring slot
  pinPtr  : Nat := 0
  kittyPtr : Nat := 0
  regPtr  : Nat := 0
  badRing : List Nat := []
  badPin  : List Nat := []
  fatal   : Bool := false
  kittyOn : Bool := false
  pinFull : Bool := false
  thawAt  : Option Nat := none      -- a freeze is in force until then
  hold    : List Rec := []          -- oldest first
  lost    : Nat := 0
  firstLost : Nat := 0
  opBase  : Nat := 0                -- operating time at opAt
  opAt    : Nat := 0
  opSaved : Nat := 0                -- the value in the root area
  pcycle  : Nat := 0
  seq     : Nat := 1                -- next record sequence
  buckets : List (Nat × Bucket) := []   -- key die × 65,536 + code; full when not listed
  global  : Bucket := { amount := 4096 * 3000000000, at_ := 0 }
  supp    : List (Nat × Nat) := []  -- suppressed counts, same key
  srcSel  : BitVec 10 := 0
  budget  : Bucket := { amount := 4000 * 3000000000, at_ := 0 }
  house   : List Notice := []       -- notices taken by house firmware, newest first
deriving DecidableEq, Repr

/-! ### Ceremony ports (15) -/

/-- What a ceremony step does next on its card (R399, R403). -/
inductive CardStage where
  | awaiting                        -- waits for a card
  | selecting                       -- SELECT sent
  | recovering                      -- GET COUNTER sent first, after an unknown outcome
  | writing                         -- SIGN or COMPONENT sent: busy phase
deriving DecidableEq, Repr

structure CardStep where
  uid     : Nat
  started : Nat
  stage   : CardStage
  index   : Option Nat := none
  counter : BitVec 32 := 0
deriving DecidableEq, Repr

structure Ceremony where
  id       : Word
  session  : BitVec 32
  kind     : Nat
  m        : Nat
  digest   : Bytes
  context  : Bytes
  challenge : Bytes
  registry : Option Registry
  ownerX   : Bytes := []
  ownerKem : Bytes := []
  seat     : Nat := 0
  counted  : List Nat := []
  parts    : List Bytes := []       -- components collected, wrapped
  secret   : Bytes := []            -- the Seat's ephemeral key of the running component step
  cert     : Option Bytes := none
  steps    : Nat := 0
  lastStep : Nat := 0
  doomed   : Bool := false          -- a cut changed the registry: it ends with its running step (R403)
deriving DecidableEq, Repr

/-- An authorisation (R398). -/
structure Auth where
  cer : Ceremony                    -- the ceremony that granted it
  granted : Nat
deriving DecidableEq, Repr

structure CerPort where
  proto   : BitVec 2 := 0
  cls     : BitVec 2 := 0
  clkstop : Bool := false
  active  : Bool := false
  present : Bool := false
  pps     : Bool := true
  fmax    : BitVec 5 := 20
  classes : BitVec 3 := 0b111
  div     : BitVec 11 := 0
  cer     : Option Ceremony := none
  auth    : Option Auth := none
  step    : Option CardStep := none
  unknown : Option (Nat × BitVec 32) := none   -- card whose outcome is unknown: custodian index, counter before
deriving DecidableEq, Repr

/-! ### Joker port, Shuffle, power (10, 17, 16) -/

/-- A mirror frame as it arrives (13 R353): its type and payload; a heartbeat's payload is read already. -/
inductive MirrorIn where
  | beat (b : Beat)
  | frame (type : Nat) (payload : Bytes)
deriving DecidableEq, Repr

/-- A mirror frame as it leaves: its header's sequence, Ack and Held (13 R353), and its message, or a heartbeat's payload (R355). -/
structure MirrorOut where
  seq  : Nat
  ack  : Nat := 0
  held : Nat := 0
  msg  : Option MirrorMsg
  beat : Option Beat := none
  wire : Bytes := []                -- the frame's bytes: header, sealed payload, tag (R353)
  corrupt : Bool := false
deriving DecidableEq, Repr

/-- A frame of a Shuffle target (17 R434). -/
inductive ShufFrame where
  | hostIn (a : Arrival) (frame : Bytes)
  | hostOut (f : OutFrame)
  | partnerIn (h : MirrorHdr) (m : MirrorIn)
  | partnerOut (f : MirrorOut)
deriving DecidableEq, Repr

/-- A frame held for reorder: how many further frames it waits for, and whether its copy waits with it (17 R434). -/
structure HeldFrame where
  frame : ShufFrame
  left  : Nat
  dup   : Bool
  corrupt : Bool
deriving DecidableEq, Repr

structure Joker where
  scope    : BitVec 3 := 0
  hand     : Byte := 0
  seats    : Byte := 0
  chal     : Bytes := []            -- JKR_CHAL0 to 7; drawn at power-up
  code     : BitVec 16 := 0
  reason   : Byte := 0
  ir       : Byte := 0xFF
  dr       : BitVec 128 := 0        -- what the selected data register holds to be shifted out
  expiry   : Nat := 0
  next     : Option (BitVec 3) := none   -- the scope that opens once zeroizing ends
deriving DecidableEq, Repr

structure Shuffle where
  en       : Bool := false
  target   : BitVec 3 := 0
  actions  : BitVec 4 := 0
  duration : BitVec 12 := 0
  sess     : Word := 0
  drop     : Word := 0
  corrupt  : Word := 0x10000
  rdup     : Word := 0x1010001
  seed     : Word := 0
  seedUsed : Word := 0
  refused  : Bool := false
  expiry   : Nat := 0
  frames   : Nat := 0               -- frames of the target since arming
  kept     : Nat := 0               -- frames not dropped since arming
  injected : Nat := 0
  lfsr     : Word := 0
  held     : List HeldFrame := []
deriving DecidableEq, Repr

inductive FoldSt where
  | running | entering | folded | waking
deriving DecidableEq, Repr

structure Power where
  on       : Bool := false          -- PORST_N released, main power good
  stage    : BitVec 4 := 0          -- SYS_LIFE.STAGE
  life     : BitVec 3 := 0          -- SYS_LIFE.LIFE: 0 Blank, 1 Dealt, 2 Tamper, 3 Retired
  level    : BitVec 2 := 0          -- SYS_LIFE.LEVEL
  fw       : Word := 0
  fwMin    : Word := 1
  fwBank   : Bool := false
  fwBanks  : Option Word × Option Word := (some 1, none)   -- version of each bank that verifies
  fwImages : Bytes × Bytes := ([], [])   -- what FW_LOAD wrote into each bank (01 R10); the factory image is not held, log 3
  cause    : BitVec 2 := 0
  firstVbat : Bool := true          -- no start since VBAT was applied
  lastOrderly : Bool := true
  lowStart : Bool := false          -- PORST_N was released with a rail low; recorded at the next good start
  badStacks : BitVec 2 := 0         -- bit n: vault stack n does not serve (01 R8)
  dealerTrngOk : Bool := true       -- a Dealer noise source serves (R414)
  dlrPll   : Bool := false
  slowOk   : Bool := true
  xtalOk   : Bool := false
  ecc1     : BitVec 32 := 0
  ecc2     : BitVec 32 := 0
  eccu     : BitVec 32 := 0
  fold     : FoldSt := .running
  autowake : Bool := true
  foldUid  : Option Nat := none     -- FOLD_ENTER in progress
  foldAt   : Nat := 0               -- FOLD_ENTER accepted
  foldLimit : Nat := 0              -- drain limit, ms
  drained  : Option Nat := none     -- td
  aborted  : Nat := 0
  retained : Option Nat := none     -- a retained wake: its trigger (1 FOLD_EXIT, 2 command, 3 partner)
  exitUid  : List Nat := []         -- FOLD_EXITs that answer at the end of the wake
  enterUid : List Nat := []         -- FOLD_ENTERs that wait for a cut
  wakeAt   : Nat := 0
  wakeBy   : Nat := 0
deriving DecidableEq, Repr

/-! ### The whole part -/

/-- Everything the manual gives the part. -/
structure Part where
  fuses   : Fuses := {}
  now     : Nat := 0                -- engine cycles at 3.0 GHz
  draws   : Nat := 0                -- MODEL'S OWN: free values drawn so far
  power   : Power := {}
  deal    : DealUnit := {}
  hpa     : HostPort := {}
  hpb     : HostPort := {}
  ha0     : HalfSt := {}
  ha1     : HalfSt := {}
  hb0     : HalfSt := {}
  hb1     : HalfSt := {}
  xct     : XctUnit := {}
  disp    : DispUnit := {}
  vault   : VaultUnit := {}
  seats   : SeatsUnit := {}
  lats    : List (Nat × Lat) := []
  trngs   : List (Nat × Trng) := []
  guard   : GuardUnit := {}
  part    : PartUnit := {}
  evr     : EvrUnit := {}
  cera    : CerPort := {}
  cerb    : CerPort := {}
  cerNext : Word := 1               -- the next ceremony ID
  registry : Option Registry := none    -- the owner registry recorded in MRAM
  idCert  : Option Bytes := none    -- the part identity certificate
  joker   : Joker := {}
  shuffle : Shuffle := {}
  counts  : List (Nat × BitVec 64) := []   -- every LO and HI count pair, by the global address of its LO register
  latches : List (Nat × BitVec 32) := []   -- the HI value latched by the last LO read, same key
  saturated : List Nat := []        -- count registers that have written their saturation record (01 R26)
  ppAssocs : List Assoc := []       -- MACsec associations of the partner port
  tx      : List OutFrame := []     -- MODEL'S OWN: frames that have left the host ports, newest first
  ipTx    : List (Half × IpService) := []   -- MODEL'S OWN: Internet service answers that have left, newest first
  ptx     : List MirrorOut := []    -- MODEL'S OWN: frames that have left the partner port, newest first
deriving DecidableEq, Repr

/-- The block: the part, and the commands that wait for it, first in first out (MODEL'S OWN queue). -/
structure State extends Part where
  pending : List Instr := []
deriving DecidableEq, Repr

/-- The part at reset: PORST_N low, nothing started (16 R408, R413); MRAM as the manufacturer leaves it. -/
def State.reset : State := {}

/-- Why the machine stops. -/
inductive Fault where
  /-- Raised by every row whose operand names a die, a Seat, an engine, a core, a port, a lane slot or a sensor that the
  variant does not have (00 R1: 'A seat number that does not exist on a variant is never valid'). Safe: nothing of the
  part is there to act. -/
  | absentUnit
deriving DecidableEq, Repr

/-- Why a command has no meaning here. -/
inductive Refusal where
  /-- Raised by Dispatch alone, for a row whose meaning is not written yet. Safe. -/
  | notModelled (mnemonic : String)
deriving DecidableEq, Repr

end Sys2Proof.Machine
end

