-- ==== Sys2Proof/Machine/Ops.lean ====
section
/-! DEFINITION. The named operations every meaning is built from: big-endian fields, sparse tables, time, free values, the dies and
units of a variant, count pairs, and the guards under which a command acts. -/

namespace Sys2Proof.Machine

/-! ### Bytes (00 R2, R3) -/

/-- The number a big-endian field spells (R2). -/
def be (b : Bytes) : Nat := b.foldl (fun n x => n * 256 + x.toNat) 0

/-- The big-endian field of n bytes that holds v (R2). -/
def toBE : Nat → Nat → Bytes
  | 0, _ => []
  | n + 1, v => toBE n (v / 256) ++ [BitVec.ofNat 8 v]

/-- `len` bytes from offset `off`. -/
def slice (b : Bytes) (off len : Nat) : Bytes := (b.drop off).take len

/-- The big-endian field of `len` bytes at `off`. -/
def field (b : Bytes) (off len : Nat) : Nat := be (slice b off len)

/-- The byte at `off`, zero beyond the end. -/
def byteAt (b : Bytes) (off : Nat) : Byte := b.getD off 0

def zeros (n : Nat) : Bytes := List.replicate n 0

def allZero (b : Bytes) : Bool := b.all (· == 0)

/-- b cut or zero-padded on the right to n bytes. -/
def padTo (n : Nat) (b : Bytes) : Bytes := (b ++ zeros n).take n

/-- The zero bytes that follow n bytes up to the next multiple of m. -/
def padding (m n : Nat) : Nat := (m - n % m) % m

def xorBytes (a b : Bytes) : Bytes := List.zipWith (· ^^^ ·) a b

def ascii (s : String) : Bytes := s.toList.map (fun c => BitVec.ofNat 8 c.toNat)

/-- Blocks of n bytes, the last one possibly short. -/
def chunksAux (n : Nat) : Nat → Bytes → List Bytes
  | 0, _ => []
  | f + 1, b => if b.isEmpty then [] else b.take n :: chunksAux n f (b.drop n)

def chunks (n : Nat) (b : Bytes) : List Bytes := chunksAux n b.length b

/-- True when the list rises strictly. -/
def rising : List Nat → Bool
  | a :: b :: r => a < b && rising (b :: r)
  | _ => true

/-- True when no element occurs twice. -/
def distinct {α} [DecidableEq α] : List α → Bool
  | [] => true
  | a :: r => !r.contains a && distinct r

/-! ### Sparse tables: rising keys, no default value listed -/

namespace Sparse

variable {α : Type}

def get (d : α) : List (Nat × α) → Nat → α
  | [], _ => d
  | (k, v) :: r, a => if k = a then v else get d r a

def get? : List (Nat × α) → Nat → Option α
  | [], _ => none
  | (k, v) :: r, a => if k = a then some v else get? r a

/-- Places v at key a, which keeps the keys rising. -/
def put : List (Nat × α) → Nat → α → List (Nat × α)
  | [], a, v => [(a, v)]
  | (k, w) :: r, a, v =>
    if a < k then (a, v) :: (k, w) :: r else if a = k then (a, v) :: r else (k, w) :: put r a v

def erase (l : List (Nat × α)) (a : Nat) : List (Nat × α) := l.filter (fun e => !(e.1 == a))

/-- Writes v at key a; writing the default removes the entry. -/
def set [DecidableEq α] (d : α) (l : List (Nat × α)) (a : Nat) (v : α) : List (Nat × α) :=
  if v = d then erase l a else put l a v

def modify [DecidableEq α] (d : α) (l : List (Nat × α)) (a : Nat) (f : α → α) : List (Nat × α) :=
  set d l a (f (get d l a))

/-- The canonical form: keys rise strictly and no entry holds the default. -/
def wf [DecidableEq α] (d : α) (l : List (Nat × α)) : Bool :=
  rising (l.map Prod.fst) && l.all (fun e => decide (e.2 ≠ d))

end Sparse

/-! ### Memory: sparse bytes; an unlisted byte reads zero -/

namespace Memory

def read (m : List Host.Cell) (a : Nat) : Byte := Sparse.get 0 m a

def write (m : List Host.Cell) (a : Nat) (b : Byte) : List Host.Cell := Sparse.set 0 m a b

def readBytes (m : List Host.Cell) (a : Nat) : Nat → Bytes
  | 0 => []
  | n + 1 => read m a :: readBytes m (a + 1) n

def writeBytes (m : List Host.Cell) (a : Nat) : Bytes → List Host.Cell
  | [] => m
  | b :: r => writeBytes (write m a b) (a + 1) r

/-- Zeroizes the n bytes from a: their entries leave the list. -/
def clear (m : List Host.Cell) (a n : Nat) : List Host.Cell := m.filter (fun e => !(a ≤ e.1 && e.1 < a + n))

/-- The canonical form of a memory. -/
def wf (m : List Host.Cell) : Bool := Sparse.wf 0 m

end Memory

/-! ### Outcomes -/

abbrev Result := Host.Outcome State Fault Refusal

/-- An act of the part with main power on; with it off nothing acts (16 R408, R409; log 6). -/
def powered (s : State) (f : Part → Part) : Result :=
  .next (if s.power.on then { s with toPart := f s.toPart } else s)

/-- An act that main power does not decide: the guard's always-on domain and start-up itself (12 R340, 16 R408). -/
def always (s : State) (f : Part → Part) : Result := .next { s with toPart := f s.toPart }

/-- An act on a unit: the fault `absentUnit` where the variant has no such unit (00 R1). -/
def onUnit (there : Bool) (s : State) (f : Part → Part) : Result :=
  if there then powered s f else .fault .absentUnit

/-! ### The variant (00 R1, 01 R13) -/

/-- Seat dies of a variant (R1). -/
def Variant.seats : Variant → Nat
  | .xf2402 => 1
  | .xf2404 => 3
  | .xf2408 => 7

namespace Part

def seatCount (p : Part) : Nat := p.fuses.variant.seats

def hasSeat (p : Part) (n : Nat) : Bool := 1 ≤ n && n ≤ p.seatCount

/-- Die 0 is the Dealer, die n is Seat n (R4). -/
def hasDie (p : Part) (d : Nat) : Bool := d ≤ p.seatCount

/-- The Seat numbers of the variant. -/
def seatNums (p : Part) : List Nat := (List.range p.seatCount).map (· + 1)

def dieNums (p : Part) : List Nat := List.range (p.seatCount + 1)

/-- Bits 1 to the Seat count: the Seat mask of a Deal that names every Seat (02 R37). -/
def allSeats (p : Part) : Nat := 2 ^ (p.seatCount + 1) - 2

end Part

/-- Engines and applet cores of one kind on a Seat (01 'Each Seat holds'). -/
def Site.count : Site → Nat
  | .tu => 16
  | .lane => 2
  | .pke => 8
  | .digest => 2
  | .core => 4

/-- The tile group of an engine kind: 0 to 3; applet cores are no tiles (01 R13). -/
def Site.group : Site → Nat
  | .tu => 0
  | .lane => 1
  | .pke => 2
  | .digest => 3
  | .core => 4

def siteOfEngine : Engine → Site
  | .tu => .tu
  | .lane => .lane
  | .pke => .pke
  | .digest => .digest

/-- Tiles of a tile group of a Seat (01 'Tiles'). -/
def groupTiles : Nat → Nat
  | 0 => 16
  | 1 => 2
  | 2 => 8
  | 3 => 2
  | _ => 0

/-- The first tile of a group in a Seat's 28 tiles. -/
def groupBase : Nat → Nat
  | 0 => 0
  | 1 => 16
  | 2 => 18
  | _ => 26

def tileKey (seat group index : Nat) : Nat := seat * 32 + groupBase group + index

/-- Engine index i of a Seat in the table of that engine kind. -/
def tuKey (seat i : Nat) : Nat := seat * 16 + i
def laneKey (seat i : Nat) : Nat := seat * 2 + i
def pkeKey (seat i : Nat) : Nat := seat * 8 + i
def dgstKey (seat i : Nat) : Nat := seat * 2 + i
def coreKey (seat i : Nat) : Nat := seat * 4 + i

/-! ### Time: engine cycles of 1/3 ns (log 1) -/

def nsec (n : Nat) : Nat := 3 * n
def usec (n : Nat) : Nat := 3000 * n
def msec (n : Nat) : Nat := 3000000 * n
def sec (n : Nat) : Nat := 3000000000 * n

namespace Part

/-- The clock stands at t or later: an event due at t happens now (log 2). -/
def atTime (p : Part) (t : Nat) : Part := { p with now := max p.now t }

/-- Passage of d cycles. -/
def wait (p : Part) (d : Nat) : Part := { p with now := p.now + d }

/-! ### Free values (log 4) -/

/-- The next n free bytes. -/
def drawn (p : Part) (n : Nat) : Bytes := (List.range n).map (fun i => Config.freeByte (p.draws + i))

/-- n free bytes have been drawn. -/
def draw (p : Part) (n : Nat) : Part := { p with draws := p.draws + n }

/-! ### Units -/

def seat (p : Part) (n : Nat) : Seat := Sparse.get {} p.seats.seats n

def setSeat (p : Part) (n : Nat) (x : Seat) : Part :=
  { p with seats := { p.seats with seats := Sparse.set {} p.seats.seats n x } }

def updSeat (p : Part) (n : Nat) (f : Seat → Seat) : Part := p.setSeat n (f (p.seat n))

def tile (p : Part) (k : Nat) : Tile := Sparse.get {} p.seats.tiles k

def setTile (p : Part) (k : Nat) (x : Tile) : Part :=
  { p with seats := { p.seats with tiles := Sparse.set {} p.seats.tiles k x } }

def updTile (p : Part) (k : Nat) (f : Tile → Tile) : Part := p.setTile k (f (p.tile k))

/-- The trick on transaction unit k of a Seat. -/
def tu (p : Part) (seat k : Nat) : Option Job := Sparse.get? p.seats.tus (tuKey seat k)

def setTu (p : Part) (seat k : Nat) (j : Option Job) : Part :=
  { p with seats := { p.seats with
      tus := match j with
        | some j => Sparse.put p.seats.tus (tuKey seat k) j
        | none => Sparse.erase p.seats.tus (tuKey seat k) } }

def lane (p : Part) (seat k : Nat) : Lane := Sparse.get {} p.seats.lanes (laneKey seat k)

def setLane (p : Part) (seat k : Nat) (x : Lane) : Part :=
  { p with seats := { p.seats with lanes := Sparse.set {} p.seats.lanes (laneKey seat k) x } }

def updLane (p : Part) (seat k : Nat) (f : Lane → Lane) : Part := p.setLane seat k (f (p.lane seat k))

def pke (p : Part) (seat k : Nat) : PkeCore := Sparse.get {} p.seats.pkes (pkeKey seat k)

def setPke (p : Part) (seat k : Nat) (x : PkeCore) : Part :=
  { p with seats := { p.seats with pkes := Sparse.set {} p.seats.pkes (pkeKey seat k) x } }

def updPke (p : Part) (seat k : Nat) (f : PkeCore → PkeCore) : Part := p.setPke seat k (f (p.pke seat k))

def dgst (p : Part) (seat k : Nat) : Dgst := Sparse.get {} p.seats.dgsts (dgstKey seat k)

def setDgst (p : Part) (seat k : Nat) (x : Dgst) : Part :=
  { p with seats := { p.seats with dgsts := Sparse.set {} p.seats.dgsts (dgstKey seat k) x } }

def updDgst (p : Part) (seat k : Nat) (f : Dgst → Dgst) : Part := p.setDgst seat k (f (p.dgst seat k))

def core (p : Part) (seat k : Nat) : Core := Sparse.get {} p.seats.cores (coreKey seat k)

def setCore (p : Part) (seat k : Nat) (x : Core) : Part :=
  { p with seats := { p.seats with cores := Sparse.set {} p.seats.cores (coreKey seat k) x } }

def updCore (p : Part) (seat k : Nat) (f : Core → Core) : Part := p.setCore seat k (f (p.core seat k))

def lat (p : Part) (die : Nat) : Lat := Sparse.get {} p.lats die

def setLat (p : Part) (die : Nat) (x : Lat) : Part := { p with lats := Sparse.set {} p.lats die x }

def updLat (p : Part) (die : Nat) (f : Lat → Lat) : Part := p.setLat die (f (p.lat die))

def trng (p : Part) (die : Nat) : Trng := Sparse.get {} p.trngs die

def setTrng (p : Part) (die : Nat) (x : Trng) : Part := { p with trngs := Sparse.set {} p.trngs die x }

def updTrng (p : Part) (die : Nat) (f : Trng → Trng) : Part := p.setTrng die (f (p.trng die))

/-- A host port half. -/
def half (p : Part) : Half → HalfSt
  | .a0 => p.ha0
  | .a1 => p.ha1
  | .b0 => p.hb0
  | .b1 => p.hb1

def setHalf (p : Part) (h : Half) (x : HalfSt) : Part :=
  match h with
  | .a0 => { p with ha0 := x }
  | .a1 => { p with ha1 := x }
  | .b0 => { p with hb0 := x }
  | .b1 => { p with hb1 := x }

def updHalf (p : Part) (h : Half) (f : HalfSt → HalfSt) : Part := p.setHalf h (f (p.half h))

/-- Ceremony port A (0) or B (1). -/
def cerPort (p : Part) (port : Nat) : CerPort := if port = 0 then p.cera else p.cerb

def setCer (p : Part) (port : Nat) (x : CerPort) : Part := if port = 0 then { p with cera := x } else { p with cerb := x }

def updCer (p : Part) (port : Nat) (f : CerPort → CerPort) : Part := p.setCer port (f (p.cerPort port))

/-! ### Key slots and counters (05 R122, R142) -/

/-- A slot that no entry lists is empty; each teardown that covered it raised its generation (R135). -/
def unlistedSlot (p : Part) (i : Nat) : Slot :=
  let n := (p.vault.torn.filter (fun r => r.1 ≤ i && i < r.1 + r.2)).length
  if n ≤ 0xFFFFFF then { gen := n } else { st := .retired, gen := 0xFFFFFF }

def slot (p : Part) (i : Nat) : Slot := (Sparse.get? p.vault.slots i).getD (p.unlistedSlot i)

def setSlot (p : Part) (i : Nat) (x : Slot) : Part :=
  { p with vault := { p.vault with slots := Sparse.put p.vault.slots i x } }

def updSlot (p : Part) (i : Nat) (f : Slot → Slot) : Part := p.setSlot i (f (p.slot i))

def ctr (p : Part) (i : Nat) : Counter := Sparse.get {} p.vault.ctrs i

def setCtr (p : Part) (i : Nat) (x : Counter) : Part :=
  { p with vault := { p.vault with ctrs := Sparse.set {} p.vault.ctrs i x } }

def updCtr (p : Part) (i : Nat) (f : Counter → Counter) : Part := p.setCtr i (f (p.ctr i))

end Part

/-! ### Count pairs (03 'HPA and HPB registers', 00 R4) -/

/-- The global address of a register (R4). -/
def regAddr (die window offset : Nat) : Nat := die * 0x1000000 + window + offset

namespace Part

def count (p : Part) (addr : Nat) : BitVec 64 := Sparse.get 0 p.counts addr

/-- Adds n to the 64-bit count whose LO register is at addr. -/
def bump (p : Part) (addr : Nat) (n : Nat := 1) : Part :=
  { p with counts := Sparse.set 0 p.counts addr (p.count addr + BitVec.ofNat 64 n) }

end Part

/-- The windows of the Dealer (01 R25). -/
def winSYS := 0x000000
def winDEAL := 0x010000
def winHPA := 0x020000
def winHPB := 0x030000
def winPPORT := 0x040000
def winXCT := 0x050000
def winDISP := 0x060000
def winVAULT := 0x070000
def winCTR := 0x080000
def winEVR := 0x090000
def winNTC := 0x0A0000
def winGUARD := 0x0B0000
def winLAT := 0x0C0000
def winCERA := 0x0D0000
def winCERB := 0x0E0000
def winPART := 0x0F0000
def winSHUF := 0x100000
def winCLKPWR := 0x110000
def winJKR := 0x120000
def winTRNG := 0x130000

/-- The windows of a Seat (01 R25). -/
def swinSEAT := 0x000000
def swinLANEA := 0x010000
def swinLANEB := 0x020000
def swinTU := 0x030000
def swinPKE := 0x040000
def swinDGSTA := 0x050000
def swinDGSTB := 0x060000
def swinKCACHE := 0x070000
def swinCORE := 0x080000
def swinSGRD := 0x090000
def swinLAT := 0x0A0000
def swinTRNG := 0x0B0000
def swinFAB := 0x0C0000
def swinNTC := 0x0D0000

/-- The TRNG window of a die. -/
def trngWin (die : Nat) : Nat := if die = 0 then winTRNG else swinTRNG

/-- A die's DRBG gives n bytes: TRNG_BITS counts units of 128 bits, a request is at most 512 bits, and with 2^24 requests a reseed falls due
(11 R316, R320). -/
def Part.drbgTakes (p : Part) (die n : Nat) : Part :=
  ((p.draw n).bump (regAddr die (trngWin die) 0x0118) ((n + 15) / 16)).updTrng die (fun t =>
    { t with requests := t.requests + (n + 63) / 64, due := if 2 ^ 24 ≤ t.requests + (n + 63) / 64 then min t.due p.now else t.due })

/-! ### Status codes (03 R90) -/

namespace Status
def done : BitVec 16 := 0x0000
def doneProvisional : BitVec 16 := 0x0001
def lengthMismatch : BitVec 16 := 0x0101
def replayRejected : BitVec 16 := 0x0102
def sessionUnknown : BitVec 16 := 0x0103
def busyDraining : BitVec 16 := 0x0104
def windowExceeded : BitVec 16 := 0x0105
def handNotServed : BitVec 16 := 0x0106
def commandUnknown : BitVec 16 := 0x0107
def sessionLimit : BitVec 16 := 0x0108
def handshakeFailed : BitVec 16 := 0x0109
def streamAborted : BitVec 16 := 0x010A
def keyEmpty : BitVec 16 := 0x0201
def keyUsageDenied : BitVec 16 := 0x0202
def keyGenerationStale : BitVec 16 := 0x0203
def keyErasedInFlight : BitVec 16 := 0x0204
def keyExhausted : BitVec 16 := 0x0205
def counterLeaseEmpty : BitVec 16 := 0x0206
def tagFail : BitVec 16 := 0x0301
def faultDetected : BitVec 16 := 0x0302
def contextInvalid : BitVec 16 := 0x0303
def pkeZeroInput : BitVec 16 := 0x0401
def pkeRange : BitVec 16 := 0x0402
def pkeNotOnCurve : BitVec 16 := 0x0403
def pkeResultInfinity : BitVec 16 := 0x0404
def digestContextPoisoned : BitVec 16 := 0x0501
def accessFault : BitVec 16 := 0x0601
def guardHold : BitVec 16 := 0x0701
def seatShed : BitVec 16 := 0x0702
def partnerUnreachable : BitVec 16 := 0x0801
def partnerConflict : BitVec 16 := 0x0802
def cardRemoved : BitVec 16 := 0x0A01
def cardOutcomeUnknown : BitVec 16 := 0x0A02
def dealRejected : BitVec 16 := 0x0C01
def dealCutPending : BitVec 16 := 0x0C02
def debugDenied : BitVec 16 := 0x0E01
def abortedScrubbed : BitVec 16 := 0x0F01
end Status

end Sys2Proof.Machine
end

