-- ==== Sys2Proof/Machine/Hash.lean ====
section
/-! DEFINITION. The digests the manual names (09 R248): SHA-2, SHA-3 and SHAKE, with HMAC and HKDF over them. The manual gives
their names and their sizes; their content is that of FIPS 180-4, FIPS 202, FIPS 198-1 and RFC 5869 (PRESUMED, log 5). -/

namespace Sys2Proof.Machine

/-! ### Constants (FIPS 180-4, 4.2 and 5.3), packed with the first word highest -/

/-- Cuts a number into n words of w bits, the highest first. -/
def wordsOf (w : Nat) : Nat → Nat → List Nat
  | 0, _ => []
  | n + 1, x => (x >>> (w * n)) % 2 ^ w :: wordsOf w n x

/-- The first 64 bits of the fractional parts of the cube roots of the first 80 primes, four primes a row. -/
def cubeRoots : List Nat :=
  [0x428a2f98d728ae227137449123ef65cdb5c0fbcfec4d3b2fe9b5dba58189dbbc,
   0x3956c25bf348b53859f111f1b605d019923f82a4af194f9bab1c5ed5da6d8118,
   0xd807aa98a303024212835b0145706fbe243185be4ee4b28c550c7dc3d5ffb4e2,
   0x72be5d74f27b896f80deb1fe3b1696b19bdc06a725c71235c19bf174cf692694,
   0xe49b69c19ef14ad2efbe4786384f25e30fc19dc68b8cd5b5240ca1cc77ac9c65,
   0x2de92c6f592b02754a7484aa6ea6e4835cb0a9dcbd41fbd476f988da831153b5,
   0x983e5152ee66dfaba831c66d2db43210b00327c898fb213fbf597fc7beef0ee4,
   0xc6e00bf33da88fc2d5a79147930aa72506ca6351e003826f142929670a0e6e70,
   0x27b70a8546d22ffc2e1b21385c26c9264d2c6dfc5ac42aed53380d139d95b3df,
   0x650a73548baf63de766a0abb3c77b2a881c2c92e47edaee692722c851482353b,
   0xa2bfe8a14cf10364a81a664bbc423001c24b8b70d0f89791c76c51a30654be30,
   0xd192e819d6ef5218d69906245565a910f40e35855771202a106aa07032bbd1b8,
   0x19a4c116b8d2d0c81e376c085141ab532748774cdf8eeb9934b0bcb5e19b48a8,
   0x391c0cb3c5c95a634ed8aa4ae3418acb5b9cca4f7763e373682e6ff3d6b2b8a3,
   0x748f82ee5defb2fc78a5636f43172f6084c87814a1f0ab728cc702081a6439ec,
   0x90befffa23631e28a4506cebde82bde9bef9a3f7b2c67915c67178f2e372532b,
   0xca273eceea26619cd186b8c721c0c207eada7dd6cde0eb1ef57d4f7fee6ed178,
   0x06f067aa72176fba0a637dc5a2c898a6113f9804bef90dae1b710b35131c471b,
   0x28db77f523047d8432caab7b40c724933c9ebe0a15c9bebc431d67c49c100d4c,
   0x4cc5d4becb3e42b6597f299cfc657e2a5fcb6fab3ad6faec6c44198c4a475817]

def sha2K64 : List Nat := cubeRoots.flatMap (wordsOf 64 4)

/-- The same roots of the first 64 primes, to 32 bits. -/
def sha2K32 : List Nat := (cubeRoots.take 16).flatMap (fun row => (wordsOf 64 4 row).map (· >>> 32))

/-- The first 64 bits of the fractional parts of the square roots of the first eight primes. -/
def squareRoots : Nat :=
  0x6a09e667f3bcc908bb67ae8584caa73b3c6ef372fe94f82ba54ff53a5f1d36f1510e527fade682d19b05688c2b3e6c1f1f83d9abfb41bd6b5be0cd19137e2179

/-- The same of the ninth to the sixteenth prime. -/
def squareRoots' : Nat :=
  0xcbbb9d5dc1059ed8629a292a367cd5079159015a3070dd17152fecd8f70e593967332667ffc00b318eb44a8768581511db0c2e0d64f98fa747b5481dbefa4fa4

/-! ### SHA-2 -/

/-- What tells the SHA-2 families apart: word width, rounds, rotations and round constants. -/
structure Sha2 where
  w      : Nat
  rounds : Nat
  s0 : Nat × Nat × Nat      -- small sigma 0: two rotations and a shift
  s1 : Nat × Nat × Nat
  b0 : Nat × Nat × Nat      -- capital sigma 0
  b1 : Nat × Nat × Nat
  k  : List Nat

def sha2Narrow : Sha2 :=
  { w := 32, rounds := 64, s0 := (7, 18, 3), s1 := (17, 19, 10), b0 := (2, 13, 22), b1 := (6, 11, 25),
    k := sha2K32 }

def sha2Wide : Sha2 :=
  { w := 64, rounds := 80, s0 := (1, 8, 7), s1 := (19, 61, 6), b0 := (28, 34, 39), b1 := (14, 18, 41),
    k := sha2K64 }

namespace Sha2

variable (h : Sha2)

def rotr (x n : Nat) : Nat := (x >>> n) ||| ((x <<< (h.w - n)) % 2 ^ h.w)

def small (t : Nat × Nat × Nat) (x : Nat) : Nat := h.rotr x t.1 ^^^ h.rotr x t.2.1 ^^^ (x >>> t.2.2)

def big (t : Nat × Nat × Nat) (x : Nat) : Nat := h.rotr x t.1 ^^^ h.rotr x t.2.1 ^^^ h.rotr x t.2.2

def add (a b : Nat) : Nat := (a + b) % 2 ^ h.w

/-- Extends a block's 16 words by n more, newest first. -/
def schedule : Nat → List Nat → List Nat
  | 0, ws => ws
  | n + 1, ws =>
    let x := h.add (h.add (h.small h.s1 (ws.getD 1 0)) (ws.getD 6 0)) (h.add (h.small h.s0 (ws.getD 14 0)) (ws.getD 15 0))
    schedule n (x :: ws)

/-- One round on the eight working words. -/
def round (v : List Nat) (kw : Nat × Nat) : List Nat :=
  match v with
  | [a, b, c, d, e, f, g, i] =>
    let ch := (e &&& f) ^^^ ((2 ^ h.w - 1 - e) &&& g)
    let maj := (a &&& b) ^^^ (a &&& c) ^^^ (b &&& c)
    let t1 := h.add (h.add i (h.big h.b1 e)) (h.add ch (h.add kw.1 kw.2))
    let t2 := h.add (h.big h.b0 a) maj
    [h.add t1 t2, a, b, c, h.add d t1, e, f, g]
  | v => v

/-- The compression of one block. -/
def compress (v : List Nat) (block : Bytes) : List Nat :=
  let m := (chunks (h.w / 8) block).map be
  let ws := (h.schedule (h.rounds - 16) m.reverse).reverse
  let out := (h.k.zip ws).foldl h.round v
  List.zipWith h.add v out

/-- The padding after n bytes. -/
def pad (n : Nat) : Bytes :=
  let b := h.w * 2
  (0x80 : Byte) :: zeros ((2 * b - (n + 1 + h.w / 4) % b) % b) ++ toBE (h.w / 4) (8 * n)

def hash (iv : List Nat) (len : Nat) (m : Bytes) : Bytes :=
  (((chunks (h.w * 2) (m ++ h.pad m.length)).foldl h.compress iv).flatMap (toBE (h.w / 8))).take len

end Sha2

def sha512iv : List Nat := wordsOf 64 8 squareRoots
def sha384iv : List Nat := wordsOf 64 8 squareRoots'
def sha256iv : List Nat := sha512iv.map (· >>> 32)
def sha224iv : List Nat := sha384iv.map (· % 2 ^ 32)

def sha224 (m : Bytes) : Bytes := sha2Narrow.hash sha224iv 28 m
def sha256 (m : Bytes) : Bytes := sha2Narrow.hash sha256iv 32 m
def sha384 (m : Bytes) : Bytes := sha2Wide.hash sha384iv 48 m
def sha512 (m : Bytes) : Bytes := sha2Wide.hash sha512iv 64 m

/-- The initial value of a truncated SHA-512 of t bits. -/
def sha512tiv (t : Nat) : List Nat :=
  let iv := sha512iv.map (· ^^^ 0xa5a5a5a5a5a5a5a5)
  (chunks 8 (sha2Wide.hash iv 64 (ascii ("SHA-512/" ++ toString t)))).map be

def sha512t (t : Nat) (m : Bytes) : Bytes := sha2Wide.hash (sha512tiv t) (t / 8) m

/-! ### SHA-3 and SHAKE -/

namespace Keccak

/-- Bytes of a little-endian 64-bit lane. -/
def leNat (b : Bytes) : Nat := be b.reverse

def lane (s : List Nat) (x y : Nat) : Nat := s.getD (x % 5 + 5 * (y % 5)) 0

def rotl (x n : Nat) : Nat := ((x <<< n) ||| (x >>> (64 - n))) % 2 ^ 64

/-- The rotation offset of each lane, walked from (1, 0). -/
def offsets : Nat → Nat → Nat × Nat → List ((Nat × Nat) × Nat)
  | 0, _, _ => []
  | f + 1, t, (x, y) => ((x, y), ((t + 1) * (t + 2) / 2) % 64) :: offsets f (t + 1) (y, (2 * x + 3 * y) % 5)

def offTable : List Nat :=
  let o := offsets 24 0 (1, 0)
  (List.range 25).map (fun i => match o.find? (fun e => e.1 == (i % 5, i / 5)) with
    | some e => e.2
    | none => 0)

/-- One step of the round-constant register x^8 + x^6 + x^5 + x^4 + 1. -/
def lfsr (r : Nat) : Nat := if r.testBit 7 then ((r <<< 1) ^^^ 0x171) % 256 else r <<< 1

def iter {α} (f : α → α) : Nat → α → α
  | 0, a => a
  | n + 1, a => iter f n (f a)

/-- Bit j of round i's constant is bit 0 of the register after 7 i + j steps, at place 2^j - 1. -/
def roundConst (i : Nat) : Nat :=
  (List.range 7).foldl (fun c j => if (iter lfsr (7 * i + j) 1).testBit 0 then c ||| 2 ^ (2 ^ j - 1) else c) 0

def roundConsts : List Nat := (List.range 24).map roundConst

def round (s : List Nat) (rc : Nat) : List Nat :=
  let c := (List.range 5).map (fun x => (List.range 5).foldl (fun a y => a ^^^ lane s x y) 0)
  let d := (List.range 5).map (fun x => c.getD ((x + 4) % 5) 0 ^^^ rotl (c.getD ((x + 1) % 5) 0) 1)
  let t := (List.range 25).map (fun i => s.getD i 0 ^^^ d.getD (i % 5) 0)
  let r := List.zipWith rotl t offTable
  let b := (List.range 25).map (fun i =>
    let x := i % 5
    let y := i / 5
    lane r (x + 3 * y) x)
  let e := (List.range 25).map (fun i =>
    let x := i % 5
    let y := i / 5
    lane b x y ^^^ ((2 ^ 64 - 1 - lane b (x + 1) y) &&& lane b (x + 2) y))
  match e with
  | a :: rest => (a ^^^ rc) :: rest
  | [] => []

def permute (s : List Nat) : List Nat := roundConsts.foldl round s

/-- Absorbs one block of rate bytes. -/
def absorb (s : List Nat) (block : Bytes) : List Nat :=
  let ls := (chunks 8 block).map leNat
  permute ((List.range 25).map (fun i => s.getD i 0 ^^^ ls.getD i 0))

def toBytes (s : List Nat) : Bytes := s.flatMap (fun l => (toBE 8 l).reverse)

def squeeze (rate : Nat) : Nat → List Nat → Bytes
  | 0, _ => []
  | f + 1, s => (toBytes s).take rate ++ squeeze rate f (permute s)

/-- The sponge with a rate, a domain suffix and an output length, in bytes. -/
def sponge (rate : Nat) (suffix : Byte) (len : Nat) (m : Bytes) : Bytes :=
  let q := rate - m.length % rate
  let pad := if q = 1 then [suffix ^^^ 0x80] else suffix :: zeros (q - 2) ++ [0x80]
  let s := (chunks rate (m ++ pad)).foldl absorb (List.replicate 25 0)
  (squeeze rate (len / rate + 1) s).take len

end Keccak

def sha3 (bytes : Nat) (m : Bytes) : Bytes := Keccak.sponge (200 - 2 * bytes) 0x06 bytes m
def shake128 (len : Nat) (m : Bytes) : Bytes := Keccak.sponge 168 0x1F len m
def shake256 (len : Nat) (m : Bytes) : Bytes := Keccak.sponge 136 0x1F len m

/-! ### HMAC and HKDF -/

/-- HMAC over a digest with its block size. -/
def hmac (hash : Bytes → Bytes) (block : Nat) (key m : Bytes) : Bytes :=
  let k := padTo block (if key.length > block then hash key else key)
  hash (k.map (· ^^^ 0x5c) ++ hash (k.map (· ^^^ 0x36) ++ m))

def hmacSha256 (key m : Bytes) : Bytes := hmac sha256 64 key m
def hmacSha384 (key m : Bytes) : Bytes := hmac sha384 128 key m
def hmacSha512 (key m : Bytes) : Bytes := hmac sha512 128 key m

/-- The blocks T(1), T(2), ... of HKDF-Expand, n of them. -/
def hkdfBlocks (mac : Bytes → Bytes → Bytes) (prk info : Bytes) : Nat → Nat → Bytes → Bytes
  | 0, _, _ => []
  | f + 1, i, prev =>
    let t := mac prk (prev ++ info ++ [BitVec.ofNat 8 i])
    t ++ hkdfBlocks mac prk info f (i + 1) t

def hkdfExpand384 (prk info : Bytes) (len : Nat) : Bytes := (hkdfBlocks hmacSha384 prk info (len / 48 + 1) 1 []).take len
def hkdfExtract384 (salt ikm : Bytes) : Bytes := hmacSha384 salt ikm

end Sys2Proof.Machine
end

