-- ==== Sys2Proof/Machine/Curve.lean ====
section
/-! DEFINITION. The public-key arithmetic the manual names (08, 03 R76): the NIST prime curves, the Edwards and Montgomery forms of
Curve25519, and RSA. The manual gives names, sizes and rules of use; the content is that of FIPS 186-5, RFC 7748, RFC 8032 and
RFC 8017 (PRESUMED, log 5). -/

namespace Sys2Proof.Machine

/-- b^e mod m by squaring, `f` bits of e. -/
def powModAux (m : Nat) : Nat → Nat → Nat → Nat → Nat
  | 0, _, _, acc => acc
  | f + 1, b, e, acc => powModAux m f (b * b % m) (e / 2) (if e % 2 = 1 then acc * b % m else acc)

def powMod (b e m : Nat) : Nat := powModAux m (e.log2 + 1) (b % m) e (1 % m)

/-- The inverse of a modulo a prime m. -/
def invMod (a m : Nat) : Nat := powMod a (m - 2) m

def subMod (a b m : Nat) : Nat := (a + (m - b % m)) % m

/-- The extended Euclid step: (r0, t0), (r1, t1) for a modulus. -/
def invAux : Nat → Int → Int → Int → Int → Int
  | 0, _, _, _, t1 => t1
  | f + 1, r0, r1, t0, t1 => if r1 = 0 then t0 else invAux f r1 (r0 % r1) t1 (t0 - r0 / r1 * t1)

/-- The inverse of a modulo any m coprime to it. -/
def invAny (a m : Nat) : Nat := ((invAux (3 * (m.log2 + 2)) m (a % m) 0 1) % m).toNat

/-! ### Prime curves -/

/-- A short Weierstrass curve y² = x³ - 3x + b over a prime field. -/
structure Curve where
  p : Nat
  b : Nat
  gx : Nat
  gy : Nat
  n : Nat
  len : Nat          -- bytes of a coordinate

def p256 : Curve :=
  { p := 0xffffffff00000001000000000000000000000000ffffffffffffffffffffffff
    b := 0x5ac635d8aa3a93e7b3ebbd55769886bc651d06b0cc53b0f63bce3c3e27d2604b
    gx := 0x6b17d1f2e12c4247f8bce6e563a440f277037d812deb33a0f4a13945d898c296
    gy := 0x4fe342e2fe1a7f9b8ee7eb4a7c0f9e162bce33576b315ececbb6406837bf51f5
    n := 0xffffffff00000000ffffffffffffffffbce6faada7179e84f3b9cac2fc632551
    len := 32 }

def p384 : Curve :=
  { p := 2 ^ 384 - 2 ^ 128 - 2 ^ 96 + 2 ^ 32 - 1
    b := 0xb3312fa7e23ee7e4988e056be3f82d19181d9c6efe8141120314088f5013875ac656398d8a2ed19d2a85c8edd3ec2aef
    gx := 0xaa87ca22be8b05378eb1c71ef320ad746e1d3b628ba79b9859f741e082542a385502f25dbf55296c3a545e3872760ab7
    gy := 0x3617de4a96262c6f5d9e98bf9292dc29f8f41dbd289a147ce9da3113b5f0b8c00a60b1ce1d7e819d7a431d7c90ea0e5f
    n := 0xffffffffffffffffffffffffffffffffffffffffffffffffc7634d81f4372ddf581a0db248b0a77aecec196accc52973
    len := 48 }

def p521 : Curve :=
  { p := 2 ^ 521 - 1
    b := 0x0051953eb9618e1c9a1f929a21a0b68540eea2da725b99b315f3b8b489918ef109e156193951ec7e937b1652c0bd3bb1bf073573df883d2c34f1ef451fd46b503f00
    gx := 0x00c6858e06b70404e9cd9e3ecb662395b4429c648139053fb521f828af606b4d3dbaa14b5e77efe75928fe1dc127a2ffa8de3348b3c1856a429bf97e7e31c2e5bd66
    gy := 0x011839296a789a3bc0045c8a5fb42c7d1bd998f54449579b446817afbd17273e662c97ee72995ef42640c550b9013fad0761353c7086a272c24088be94769fd16650
    n := 2 ^ 521 - 0x5ae79787c40d069948033feb708f65a2fc44a36477663b851449048e16ec79bf7
    len := 66 }

namespace Curve

variable (c : Curve)

def onCurve (x y : Nat) : Bool :=
  x < c.p && y < c.p && (y * y + 3 * x) % c.p == (x * x * x + c.b) % c.p

/-- A point, none at infinity. -/
abbrev Pt := Option (Nat × Nat)

def add (a b : Pt) : Pt :=
  match a, b with
  | none, b => b
  | a, none => a
  | some (x1, y1), some (x2, y2) =>
    if x1 = x2 ∧ (y1 + y2) % c.p = 0 then none
    else
      let l := if x1 = x2 then (3 * x1 * x1 + (c.p - 3)) * invMod (2 * y1) c.p % c.p
        else subMod y2 y1 c.p * invMod (subMod x2 x1 c.p) c.p % c.p
      let x := subMod (l * l) (x1 + x2) c.p
      some (x, subMod (l * subMod x1 x c.p) y1 c.p)

def mulAux : Nat → Nat → Pt → Pt → Pt
  | 0, _, _, acc => acc
  | f + 1, k, q, acc => mulAux f (k / 2) (c.add q q) (if k % 2 = 1 then c.add acc q else acc)

def mul (k : Nat) (q : Pt) : Pt := c.mulAux (k.log2 + 1) k q none

def g : Pt := some (c.gx, c.gy)

/-- The leftmost bits of a digest, as many as the order has. -/
def truncate (h : Bytes) : Nat :=
  let bits := c.n.log2 + 1
  let v := be h
  if 8 * h.length > bits then v >>> (8 * h.length - bits) else v

/-- An ECDSA signature (r, s) with a nonce k; none where r or s is zero. -/
def sign (d k : Nat) (h : Bytes) : Option (Nat × Nat) :=
  match c.mul k c.g with
  | none => none
  | some (x, _) =>
    let r := x % c.n
    let s := invMod k c.n * (c.truncate h + r * d) % c.n
    if r = 0 ∨ s = 0 then none else some (r, s)

def verify (q : Pt) (h : Bytes) (r s : Nat) : Bool :=
  if r = 0 ∨ r ≥ c.n ∨ s = 0 ∨ s ≥ c.n then false
  else
    let w := invMod s c.n
    match c.add (c.mul (c.truncate h * w % c.n) c.g) (c.mul (r * w % c.n) q) with
    | none => false
    | some (x, _) => x % c.n == r

end Curve

/-! ### Curve25519 -/

namespace C25519

def p : Nat := 2 ^ 255 - 19
def order : Nat := 2 ^ 252 + 27742317777372353535851937790883648493

def le (b : Bytes) : Nat := be b.reverse
def toLE (n v : Nat) : Bytes := (toBE n v).reverse

/-- One step of the Montgomery ladder on (x2 : z2), (x3 : z3). -/
def ladderStep (u : Nat) (s : (Nat × Nat) × (Nat × Nat)) : (Nat × Nat) × (Nat × Nat) :=
  let ((x2, z2), (x3, z3)) := s
  let a := (x2 + z2) % p
  let aa := a * a % p
  let b := subMod x2 z2 p
  let bb := b * b % p
  let e := subMod aa bb p
  let da := subMod x3 z3 p * a % p
  let cb := (x3 + z3) * b % p
  let x3' := (da + cb) * (da + cb) % p
  let d := subMod da cb p
  ((aa * bb % p, e * (aa + 121665 * e) % p), (x3', u * (d * d % p) % p))

def ladder (u k : Nat) : Nat → (Nat × Nat) × (Nat × Nat) → (Nat × Nat) × (Nat × Nat)
  | 0, s => s
  | i + 1, s =>
    if k.testBit i then
      let r := ladderStep u (s.2, s.1)
      ladder u k i (r.2, r.1)
    else ladder u k i (ladderStep u s)

/-- X25519 of a 32-byte scalar and a 32-byte coordinate (RFC 7748). -/
def x25519 (k u : Bytes) : Bytes :=
  let kn := (le k ||| 7) ^^^ 7
  let kn := kn % 2 ^ 254 + 2 ^ 254
  let un := le u % 2 ^ 255 % p
  let r := (ladder un kn 255 ((1, 0), (un, 1))).1
  toLE 32 (r.1 * invMod r.2 p % p)

def x25519Base (k : Bytes) : Bytes := x25519 k (toLE 32 9)

def d : Nat := subMod 0 (121665 * invMod 121666 p) p

/-- Addition on the Edwards curve -x² + y² = 1 + d x² y². -/
def add (a b : Nat × Nat) : Nat × Nat :=
  let m := d * (a.1 * b.1 % p) % p * (a.2 * b.2 % p) % p
  ((a.1 * b.2 + a.2 * b.1) % p * invMod (1 + m) p % p, (a.2 * b.2 + a.1 * b.1) % p * invMod (subMod 1 m p) p % p)

def mulAux : Nat → Nat → Nat × Nat → Nat × Nat → Nat × Nat
  | 0, _, _, acc => acc
  | f + 1, k, q, acc => mulAux f (k / 2) (add q q) (if k % 2 = 1 then add acc q else acc)

def mul (k : Nat) (q : Nat × Nat) : Nat × Nat := mulAux (k.log2 + 1) k q (0, 1)

/-- The x coordinate of a y with a given low bit, if there is one. -/
def recover (y sign : Nat) : Option Nat :=
  let xx := subMod (y * y) 1 p * invMod (d * (y * y % p) + 1) p % p
  let x := powMod xx ((p + 3) / 8) p
  let x := if (x * x) % p = xx then x else x * powMod 2 ((p - 1) / 4) p % p
  if (x * x) % p ≠ xx then none
  else if x = 0 ∧ sign = 1 then none
  else some (if x % 2 = sign then x else p - x)

def decode (b : Bytes) : Option (Nat × Nat) :=
  let v := le b
  let y := v % 2 ^ 255
  if y ≥ p then none else (recover y (v >>> 255)).map (fun x => (x, y))

def encode (q : Nat × Nat) : Bytes := toLE 32 (q.2 + (q.1 % 2) * 2 ^ 255)

def base : Nat × Nat :=
  let y := 4 * invMod 5 p % p
  ((recover y 0).getD 0, y)

/-- The clamped scalar and the prefix of an Ed25519 seed. -/
def secret (seed : Bytes) : Nat × Bytes :=
  let h := sha512 seed
  let a := (le (h.take 32) ||| 7) ^^^ 7
  (a % 2 ^ 254 + 2 ^ 254, h.drop 32)

def edPublic (seed : Bytes) : Bytes := encode (mul (secret seed).1 base)

def edSign (seed m : Bytes) : Bytes :=
  let (a, pre) := secret seed
  let pub := encode (mul a base)
  let r := le (sha512 (pre ++ m)) % order
  let rb := encode (mul r base)
  let k := le (sha512 (rb ++ pub ++ m)) % order
  rb ++ toLE 32 ((r + k * a) % order)

/-- Cofactored verification. -/
def edVerify (pub m sig : Bytes) : Bool :=
  match decode pub, decode (sig.take 32) with
  | some a, some r =>
    let s := le (sig.drop 32)
    let k := le (sha512 (sig.take 32 ++ pub ++ m)) % order
    s < order && mul (8 * s) base == add (mul 8 r) (mul (8 * k % (8 * order)) a)
  | _, _ => false

end C25519

/-! ### RSA -/

/-- The generator of masks MGF1. -/
def mgf1 (hash : Bytes → Bytes) (hlen : Nat) (seed : Bytes) (len : Nat) : Bytes :=
  ((List.range (len / hlen + 1)).flatMap (fun i => hash (seed ++ toBE 4 i))).take len

end Sys2Proof.Machine
end

