-- ==== Sys2Proof/Machine/KemDsa.lean ====
section
/-! DEFINITION. ML-KEM-1024 (FIPS 203) and the verification of ML-DSA-87 (FIPS 204), which 08 R219 names. A polynomial is the list of its 256
coefficients, each below the modulus. The sampling loops run at least as long as the appendices of the standards demand of a bounded loop (log 5). -/

namespace Sys2Proof.Machine

/-- A ring Z_q[X] / (X^256 + 1) with a root of unity whose powers its transform uses, down `depth` levels of halving. -/
structure PolyRing where
  q : Nat
  root : Nat
  order : Nat
  depth : Nat

abbrev Poly := List Nat

namespace PolyRing

variable (R : PolyRing)

/-- The lowest n bits of i in reverse order. -/
def mirror : Nat → Nat → Nat
  | 0, _ => 0
  | n + 1, i => i % 2 * 2 ^ n + mirror n (i / 2)

/-- The root's power at a node of the tree of halvings; the whole polynomial is node 1. -/
def power (node : Nat) : Nat := powMod R.root (mirror R.depth node) R.q

def powerInv (node : Nat) : Nat := powMod R.root (R.order - mirror R.depth node) R.q

def add (f g : Poly) : Poly := List.zipWith (fun a b => (a + b) % R.q) f g

def sub (f g : Poly) : Poly := List.zipWith (fun a b => (a + R.q - b) % R.q) f g

def scale (c : Nat) (f : Poly) : Poly := f.map (fun a => c * a % R.q)

def zero : Poly := List.replicate 256 0

/-- The transform below a node. -/
def down : Nat → Nat → Poly → Poly
  | 0, _, f => f
  | n + 1, node, f =>
    let lo := f.take (2 ^ n * (256 / 2 ^ R.depth))
    let hi := R.scale (R.power node) (f.drop (2 ^ n * (256 / 2 ^ R.depth)))
    down n (2 * node) (R.add lo hi) ++ down n (2 * node + 1) (R.sub lo hi)

/-- The inverse of `down`, but for a factor 2 per level. -/
def up : Nat → Nat → Poly → Poly
  | 0, _, f => f
  | n + 1, node, f =>
    let a := up n (2 * node) (f.take (2 ^ n * (256 / 2 ^ R.depth)))
    let b := up n (2 * node + 1) (f.drop (2 ^ n * (256 / 2 ^ R.depth)))
    R.add a b ++ R.scale (R.powerInv node) (R.sub a b)

def transform (f : Poly) : Poly := R.down R.depth 1 f

def untransform (f : Poly) : Poly := R.scale (powMod (2 ^ R.depth) (R.q - 2) R.q) (R.up R.depth 1 f)

/-- The product of two transformed polynomials whose leaves are constants (depth 8). -/
def timesFull (f g : Poly) : Poly := List.zipWith (fun a b => a * b % R.q) f g

/-- The product of two transformed polynomials whose leaves are linear (depth 7): leaf i is modulo X² - root^(2 mirror(i) + 1). -/
def timesPairs : Nat → Poly → Poly → Poly
  | i, a :: b :: f, c :: d :: g =>
    ((a * c + b * d % R.q * powMod R.root (2 * mirror R.depth i + 1) R.q) % R.q) :: ((a * d + b * c) % R.q) :: timesPairs (i + 1) f g
  | _, _, _ => []

def times (f g : Poly) : Poly := if R.depth = 8 then R.timesFull f g else R.timesPairs 0 f g

/-- The inner product of two vectors of transformed polynomials. -/
def inner (u v : List Poly) : Poly := (List.zipWith R.times u v).foldl R.add zero

end PolyRing

/-- n numbers of `bits` bits each, least significant bit first (ByteDecode, SimpleBitUnpack). -/
def unpackBits (bits n : Nat) (b : Bytes) : List Nat :=
  let v := C25519.le b
  (List.range n).map (fun i => v >>> (bits * i) % 2 ^ bits)

def packBits (bits : Nat) (l : List Nat) : Bytes :=
  C25519.toLE (bits * l.length / 8) (l.foldr (fun a v => v * 2 ^ bits + a) 0)

/-- The first 256 numbers a rejection accepts, of those a stream's three-byte groups spell. -/
def acceptBelow (q : Nat) (spell : Nat → List Nat) (stream : Bytes) : Poly :=
  let l := ((chunks 3 stream).flatMap (fun t => spell (C25519.le t))).filter (· < q)
  (l ++ List.replicate 256 0).take 256

/-! ### ML-KEM-1024 -/

namespace Kem

def ring : PolyRing := { q := 3329, root := 17, order := 256, depth := 7 }

/-- SampleNTT of the matrix entry in a row and a column. -/
def entry (rho : Bytes) (row col : Nat) : Poly :=
  acceptBelow 3329 (fun v => [v % 4096, v / 4096]) (shake128 840 (rho ++ toBE 1 col ++ toBE 1 row))

/-- SamplePolyCBD with η = 2 of the n-th block of a seed's pseudorandom function. -/
def noise (seed : Bytes) (n : Nat) : Poly :=
  (unpackBits 4 256 (shake256 128 (seed ++ toBE 1 n))).map (fun v => (v % 2 + v / 2 % 2 + 3329 - v / 4 % 2 - v / 8) % 3329)

def noises (seed : Bytes) (from_ : Nat) : List Poly := (List.range 4).map (fun i => noise seed (from_ + i))

def shrink (d x : Nat) : Nat := (x * 2 ^ (d + 1) + 3329) / 6658 % 2 ^ d

def widen (d y : Nat) : Nat := (y * 3329 + 2 ^ (d - 1)) / 2 ^ d

/-- Four polynomials, each in 32 · bits bytes. -/
def vector (bits : Nat) (b : Bytes) : List Poly := (chunks (32 * bits) b).map (unpackBits bits 256)

/-- K-PKE.KeyGen: the encapsulation key and the decryption part. -/
def pkeKeys (d : Bytes) : Bytes × Bytes :=
  let g := sha3 64 (d ++ [4])
  let rho := g.take 32
  let s := (noises (g.drop 32) 0).map ring.transform
  let e := (noises (g.drop 32) 4).map ring.transform
  let t := e.zipIdx.map (fun r => ring.add (ring.inner ((List.range 4).map (entry rho r.2)) s) r.1)
  (t.flatMap (packBits 12) ++ rho, s.flatMap (packBits 12))

/-- K-PKE.Encrypt. -/
def encrypt (ek m r : Bytes) : Bytes :=
  let t := (vector 12 (ek.take 1536)).map (fun f => f.map (· % 3329))
  let rho := ek.drop 1536
  let y := (noises r 0).map ring.transform
  let u := (noises r 4).zipIdx.map (fun e => ring.add (ring.untransform (ring.inner ((List.range 4).map (fun j => entry rho j e.2)) y)) e.1)
  let mu := (unpackBits 1 256 m).map (widen 1)
  let v := ring.add (ring.add (ring.untransform (ring.inner t y)) (noise r 8)) mu
  u.flatMap (fun f => packBits 11 (f.map (shrink 11))) ++ packBits 5 (v.map (shrink 5))

/-- K-PKE.Decrypt. -/
def decrypt (dk c : Bytes) : Bytes :=
  let u := (vector 11 (c.take 1408)).map (fun f => f.map (widen 11))
  let v := (unpackBits 5 256 (c.drop 1408)).map (widen 5)
  let w := ring.sub v (ring.untransform (ring.inner (vector 12 dk) (u.map ring.transform)))
  packBits 1 (w.map (shrink 1))

/-- Key generation from 64 random bytes d and z: the decapsulation key and the encapsulation key. -/
def keyGen (rand : Bytes) : Bytes × Bytes :=
  let (ek, s) := pkeKeys (rand.take 32)
  (s ++ ek ++ sha3 32 ek ++ slice rand 32 32, ek)

/-- Encapsulation with 32 random bytes: the ciphertext and the shared secret. -/
def encaps (ek m : Bytes) : Bytes × Bytes :=
  let g := sha3 64 (m ++ sha3 32 ek)
  (encrypt ek m (g.drop 32), g.take 32)

/-- Decapsulation, with the implicit-rejection secret where the re-encryption differs. -/
def decaps (dk c : Bytes) : Bytes :=
  let ek := slice dk 1536 1568
  let m := decrypt (dk.take 1536) c
  let g := sha3 64 (m ++ slice dk 3104 32)
  if encrypt ek m (g.drop 32) = c then g.take 32 else shake256 32 (slice dk 3136 32 ++ c)

end Kem

/-! ### ML-DSA-87 verification -/

namespace Dsa

def q : Nat := 8380417
def ring : PolyRing := { q := q, root := 1753, order := 512, depth := 8 }

/-- RejNTTPoly of the matrix entry in a row and a column. -/
def entry (rho : Bytes) (row col : Nat) : Poly :=
  acceptBelow q (fun v => [v % 2 ^ 23]) (shake128 894 (rho ++ toBE 1 col ++ toBE 1 row))

/-- One swap of SampleInBall: place i takes what place j holds, and j a sign. -/
def place (c : Poly) (i j sign : Nat) : Poly := (c.set i (c.getD j 0)).set j (if sign = 1 then q - 1 else 1)

/-- Fills the places from i on; each stream byte above the place is passed over. -/
def fillBall : List Nat → Nat → Nat → Poly → Poly
  | [], _, _, c => c
  | j :: r, i, signs, c =>
    if 256 ≤ i then c else if i < j then fillBall r i signs c else fillBall r (i + 1) (signs / 2) (place c i j (signs % 2))

/-- SampleInBall with 60 nonzero places. -/
def ball (seed : Bytes) : Poly :=
  let s := shake256 229 seed
  fillBall ((s.drop 8).map (·.toNat)) 196 (C25519.le (s.take 8)) PolyRing.zero

/-- Places in one polynomial's part of a hint, if they rise. -/
def hintPart (l : List Nat) : Option (List Nat) := if rising l then some l else none

/-- HintBitUnpack: for each of n polynomials the places of its ones, none when the hint is malformed; `at_` bytes of the places are read. -/
def hints (y : List Nat) : List Nat → Nat → Option (List (List Nat))
  | [], at_ => if (y.drop at_).all (· == 0) then some [] else none
  | e :: r, at_ =>
    if e < at_ ∨ 75 < e then none
    else match hintPart ((y.take e).drop at_), hints y r e with
      | some l, some t => some (l :: t)
      | _, _ => none

/-- UseHint: the high part of r, moved by one where the hint is set. -/
def useHint (hint : Bool) (r : Nat) : Nat :=
  let low := r % 523776
  let up := decide (low ≤ 261888)
  let high := (if up then r - low else r - low + 523776) / 523776
  if high = 16 then (if hint then 15 else 0)
  else if hint = false then high
  else if up = true ∧ 0 < low then (high + 1) % 16 else (high + 15) % 16

/-- Verification over the representative μ. -/
def verifyMu (pub mu sig : Bytes) : Bool :=
  let rho := pub.take 32
  let t1 := (chunks 320 (pub.drop 32)).map (fun b => (unpackBits 10 256 b).map (· * 2 ^ 13 % q))
  let z := (chunks 640 (slice sig 64 4480)).map (fun b => (unpackBits 20 256 b).map (fun v => (2 ^ 19 + q - v) % q))
  let tail := (sig.drop 4544).map (·.toNat)
  match hints (tail.take 75) (tail.drop 75) 0 with
  | none => false
  | some h =>
    let zt := z.map ring.transform
    let c := ring.transform (ball (sig.take 64))
    let w := t1.zipIdx.map (fun t =>
      ring.untransform (ring.sub (ring.inner ((List.range 7).map (entry rho t.2)) zt) (ring.times c (ring.transform t.1))))
    let w1 := w.zipIdx.map (fun f => f.1.zipIdx.map (fun r => useHint ((h.getD f.2 []).contains r.2) r.1))
    z.all (fun f => f.all (fun v => v < 2 ^ 19 - 120 || q - (2 ^ 19 - 120) < v)) &&
      sig.take 64 == shake256 64 (mu ++ w1.flatMap (packBits 4))

/-- The representative of a message under a context string: H(H(pk) ∥ 0 ∥ |ctx| ∥ ctx ∥ M). -/
def representative (pub ctx m : Bytes) : Bytes := shake256 64 (shake256 64 pub ++ [0] ++ toBE 1 ctx.length ++ ctx ++ m)

def verify (pub m ctx sig : Bytes) : Bool := verifyMu pub (representative pub ctx m) sig

end Dsa

end Sys2Proof.Machine
end

