-- ==== Sys2Proof/Machine/Cipher.lean ====
section
/-! DEFINITION. The block ciphers and modes the manual names (06, 07): AES, TDEA, CBC, CTR, GCM, XTS, CMAC, key wrapping and FF1.
The manual gives names, sizes and rules of use; the content is that of FIPS 197, SP 800-67, SP 800-38A/B/D/E/F/G (PRESUMED, log 5). -/

namespace Sys2Proof.Machine

/-! ### AES -/

namespace Aes

/-- Multiplication by x in GF(2^8). -/
def xtime (a : Byte) : Byte := (a <<< 1) ^^^ (if a.getLsbD 7 then 0x1b else 0)

def mulAux : Nat → Byte → Byte → Byte
  | 0, _, _ => 0
  | n + 1, a, b => if b = 0 then 0 else (if b.getLsbD 0 then a else 0) ^^^ mulAux n (xtime a) (b >>> 1)

def mul (a b : Byte) : Byte := mulAux 8 a b

/-- The S-box and its inverse, a row of sixteen bytes each (FIPS 197, figures 7 and 14). -/
def sboxRows : List Nat :=
  [0x637c777bf26b6fc53001672bfed7ab76, 0xca82c97dfa5947f0add4a2af9ca472c0, 0xb7fd9326363ff7cc34a5e5f171d83115, 0x04c723c31896059a071280e2eb27b275,
   0x09832c1a1b6e5aa0523bd6b329e32f84, 0x53d100ed20fcb15b6acbbe394a4c58cf, 0xd0efaafb434d338545f9027f503c9fa8, 0x51a3408f929d38f5bcb6da2110fff3d2,
   0xcd0c13ec5f974417c4a77e3d645d1973, 0x60814fdc222a908846eeb814de5e0bdb, 0xe0323a0a4906245cc2d3ac629195e479, 0xe7c8376d8dd54ea96c56f4ea657aae08,
   0xba78252e1ca6b4c6e8dd741f4bbd8b8a, 0x703eb5664803f60e613557b986c11d9e, 0xe1f8981169d98e949b1e87e9ce5528df, 0x8ca1890dbfe6426841992d0fb054bb16]

def invRows : List Nat :=
  [0x52096ad53036a538bf40a39e81f3d7fb, 0x7ce339829b2fff87348e4344c4dee9cb, 0x547b9432a6c2233dee4c950b42fac34e, 0x082ea16628d924b2765ba2496d8bd125,
   0x72f8f66486689816d4a45ccc5d65b692, 0x6c704850fdedb9da5e154657a78d9d84, 0x90d8ab008cbcd30af7e45805b8b34506, 0xd02c1e8fca3f0f02c1afbd0301138a6b,
   0x3a9111414f67dcea97f2cfcef0b4e673, 0x96ac7422e7ad3585e2f937e81c75df6e, 0x47f11a711d29c5896fb7620eaa18be1b, 0xfc563e4bc6d279209adbc0fe78cd5af4,
   0x1fdda8338807c731b11210592780ec5f, 0x60517fa919b54a0d2de57a9f93c99cef, 0xa0e03b4dae2af5b0c8ebbb3c83539961, 0x172b047eba77d626e169146355210c7d]

def lookup (rows : List Nat) (a : Byte) : Byte := BitVec.ofNat 8 (rows.getD (a.toNat / 16) 0 >>> (8 * (15 - a.toNat % 16)))

def sub (a : Byte) : Byte := lookup sboxRows a

def unsub (a : Byte) : Byte := lookup invRows a

/-- The key schedule as words, newest first: nk words of key, then n more. -/
def expand (nk : Nat) : Nat → Nat → Byte → List Bytes → List Bytes
  | 0, _, _, ws => ws
  | n + 1, i, rcon, ws =>
    let prev := ws.headD []
    let t := if i % nk = 0 then
        match prev.map sub with
        | [a, b, c, d] => [b ^^^ rcon, c, d, a]
        | r => r
      else if nk > 6 && i % nk = 4 then prev.map sub else prev
    expand nk n (i + 1) (if i % nk = 0 then xtime rcon else rcon) (xorBytes t (ws.getD (nk - 1) []) :: ws)

/-- Round keys, in order. -/
def roundKeys (key : Bytes) : List Bytes :=
  let nk := key.length / 4
  chunks 16 ((expand nk (4 * (nk + 7) - nk) nk 1 (chunks 4 key).reverse).reverse.flatten)

def shiftRows (s : Bytes) : Bytes := (List.range 16).map (fun i => byteAt s ((i + 4 * (i % 4)) % 16))
def unshiftRows (s : Bytes) : Bytes := (List.range 16).map (fun i => byteAt s ((i + 12 * (i % 4)) % 16))

def mixColumn (m : List Byte) (c : Bytes) : Bytes :=
  (List.range 4).map (fun r => (List.range 4).foldl (fun a j => a ^^^ mul (byteAt c j) (byteAt m ((j + 4 - r) % 4))) 0)

def mix (s : Bytes) : Bytes := (chunks 4 s).flatMap (mixColumn [2, 3, 1, 1])
def unmix (s : Bytes) : Bytes := (chunks 4 s).flatMap (mixColumn [14, 11, 13, 9])

def encryptWith (rk : List Bytes) (b : Bytes) : Bytes :=
  match rk with
  | [] => b
  | k0 :: rest =>
    let s := rest.dropLast.foldl (fun s k => xorBytes (mix (shiftRows (s.map sub))) k) (xorBytes b k0)
    xorBytes (shiftRows (s.map sub)) (rest.getLastD [])

def decryptWith (rk : List Bytes) (b : Bytes) : Bytes :=
  match rk.reverse with
  | [] => b
  | kn :: rest =>
    let s := rest.dropLast.foldl (fun s k => unmix (xorBytes ((unshiftRows s).map unsub) k)) (xorBytes b kn)
    xorBytes ((unshiftRows s).map unsub) (rest.getLastD [])

end Aes

def aesEnc (key b : Bytes) : Bytes := Aes.encryptWith (Aes.roundKeys key) b
def aesDec (key b : Bytes) : Bytes := Aes.decryptWith (Aes.roundKeys key) b

/-! ### DES and TDEA -/

namespace Des

/-- Bit i of a permutation's output is input bit t_i, counted from 1 at the most significant of n. -/
def permute (t : List Nat) (n x : Nat) : Nat := t.foldl (fun a i => 2 * a + (if x.testBit (n - i) then 1 else 0)) 0

/-- The initial permutation and its inverse, from their row pattern. -/
def ip : List Nat := [58, 60, 62, 64, 57, 59, 61, 63].flatMap (fun a => (List.range 8).map (fun j => a - 8 * j))
def fp : List Nat := (List.range 64).map (fun i => ip.idxOf (i + 1) + 1)

/-- The expansion: eight groups of six bits, each overlapping its neighbours. -/
def e : List Nat := (List.range 8).flatMap (fun g => (List.range 6).map (fun j => (4 * g + j + 31) % 32 + 1))

def pbox : List Nat :=
  [16, 7, 20, 21, 29, 12, 28, 17, 1, 15, 23, 26, 5, 18, 31, 10, 2, 8, 24, 14, 32, 27, 3, 9, 19, 13, 30, 6, 22, 11, 4, 25]

def pc1 : List Nat :=
  [57, 49, 41, 33, 25, 17, 9, 1, 58, 50, 42, 34, 26, 18, 10, 2, 59, 51, 43, 35, 27, 19, 11, 3, 60, 52, 44, 36] ++
  [63, 55, 47, 39, 31, 23, 15, 7, 62, 54, 46, 38, 30, 22, 14, 6, 61, 53, 45, 37, 29, 21, 13, 5, 28, 20, 12, 4]

def pc2 : List Nat :=
  [14, 17, 11, 24, 1, 5, 3, 28, 15, 6, 21, 10, 23, 19, 12, 4, 26, 8, 16, 7, 27, 20, 13, 2] ++
  [41, 52, 31, 37, 47, 55, 30, 40, 51, 45, 33, 48, 44, 49, 39, 56, 34, 53, 46, 42, 50, 36, 29, 32]

/-- The substitution boxes, 64 hexadecimal digits each, four rows of sixteen. -/
def sboxes : List Nat :=
  [0xE4D12FB83A6C59070F74E2D1A6CB953841E8D62BFC973A50FC8249175B3EA06D,
   0xF18E6B34972DC05A3D47F28EC01A69B50E7BA4D158C6932FD8A13F42B67C05E9,
   0xA09E63F51DC7B428D709346A285ECBF1D6498F30B12C5AE71AD069874FE3B52C,
   0x7DE3069A1285BC4FD8B56F03472C1AE9A690CB7DF13E52843F06A1D8945BC72E,
   0x2C417AB6853FD0E9EB2C47D150FA3986421BAD78F9C5630EB8C71E2D6F09A453,
   0xC1AF92680D34E75BAF427C9561DE0B389EF528C3704A1DB6432C95FABE17608D,
   0x4B2EF08D3C975A61D0B7491AE35C2F8614BDC37EAF6805926BD814A7950FE23C,
   0xD2846FB1A93E50C71FD8A374C56B0E927B419CE206ADF35821E74A8DFC90356B]

def substitute (x : Nat) : Nat :=
  (List.range 8).foldl (fun a i =>
    let v := (x >>> (42 - 6 * i)) % 64
    let row := 2 * (v / 32) + v % 2
    let col := v / 2 % 16
    16 * a + (sboxes.getD i 0 >>> (4 * (63 - (16 * row + col)))) % 16) 0

def rot28 (x n : Nat) : Nat := ((x <<< n) ||| (x >>> (28 - n))) % 2 ^ 28

/-- The 16 subkeys. -/
def subkeys (key : Bytes) : List Nat :=
  let k := permute pc1 64 (be key)
  [1, 2, 4, 6, 8, 10, 12, 14, 15, 17, 19, 21, 23, 25, 27, 28].map
    (fun n => permute pc2 56 (rot28 (k / 2 ^ 28) n * 2 ^ 28 + rot28 (k % 2 ^ 28) n))

def round (lr : Nat × Nat) (k : Nat) : Nat × Nat :=
  (lr.2, lr.1 ^^^ permute pbox 32 (substitute (permute e 32 lr.2 ^^^ k)))

def crypt (ks : List Nat) (b : Bytes) : Bytes :=
  let x := permute ip 64 (be b)
  let (l, r) := ks.foldl round (x / 2 ^ 32, x % 2 ^ 32)
  toBE 8 (permute fp 64 (r * 2 ^ 32 + l))

end Des

def desEnc (key b : Bytes) : Bytes := Des.crypt (Des.subkeys key) b
def desDec (key b : Bytes) : Bytes := Des.crypt (Des.subkeys key).reverse b

/-- A two-key TDEA key repeats its first part as the third. -/
def tdeaKey (key : Bytes) : Bytes := if key.length = 16 then key ++ key.take 8 else key

def tdeaEnc (key b : Bytes) : Bytes :=
  let k := tdeaKey key
  desEnc (slice k 16 8) (desDec (slice k 8 8) (desEnc (slice k 0 8) b))

def tdeaDec (key b : Bytes) : Bytes :=
  let k := tdeaKey key
  desDec (slice k 0 8) (desEnc (slice k 8 8) (desDec (slice k 16 8) b))

/-! ### Modes over a block cipher with blocks of n bytes -/

def ecb (n : Nat) (f : Bytes → Bytes) (m : Bytes) : Bytes := (chunks n m).flatMap f

def cbcEncBlocks (f : Bytes → Bytes) : Bytes → List Bytes → Bytes
  | _, [] => []
  | iv, b :: r => let c := f (xorBytes iv b); c ++ cbcEncBlocks f c r

def cbcEnc (n : Nat) (f : Bytes → Bytes) (iv m : Bytes) : Bytes := cbcEncBlocks f iv (chunks n m)

def cbcDecBlocks (f : Bytes → Bytes) : Bytes → List Bytes → Bytes
  | _, [] => []
  | iv, c :: r => xorBytes iv (f c) ++ cbcDecBlocks f c r

def cbcDec (n : Nat) (f : Bytes → Bytes) (iv m : Bytes) : Bytes := cbcDecBlocks f iv (chunks n m)

/-- The counter block plus i, incremented in its low `bits` bits. -/
def ctrBlock (bits : Nat) (iv : Bytes) (i : Nat) : Bytes :=
  let v := be iv
  toBE 16 (v / 2 ^ bits * 2 ^ bits + (v + i) % 2 ^ bits)

def ctrCrypt (f : Bytes → Bytes) (bits : Nat) (iv m : Bytes) : Bytes :=
  ((chunks 16 m).zipIdx).flatMap (fun e => xorBytes e.1 (f (ctrBlock bits iv e.2)))

/-- The doubling of CMAC subkeys for a block of n bytes. -/
def cmacDouble (n : Nat) (b : Bytes) : Bytes :=
  let v := be b
  let r := if n = 8 then 0x1B else 0x87
  toBE n ((2 * v) % 2 ^ (8 * n) ^^^ (if v.testBit (8 * n - 1) then r else 0))

def cmac (n : Nat) (f : Bytes → Bytes) (m : Bytes) : Bytes :=
  let k1 := cmacDouble n (f (zeros n))
  let k2 := cmacDouble n k1
  let bs := chunks n m
  let last := bs.getLastD []
  let fin := if last.length = n then xorBytes last k1 else xorBytes (padTo n (last ++ [0x80])) k2
  f (xorBytes (bs.dropLast.foldl (fun c b => f (xorBytes c b)) (zeros n)) fin)

/-! ### GCM -/

/-- One step of multiplication in GF(2^128), bit i of x counted from the left. -/
def gmulAux (x : Nat) : Nat → Nat → Nat → Nat
  | 0, _, z => z
  | n + 1, v, z =>
    gmulAux x n (if v.testBit 0 then (v >>> 1) ^^^ (0xE1 * 2 ^ 120) else v >>> 1) (if x.testBit n then z ^^^ v else z)

def gmul (x y : Nat) : Nat := gmulAux x 128 y 0

def ghash (h : Nat) (y : Nat) (m : Bytes) : Nat := (chunks 16 m).foldl (fun y b => gmul (y ^^^ be (padTo 16 b)) h) y

def gcmJ0 (h : Nat) (iv : Bytes) : Bytes :=
  if iv.length = 12 then iv ++ [0, 0, 0, 1]
  else toBE 16 (ghash h 0 (iv ++ zeros (padding 16 iv.length) ++ zeros 8 ++ toBE 8 (8 * iv.length)))

def gcmTag (f : Bytes → Bytes) (iv aad ct : Bytes) : Bytes :=
  let h := be (f (zeros 16))
  let s := ghash h 0 (aad ++ zeros (padding 16 aad.length) ++ ct ++ zeros (padding 16 ct.length) ++
    toBE 8 (8 * aad.length) ++ toBE 8 (8 * ct.length))
  xorBytes (f (gcmJ0 h iv)) (toBE 16 s)

def gcmCrypt (f : Bytes → Bytes) (iv m : Bytes) : Bytes :=
  ctrCrypt f 32 (ctrBlock 32 (gcmJ0 (be (f (zeros 16))) iv) 1) m

/-- AES-GCM sealing: ciphertext and 16-byte tag. -/
def gcmSeal (key iv aad pt : Bytes) : Bytes × Bytes :=
  let f := Aes.encryptWith (Aes.roundKeys key)
  let ct := gcmCrypt f iv pt
  (ct, gcmTag f iv aad ct)

/-- AES-GCM opening: the plaintext, where the tag is right. -/
def gcmOpen (key iv aad ct tag : Bytes) : Option Bytes :=
  let f := Aes.encryptWith (Aes.roundKeys key)
  if gcmTag f iv aad ct = tag then some (gcmCrypt f iv ct) else none

/-! ### XTS -/

/-- Multiplication of a tweak by alpha, its first byte least significant. -/
def xtsDouble (t : Bytes) : Bytes :=
  let v := be t.reverse
  (toBE 16 ((2 * v) % 2 ^ 128 ^^^ (if v.testBit 127 then 0x87 else 0))).reverse

def xtsTweaks : Nat → Bytes → List Bytes
  | 0, _ => []
  | n + 1, t => t :: xtsTweaks n (xtsDouble t)

def xtsBlock (f : Bytes → Bytes) (t b : Bytes) : Bytes := xorBytes t (f (xorBytes t b))

/-- One data unit under XTS, with ciphertext stealing where its length is no multiple of 16. -/
def xtsUnit (f : Bytes → Bytes) (enc : Bool) (tweak m : Bytes) : Bytes :=
  let bs := chunks 16 m
  let ts := xtsTweaks (bs.length + 1) tweak
  let r := m.length % 16
  if r = 0 then (bs.zip ts).flatMap (fun e => xtsBlock f e.2 e.1)
  else
    let n := bs.length - 2
    let lead := ((bs.take n).zip ts).flatMap (fun e => xtsBlock f e.2 e.1)
    let ta := ts.getD n []
    let tb := ts.getD (n + 1) []
    let last := bs.getD (n + 1) []
    let x := xtsBlock f (if enc then ta else tb) (bs.getD n [])
    lead ++ xtsBlock f (if enc then tb else ta) (last ++ x.drop r) ++ x.take r

/-! ### Key wrapping with padding (SP 800-38F KWP) -/

def kwStep (f : Bytes → Bytes) (s : Bytes × List Bytes) (t : Nat) : Bytes × List Bytes :=
  match s.2 with
  | [] => s
  | r :: rest =>
    let b := f (s.1 ++ r)
    (xorBytes (b.take 8) (toBE 8 t), rest ++ [b.drop 8])

def kwUnstep (f : Bytes → Bytes) (s : Bytes × List Bytes) (t : Nat) : Bytes × List Bytes :=
  match s.2.reverse with
  | [] => s
  | r :: rest =>
    let b := f (xorBytes s.1 (toBE 8 t) ++ r)
    (b.take 8, b.drop 8 :: rest.reverse)

def kwpWrap (key m : Bytes) : Bytes :=
  let icv := [0xA6, 0x59, 0x59, 0xA6] ++ toBE 4 m.length
  let pt := m ++ zeros (padding 8 m.length)
  if pt.length ≤ 8 then aesEnc key (icv ++ padTo 8 pt)
  else
    let f := Aes.encryptWith (Aes.roundKeys key)
    let n := pt.length / 8
    let (a, rs) := ((List.range (6 * n)).map (· + 1)).foldl (kwStep f) (icv, chunks 8 pt)
    a ++ rs.flatten

def kwpCheck (a body : Bytes) : Option Bytes :=
  let len := field a 4 4
  if a.take 4 = [0xA6, 0x59, 0x59, 0xA6] ∧ len ≤ body.length ∧ body.length < len + 8 ∧ allZero (body.drop len) = true
  then some (body.take len) else none

def kwpUnwrap (key c : Bytes) : Option Bytes :=
  if c.length % 8 ≠ 0 ∨ c.length < 16 then none
  else if c.length = 16 then
    let b := aesDec key c
    kwpCheck (b.take 8) (b.drop 8)
  else
    let f := Aes.decryptWith (Aes.roundKeys key)
    let n := c.length / 8 - 1
    let (a, rs) := ((List.range (6 * n)).map (fun i => 6 * n - i)).foldl (kwUnstep f) (c.take 8, chunks 8 (c.drop 8))
    kwpCheck a rs.flatten

/-! ### FF1, radix 10 (SP 800-38G) -/

def numOf (d : List Nat) : Nat := d.foldl (fun a x => 10 * a + x) 0

def digitsOf : Nat → Nat → List Nat
  | 0, _ => []
  | n + 1, v => digitsOf n (v / 10) ++ [v % 10]

def cbcMac (f : Bytes → Bytes) (m : Bytes) : Bytes := (chunks 16 m).foldl (fun c b => f (xorBytes c b)) (zeros 16)

/-- Bytes that hold v digits. -/
def ff1Bytes (v : Nat) : Nat := ((10 ^ v - 1).log2 + 8) / 8

/-- The round value y of FF1. -/
def ff1Round (f : Bytes → Bytes) (n : Nat) (tweak : Bytes) (i : Nat) (b : List Nat) : Nat :=
  let u := n / 2
  let bl := ff1Bytes (n - u)
  let d := 4 * ((bl + 3) / 4) + 4
  let pblk := [1, 2, 1] ++ toBE 3 10 ++ [10, BitVec.ofNat 8 u] ++ toBE 4 n ++ toBE 4 tweak.length
  let q := tweak ++ zeros (padding 16 (tweak.length + bl + 1)) ++ [BitVec.ofNat 8 i] ++ toBE bl (numOf b)
  let r := cbcMac f (pblk ++ q)
  let more := (List.range ((d + 15) / 16 - 1)).flatMap (fun j => f (xorBytes r (toBE 16 (j + 1))))
  be ((r ++ more).take d)

def ff1EncRounds (f : Bytes → Bytes) (n : Nat) (t : Bytes) : List Nat → List Nat × List Nat → List Nat × List Nat
  | [], ab => ab
  | i :: is, (a, b) =>
    let m := if i % 2 = 0 then n / 2 else n - n / 2
    ff1EncRounds f n t is (b, digitsOf m ((numOf a + ff1Round f n t i b) % 10 ^ m))

def ff1DecRounds (f : Bytes → Bytes) (n : Nat) (t : Bytes) : List Nat → List Nat × List Nat → List Nat × List Nat
  | [], ab => ab
  | i :: is, (a, b) =>
    let m := if i % 2 = 0 then n / 2 else n - n / 2
    ff1DecRounds f n t is (digitsOf m ((numOf b + (10 ^ m - ff1Round f n t i a % 10 ^ m)) % 10 ^ m), a)

def ff1Enc (f : Bytes → Bytes) (tweak : Bytes) (d : List Nat) : List Nat :=
  let u := d.length / 2
  let (a, b) := ff1EncRounds f d.length tweak (List.range 10) (d.take u, d.drop u)
  a ++ b

def ff1Dec (f : Bytes → Bytes) (tweak : Bytes) (d : List Nat) : List Nat :=
  let u := d.length / 2
  let (a, b) := ff1DecRounds f d.length tweak (List.range 10).reverse (d.take u, d.drop u)
  a ++ b

end Sys2Proof.Machine
end

