-- ==== Sys2Proof/Machine/Recorder.lean ====
section
/-! DEFINITION. The event recorder and the raising of notices (14 R370 to R390): rate limits, the ring, the pinned area, the kitty,
the register file, freezes, and where a raised notice goes. -/

namespace Sys2Proof.Machine

namespace Rec
def pinnedFlag : Byte := 0x08
def offFlag : Byte := 0x10
def partnerFlag : Byte := 0x20
def lateFlag : Byte := 0x40
def kittyFlag : Byte := 0x80

/-- The 32 bytes of a record (R370). -/
def bytes (r : Rec) : Bytes :=
  toBE 2 r.code.toNat ++ [r.flags, r.die] ++ toBE 5 r.optime ++ toBE 3 r.pcycle ++ toBE 6 r.seq ++
  toBE 4 r.p1.toNat ++ toBE 4 r.p2.toNat ++ toBE 4 r.p3.toNat ++ [r.supp, 0xA5]

def sev (r : Rec) : Nat := (r.flags &&& 0x07).toNat
end Rec

/-- Slots of the ring, the pinned area, the kitty and the register file (R374, R382). -/
def ringSlots := 1048576
def pinnedSlots := 65536
def kittySlots := 256
def regSlots := 16

/-- The first slot from `ptr` on, within `total`, whose 128-slot block is not bad; `none` past the end. -/
def goodSlot (bad : List Nat) (total : Nat) : Nat → Nat → Option Nat
  | 0, _ => none
  | f + 1, ptr =>
    if ptr ≥ total then none
    else if bad.contains (ptr / 128) then goodSlot bad total f ((ptr / 128 + 1) * 128) else some ptr

/-- The next usable ring slot, wrapping once (R374, R381). -/
def nextRing (e : EvrUnit) : Option Nat :=
  match goodSlot e.badRing ringSlots (e.badRing.length + 1) e.ringPtr with
  | some s => some s
  | none => goodSlot e.badRing ringSlots (e.badRing.length + 1) 0

/-- The next free pinned slot; `none` when the area is full (R374). -/
def nextPinned (e : EvrUnit) : Option Nat := goodSlot e.badPin pinnedSlots (e.badPin.length + 1) e.pinPtr

/-- Writes a record to the kitty, or, once the kitty has failed, nowhere (R374, R382). -/
def kittyWrite (e : EvrUnit) (r : Rec) : EvrUnit :=
  if e.fatal then e
  else { e with kitty := Sparse.put e.kitty e.kittyPtr { r with flags := r.flags ||| Rec.kittyFlag },
                kittyPtr := (e.kittyPtr + 1) % kittySlots }

/-- Writes a record to the register file, overwriting its oldest (R382). -/
def regWriteRec (e : EvrUnit) (r : Rec) : EvrUnit :=
  { e with regfile := Sparse.put e.regfile e.regPtr { r with flags := r.flags ||| Rec.kittyFlag },
           regPtr := (e.regPtr + 1) % regSlots }

/-- Writes a ring copy; with no ring block usable the record goes to the kitty (R381). -/
def ringWrite (e : EvrUnit) (r : Rec) : EvrUnit :=
  match nextRing e with
  | some s => { e with ring := Sparse.put e.ring s r, ringPtr := (s + 1) % ringSlots }
  | none => kittyWrite { e with kittyOn := true } r

/-- A ring copy during a freeze waits in the holding buffer of 4,096, or is lost (R378); a record that goes to the kitty for want of a ring block
does not wait, since the kitty is not frozen. -/
def ringOrHold (e : EvrUnit) (r : Rec) : EvrUnit :=
  match e.thawAt with
  | none => ringWrite e r
  | some _ =>
    if (nextRing e).isNone then ringWrite e r
    else if e.hold.length < 4096 then { e with hold := e.hold ++ [r] }
    else { e with lost := e.lost + 1, firstLost := if e.lost = 0 then r.seq else e.firstLost }

namespace Part

def setEvr (p : Part) (e : EvrUnit) : Part := { p with evr := e }

/-- Operating time in 10 ms units, 40 bits (R371). -/
def optime (p : Part) : Nat := (p.evr.opBase + (p.now - p.evr.opAt) / msec 10) % 2 ^ 40

/-- Ring copy with its counts (R378, R381). Once the kitty has failed a record goes to the register file too, as it is created and not when a thaw
writes its ring copy (R382). -/
def ringCopy (p : Part) (r : Rec) (thawed : Bool := false) : Part :=
  let lost := p.evr.thawAt.isSome && (nextRing p.evr).isSome && !(p.evr.hold.length < 4096)
  let kitty := (nextRing p.evr).isNone && !p.evr.fatal
  let p := p.setEvr (ringOrHold p.evr r)
  let p := if p.evr.fatal && !thawed then p.setEvr (regWriteRec p.evr r) else p
  let p := if lost then p.bump (regAddr 0 winEVR 0x0120) else p
  if kitty then p.bump (regAddr 0 winEVR 0x0128) else p

/-- A record as it is created: the next sequence, the operating time and the power cycle (R371, R372). -/
def makeRec (p : Part) (code : BitVec 16) (sev : Nat) (flags : Byte) (die : Byte) (p1 p2 p3 : Word) (supp : Nat) : Rec :=
  { code := code, flags := BitVec.ofNat 8 sev ||| flags, die := die, optime := p.optime, pcycle := p.evr.pcycle,
    seq := p.evr.seq, p1 := p1, p2 := p2, p3 := p3, supp := BitVec.ofNat 8 (min supp 255) }

/-- A created record takes its sequence and counts in EVR_WRITTEN (R372). -/
def tookSeq (p : Part) : Part := (p.setEvr { p.evr with seq := (p.evr.seq + 1) % 2 ^ 48 }).bump (regAddr 0 winEVR 0x0100)

/-- A record of severity 2 or more that the part itself made goes to the partner, while the two are in Resync or Mirrored (13 R367). -/
def forwardLater (p : Part) (r : Rec) : Part :=
  if 2 ≤ r.sev ∧ (r.flags &&& Rec.partnerFlag) = 0 ∧ (p.part.st = .resync ∨ p.part.st = .mirrored) then
    { p with part := { p.part with evOut := p.part.evOut ++ [r] } }
  else p

/-- The record PINNED_FULL, written to the ring when the pinned area fills (R374, R384). -/
def pinnedFullRec (p : Part) : Part :=
  let r := p.makeRec 0x0903 2 0 0 (BitVec.ofNat 32 (65536 - 128 * p.evr.badPin.length)) 0 0 0
  (p.tookSeq.forwardLater r).ringCopy r

/-- The kitty copy of the records of R380 and R381; with no ring block usable their ring copy is one (R374, R381). -/
def kittyCopy (p : Part) (r : Rec) : Part :=
  if p.evr.fatal || (nextRing p.evr).isNone then p else (p.setEvr (kittyWrite p.evr r)).bump (regAddr 0 winEVR 0x0128)

/-- Stores a created record: the pinned copy at once for severity 3 and 4, then the kitty copy of the records of R380 and R381 and the ring copy
(R374, R378). -/
def store (p : Part) (r : Rec) (toKitty : Bool := false) : Part :=
  let p := p.tookSeq.forwardLater r
  let copies := fun (p : Part) (r : Rec) => (if toKitty then p.kittyCopy r else p).ringCopy r
  if 3 ≤ r.sev then
    match nextPinned p.evr with
    | some s =>
      let r' := { r with flags := r.flags ||| Rec.pinnedFlag }
      let e := { p.evr with pinned := Sparse.put p.evr.pinned s r', pinPtr := s + 1 }
      let full := (nextPinned e).isNone
      let p := copies (p.setEvr { e with pinFull := full }) r'
      if full then p.pinnedFullRec else p
    | none => copies (p.bump (regAddr 0 winEVR 0x0118)) r
  else copies p r

end Part

/-! ### Notices (R386 to R390) -/

/-- Source of Seat n's unit at offset j (R386). -/
def seatSource (n j : Nat) : Nat := 128 + 128 * (n - 1) + j

def Notice.bytes (seq : BitVec 32) (n : Notice) : Bytes :=
  toBE 4 seq.toNat ++ toBE 2 n.source ++ toBE 2 n.code.toNat ++ toBE 8 n.optime ++ toBE 2 n.body.length ++ zeros 6 ++
  n.body ++ zeros (padding 8 n.body.length)

/-- What the active Deal says of a source (R387): without a routing section every source goes to the house cores (02 R34). -/
def routeOf (d : Option Deal) (source : Nat) : Option RouteEntry :=
  match d.bind (·.routing) with
  | none => some { source := source, dest := 1, hand := 0, minsev := 0 }
  | some l => l.find? (fun e => e.source = source)

/-- A tenant hand takes only notices that concern it (R388). -/
def noticeFor (hand : Nat) (n : Notice) : Bool := hand = 0 || n.hand = hand

def Part.setAppNotices (p : Part) (l : List (Nat × Notice)) : Part := { p with seats := { p.seats with appNotices := l } }

/-- Puts a notice for a hand on a Seat's applet queue of 256, dropping the oldest when full (R390). -/
def Part.queueApplet (p : Part) (seat hand : Nat) (n : Notice) : Part :=
  let q : List (Nat × Notice) := p.seats.appNotices
  let e := (seat * 256 + hand, n)
  if (q.filter (fun e => e.1 / 256 == seat)).length < 256 then p.setAppNotices (q ++ [e])
  else (p.setAppNotices (q.eraseP (fun e => e.1 / 256 == seat) ++ [e])).bump (regAddr seat swinNTC 0x0100)

/-- Adds a notice to the waiting notices of the Open sessions that `sel` picks. -/
def Part.toSessions (p : Part) (sel : Session → Bool) (n : Notice) : Part :=
  let take := fun (x : Session) => if x.st = .open_ && sel x then { x with waiting := x.waiting ++ [n] } else x
  { p with xct := { p.xct with sessions := p.xct.sessions.map take } }

/-- The Seats a hand may use (02 R37). -/
def permittedMask (d : Option Deal) (hand : Nat) : Nat :=
  match (d.map (·.seats)).getD [] |>.find? (fun e => e.hand = hand) with
  | some e => e.mask.toNat
  | none => 0

namespace Part

/-- Delivers a notice to the applet queues of a hand's Seats, filtered as for sessions (R388, R390). -/
def toApplets (p : Part) (hand : Nat) (n : Notice) : Part :=
  if noticeFor hand n then
    (p.seatNums.filter (fun k => (permittedMask p.deal.active hand).testBit k)).foldl (fun p k => p.queueApplet k hand n) p
  else p

/-- Raises a notice (R386): each destination of its source's route takes it, and so do the sessions `addressed` by the
notice's own chapter, once each (R388). -/
def raise (p : Part) (n : Notice) (addressed : List (BitVec 32) := []) : Part :=
  let p := p.bump (regAddr 0 winNTC 0x0100)
  match routeOf p.deal.active n.source with
  | none => p.toSessions (fun x => addressed.contains x.id) n
  | some r =>
    let on := r.minsev ≤ n.sev
    let sess := on && r.dest.toNat.testBit 1
    let take := sess && noticeFor r.hand n
    let p := if sess && !take then p.bump (regAddr 0 winNTC 0x0108) else p
    let p := p.toSessions (fun x => (take && x.hand = r.hand) || addressed.contains x.id) n
    let p := if on && r.dest.toNat.testBit 0 then p.setEvr { p.evr with house := n :: p.evr.house } else p
    if on && r.dest.toNat.testBit 2 then p.toApplets r.hand n else p

/-- A notice of a code with a body. -/
def notice (p : Part) (source : Nat) (code : BitVec 16) (sev hand : Nat) (body : Bytes)
    (addressed : List (BitVec 32) := []) : Part :=
  p.raise { source := source, code := code, sev := sev, hand := hand, optime := p.optime, body := body } addressed

end Part

namespace Part

/-! ### Rate limits (R375, R376) -/

def bucketKey (die : Nat) (code : BitVec 16) : Nat := die * 65536 + code.toNat

/-- Rate and burst of a code on a die: the Deal's, or 100/s and 32 (R375, R376). -/
def limitOf (p : Part) (die : Nat) (code : BitVec 16) : Nat × Nat :=
  match (p.deal.active.map (·.limits)).getD [] |>.find? (fun e => e.code = code ∧ e.mask.toNat.testBit die) with
  | some e => (e.rate, e.burst)
  | none => (100, 32)

end Part

/-- Units of a token in a bucket: a rate of r tokens a second adds r units each engine cycle. -/
def tokenUnit := 3000000000

/-- A bucket's units at a time, at most its burst. -/
def refilled (b : Bucket) (rate burst now : Nat) : Nat := min (burst * tokenUnit) (b.amount + rate * (now - b.at_))

namespace Part

/-- The code's bucket: full when it was never used. -/
def codeBucket (p : Part) (die : Nat) (code : BitVec 16) : Nat :=
  let (rate, burst) := p.limitOf die code
  match Sparse.get? p.evr.buckets (bucketKey die code) with
  | some b => refilled b rate burst p.now
  | none => burst * tokenUnit

def globalBucket (p : Part) : Nat := refilled p.evr.global 200000 4096 p.now

/-- True when an occurrence passes both buckets (R375). -/
def passesRate (p : Part) (die : Nat) (code : BitVec 16) : Bool :=
  tokenUnit ≤ p.codeBucket die code && tokenUnit ≤ p.globalBucket

/-- One token leaves each bucket (R375). -/
def takeTokens (p : Part) (die : Nat) (code : BitVec 16) : Part :=
  p.setEvr { p.evr with
    buckets := Sparse.put p.evr.buckets (bucketKey die code) { amount := p.codeBucket die code - tokenUnit, at_ := p.now }
    global := { amount := p.globalBucket - tokenUnit, at_ := p.now } }

/-- A suppressed occurrence: counted, and carried by the next record of the code from the die (R375). -/
def suppress (p : Part) (die : Nat) (code : BitVec 16) : Part :=
  let byGlobal := tokenUnit ≤ p.codeBucket die code
  let k := bucketKey die code
  let p := p.setEvr { p.evr with supp := Sparse.set 0 p.evr.supp k (min 255 (Sparse.get 0 p.evr.supp k + 1)) }
  let p := p.bump (regAddr 0 winEVR 0x0108)
  if byGlobal then p.bump (regAddr 0 winEVR 0x0110) else p

/-- Creates and stores a record, taking the suppressed count of its code with it (R372, R375). The last sequence is never assigned: once it is
reached nothing is recorded, and one LOG_FATAL notice has gone out (17 R430). -/
def create (p : Part) (code : BitVec 16) (sev : Nat) (flags : Byte) (die : Nat) (p1 p2 p3 : Word) (toKitty : Bool := false) : Part :=
  let k := bucketKey die code
  if p.evr.seq = 2 ^ 48 - 1 then p.bump (regAddr 0 winEVR 0x0108)
  else
    let r := p.makeRec code sev flags (BitVec.ofNat 8 die) p1 p2 p3 (Sparse.get 0 p.evr.supp k)
    let p := (p.setEvr { p.evr with supp := Sparse.erase p.evr.supp k }).store r toKitty
    if p.evr.seq = 2 ^ 48 - 1 then p.notice 9 0x0908 4 0 (zeros 12) else p

/-- An occurrence presented to the recorder (R375): severity 4 and the recorder's own codes pass every limit. -/
def record (p : Part) (code : BitVec 16) (sev die : Nat) (p1 p2 p3 : Word) : Part :=
  if sev = 4 ∨ code.toNat / 256 = 9 then p.create code sev 0 die p1 p2 p3
  else if p.passesRate die code then (p.takeTokens die code).create code sev 0 die p1 p2 p3
  else p.suppress die code

end Part

namespace Part

/-- An event that writes a record and raises a notice whose body is the record's parameters (R386, R389). -/
def event (p : Part) (source : Nat) (code : BitVec 16) (sev die hand : Nat) (p1 p2 p3 : Nat) : Part :=
  let w := fun n => BitVec.ofNat 32 n
  (p.record code sev die (w p1) (w p2) (w p3)).notice source code sev hand
    (toBE 4 p1 ++ toBE 4 p2 ++ toBE 4 p3)

end Part

/-! ### Freezes (R377, R378) -/

namespace Part

/-- A freeze request: FROZEN is the last record before the freeze, or goes to the holding buffer of one in force. -/
def freeze (p : Part) (session : Nat) : Part :=
  let p := p.create 0x0905 1 0 0 (BitVec.ofNat 32 session) 0 0
  p.setEvr { p.evr with thawAt := some (p.now + sec 10) }

/-- A thaw: the held records with flag [6], HOLD_OVERFLOW if any were lost, then THAWED (R378). `by_` is 0 a command, 1 the
timeout, 2 a register write. -/
def thaw (p : Part) (by_ : Nat) : Part :=
  match p.evr.thawAt with
  | none => p
  | some _ =>
    let held := p.evr.hold
    let lost := p.evr.lost
    let first := p.evr.firstLost
    let p := p.setEvr { p.evr with thawAt := none, hold := [], lost := 0, firstLost := 0 }
    let p := held.foldl (fun p r => p.ringCopy { r with flags := r.flags ||| Rec.lateFlag } true) p
    let p := if lost = 0 then p else p.create 0x0901 2 0 0 (BitVec.ofNat 32 first) (BitVec.ofNat 32 lost) 0
    p.create 0x0906 1 0 0 (BitVec.ofNat 32 held.length) (BitVec.ofNat 32 by_) 0

/-! ### Log medium (R381, R382) -/

/-- Retires a block of the ring or of the pinned area: its records are lost and LOG_MEDIA_FAULT goes to the kitty. -/
def badBlock (p : Part) (pinned : Bool) (block : Nat) : Part :=
  let area := if pinned then p.evr.pinned else p.evr.ring
  let gone := area.filter (fun e => e.1 / 128 = block)
  let kept := area.filter (fun e => !(e.1 / 128 = block))
  let lowest := match gone.map (fun e => e.2.seq) with
    | [] => 0xFFFFFFFF
    | a :: r => (r.foldl min a) % 2 ^ 32
  let e := p.evr
  let p := p.setEvr (if pinned then { e with pinned := kept, badPin := if e.badPin.contains block then e.badPin else block :: e.badPin }
    else { e with ring := kept, badRing := if e.badRing.contains block then e.badRing else block :: e.badRing })
  p.create 0x0902 3 0 0 (if pinned then 1 else 0) (BitVec.ofNat 32 block) (BitVec.ofNat 32 lowest) true

/-- The kitty fails whole: FATAL, and a LOG_FATAL notice to every Open house-hand session and to its routing (R382). -/
def kittyFail (p : Part) : Part :=
  let p := p.setEvr { p.evr with fatal := true, kitty := [] }
  let houses := (p.xct.sessions.filter (fun x => x.hand = 0)).map (·.id)
  (p.create 0x0908 4 0 0 0 0 0).notice 9 0x0908 4 0 (zeros 12) houses

/-! ### ECC counts (01 R18, R19, R26) -/

/-- A saturating 32-bit count of a die; COUNT_SATURATED is written when it first saturates (R26). -/
def saturating (p : Part) (die window offset source : Nat) (old : BitVec 32) : Part :=
  if old.toNat + 1 = 0xFFFFFFFF then p.event source 0x0F12 2 die 0 window offset 0 else p

def satIncr (v : BitVec 32) : BitVec 32 := if v = 0xFFFFFFFF then v else v + 1

def dieSource (die : Nat) : Nat := if die = 0 then 0 else seatSource die 0

/-- The die's ECC count that n errors in a codeword step: 1, 2, or uncorrectable (R18). -/
def eccCount (p : Part) (die errors : Nat) : BitVec 32 :=
  if die = 0 then (if errors = 1 then p.power.ecc1 else if errors = 2 then p.power.ecc2 else p.power.eccu)
  else (if errors = 1 then (p.seat die).ecc1 else if errors = 2 then (p.seat die).ecc2 else (p.seat die).eccu)

def setEcc (p : Part) (die errors : Nat) (v : BitVec 32) : Part :=
  if die = 0 then
    { p with power := if errors = 1 then { p.power with ecc1 := v }
                      else if errors = 2 then { p.power with ecc2 := v } else { p.power with eccu := v } }
  else p.updSeat die (fun s => if errors = 1 then { s with ecc1 := v }
                      else if errors = 2 then { s with ecc2 := v } else { s with eccu := v })

/-- Offset of the ECC count register in SYS or SEAT. -/
def eccOffset (die errors : Nat) : Nat :=
  (if die = 0 then 0x40 else 0x10) + (if errors = 1 then 0 else if errors = 2 then 4 else 8)

/-- Where a word was read, as ECC_DOUBLE and ECC_UNCORRECTABLE name it (R385). -/
def locVault := 0
def locKeyCache := 1
def locOperand := 2
def locQueue := 3
def locSram := 4
def locMram := 5
def locLink := 6

/-- A decode with 1, 2 or 3 errors at a location (R18, R19, R385): counted, and recorded when double or uncorrectable. -/
def ecc (p : Part) (die errors location address : Nat) : Part :=
  let old := p.eccCount die errors
  let new := satIncr old
  let p := (p.setEcc die errors new).saturating die 0 (eccOffset die errors) (dieSource die) old
  if errors = 1 then p
  else if errors = 2 then p.event (dieSource die) 0x0F10 1 die 0 location address new.toNat
  else p.event (dieSource die) 0x0F11 3 die 0 location address new.toNat

/-- A word is read through the 80/64 code (R17, R18). -/
def decoded (p : Part) (die : Nat) (d : Decoded) (location address : Nat) : Part :=
  match d with
  | .clean => p
  | .single => p.ecc die 1 location address
  | .double => p.ecc die 2 location address
  | .uncorrectable => p.ecc die 3 location address

end Part

end Sys2Proof.Machine
end

