-- ==== Sys2Proof/Machine/Flags.lean ====
section
/-! DEFINITION. Status the part computes from its state: the service level (01 R22), Seats in service, awake tiles, session counts. -/

namespace Sys2Proof.Machine

/-- The halves in the order A0, A1, B0, B1 (03 R84, 04 R108). -/
def halfIndex : Half → Nat
  | .a0 => 0
  | .a1 => 1
  | .b0 => 2
  | .b1 => 3

/-- A host port half whose link is up, secured or not (03 HPx_LINK). -/
def HalfSt.up (h : HalfSt) : Bool := 2 ≤ h.link.toNat

/-- A host port at full width: its one 800G link, or both 400G halves, up (01 R22). -/
def fullWidth (port : HostPort) (h0 h1 : HalfSt) : Bool := h0.up && (!port.split || h1.up)

namespace Part

def seatIn (p : Part) (n : Nat) (st : SeatSt) : Bool := (p.seat n).st == st

/-- Seats in service (04 DISP_SEATS.INSVC). -/
def inService (p : Part) : List Nat := p.seatNums.filter (fun n => p.seatIn n .inService)

def mask (l : List Nat) : Nat := l.foldl (fun m n => m ||| 2 ^ n) 0

def anyPortUp (p : Part) : Bool := p.ha0.up || p.ha1.up || p.hb0.up || p.hb1.up

/-- The Seats the level counts: those in service, and the folded ones. DESIGN CHOICE, log 49: R22 does not say what level a part in Fold has.
A folded Seat counts here, so entry and wake write no SERVICE_LEVEL and R23 refuses nothing that R420 and R424 answer BUSY_DRAINING. -/
def levelSeats (p : Part) : List Nat := p.seatNums.filter (fun n => p.seatIn n .inService || p.seatIn n .folded)

/-- The service level the units in service give (01 R8, R22, 02 R48, 16 R413). -/
def levelNow (p : Part) : BitVec 2 :=
  if p.power.stage ≠ 7 ∨ p.power.life ≠ 1 ∨ p.power.badStacks ≠ 0 ∨ p.deal.failed = true ∨ p.power.dealerTrngOk = false ∨ p.anyPortUp = false then 0
  else if p.vault.st ≠ .open_ ∨ p.levelSeats = [] then 1
  else if p.levelSeats.length = p.seatCount ∧ fullWidth p.hpa p.ha0 p.ha1 = true ∧ fullWidth p.hpb p.hb0 p.hb1 = true then 3
  else 2

/-- Reports the level, with SERVICE_LEVEL and its notice when it changes (01 R22, 14 R385). -/
def relevel (p : Part) : Part :=
  let old := p.power.level
  let new := p.levelNow
  if old = new then p
  else ({ p with power := { p.power with level := new } }).event 0 0x0F13 2 0 0 old.toNat new.toNat (mask p.levelSeats)

/-- Tiles of a Seat in Running or Idle (01 SEAT_STATE.AWAKE); a tile that scrubs is clocked. -/
def awake (p : Part) (seat : Nat) : Nat :=
  ((List.range 28).filter (fun i => let t := (p.tile (seat * 32 + i)).st; t != .gated && t != .poweringDown)).length

/-- Commands of a session that are accepted and not answered (03 R85). -/
def unanswered (p : Part) (session : BitVec 32) : Nat :=
  (p.xct.cmds.filter (fun c => match c.origin with | .host x _ => x == session | .call .. => false)).length

/-- Accepted and unanswered commands of a hand, applet calls apart (03 R85, 02 R37). -/
def handInFlight (p : Part) (hand : Nat) : Nat :=
  (p.xct.cmds.filter (fun c => c.hand == hand && match c.origin with | .host .. => true | .call .. => false)).length

def findSession (p : Part) (id : BitVec 32) : Option Session := p.xct.sessions.find? (fun x => x.id = id)

def setSessions (p : Part) (l : List Session) : Part := { p with xct := { p.xct with sessions := l } }

def updSession (p : Part) (id : BitVec 32) (f : Session → Session) : Part :=
  p.setSessions (p.xct.sessions.map (fun x => if x.id = id then f x else x))

def findCmd (p : Part) (uid : Nat) : Option Cmd := p.xct.cmds.find? (fun c => c.uid = uid)

def setCmds (p : Part) (l : List Cmd) : Part := { p with xct := { p.xct with cmds := l } }

def updCmd (p : Part) (uid : Nat) (f : Cmd → Cmd) : Part :=
  p.setCmds (p.xct.cmds.map (fun c => if c.uid = uid then f c else c))

end Part

end Sys2Proof.Machine
end

