-- ==== Sys2Proof/Machine/Injector.lean ====
section
/-! DEFINITION. Shuffle's four stages on a frame of its target (17 R434): drop, corrupt, duplicate, reorder. -/

namespace Sys2Proof.Machine

namespace Shuffle

def dropMode (s : Shuffle) : Bool := s.drop.getLsbD 31
def dropValue (s : Shuffle) : Nat := s.drop.toNat % 65536
def corruptEvery (s : Shuffle) : Nat := s.corrupt.toNat / 65536 % 256
def dupEvery (s : Shuffle) : Nat := s.rdup.toNat / 2 ^ 24
def reorderEvery (s : Shuffle) : Nat := s.rdup.toNat / 65536 % 256
def holdFor (s : Shuffle) : Nat := s.rdup.toNat % 128

/-- The action bits: 0 drop, 1 corrupt, 2 duplicate... as SHUF_CTL [15:12] orders them: drop, corrupt, duplicate, reorder. -/
def does (s : Shuffle) (bit : Nat) : Bool := s.actions.getLsbD bit

/-! The stages read the selectors as they stand. DESIGN CHOICE, log 45: a selector rewritten while armed acts at once, also with a value
that arming would refuse, and an interval of 0 then acts as 1. -/

/-- The drop stage: every Nth frame (0 as 1, log 45), or with probability P/65,536 by the LFSR. -/
def drops (s : Shuffle) : Bool :=
  s.does 0 && (if s.dropMode then s.lfsr.toNat % 65536 < s.dropValue else s.frames % max 1 s.dropValue == 0)

/-- Corrupt, duplicate and reorder: every Nth frame of those not dropped (0 as 1, log 45). -/
def corrupts (s : Shuffle) : Bool := s.does 1 && s.kept % max 1 s.corruptEvery == 0
def dups (s : Shuffle) : Bool := s.does 2 && s.kept % max 1 s.dupEvery == 0
def holds (s : Shuffle) : Bool := s.does 3 && s.kept % max 1 s.reorderEvery == 0 && s.held.length < 64

end Shuffle

namespace Part

def setShuffle (p : Part) (s : Shuffle) : Part := { p with shuffle := s }

/-- One injection: counted, and recorded under its rate limit (17 R438). -/
def injected (p : Part) (action index session offset : Nat) : Part :=
  let p := (p.setShuffle { p.shuffle with injected := p.shuffle.injected + 1 }).bump (regAddr 0 winSHUF offset)
  p.event 15 0x0D03 1 0 0 action index session

/-- The deliveries of a held frame: itself and its copy. -/
def heldOut (h : HeldFrame) : List (ShufFrame × Bool) :=
  (h.frame, h.corrupt) :: (if h.dup then [(h.frame, h.corrupt)] else [])

/-- A further frame of the target passes: held frames that have waited long enough come out (17 R434). -/
def ageHeld (p : Part) : Part × List (ShufFrame × Bool) :=
  let aged := p.shuffle.held.map (fun h => { h with left := h.left - 1 })
  let out := aged.filter (fun h => h.left == 0)
  (p.setShuffle { p.shuffle with held := aged.filter (fun h => !(h.left == 0)) }, out.flatMap heldOut)

/-- A frame of the armed target passes the four stages; the answer lists what goes on, in order, with its damage. -/
def inject (p : Part) (f : ShufFrame) (session : Nat) : Part × List (ShufFrame × Bool) :=
  let p := (p.setShuffle { p.shuffle with frames := p.shuffle.frames + 1
                                          lfsr := Config.lfsrNext p.shuffle.lfsr }).bump (regAddr 0 winSHUF 0x0100)
  let idx := p.shuffle.frames
  if p.shuffle.drops then (p.injected 0 idx session 0x0108, [])
  else
    let p := p.setShuffle { p.shuffle with kept := p.shuffle.kept + 1 }
    let s := p.shuffle
    let (p, late) := p.ageHeld
    let p := if s.corrupts then p.injected 1 idx session 0x0110 else p
    let p := if s.dups then p.injected 2 idx session 0x0118 else p
    if s.holds then
      let h : HeldFrame := { frame := f, left := s.holdFor, dup := s.dups, corrupt := s.corrupts }
      ((p.setShuffle { p.shuffle with held := p.shuffle.held ++ [h] }).injected 3 idx session 0x0120, late)
    else (p, (f, s.corrupts) :: (if s.dups then [(f, s.corrupts)] else []) ++ late)

/-- Shuffle disarms, its held frames apart: SHUFFLE_DISARMED passes every limit (17 R436, R438). -/
def disarmed (p : Part) (cause : Nat) : Part :=
  let s := p.shuffle
  let w := fun n => BitVec.ofNat 32 n
  let p := (p.create 0x0D02 2 0 0 (w cause) (w s.frames) (w s.injected)).notice 15 0x0D02 2 0 (toBE 4 cause ++ toBE 4 s.frames ++ toBE 4 s.injected)
  p.setShuffle { p.shuffle with en := false, expiry := 0, held := [] }

/-- True when Shuffle is armed on host sessions of this direction (`code` 2 ingress, 3 egress) and selects this one. -/
def shufflesHost (p : Part) (code : Nat) (x : Session) : Bool :=
  p.shuffle.en && p.shuffle.target.toNat == code && x.drill && (p.shuffle.sess == 0 || p.shuffle.sess == x.id)

/-- True when Shuffle is armed on the partner port in this direction (`code` 0 ingress, 1 egress). -/
def shufflesPartner (p : Part) (code : Nat) : Bool := p.shuffle.en && p.shuffle.target.toNat == code

end Part

end Sys2Proof.Machine
end

