-- ==== Sys2Proof/Machine/Answer.lean ====
section
/-! DEFINITION. How an accepted command is answered: a host's response waits at XCT, an applet call's outcome is written to its
descriptor by the call DMA under its Slot Guard (03 R85, 10 R278, R279, R285). Also the SRAM of the applet cores and the Slot Guard's check. -/

namespace Sys2Proof.Machine

/-! ### Core SRAM (10 R271) -/

/-- Where a core's SRAM stands in the table of all core SRAM bytes. -/
def sramBase (seat core : Nat) : Nat := coreKey seat core * 0x200000

namespace Part

def setSram (p : Part) (m : List Host.Cell) : Part := { p with seats := { p.seats with sram := m } }

def readSram (p : Part) (seat core addr n : Nat) : Bytes := Memory.readBytes p.seats.sram (sramBase seat core + addr) n

def writeSram (p : Part) (seat core addr : Nat) (b : Bytes) : Part :=
  p.setSram (Memory.writeBytes p.seats.sram (sramBase seat core + addr) b)

def zeroSram (p : Part) (seat core addr n : Nat) : Part :=
  p.setSram (Memory.clear p.seats.sram (sramBase seat core + addr) n)

/-- The Deal a command of an epoch runs under: the active one, or the old one for old-epoch work (02 R50). -/
def dealOf (p : Part) (epoch : Nat) : Option Deal :=
  if epoch = p.deal.epoch then p.deal.active
  else match Sparse.get? p.deal.olds epoch with
    | some d => some d
    | none => p.deal.active

/-- A Deal whose images cores may still hold, by its serial. -/
def dealBySerial (p : Part) (serial : Nat) : Option Deal :=
  (p.deal.active.toList ++ p.deal.olds.map Prod.snd).find? (fun d => d.serial = serial)

/-- A hand's entry in the Deal of an epoch (02 R35). -/
def handEntry (p : Part) (epoch hand : Nat) : Option HandEntry :=
  ((p.dealOf epoch).map (·.hands)).getD [] |>.find? (fun e => e.hand = hand)

/-- The map entry of a core's resident image for a master, of the Deal the image came with: 0 a core, 1 the call DMA, 2 a fragment reader
(10 R281, 02 R52). -/
def mapOf (p : Part) (c : Core) (master : Nat) : Option MapEntry :=
  (((p.dealBySerial c.serial).map (·.maps)).getD []).find? (fun e => e.image = c.image ∧ e.master = master)

/-- The windows of a core's image for a master. -/
def windowsOf (p : Part) (c : Core) (master : Nat) : List GuardWindow := ((p.mapOf c master).map (·.windows)).getD []

end Part

/-- Attribute bit of an access kind: 0 read, 1 write, 2 execute (10 R281, R285). -/
def accessBit : Access → Nat
  | .read => 0
  | .write => 1
  | .fetch => 2

def GuardWindow.covers (w : GuardWindow) (addr : Nat) : Bool := w.len ≠ 0 && w.base ≤ addr && addr < w.base + w.len

/-- A byte is allowed when a window covering it grants the access kind (10 R285). -/
def guardAllows (ws : List GuardWindow) (k : Access) (addr : Nat) : Bool :=
  ws.any (fun w => w.covers addr && w.attrs.getLsbD (accessBit k))

/-- True when every byte of an access is allowed. -/
def guardAllowsAll (ws : List GuardWindow) (k : Access) (addr len : Nat) : Bool :=
  (List.range len).all (fun i => guardAllows ws k (addr + i))

/-- True when some byte matches two windows (10 R284). -/
def guardConflict (ws : List GuardWindow) (addr len : Nat) : Bool :=
  (List.range len).any (fun i => 2 ≤ (ws.filter (fun w => w.covers (addr + i))).length)

/-! ### Fold entry (16 R419, R420) -/

/-- Commands the part serves while folded, entering or waking (16 R420). -/
def servedFolded (code : Nat) : Bool :=
  (0x1001 ≤ code && code ≤ 0x1006) || code == 0x1302 || code == 0x1303 || code == 0x1304 || code == 0x1104 || code == 0x8002 ||
    code == 0x1601 || code == 0x1602 || code / 4096 == 9

namespace Part

/-- The 4 KiB pages of a range are written by an instance (10 R276). -/
def touch (p : Part) (seat core addr len : Nat) : Part :=
  if len = 0 then p
  else
    let pages := (List.range ((addr % 4096 + len + 4095) / 4096)).map (addr / 4096 + ·)
    p.updCore seat core (fun c => { c with dirty := c.dirty ++ pages.filter (fun k => !(c.dirty.contains k)) })

/-- A guarded write: the allowed bytes are written, the forbidden ones are not (10 R285). -/
def guardedWrite (p : Part) (ws : List GuardWindow) (seat core addr : Nat) : Bytes → Part
  | [] => p
  | b :: r =>
    let p := if guardAllows ws .write addr then p.writeSram seat core addr [b] else p
    guardedWrite p ws seat core (addr + 1) r

/-- A guarded read: forbidden bytes read zero (10 R285). -/
def guardedRead (p : Part) (ws : List GuardWindow) (seat core addr : Nat) : Nat → Bytes
  | 0 => []
  | n + 1 => (if guardAllows ws .read addr then Memory.read p.seats.sram (sramBase seat core + addr) else 0) ::
      guardedRead p ws seat core (addr + 1) n

/-- Commands that Fold entry drains: the accepted ones that are not answered, less those Fold serves, the attached sink's and Fold's own. -/
def draining (p : Part) : List Cmd :=
  p.xct.cmds.filter (fun c => c.place != .xct && !(servedFolded c.code) && c.code != 0x2204 && c.code != 0x1301)

/-- The end of the drain: td of R419. -/
def noteDrain (p : Part) : Part :=
  if p.power.fold = .entering ∧ p.power.drained.isNone = true ∧ p.draining = [] then
    { p with power := { p.power with drained := some p.now } }
  else p

/-! ### Removing and answering a command -/

def dropCmd (p : Part) (uid : Nat) : Part := p.setCmds (p.xct.cmds.filter (fun c => !(c.uid == uid)))

/-- The outputs streams of a command stay until acknowledged; its input streams close with it (03 R72, R73). -/
def closeStreams (p : Part) (uid : Nat) : Part :=
  { p with xct := { p.xct with streams := p.xct.streams.filter (fun x => !(x.uid == uid && (x.input || x.acked == x.data.length))) } }

/-- An outcome takes its place in the order of completion (03 R85). -/
def ordered (p : Part) (uid : Nat) : Part :=
  let n := p.xct.nextDone
  let p := p.updCmd uid (fun c => { c with doneSeq := n, doneAt := p.now / 2 })
  { p with xct := { p.xct with nextDone := n + 1 } }

/-- The counts of answers XCT keeps by status (03 'XCT registers'). -/
def countAnswer (p : Part) (status : BitVec 16) : Part :=
  if status = Status.lengthMismatch then p.bump (regAddr 0 winXCT 0x0138)
  else if status = Status.replayRejected then p.bump (regAddr 0 winXCT 0x0128)
  else if status = Status.windowExceeded then p.bump (regAddr 0 winXCT 0x0130)
  else if status = Status.handshakeFailed ∨ status = Status.sessionLimit then p.bump (regAddr 0 winXCT 0x0108)
  else p

/-- An instance that has exited normally ends once no call of it is outstanding (10 R277): its invocation's outcome goes up. -/
def finishExit (p : Part) (seat core : Nat) : Part :=
  let c := p.core seat core
  match c.pendingEnd, c.uid, c.calls with
  | some o, some uid, [] =>
    ((p.updCmd uid (fun x => { x with place := .up seat, status := o.status, payload := o.payload })).ordered uid).setCore seat core
      { c with run := .idle, pendingEnd := none, uid := none, lastHand := c.hand.toNat, hand := 0 }
  | _, _, _ => p

/-- Completes an applet call (10 R278, R279): the response, then status and length, and the mark last; a response beyond the
capacity completes with LENGTH_MISMATCH and writes nothing to the response area. A call of an ended instance leaves no trace. -/
def deliverCall (p : Part) (uid seat core : Nat) (desc : BitVec 32) (status : BitVec 16) (payload : Bytes) : Part :=
  let c := p.core seat core
  let p := ((p.closeStreams uid).dropCmd uid).noteDrain
  if c.calls.any (fun x => x.uid == uid) then
    let ws := p.windowsOf c 1
    let d := desc.toNat
    let cap := be (p.readSram seat core (d + 24) 4)
    let fits := payload.length ≤ cap
    let out := if fits then payload else []
    let p := (p.guardedWrite ws seat core (be (p.readSram seat core (d + 16) 8)) out).touch seat core (be (p.readSram seat core (d + 16) 8)) out.length
    let p := p.guardedWrite ws seat core (d + 2) (toBE 2 (if fits then status else Status.lengthMismatch).toNat)
    let p := p.guardedWrite ws seat core (d + 28) (toBE 2 out.length)
    let p := p.guardedWrite ws seat core (d + 31) [0xA5]
    let p := p.updCore seat core (fun c => { c with calls := c.calls.filter (fun x => !(x.uid == uid)) })
    p.finishExit seat core
  else p

/-- A lane command that released output and ends in another status than DONE or DONE_PROVISIONAL: the RETRACT notice, its record and
its count, ahead of the response (07 R199, R200). -/
def sendRetract (p : Part) (uid : Nat) (status : BitVec 16) : Part :=
  match p.findCmd uid with
  | none => p
  | some c => match c.retract with
    | none => p
    | some r =>
      if status = Status.done ∨ status = Status.doneProvisional ∨ r.last ≤ r.first then p
      else
        let p := p.updCmd uid (fun c => { c with retract := none })
        let p := p.bump (regAddr r.seat (if r.lane = 0 then swinLANEA else swinLANEB) 0x0120)
        let p := p.record 0x0330 2 r.seat (BitVec.ofNat 32 r.session.toNat) (BitVec.ofNat 32 r.stream.toNat)
          (BitVec.ofNat 32 (min (r.last - r.first) 0xFFFFFFFF))
        let body := toBE 4 r.session.toNat ++ toBE 4 r.stream.toNat ++ toBE 8 r.request.toNat ++ toBE 8 r.first ++ toBE 8 r.last
        let to_ := match c.origin with
          | .host x _ => [x]
          | .call .. => []
        p.notice (seatSource r.seat (1 + r.lane)) 0x0330 2 c.hand body to_

/-- Answers an accepted command: a host's response waits to be sent (03 R85), a call completes on its Seat (10 R278). -/
def answer (p : Part) (uid : Nat) (status : BitVec 16) (payload : Bytes := []) : Part :=
  let p := p.sendRetract uid status
  match p.findCmd uid with
  | none => p
  | some c => match c.origin with
    | .host _ _ =>
      ((((p.closeStreams uid).countAnswer status).updCmd uid (fun c => { c with place := .xct, status := status, payload := payload })).ordered uid).noteDrain
    | .call seat core desc => p.deliverCall uid seat core desc status payload

/-- A Seat's outcome: a host command's response starts across the Seat's link (01 'The life of one command'), a call completes
on the Seat. -/
def seatAnswer (p : Part) (seat uid : Nat) (status : BitVec 16) (payload : Bytes := []) : Part :=
  let p := p.sendRetract uid status
  match p.findCmd uid with
  | none => p
  | some c => match c.origin with
    | .host _ _ => ((p.closeStreams uid).updCmd uid (fun c => { c with place := .up seat, status := status, payload := payload })).ordered uid
    | .call s k desc => p.deliverCall uid s k desc status payload

end Part

end Sys2Proof.Machine
end

