-- ==== Sys2Proof/Machine/Records.lean ====
section
/-! DEFINITION. Stored slots and the bodies of journal records as bytes (05 R122, R147, R148, 13 R366). -/

namespace Sys2Proof.Machine

def Fuses.idBytes (f : Fuses) : Bytes := toBE 16 f.identity.toNat

/-! ### Slots as stored (05 R122) -/

def SlotState.code : SlotState → Nat
  | .empty => 0
  | .head => 1
  | .cont => 2
  | .retired => 3

/-- The 32-byte header of a slot (R122). -/
def Slot.header (s : Slot) : Bytes :=
  let isHead := s.st == .head
  toBE 1 s.st.code ++ toBE 1 (if s.st = .empty ∨ s.st = .retired then 0 else s.hand) ++ toBE 3 s.gen ++
  toBE 1 (if isHead then s.ktype else 0) ++ toBE 1 (if isHead then s.run else 0) ++ [if isHead then s.flags else 0] ++
  toBE 2 s.usages.toNat ++ toBE 7 s.uses ++ toBE 7 s.tdea ++ toBE 2 s.version.toNat ++ toBE 3 s.kcv.toNat ++
  toBE 1 s.size ++ zeros 2

/-- A continuation slot of a run. -/
def contSlot (s : Slot) : Slot := { st := .cont, hand := s.hand, gen := s.gen }

/-- The run of a key as stored: each slot's header, then its 224 bytes of the payload wrapped under the key-table key (R148). -/
def runBytes (ktk : Bytes) (s : Slot) : Bytes :=
  let w := padTo (224 * s.run) (kwpWrap ktk s.material)
  (List.range s.run).flatMap (fun i => (if i = 0 then s.header else (contSlot s).header) ++ slice w (224 * i) 224)

/-! ### Journal records (05 R147, R148, 13 R366) -/

def CtrState.code : CtrState → Nat
  | .uninit => 0
  | .live => 1
  | .exhausted => 2

def JBody.type : JBody → Nat
  | .slotWrite .. => 0x0001
  | .slotErase .. => 0x0002
  | .slotRetire .. => 0x0003
  | .counter .. => 0x0004
  | .allowance .. => 0x0005
  | .appData .. => 0x0006
  | .cut .. => 0x0007
  | .teardown .. => 0x0008
  | .pairing .. => 0x0010
  | .partnerLost .. => 0x0011
  | .promote .. => 0x0012
  | .rejoin .. => 0x0013

/-- The body of a record (R148, R366); key material goes out wrapped under the key-table key. -/
def JBody.bytes (ktk : Bytes) : JBody → Bytes
  | .slotWrite head s => toBE 4 head ++ toBE 1 s.run ++ zeros 3 ++ runBytes ktk s
  | .slotErase head run gen => toBE 4 head ++ toBE 1 run ++ toBE 3 gen
  | .slotRetire head run => toBE 4 head ++ toBE 1 run ++ zeros 3
  | .counter i st hw => toBE 4 i ++ toBE 1 st.code ++ zeros 3 ++ toBE 8 hw
  | .allowance head uses tdea => toBE 4 head ++ zeros 4 ++ toBE 8 uses ++ toBE 8 tdea
  | .appData off d => toBE 8 off ++ d
  | .cut serial dig => toBE 8 serial ++ dig
  | .teardown h inst s n c m a k =>
    toBE 1 h ++ zeros 3 ++ toBE 4 inst ++ toBE 4 s ++ toBE 4 n ++ toBE 4 c ++ toBE 4 m ++ toBE 4 a ++ toBE 4 k
  | .pairing id peer lead => toBE 4 id.toNat ++ zeros 4 ++ padTo 16 peer ++ toBE 1 (if lead then 1 else 2) ++ zeros 7
  | .partnerLost e h => toBE 8 e ++ toBE 8 h
  | .promote e => toBE 8 e ++ [48] ++ zeros 7
  | .rejoin e n full => toBE 8 e ++ toBE 8 n ++ [if full then 1 else 0] ++ zeros 7

/-- Bytes of a body, without computing it. -/
def JBody.size : JBody → Nat
  | .slotWrite _ s => 8 + 256 * s.run
  | .slotErase .. => 8
  | .slotRetire .. => 8
  | .counter .. => 16
  | .allowance .. => 24
  | .appData _ d => 8 + d.length
  | .cut .. => 56
  | .teardown .. => 32
  | .pairing .. => 32
  | .partnerLost .. => 16
  | .promote .. => 16
  | .rejoin .. => 24

end Sys2Proof.Machine
end

