-- ==== Sys2Proof/Machine/MirrorSend.lean ====
section
/-! DEFINITION. Sending a mirror frame to the partner (13 R353, R354), through Shuffle where it is armed on that direction (17 R434). -/

namespace Sys2Proof.Machine

/-! ### The bytes of a frame (R353) -/

/-- The index of an object in its kind, and the bit of a map frame it is (R363). -/
def Obj.index : Obj → Nat
  | .slot i => i
  | .ctr i => i
  | .app i => i

/-- A map's bits from its first index, in as many bytes as they need. -/
def mapBytes (first : Nat) (objs : List Obj) : Bytes :=
  let l := objs.map (fun o => o.index - first)
  let n := l.foldl (fun n i => max n (i / 8 + 1)) 0
  (List.range n).map (fun k => (l.filter (fun i => i / 8 == k)).foldl (fun (b : Byte) i => b ||| BitVec.ofNat 8 (2 ^ (7 - i % 8))) 0)

/-- A Mutation payload: type, hand, flags, lead epoch, and the record's body in the clear. -/
def mutationBytes (ktk : Bytes) (epoch hand flags : Nat) (b : JBody) : Bytes :=
  toBE 2 b.type ++ toBE 1 hand ++ toBE 1 flags ++ toBE 8 epoch ++ b.bytes ktk

/-- A frame's type and payload. -/
def MirrorMsg.bytes (ktk : Bytes) : MirrorMsg → Nat × Bytes
  | .mutation epoch hand flags body => (2, mutationBytes ktk epoch hand flags body)
  | .forward session request epoch hand body => (3, toBE 4 session.toNat ++ toBE 8 request.toNat ++ mutationBytes ktk epoch hand 0 body)
  | .leaseRequest i => (4, toBE 4 i ++ zeros 4)
  | .repairRequest line => (5, toBE 8 (64 * line))
  | .repairData line data => (5, toBE 8 (64 * line) ++ data)
  | .resyncMap kind first objs => (6, toBE 1 kind ++ zeros 3 ++ toBE 4 first ++ mapBytes first objs)
  | .resyncObject epoch hand body => (7, mutationBytes ktk epoch hand 0 body)
  | .event r => (8, r)

/-- A heartbeat's payload (R355). -/
def beatBytes (b : Beat) : Bytes :=
  toBE 8 b.serial.toNat ++ padTo 48 b.digest ++ toBE 8 b.epoch.toNat ++ [b.role, b.state, b.level] ++ zeros 5 ++ toBE 8 b.sent.toNat ++
    toBE 8 b.echo.toNat ++ toBE 8 b.delay.toNat

namespace Part

/-- A frame as it goes out: its 40-byte header as additional data, its payload sealed under this part's key, its IV's first word by direction and
apart for heartbeats (R353). -/
def mirrorWire (p : Part) (f : MirrorOut) : Bytes :=
  match p.part.pairing with
  | none => []
  | some x =>
    let low := decide (be p.fuses.idBytes < be x.peer)
    let (type, payload) := match f.msg, f.beat with
      | some m, _ => m.bytes (p.vault.ktk.getD [])
      | none, some b => (1, beatBytes b)
      | none, none => (1, [])
    let head := toBE 1 1 ++ toBE 1 type ++ zeros 2 ++ toBE 4 x.id.toNat ++ toBE 8 f.seq ++ toBE 8 f.ack ++ toBE 8 f.held ++
      toBE 4 payload.length ++ zeros 4
    let word := (if f.msg.isNone then 2 else 0) + (if low then 1 else 2)
    let (ct, tag) := gcmSeal (if low then x.k1 else x.k2) (toBE 4 word ++ toBE 8 f.seq) head payload
    head ++ ct ++ tag

def setPart (p : Part) (x : PartUnit) : Part := { p with part := x }

/-- Frames that leave the partner port. -/
def putOut (p : Part) (l : List (ShufFrame × Bool)) : Part :=
  let out := l.filterMap (fun e => match e.1 with
    | .partnerOut f => some { f with corrupt := e.2 }
    | _ => none)
  { p with ptx := out.reverse ++ p.ptx }

/-- A mirror frame reaches the partner port's transmit side; its header carries what this part has received and what its sink holds. -/
def transmit (p : Part) (f : MirrorOut) : Part :=
  let f : MirrorOut := { f with ack := p.part.recvSeq, held := p.part.heldSeq }
  let f : MirrorOut := { f with wire := p.mirrorWire f }
  if p.shufflesPartner 1 then
    let (p, l) := p.inject (.partnerOut f) 0
    p.putOut l
  else p.putOut [(.partnerOut f, false)]

/-- Sends a message under the next sequence, keeping it until the partner acknowledges it (13 R354). -/
def sendMirror (p : Part) (m : MirrorMsg) : Part :=
  let seq := p.part.sendSeq + 1
  (p.setPart { p.part with sendSeq := seq, sentMsgs := p.part.sentMsgs ++ [(seq, m, p.now)] }).transmit { seq := seq, msg := some m }

/-- Both parts hold mutations together (13 R358, R359). -/
def mirrored (p : Part) : Bool := p.part.st == .mirrored

/-- The part serves alone: in Solo, and in Linking, where it is paired and not mirroring (13 R358; R59 'continue as in solo'). -/
def solo (p : Part) : Bool := p.part.st == .solo || p.part.st == .linking

/-- The window of unacknowledged frames is full: new mutations wait (13 R354). -/
def windowFull (p : Part) : Bool := 4096 ≤ p.part.sentMsgs.length

/-- An object has a line in a group that is being re-encrypted: accesses to it wait (05 R140). -/
def inReenc (p : Part) (o : Obj) : Bool :=
  match o with
  | .slot i => p.vault.reenc.contains (i / 16)
  | .ctr i => p.vault.reenc.contains (2048 * 256 + i / 256)
  | .app b => p.vault.reenc.contains (6160 * 256 + b)

/-- An object accesses wait for: its group is being re-encrypted, or Resync has not settled it: it is in the deck difference, or, while the
partner's map is incomplete or the resync is full, any object is (05 R140, 13 R363, R365). -/
def unsettled (p : Part) (o : Obj) : Bool :=
  p.inReenc o || p.part.st == .resync && !(p.part.settled.contains o) &&
    ((p.part.full && !p.part.lead) || p.part.maps.length < 3 || p.part.soloMap.contains o || p.part.peerMap.contains o)

def paired (p : Part) : Bool := p.part.st != .unpaired

/-- Objects of the deck difference that are not settled (PART_RESYNC.LEFT). -/
def leftObjs (p : Part) : List Obj :=
  ((p.part.soloMap ++ p.part.peerMap).filter (fun o => !(p.part.settled.contains o))).dedup

/-- The µs a resync is expected to last: the bytes of the unsettled objects at the resync rate; unknown until both maps are (R365, 16 R424). -/
def resyncUs (p : Part) : Nat :=
  let size := fun (o : Obj) => match o with
    | .slot _ => 256
    | .ctr _ => 16
    | .app _ => 4096
  match p.deal.active.bind (·.partner) with
  | some e =>
    if p.part.maps.length < 3 then 0xFFFFFFFF
    else min 0xFFFFFFFE (p.leftObjs.foldl (fun n o => n + size o) 0 * 8 / (1000 * e.rate) + 1)
  | none => 0xFFFFFFFF

/-- The lead epoch (13 R357); 0 when unpaired. -/
def leadEpoch (p : Part) : Nat := match p.part.pairing with
  | some x => x.epoch
  | none => 0

/-- A part that orders mutations itself: unpaired, or the lead (13 R359). -/
def orders (p : Part) : Bool := !p.paired || p.part.lead

end Part

end Sys2Proof.Machine
end

