-- ==== Sys2Proof/Machine/Operands.lean ====
section
/-! DEFINITION. Operand forms the commands share: key handles and their checks (05 R120, R121), key types, usages and policies
(05 R123 to R126), ranges of a hand (02 R35). -/

namespace Sys2Proof.Machine

/-! ### Key handles (05 R120) -/

structure Handle where
  hand : Nat
  gen : Nat
  reserved : Nat
  slot : Nat
deriving DecidableEq, Repr

/-- The handle eight bytes spell. -/
def handleOf (b : Bytes) : Handle :=
  let low := field b 4 4
  { hand := field b 0 1, gen := field b 1 3, reserved := low / 2 ^ 23, slot := low % 2 ^ 23 }

def handleBytes (hand gen slot : Nat) : Bytes := toBE 1 hand ++ toBE 3 gen ++ toBE 4 slot

/-! ### Key types (05 R123, R124) -/

/-- Usage bits (R124). -/
def uPin := 0
def uData := 1
def uMacGen := 2
def uMacVer := 3
def uWrap := 4
def uDerive := 5
def uSign := 6
def uVerify := 7
def uContext := 8
/-- No usage: a key that a command takes as its data, whatever its type (R130). -/
def uNone := 16

def bits (l : List Nat) : BitVec 16 := BitVec.ofNat 16 (l.foldl (fun m b => m ||| 2 ^ b) 0)

/-- The usages a key type admits; none for a code that is no type (R123). -/
def admitted (t : Nat) : Option (BitVec 16) :=
  if 0x01 ≤ t ∧ t ≤ 0x03 then some (bits [0, 1, 2, 3, 4, 5, 8])
  else if t = 0x04 ∨ t = 0x05 then some (bits [0, 1, 2, 3, 4, 5])
  else if t = 0x06 then some (bits [2, 3, 5])
  else if 0x10 ≤ t ∧ t ≤ 0x12 then some (bits [5, 6])
  else if t = 0x13 then some (bits [6])
  else if t = 0x14 then some (bits [5])
  else if 0x18 ≤ t ∧ t ≤ 0x1B then some (bits [7])
  else if t = 0x20 then some (bits [4, 6])
  else if t = 0x21 then some (bits [4, 7])
  else if t = 0x30 then some (bits [4])
  else if t = 0x31 then some (bits [7])
  else none

def isAes (t : Nat) : Bool := 0x01 ≤ t && t ≤ 0x03
def isTdea (t : Nat) : Bool := t == 0x04 || t == 0x05

/-- Bytes of clear content of a key (R123); `size` is the header's size field (R122). -/
def contentLen (t size : Nat) : Nat :=
  let k := 32 * size
  if t = 0x01 then 16 else if t = 0x02 then 24 else if t = 0x03 then 32
  else if t = 0x04 then 16 else if t = 0x05 then 24
  else if t = 0x06 then size
  else if t = 0x10 then 96 else if t = 0x11 then 144 else if t = 0x12 then 198
  else if t = 0x13 ∨ t = 0x14 then 64
  else if t = 0x18 then 64 else if t = 0x19 then 96 else if t = 0x1A then 132 else if t = 0x1B then 32
  else if t = 0x20 then 9 * k / 2 + 8 else if t = 0x21 then k + 8
  else if t = 0x30 then 3168 else if t = 0x31 then 2592
  else 0

/-- Slots of a key's run (R123). -/
def runLength (t size : Nat) : Nat :=
  let k := 32 * size
  if t = 0x20 then (9 * k / 2 + 16 + 223) / 224 else if t = 0x21 then (k + 16 + 223) / 224
  else if t = 0x30 then 15 else if t = 0x31 then 12 else 1

/-- Leftmost three bytes of the key check value (R122). -/
def checkValue (t : Nat) (m : Bytes) : Bytes :=
  if isAes t then (cmac 16 (aesEnc m) (zeros 16)).take 3
  else if isTdea t then (tdeaEnc m (zeros 8)).take 3
  else zeros 3

/-- A usage set a key of a type may be entered with (R124). -/
def usagesOk (t : Nat) (u : BitVec 16) : Bool :=
  match admitted t with
  | some a => u != 0 && (u &&& a) == u
  | none => false

/-! ### Key policy (05 R125, R126) -/

structure Policy where
  usages : BitVec 16
  exportOk : Bool
  provisional : Bool
  tdeaEnforced : Bool
  importOk : Bool
  generateOk : Bool
  componentsOk : Bool
  tdeaLimit : Option Nat        -- the exponent
  usageLimit : Nat
deriving DecidableEq, Repr

def maxUses : Nat := 2 ^ 56 - 1

def PolicyEntry.toPolicy (e : PolicyEntry) : Policy :=
  { usages := e.usages, exportOk := e.flags.getLsbD 0, provisional := e.flags.getLsbD 1, tdeaEnforced := e.flags.getLsbD 2
    importOk := e.flags.getLsbD 3, generateOk := e.flags.getLsbD 4, componentsOk := e.flags.getLsbD 5
    tdeaLimit := if isTdea e.ktype then some e.tdeaLimit else none
    usageLimit := if e.usageLimit = 0 then maxUses else e.usageLimit }

/-- The policy of a hand for a key type under a Deal; none where the hand may hold no such key (R126). -/
def policyOf (d : Option Deal) (hand t : Nat) : Option Policy :=
  let mine := ((d.map (·.policy)).getD []).filter (fun e => e.hand = hand)
  if hand = 0 ∧ mine = [] then
    (admitted t).map (fun a => { usages := a, exportOk := true, provisional := false, tdeaEnforced := false, importOk := true
                                 generateOk := true, componentsOk := true, tdeaLimit := none, usageLimit := maxUses })
  else (mine.find? (fun e => e.ktype = t)).map PolicyEntry.toPolicy

/-! ### What a hand holds (02 R35, R53, R54) -/

/-- The object lies in the ranges of an entry. -/
def HandEntry.holds (e : HandEntry) : Obj → Bool
  | .slot i => e.slotBase ≤ i && i < e.slotBase + e.slotCount
  | .ctr i => e.ctrBase ≤ i && i < e.ctrBase + e.ctrCount
  | .app i => e.appBase * 256 ≤ i && i < (e.appBase + e.appSize) * 256

/-- Cycles a teardown takes: 25 µs, and what it clears at 64 bytes per nanosecond; a hand that goes loses its 65,536 context records too. -/
def tearCycles (l : List HandEntry) (whole : Bool) : Nat :=
  let bytes := l.foldl (fun n e => n + 256 * e.slotCount + 16 * e.ctrCount + 1048576 * e.appSize) (if whole then 65536 * 256 else 0)
  usec 25 + (3 * bytes + 63) / 64

/-- Payload of BUSY_DRAINING (16 R424): reason, and µs to completion. -/
def busyPayload (why remaining : Nat) : Bytes := toBE 1 why ++ zeros 3 ++ toBE 4 (min remaining 0xFFFFFFFF)

/-! ### Lines of the vault (01 R9, 05 R140) -/

def slotLine (i : Nat) : Nat := 4 * i
def ctrLine (i : Nat) : Nat := (2048 * 1048576 + 16 * i) / 64
/-- A context record's line; each hand has 65,536 records of 256 bytes (07 R210). -/
def ctxLine (hand i : Nat) : Nat := (2064 * 1048576 + (hand * 65536 + i) * 256) / 64
def appLine (byte : Nat) : Nat := (6160 * 1048576 + byte) / 64

/-- Lines of the four protected regions: 14 GiB and 112 MiB... the table of R9 in order, 64 bytes each. -/
def vaultLines : Nat := 14336 * 1048576 / 64

/-- The vault stack that holds a line: 4 KiB blocks alternate (01 R8). -/
def stackOf (line : Nat) : Nat := line / 64 % 2

namespace Part

/-- A line fails while it is poisoned, and while its stack does not serve. -/
def linePoisoned (p : Part) (line : Nat) : Bool := p.vault.poisoned.contains line || p.power.badStacks.getLsbD (stackOf line)

def slotPoisoned (p : Part) (i : Nat) : Bool := (List.range 4).any (fun j => p.linePoisoned (slotLine i + j))

def runPoisoned (p : Part) (head run : Nat) : Bool := (List.range run).any (fun j => p.slotPoisoned (head + j))

/-- A slot as commands of an epoch see it: a retired slot that came back at the cut is still retired for old-epoch work (05 R138). -/
def slotSeen (p : Part) (epoch i : Nat) : Slot :=
  match p.deal.cut with
  | some c => match (if epoch ≠ p.deal.epoch then c.returned.find? (fun e => e.1 = i) else none) with
    | some e => e.2
    | none => p.slot i
  | none => p.slot i

/-- A slot index lies within the hand's range in an epoch (02 R35). -/
def slotInHand (p : Part) (epoch hand i : Nat) : Bool :=
  match p.handEntry epoch hand with
  | some e => e.slotBase ≤ i && i < e.slotBase + e.slotCount
  | none => false

def ctrInHand (p : Part) (epoch hand i : Nat) : Bool :=
  match p.handEntry epoch hand with
  | some e => e.ctrBase ≤ i && i < e.ctrBase + e.ctrCount
  | none => false

/-- When the teardown of what an entry of the cut covers is expected to end, of the entries a test picks; none where none is being torn down: with
its hand's teardown run, that one's end; before, the latest end there can be (02 R51 to R54). -/
def tearEnd (p : Part) (inside : HandEntry → Bool) : Option Nat :=
  match p.deal.cut with
  | none => none
  | some c => match c.tc with
    | none => none
    | some tc =>
      let ends := (c.removed.filter inside).filterMap (fun e => match c.clearing.find? (fun x => x.1 = e.hand) with
        | some x => some x.2
        | none => if c.torn.contains e.hand then none
          else some (tc + msec 100 + tearCycles (c.removed.filter (fun f => f.hand = e.hand)) (c.gone.contains e.hand)))
      ends.foldl (fun m t => some (max t (m.getD 0))) none

def slotTearEnd (p : Part) (i : Nat) : Option Nat := p.tearEnd (fun e => e.holds (.slot i))

/-- A slot whose teardown of a removed hand is unfinished (02 R54). -/
def slotTearing (p : Part) (i : Nat) : Bool := (p.slotTearEnd i).isSome

/-- A counter, and a byte of applet data, whose teardown of a removed hand is unfinished (02 R54). -/
def ctrTearing (p : Part) (i : Nat) : Bool := (p.tearEnd (fun e => e.holds (.ctr i))).isSome

def appTearing (p : Part) (byte : Nat) : Bool := (p.tearEnd (fun e => e.holds (.app (byte / 4096)))).isSome

/-- µs from now to a time, rounded up. -/
def usUntil (p : Part) (t : Nat) : Nat := (t - p.now + 2999) / 3000

/-- Payload of BUSY_DRAINING for a teardown (02 R54, 16 R424). -/
def tearPayload (p : Part) (inside : HandEntry → Bool) : Bytes :=
  busyPayload 3 (p.usUntil ((p.tearEnd inside).getD p.now))

/-- A counter as commands of an epoch see it: empty for new-epoch work while it is being torn down (02 R54). -/
def ctrSeen (p : Part) (epoch i : Nat) : Counter := if epoch = p.deal.epoch ∧ p.ctrTearing i = true then {} else p.ctr i

/-! ### The checks of a handle (05 R121) -/

/-- Checks 1 to `upto`, of the first five, on a handle of a command of a hand and epoch. -/
def handleFault (p : Part) (epoch hand : Nat) (b : Bytes) (upto : Nat) : Option (BitVec 16) :=
  let h := handleOf b
  let s := p.slotSeen epoch h.slot
  if h.reserved ≠ 0 ∨ h.hand ≠ hand then some Status.accessFault
  else if p.slotInHand epoch hand h.slot = false then some Status.accessFault
  else if p.slotTearing h.slot = true ∧ epoch = p.deal.epoch then some Status.keyEmpty
  else if s.gen ≠ h.gen then
    some (if p.part.voids.any (fun v => v.1 == BitVec.ofNat 64 (be (b.take 8))) then Status.partnerConflict else Status.keyGenerationStale)
  else if s.st ≠ .head then some Status.keyEmpty
  else if 5 ≤ upto ∧ p.runPoisoned h.slot s.run = true then some Status.abortedScrubbed
  else none

/-- Check 6: the type is one the command takes, the key carries one of the usages, and the policy of the epoch permits it. An exported key is
held to R130 instead. -/
def usageFault (p : Part) (epoch hand : Nat) (s : Slot) (types : List Nat) (usage : Nat) : Option (BitVec 16) :=
  if usage = uNone then none
  else if types.contains s.ktype = false then some Status.keyUsageDenied
  else if s.usages.getLsbD usage = false then some Status.keyUsageDenied
  else match policyOf (p.dealOf epoch) hand s.ktype with
    | none => some Status.keyUsageDenied
    | some q => if q.usages.getLsbD usage = true then none else some Status.keyUsageDenied

/-- The enforced TDEA limit of a key in blocks, if any (R132). -/
def tdeaCap (q : Policy) : Option Nat := if q.tdeaEnforced then q.tdeaLimit.map (2 ^ ·) else none

end Part

end Sys2Proof.Machine
end

