-- ==== Sys2Proof/Machine/Frames.lean ====
section
/-! DEFINITION. XCT frames as they leave (03 R63 to R66, R80): the header, sealing, and what carries them back on the path of the request. -/

namespace Sys2Proof.Machine

/-- The 32-byte header of a frame (R65). -/
def frameHeader (flags : Byte) (hand : Nat) (session : BitVec 32) (seq : Nat) (request : BitVec 64) (code : Nat) (status : BitVec 16)
    (plen : Nat) : Bytes :=
  toBE 1 1 ++ [flags] ++ toBE 1 32 ++ toBE 1 hand ++ toBE 4 session.toNat ++ toBE 8 seq ++ toBE 8 request.toNat ++ toBE 2 code ++
    toBE 2 status.toNat ++ toBE 4 plen

/-- The flags of a frame the part sends: a stream segment, a notice, an acknowledgement, or a response (R65, R71, R72, R88). -/
def flagsOut (code : Nat) (sealed : Bool) : Byte :=
  (if code = 0x1006 then 0x08 else if code = 0x9001 then 0x10 else if code = 0x1005 then 0 else 0x01) ||| (if sealed then 0x20 else 0)

/-- The bytes of a frame: clear, or sealed under the session's key from part to host (R80). -/
def frameBytes (key : Option Bytes) (flags : Byte) (hand : Nat) (session : BitVec 32) (seq : Nat) (request : BitVec 64) (code : Nat)
    (status : BitVec 16) (payload : Bytes) : Bytes :=
  let head := frameHeader flags hand session seq request code status payload.length
  match key with
  | none => head ++ payload
  | some k =>
    let (ct, tag) := gcmSeal k (toBE 4 2 ++ toBE 8 seq) head payload
    head ++ ct ++ tag

/-! ### UDP (R63) -/

/-- The one's complement sum of 16-bit words, an odd last byte taken with a zero behind it. -/
def onesSum (b : Bytes) : Nat :=
  let s := (chunks 2 b).foldl (fun n w => n + be (padTo 2 w)) 0
  let s := s % 65536 + s / 65536
  s % 65536 + s / 65536

/-- The address bytes of a path's IP version. -/
def Path.ipBytes (x : Path) (a : BitVec 128) : Bytes := toBE (if x.encap = .udp4 then 4 else 16) a.toNat

/-- The UDP checksum of a frame sent back on a path: over the pseudo-header, the UDP header and the frame; a sum of 0 goes out as all ones. -/
def Path.checksum (x : Path) (wire : Bytes) : Option (BitVec 16) :=
  if x.encap = .eth then none
  else
    let len := 8 + wire.length
    let s := onesSum (x.ipBytes x.own ++ x.ipBytes x.peer ++ toBE 4 17 ++ toBE 4 len ++
      toBE 2 x.ownPort.toNat ++ toBE 2 x.peerPort.toNat ++ toBE 2 len ++ [0, 0] ++ wire)
    let c := 65535 - s % 65536
    some (BitVec.ofNat 16 (if c = 0 then 65535 else c))

/-- A frame on its way out, on a path: source and destination are swapped against the request's, and IPv4 carries DF. -/
def frameOut (path : Path) (key : Option Bytes) (hand : Nat) (session : BitVec 32) (seq : Nat) (request : BitVec 64) (code : Nat)
    (status : BitVec 16) (payload : Bytes) : OutFrame :=
  let flags := flagsOut code key.isSome
  let wire := frameBytes key flags hand session seq request code status payload
  { session := session, seq := seq, request := request, code := code, status := status, payload := payload, sealed_ := key.isSome
    path := path, flags := flags, hand := hand, wire := wire, df := path.encap == .udp4, checksum := path.checksum wire }

end Sys2Proof.Machine
end

