-- ==== Sys2Proof/Machine/Vault.lean ====
section
/-! DEFINITION. The vault controller's shared operations (05): journal records and their bytes, mutations from formation to commit,
what a record does when it is applied, generations and retirement, teardown, leases and allowances. -/

namespace Sys2Proof.Machine

namespace VStatus
def journalUnavailable : BitVec 16 := 0x0207
def slotRetired : BitVec 16 := 0x0208
def keyBlockInvalid : BitVec 16 := 0x0209
def deckRejected : BitVec 16 := 0x020A
def slotOccupied : BitVec 16 := 0x020B
end VStatus

/-! ### Stored slots and records read (05 R122, R147, R148) -/

/-- The head slot a stored run spells, unwrapped. -/
def parseRun (ktk : Bytes) (b : Bytes) : Option Slot :=
  let n := field b 6 1
  let t := field b 5 1
  let size := field b 29 1
  let w := (List.range n).flatMap (fun i => slice b (256 * i + 32) 224)
  let len := contentLen t size
  match kwpUnwrap ktk (w.take (len + padding 8 len + 8)) with
  | none => none
  | some m => some { st := .head, hand := field b 1 1, gen := field b 2 3, ktype := t, run := n, flags := byteAt b 7
                     usages := BitVec.ofNat 16 (field b 8 2), uses := field b 10 7, tdea := field b 17 7
                     version := BitVec.ofNat 16 (field b 24 2), kcv := BitVec.ofNat 24 (field b 26 3), size := size, material := m }

def ctrStateOf : Nat → Option CtrState
  | 0 => some .uninit
  | 1 => some .live
  | 2 => some .exhausted
  | _ => none

def JRec.size (r : JRec) : Nat := 48 + r.body.size

/-- The body a record type and its bytes spell; none for a type that is not listed (R148). -/
def parseBody (ktk : Bytes) (type : Nat) (b : Bytes) : Option JBody :=
  if type = 1 then (parseRun ktk (b.drop 8)).map (.slotWrite (field b 0 4))
  else if type = 2 then some (.slotErase (field b 0 4) (field b 4 1) (field b 5 3))
  else if type = 3 then some (.slotRetire (field b 0 4) (field b 4 1))
  else if type = 4 then (ctrStateOf (field b 4 1)).map (fun st => .counter (field b 0 4) st (field b 8 8))
  else if type = 5 then some (.allowance (field b 0 4) (field b 8 8) (field b 16 8))
  else if type = 6 then some (.appData (field b 0 8) (b.drop 8))
  else if type = 7 then some (.cut (field b 0 8) (slice b 8 48))
  else if type = 8 then
    some (.teardown (field b 0 1) (field b 4 4) (field b 8 4) (field b 12 4) (field b 16 4) (field b 20 4) (field b 24 4) (field b 28 4))
  else if type = 0x10 then some (.pairing (BitVec.ofNat 32 (field b 0 4)) (slice b 8 16) (field b 24 1 == 1))
  else if type = 0x11 then some (.partnerLost (field b 0 8) (field b 8 8))
  else if type = 0x12 then some (.promote (field b 0 8))
  else if type = 0x13 then some (.rejoin (field b 0 8) (field b 8 8) (field b 16 1 == 1))
  else none

/-- The key of an incarnation's journal (R147). -/
def journalKey (identity root : Bytes) (incarnation : Nat) : Bytes :=
  hkdfExpand384 (hkdfExtract384 identity root) (ascii "XF24 journal" ++ toBE 4 incarnation) 32

/-- The key of a deck (R149). -/
def deckKey (identity root salt : Bytes) (version : Nat) : Bytes :=
  hkdfExpand384 (hkdfExtract384 salt root) (ascii "XF24 deck" ++ identity ++ toBE 8 version) 32

def journalIv (seq : Nat) : Bytes := [0x4A, 0x52, 0x4E, 0x4C] ++ toBE 8 seq

/-- The clear header of a record (R147). -/
def JRec.header (r : JRec) : Bytes :=
  toBE 8 r.seq ++ toBE 4 r.incarnation ++ toBE 2 r.body.type ++ toBE 1 r.hand ++
  toBE 1 ((if r.solo then 1 else 0) + (if r.fromPartner then 2 else 0)) ++ toBE 8 r.epoch ++ toBE 5 r.optime ++ toBE 3 r.body.size

/-- A record as the sink receives it (R147). -/
def JRec.bytes (identity root ktk : Bytes) (r : JRec) : Bytes :=
  let (ct, tag) := gcmSeal (journalKey identity root r.incarnation) (journalIv r.seq) r.header (r.body.bytes ktk)
  r.header ++ ct ++ tag

/-! ### Streams the part sends (03 R73) -/

/-- Bytes a stream may send now: up to the acknowledged offset plus the window. -/
def Stream.limit (x : Stream) (windowKiB : Nat) : Nat := min x.data.length (x.acked + windowKiB * 1024)

/-- STREAM_DATA payloads for the bytes from `off` on: the segment header and at most 8,936 bytes each (03 R64, R71). -/
def segments (id : BitVec 32) (ended : Option Nat) (off : Nat) (b : Bytes) : List Bytes :=
  (chunks 8936 b).zipIdx.map (fun e =>
    let o := off + 8936 * e.2
    toBE 4 id.toNat ++ toBE 4 (if ended = some (o + e.1.length) then 1 else 0) ++ toBE 8 o ++ e.1)

namespace Part

def setStreams (p : Part) (l : List Stream) : Part := { p with xct := { p.xct with streams := l } }

def findStream (p : Part) (session id : BitVec 32) : Option Stream :=
  p.xct.streams.find? (fun x => x.session = session ∧ x.id = id)

def updStream (p : Part) (session id : BitVec 32) (f : Stream → Stream) : Part :=
  p.setStreams (p.xct.streams.map (fun x => if x.session = session ∧ x.id = id then f x else x))

/-- Frames leave a host port half. -/
def putTx (p : Part) (l : List (ShufFrame × Bool)) : Part :=
  let out := l.filterMap (fun e => match e.1 with
    | .hostOut f => some { f with corrupt := e.2 }
    | _ => none)
  { p with tx := out.reverse ++ p.tx }

/-- A half that can send: up, and its priority 0 not paused (R61). -/
def canSend (p : Part) (h : Half) : Bool := (p.half h).up && !(p.half h).paused.getLsbD 0

/-- A frame of a session leaves under the session's next sequence (03 R81), sealed where the session is (R80), on a path (R63), through Shuffle where
it is armed on the session's egress. A sequence that reaches its end puts the session into Closing. -/
def emit (p : Part) (session : BitVec 32) (request : BitVec 64) (code : Nat) (status : BitVec 16) (payload : Bytes) (path : Path) : Part :=
  match p.findSession session with
  | none => p
  | some x =>
    let seq := x.seqOut + 1
    let key := if x.sealOn && x.st != .offered then some x.keyOut else none
    let f := frameOut path key x.hand session seq request code status payload
    let p := p.updSession session (fun x =>
      if seq = 2 ^ 64 - 1 then { x with seqOut := seq, st := .closing, closingAt := p.now } else { x with seqOut := seq })
    if p.shufflesHost 3 x then
      let (p, l) := p.inject (.hostOut f) session.toNat
      p.putTx l
    else p.putTx [(.hostOut f, false)]

/-- Sends what an output stream may send (03 R73), from the half of the session's most recently accepted frame (DEDUCED, log 65), while that half
can send (R61). -/
def pump (p : Part) (session id : BitVec 32) : Part :=
  match p.findSession session, p.findStream session id with
  | some s, some x =>
    let lim := x.limit s.swin
    if x.input ∨ lim ≤ x.announced ∨ p.canSend s.half = false then p
    else
      let segs := segments id x.ended x.announced (slice x.data x.announced (lim - x.announced))
      let p := p.updStream session id (fun x => { x with announced := lim, lastAt := p.now })
      segs.foldl (fun p b => p.emit session 0 0x1006 0 b s.path) p
  | _, _ => p

/-- Output that waited for a half goes out. -/
def pumpAll (p : Part) : Part := p.xct.streams.foldl (fun p y => p.pump y.session y.id) p

/-- Appends bytes to an output stream; `last` marks its end. -/
def produce (p : Part) (session id : BitVec 32) (b : Bytes) (last : Bool := false) : Part :=
  (p.updStream session id (fun x =>
    { x with data := x.data ++ b, ended := if last then some (x.data.length + b.length) else x.ended })).pump session id

/-! ### The journal (05 R145, R146) -/

def setVault (p : Part) (v : VaultUnit) : Part := { p with vault := v }

def setJournal (p : Part) (j : Journal) : Part := p.setVault { p.vault with journal := j }

def journalSize : Nat := 16 * 1048576
def journalReserve : Nat := 1048576

/-- Room for a record: the last 1 MiB is for the part's own records, less what a cut has reserved (R146, R49). -/
def journalRoom (p : Part) (own forCut : Bool) (size : Nat) : Bool :=
  let j := p.vault.journal
  if forCut then j.used + size ≤ journalSize
  else if own then j.used + j.reserved + size ≤ journalSize
  else j.used + size ≤ journalSize - journalReserve

/-- Sends the sink the records it has not been sent (R145). -/
def feedSink (p : Part) : Part :=
  match p.vault.journal.sink with
  | none => p
  | some (session, stream, _) =>
    let j := p.vault.journal
    let todo := j.buffer.filter (fun r => j.sent < r.seq)
    let last := todo.foldl (fun m r => max m r.seq) j.sent
    let bytes := todo.map (JRec.bytes p.fuses.idBytes (p.vault.root.getD []) (p.vault.ktk.getD []))
    let start := (p.findStream session stream).elim 0 (·.data.length)
    let ends := (bytes.foldl (fun (w : Nat × List Nat) b => (w.1 + b.length, w.2 ++ [w.1 + b.length])) (start, [])).2
    (p.setJournal { j with sent := last, marks := j.marks ++ List.zip (todo.map (·.seq)) ends }).produce session stream bytes.flatten

/-- Forms a record: the next sequence, into the buffer, on to the sink (R145, R147). -/
def writeJournal (p : Part) (hand : Nat) (fromPartner : Bool) (epoch : Nat) (body : JBody) : Part × JRec :=
  let j := p.vault.journal
  let r : JRec := { seq := j.next, incarnation := p.vault.incarnation, hand := hand, solo := p.solo, fromPartner := fromPartner
                    epoch := epoch, optime := p.optime, body := body }
  ((p.setJournal { j with next := j.next + 1, buffer := j.buffer ++ [r], used := j.used + r.size }).feedSink, r)

/-! ### Line counters (05 R140) -/

/-- A line's minor counter: its own writes, and the sweeps that covered it, since its group's major counter last moved. -/
def minorOf (p : Part) (line : Nat) : Nat :=
  Sparse.get 0 p.vault.minors line +
    ((p.vault.sweeps.drop (Sparse.get 0 p.vault.swept (line / 64))).filter (fun r => r.1 ≤ line && line < r.1 + r.2)).length

/-- A line as its stack holds it: AES-256 in counter mode under the line key; the counter block is of the address and both counters. -/
def sealedLine (p : Part) (line : Nat) (plain : Bytes) : Bytes :=
  let block := Config.lineBlock line (p.minorOf line) (Sparse.get 0 p.vault.majors (line / 64))
  xorBytes plain (((List.range 4).map (fun i => aesEnc p.vault.lineKey (toBE 16 ((be block + i) % 2 ^ 128)))).flatten)

/-- The MAC of a line in the integrity region (01 R9). -/
def lineMac (p : Part) (line : Nat) (plain : Bytes) : BitVec 64 :=
  Config.lineMac p.vault.macKey (p.sealedLine line plain) line (p.minorOf line) (Sparse.get 0 p.vault.majors (line / 64))

/-- The root of the integrity tree, held on die: of every counter that has moved. -/
def treeRoot (p : Part) : BitVec 64 := Config.treeRoot p.vault.macKey p.vault.minors p.vault.majors p.vault.sweeps

/-- A write to a line moves its minor counter; past 255 its group is re-encrypted. A written line is no longer poisoned (R19). -/
def writeLine (p : Part) (line : Nat) : Part :=
  let v := p.vault
  let g := line / 64
  let v := { v with poisoned := v.poisoned.filter (· != line) }
  if p.minorOf line < 255 then p.setVault { v with minors := Sparse.put v.minors line (Sparse.get 0 v.minors line + 1) }
  else p.setVault { v with reenc := if v.reenc.contains g then v.reenc else g :: v.reenc }

/-- Every line of a range is zeroized in one go: one write of each, which leaves none poisoned; a group with a counter past 255 is
re-encrypted. -/
def sweepLines (p : Part) (first n : Nat) : Part :=
  if n = 0 then p
  else
    let inside := fun (l : Nat) => first ≤ l && l < first + n
    let full := ((p.vault.minors.filter (fun e => inside e.1 && 255 ≤ p.minorOf e.1)).map (·.1 / 64)).dedup
    p.setVault { p.vault with
      poisoned := p.vault.poisoned.filter (fun l => !(inside l))
      sweeps := p.vault.sweeps ++ [(first, n)]
      reenc := full.filter (fun g => !(p.vault.reenc.contains g)) ++ p.vault.reenc }

def writeLines (p : Part) (first : Nat) : Nat → Part
  | 0 => p
  | n + 1 => (p.writeLine first).writeLines (first + 1) n

/-! ### What a record does (05 R128, R135, R137, R138, R142, R148) -/

/-- Slots first to first + n - 1 become empty at a generation, or one above each one's own where none is given. -/
def emptySlots (p : Part) (gen : Option Nat) (first : Nat) : Nat → Part
  | 0 => p
  | n + 1 =>
    let g := match gen with
      | some g => g
      | none => (p.slot first).gen + 1
    let old := p.slot first
    let s : Slot := if g ≤ 0xFFFFFF then { gen := g, leftAt := p.disp.dealSeq }
      else { st := .retired, gen := old.gen, leftAt := p.disp.dealSeq, retiredBy := some old.hand }
    ((p.setSlot first s).writeLines (slotLine first) 4).emptySlots gen (first + 1) n

/-- Slots are retired; each keeps its generation, so that a use of the key that was there answers KEY_EMPTY (R121 check 4, R138). -/
def retireSlots (p : Part) (hand first : Nat) : Nat → Part
  | 0 => p
  | n + 1 =>
    ((p.setSlot first { st := .retired, gen := (p.slot first).gen, leftAt := p.disp.dealSeq, retiredBy := some hand }).writeLines (slotLine first) 4).retireSlots hand (first + 1) n

def contSlots (p : Part) (s : Slot) (first : Nat) : Nat → Part
  | 0 => p
  | n + 1 => ((p.setSlot first (contSlot s)).writeLines (slotLine first) 4).contSlots s (first + 1) n

/-- A key is written over a run: slots that the old run used and the new one does not are emptied (R128, R135). -/
def placeKey (p : Part) (head : Nat) (s : Slot) : Part :=
  let old := p.slot head
  let oldRun := if old.st = .head then old.run else 0
  let p := p.emptySlots none (head + s.run) (oldRun - s.run)
  let inRun := fun (v : BitVec 64 × BitVec 64) => decide (head ≤ v.1.toNat % 2 ^ 32) && decide (v.1.toNat % 2 ^ 32 < head + s.run)
  let p := p.setPart { p.part with voids := p.part.voids.filter (fun v => !(inRun v)) }
  ((p.setSlot head s).writeLines (slotLine head) 4).contSlots s (head + 1) (s.run - 1)

/-- Moves applet data into place, byte addressed within the region (10 R280). -/
def writeApp (p : Part) (addr : Nat) (d : Bytes) : Part :=
  (p.setVault { p.vault with app := Memory.writeBytes p.vault.app addr d }).writeLines (appLine addr) ((addr % 64 + d.length + 63) / 64)

/-- Unissued values of a counter that are abandoned (R143). -/
def abandon (p : Part) (i : Nat) : Part :=
  let held := p.vault.leases.filter (fun l => l.ctr = i)
  let n := (held.flatMap (·.ranges)).foldl (fun a r => a + (r.2 - r.1)) 0
  let p := p.setVault { p.vault with leases := p.vault.leases.filter (fun l => !(l.ctr == i)) }
  if n = 0 then p else p.bump (regAddr 0 winCTR 0x0110) n

/-- The waiting requests of a counter end with a status (R144). -/
def endWaiters (p : Part) (i : Nat) (status : BitVec 16) (payload : Bytes) : Part :=
  let (go, stay) := p.vault.leaseWaits.partition (fun w => w.1 = i)
  go.foldl (fun p w => p.answer w.2 status payload) (p.setVault { p.vault with leaseWaits := stay })

/-- Counters i to i + n - 1 and their leases are zeroized (02 R53). -/
def zeroCtrs (p : Part) (first n : Nat) : Part :=
  let inside := fun (i : Nat) => first ≤ i && i < first + n
  let held := (p.vault.leases.filter (fun l => inside l.ctr)).map (·.ctr)
  let p := held.foldl (fun p i => p.abandon i) p
  let waits := ((p.vault.leaseWaits.filter (fun w => inside w.1)).map (·.1))
  let p := waits.foldl (fun p i => p.endWaiters i Status.keyErasedInFlight []) p
  (p.setVault { p.vault with ctrs := p.vault.ctrs.filter (fun e => !(inside e.1)) }).sweepLines (ctrLine first) ((n + 3) / 4)

/-- Zeroizes the slots of a range, each one's generation raised or the slot retired by the hand whose range it was (02 R53, 05 R135, R138). -/
def zeroSlots (p : Part) (hand : Option Nat) (first n : Nat) : Part :=
  let inside := fun (i : Nat) => first ≤ i && i < first + n
  let raise := fun (e : Nat × Slot) =>
    if inside e.1 then
      if e.2.st = .retired then e
      else if e.2.gen + 1 ≤ 0xFFFFFF then (e.1, { gen := e.2.gen + 1 })
      else (e.1, { st := .retired, gen := 0xFFFFFF, retiredBy := hand })
    else e
  let cached := p.seats.cache.filter (fun c => inside c.slot)
  let p := cached.foldl (fun p c => p.bump (regAddr c.seat swinKCACHE 0x0110)) p
  let p := { p with seats := { p.seats with cache := p.seats.cache.filter (fun c => !(inside c.slot)) } }
  (p.setVault { p.vault with slots := p.vault.slots.map raise, torn := if n = 0 then p.vault.torn else (first, n) :: p.vault.torn }).sweepLines
    (slotLine first) (4 * n)

/-- Saved contexts of a hand are zeroized and their records freed at the next generation (07 R216, 02 R53). -/
def zeroCtxs (p : Part) (hand : Nat) (sel : Ctx → Bool) : Part :=
  let gone := p.vault.ctxs.filter (fun e => e.1 / 65536 = hand && sel e.2 && e.2.used)
  let p := gone.foldl (fun p e => p.writeLines (ctxLine hand (e.1 % 65536)) 4) p
  p.setVault { p.vault with
    ctxs := p.vault.ctxs.map (fun e => if e.1 / 65536 = hand ∧ sel e.2 = true ∧ e.2.used = true
      then (e.1, { gen := e.2.gen, used := false, data := [] }) else e) }

/-- The teardown of ranges (02 R53): slots, counters, applet data MiB. -/
def zeroRanges (p : Part) (hand : Option Nat) (slot0 slots ctr0 ctrs app0 apps : Nat) : Part :=
  let p := (p.zeroSlots hand slot0 slots).zeroCtrs ctr0 ctrs
  (p.setVault { p.vault with app := Memory.clear p.vault.app (app0 * 1048576) (apps * 1048576) }).sweepLines (appLine (app0 * 1048576))
    (apps * 16384)

/-- What a counter record sets (R142). A counter that rises above its held values abandons them (R142). -/
def setCounter (p : Part) (i : Nat) (st : CtrState) (hw : Nat) : Part :=
  (p.updCtr i (fun c => { c with st := st, hw := hw })).writeLines (ctrLine i) 1

/-- Raises every live counter (13 R362); what the part may grant above it in Solo is counted from there. -/
def raiseCounters (p : Part) : Part :=
  let up := fun (e : Nat × Counter) =>
    if e.2.st ≠ .live then e
    else if e.2.hw + 2 ^ 48 ≤ 0xFFFFFFFFFFFFFFFE then (e.1, { e.2 with hw := e.2.hw + 2 ^ 48, mirrored := e.2.hw + 2 ^ 48 })
    else (e.1, { e.2 with st := .exhausted, hw := 0xFFFFFFFFFFFFFFFE, mirrored := 0xFFFFFFFFFFFFFFFE })
  p.setVault { p.vault with ctrs := p.vault.ctrs.map up }

/-! ### What a cut takes from hands (02 R36, R53, R56) -/

/-- The parts of [a, a + n) outside [b, b + m): (first, count), before and after. -/
def outside (a n b m : Nat) : (Nat × Nat) × (Nat × Nat) :=
  let e := a + n
  let f := b + m
  ((a, min e (max a b) - a), (max a (min e (max a f)), e - max a (min e (max a f))))

/-- A hand that keeps its instance survives (R36). -/
def survivor (new : List HandEntry) (e : HandEntry) : Option HandEntry := new.find? (fun f => f.hand = e.hand ∧ f.inst = e.inst)

/-- What the cut tears down of an old hand: all of it, or the ranges that leave it; an applet data area whose base moves leaves whole (R53). -/
def leaving (new : List HandEntry) (e : HandEntry) : List HandEntry :=
  match survivor new e with
  | none => [e]
  | some f =>
    let (s1, s2) := outside e.slotBase e.slotCount f.slotBase f.slotCount
    let (c1, c2) := outside e.ctrBase e.ctrCount f.ctrBase f.ctrCount
    let app := if e.appBase = f.appBase then (e.appBase + min e.appSize f.appSize, e.appSize - f.appSize) else (e.appBase, e.appSize)
    let one := fun (s c a : Nat × Nat) =>
      { e with slotBase := s.1, slotCount := s.2, ctrBase := c.1, ctrCount := c.2, appBase := a.1, appSize := a.2 }
    ([one s1 c1 app, one s2 c2 (0, 0)]).filter (fun x => x.slotCount + x.ctrCount + x.appSize != 0)

/-- Retired slots that a cut returns to service, empty at generation 0: those a hand of another number takes (05 R138). -/
def returning (p : Part) (new : List HandEntry) : List (Nat × Slot) :=
  p.vault.slots.filter (fun e => e.2.st == .retired && e.2.retiredBy.any (fun r =>
    new.any (fun h => h.hand != r && h.slotBase ≤ e.1 && e.1 < h.slotBase + h.slotCount)))

def returnSlots (p : Part) (l : List (Nat × Slot)) : Part := l.foldl (fun p e => p.setSlot e.1 {}) p

/-- The teardown of an entry's ranges; the hand's saved contexts go with the hand (R53). -/
def tearRanges (p : Part) (e : HandEntry) (contexts : Bool) : Part :=
  let p := p.zeroRanges (some e.hand) e.slotBase e.slotCount e.ctrBase e.ctrCount e.appBase e.appSize
  if contexts then p.zeroCtxs e.hand (fun _ => true) else p

/-- What lies between the ranges of a list, up to an end: the first and the count of each gap. -/
def gapsOf (stop : Nat) (l : List (Nat × Nat)) : List (Nat × Nat) :=
  let walk := ((l.filter (fun e => e.2 != 0)).mergeSort (fun a b => a.1 ≤ b.1)).foldl (fun (w : Nat × List (Nat × Nat)) e =>
    (max w.1 (e.1 + e.2), if w.1 < e.1 then (w.1, e.1 - w.1) :: w.2 else w.2)) (0, [])
  if walk.1 < stop then (walk.1, stop - walk.1) :: walk.2 else walk.2

/-- Ranges that no hand of a list holds are torn down, with the slots that another hand's range still held (05 R152, 02 R53, R56). -/
def tearUnheld (p : Part) (hands : List HandEntry) : Part :=
  let slotHeld := fun (i : Nat) (h : Nat) => hands.any (fun e => e.hand = h && e.slotBase ≤ i && i < e.slotBase + e.slotCount)
  let p := (gapsOf 8388608 (hands.map (fun e => (e.slotBase, e.slotCount)))).foldl (fun p g => p.zeroSlots none g.1 g.2) p
  let gone := (p.vault.slots.filter (fun e => (e.2.st == .head || e.2.st == .cont) && !(slotHeld e.1 e.2.hand))).map (·.1)
  let p := gone.foldl (fun p i => p.emptySlots none i 1) p
  let p := (gapsOf 1048576 (hands.map (fun e => (e.ctrBase, e.ctrCount)))).foldl (fun p g => p.zeroCtrs g.1 g.2) p
  (gapsOf 8176 (hands.map (fun e => (e.appBase, e.appSize)))).foldl (fun p g => p.zeroRanges none 0 0 0 0 g.1 g.2) p

/-- A cut record at restore (02 R56): what the Deal active after it does not hold is torn down, and retired slots return (05 R138). The part keeps
the hands before and after each of its cuts (log 61). -/
def cutApplied (p : Part) (serial : Nat) : Part :=
  let p := match p.deal.past.find? (fun e => e.1 = serial) with
    | some (_, before, after) =>
      let p := before.foldl (fun (p : Part) e => (leaving after e).foldl (fun (p : Part) x => p.tearRanges x (survivor after e).isNone) p) p
      p.returnSlots (p.returning after)
    | none => match p.deal.active with
      | some d => if p.deal.recSerial = serial then
          let p := p.tearUnheld d.hands
          p.returnSlots (p.returning d.hands)
        else p
      | none => p
  p.setVault { p.vault with replayOf := some serial }

/-- The hands of the Deal with a serial, or, without one, of the part's first Deal, as its cuts tell. -/
def handsAt (p : Part) (serial : Option Nat) : List HandEntry :=
  let active := (p.deal.active.map (·.hands)).getD []
  match serial with
  | none => (p.deal.past.getLast?.map (·.2.1)).getD active
  | some s => if p.deal.recSerial = s then active
    else match p.deal.past.find? (fun e => e.1 = s) with
      | some e => e.2.2
      | none => ((p.deal.past.filter (fun e => s < e.1)).getLast?.map (·.2.1)).getD active

/-- The hands whose ranges the record being applied is of: the active Deal's, and during a restore those of the Deal it has reached. -/
def handsNow (p : Part) : List HandEntry :=
  if p.vault.st = .replaying then p.handsAt p.vault.replayOf else (p.deal.active.map (·.hands)).getD []

/-- Base of a hand's applet data within the region, in bytes, under a list of hands. -/
def baseIn (hands : List HandEntry) (hand : Nat) : Nat := match hands.find? (fun e => e.hand = hand) with
  | some e => e.appBase * 1048576
  | none => 0

def appBase (p : Part) (hand : Nat) : Nat := baseIn p.handsNow hand

/-- Applies a record's absolute values to the vault (R148). -/
def applyBody (p : Part) (hand : Nat) (b : JBody) : Part :=
  match b with
  | .slotWrite head s => p.placeKey head s
  | .slotErase head run gen => p.emptySlots (some gen) head run
  | .slotRetire head run => p.retireSlots hand head run
  | .counter i st hw => p.setCounter i st hw
  | .allowance head uses tdea => (p.updSlot head (fun s => { s with uses := uses, tdea := tdea })).writeLines (slotLine head) 1
  | .appData off d => p.writeApp (p.appBase hand + off) d
  | .cut serial _ => p.cutApplied serial
  | .teardown h _ s n c m a k => p.zeroRanges (some h) s n c m a k
  | .pairing .. => p
  | .partnerLost .. => p
  | .promote _ => p.raiseCounters
  | .rejoin .. => p

/-! ### Solo map (13 R363) -/

def markDirty (p : Part) (objs : List Obj) : Part :=
  p.setPart { p.part with soloMap := p.part.soloMap ++ objs.filter (fun o => !(p.part.soloMap.contains o)) }

/-! ### Mutations (05 R133, R134) -/

/-- Objects of a body. -/
def runObjs (head run : Nat) : List Obj := (List.range (max run 1)).map (fun i => .slot (head + i))

/-- The key commands' record: a write at the run's next generation, or the run's retirement (R135, R138). -/
def keyWriteBody (p : Part) (head : Nat) (s : Slot) : JBody :=
  let old := p.slot head
  let n := max s.run (if old.st = .head then old.run else 0)
  let top := (List.range n).foldl (fun m i => max m (p.slot (head + i)).gen) 0
  if top + 1 ≤ 0xFFFFFF then .slotWrite head { s with gen := top + 1 } else .slotRetire head n

def keyEraseBody (p : Part) (head : Nat) : JBody :=
  let old := p.slot head
  let top := (List.range old.run).foldl (fun m i => max m (p.slot (head + i)).gen) 0
  if top + 1 ≤ 0xFFFFFF then .slotErase head old.run (top + 1) else .slotRetire head old.run

/-- The end of the counter's last lease (R144). -/
def ctrEnd : Nat := 0xFFFFFFFFFFFFFFFE

/-- Saturating 56-bit counter. -/
def sat56 (n : Nat) : Nat := min n maxUses

/-- The record a mutation forms, from the state it will change (R135, R142, R143, R131). -/
def bodyOf (p : Part) (k : MutKind) : JBody :=
  match k with
  | .keyWrite slot key => p.keyWriteBody slot key
  | .keyErase slot _ => p.keyEraseBody slot
  | .ctrInit i start => .counter i .live start
  | .lease i _ =>
    let hw := (p.ctr i).hw
    if hw + 4096 < ctrEnd then .counter i .live (hw + 4096) else .counter i .exhausted ctrEnd
  | .allowance slot _ uses blocks => .allowance slot (sat56 ((p.slot slot).uses + uses)) (sat56 ((p.slot slot).tdea + blocks))
  | .appData addr d => .appData addr d
  | .remote b => b
  | .note b => b

/-! ### Arbitration (04 R108, R109) -/

/-- The requesters of R108 in pointer order: 0 to 3 the host port halves, 4 the partner port, 5 and 6 the house cores, 7 the dispatcher,
7 + n Seat n. -/
def requesters : Nat := 15

/-- The pointer of a resource, and a requester's place from it. -/
def arbOf (p : Part) (resource : Nat) : Nat := Sparse.get 0 p.disp.arb resource

def arbRank (p : Part) (resource source : Nat) : Nat := (source + requesters - p.arbOf resource) % requesters

/-- A requester is served: the pointer moves to the one after it. -/
def arbServe (p : Part) (resource source : Nat) : Part :=
  { p with disp := { p.disp with arb := Sparse.set 0 p.disp.arb resource ((source + 1) % requesters) } }

/-- The requester a mutation comes from, its arrival cycle and its session index: a host's own command by its half as XCT accepted it; what a
Seat, a house core or an applet issues as the vault controller receives it. -/
def arrivalOf (p : Part) (kind : MutKind) (owner : Option Nat) : Nat × Nat × Nat :=
  let now := p.now / 2
  match kind with
  | .allowance _ seat _ _ => (now, 7 + seat, 0)
  | .remote _ => (now, 4, 0)
  | _ => match owner.bind p.findCmd with
    | none => (now, 5, 0)
    | some c => if c.seat ≠ 0 then (now, 7 + c.seat, 0)
      else match c.origin with
        | .host x _ => (c.stamp / 2, halfIndex c.half, x.toNat % 2 ^ 14)
        | .call s _ _ => (now, 7 + s, 0)

/-- The order of R109 between two mutations. -/
def mutBefore (p : Part) (a b : Mutation) : Bool :=
  let ra := p.arbRank 0 a.source
  let rb := p.arbRank 0 b.source
  a.stamp < b.stamp || (a.stamp == b.stamp && (ra < rb || (ra == rb && (a.index < b.index || (a.index == b.index && a.id < b.id)))))

/-- True when no mutation that comes before it, or whose record is formed, changes one of its objects (R134). -/
def firstFor (p : Part) (m : Mutation) : Bool :=
  p.vault.muts.all (fun x => x.id == m.id || x.committed || !(x.formed.isSome || p.mutBefore x m) || !(x.objs.any (fun o => m.objs.contains o)))

def updMut (p : Part) (id : Nat) (f : Mutation → Mutation) : Part :=
  p.setVault { p.vault with muts := p.vault.muts.map (fun m => if m.id = id then f m else m) }

def findMut (p : Part) (id : Nat) : Option Mutation := p.vault.muts.find? (fun m => m.id = id)

/-- A run may take a key: every slot in the hand's range, none being torn down for a hand that went (02 R54), in service, and empty or of the key
whose head is the target (R128, R138). -/
def targetFault (p : Part) (epoch hand head run : Nat) : Option (BitVec 16 × Bytes) :=
  let old := p.slotSeen epoch head
  let mine := fun (i : Nat) => old.st == .head && head ≤ i && i < head + old.run
  let l := (List.range run).map (head + ·)
  if l.any (fun i => !(p.slotInHand epoch hand i)) then some (VStatus.slotOccupied, [])
  else if epoch = p.deal.epoch ∧ l.any p.slotTearing = true then
    some (Status.busyDraining, p.tearPayload (fun e => l.any (fun i => e.holds (.slot i))))
  else if l.any (fun i => (p.slotSeen epoch i).st == .retired) then some (VStatus.slotRetired, [])
  else if l.all (fun i => (p.slotSeen epoch i).st == .empty || mine i) then none
  else some (VStatus.slotOccupied, [])

/-- Why a mutation that has become first for its objects can no longer be made; its command answers so (R121, R128, R142), a key write under the
epoch of its command (02 R50). A PKE core's write is late when another has put a key there since its check (08 R225). -/
def mutFault (p : Part) (m : Mutation) : Option (BitVec 16 × Bytes) :=
  match m.kind with
  | .keyWrite slot key =>
    let c := m.owner.bind p.findCmd
    let taken := (c.bind (·.target)).any (fun g => (p.slot slot).st == .head && (p.slot slot).gen != g)
    if taken then some (VStatus.slotOccupied, [])
    else p.targetFault ((c.map (·.epoch)).getD p.deal.epoch) m.hand slot key.run
  | .keyErase slot gen =>
    if (p.slot slot).gen ≠ gen then some (Status.keyGenerationStale, [])
    else if (p.slot slot).st ≠ .head then some (Status.keyEmpty, []) else none
  | .ctrInit i start =>
    let c := p.ctr i
    if c.st = .exhausted then some (Status.counterLeaseEmpty, [1])
    else if c.st = .live ∧ start ≤ c.hw then some (Status.counterLeaseEmpty, [3]) else none
  | .lease i _ => if (p.ctr i).st = .live then none else some (Status.counterLeaseEmpty, [1])
  | _ => none

def dropMut (p : Part) (id : Nat) : Part := p.setVault { p.vault with muts := p.vault.muts.filter (fun m => !(m.id == id)) }

/-- Forms a mutation's record once it is first for its objects and the buffer has room; in Mirrored the ordering part sends it to its
partner (R134, R146, 13 R359). One that can no longer be made ends instead. -/
def tryForm (p : Part) (id : Nat) : Part :=
  match p.findMut id with
  | none => p
  | some m =>
    let usage := match m.kind with
      | .allowance .. => true
      | _ => false
    let follows := ((p.mirrored || p.part.st == .resync) && p.orders) || (p.mirrored && usage)
    if m.formed.isSome || m.committed || m.forwarded || !(p.firstFor m) || (follows && p.windowFull) ||
        (!m.own && m.objs.any p.unsettled) || m.objs.any p.inReenc then p
    else match p.mutFault m with
      | some (st, payload) =>
        let p := p.dropMut id
        match m.owner with
        | some u => p.answer u st payload
        | none => p
      | none =>
        let body := p.bodyOf m.kind
        if p.journalRoom (m.own || body.type == 3) false (48 + body.size) = false then p
        else
          let remote := match m.kind with
            | .remote _ => true
            | _ => false
          let fromPartner := remote || p.part.bypartner.any (fun e => e.1 == m.id) || (match m.kind with
            | .lease _ true => true
            | _ => false)
          let (p, r) := (p.arbServe 0 m.source).writeJournal m.hand fromPartner p.leadEpoch body
          if follows && !remote then
            let p := p.sendMirror (.mutation p.leadEpoch m.hand ((if r.solo then 1 else 0) + (if fromPartner then 2 else 0)) body)
            p.updMut id (fun m => { m with formed := some r, frame := some p.part.sendSeq })
          else
            let p := match m.frame with
              | some n => if remote then p.setPart { p.part with applied := p.part.applied ++ [(n, r.seq)] } else p
              | none => p
            p.updMut id (fun m => { m with formed := some r })

/-- Tries every mutation that has formed no record, in the order of R109. -/
def formReady (p : Part) : Part :=
  (((p.vault.muts.filter (fun m => m.formed.isNone)).mergeSort (fun a b => p.mutBefore a b)).map (·.id)).foldl (fun p id => p.tryForm id) p

/-- A mutation enters the order of R109; its record is formed at once where nothing holds it back. -/
def mutate (p : Part) (kind : MutKind) (hand : Nat) (owner : Option Nat) (objs : List Obj) (own : Bool) (pub : Bytes := []) : Part :=
  let id := p.vault.nextMut
  let (stamp, source, index) := p.arrivalOf kind owner
  let m : Mutation := { id := id, kind := kind, hand := hand, owner := owner, pub := pub, objs := objs, own := own, stamp := stamp
                        source := source, index := index }
  (p.setVault { p.vault with muts := p.vault.muts ++ [m], nextMut := id + 1 }).tryForm id

/-- A mutation of a command: on a follow in Mirrored it goes to the lead for ordering (13 R359); elsewhere it is ordered here. -/
def hostMutation (p : Part) (kind : MutKind) (hand : Nat) (owner : Nat) (objs : List Obj) (pub : Bytes := []) : Part :=
  if p.mirrored && !p.orders then
    let id := p.vault.nextMut
    let (stamp, source, index) := p.arrivalOf kind (some owner)
    let m : Mutation := { id := id, kind := kind, hand := hand, owner := some owner, pub := pub, objs := objs, forwarded := true, stamp := stamp
                          source := source, index := index }
    let p := p.setVault { p.vault with muts := p.vault.muts ++ [m], nextMut := id + 1 }
    let (session, request) := match p.findCmd owner with
      | some c => match c.origin with
        | .host x r => (x, r)
        | .call .. => (0, 0)
      | none => (0, 0)
    p.sendMirror (.forward session request p.leadEpoch hand (p.bodyOf kind))
  else p.mutate kind hand (some owner) objs false pub

/-- Why a host-issued mutation is refused now: no sink, or a buffer filled to its reserve (R146). -/
def journalRefusal (p : Part) : Option Nat :=
  if p.vault.journal.sink.isNone then some 1
  else if journalSize - journalReserve ≤ p.vault.journal.used then some 2
  else none

/-! ### Allowances (05 R131, R132) -/

def allowanceUnit : Nat := 65536

/-- The entry of a Seat's cache that a tag of hand, slot and generation names (R139). -/
def cacheEntry (p : Part) (seat hand slot gen : Nat) : Option CacheEntry :=
  p.seats.cache.find? (fun c => c.seat = seat ∧ c.hand = hand ∧ c.slot = slot ∧ c.gen = gen)

def setCache (p : Part) (l : List CacheEntry) : Part := { p with seats := { p.seats with cache := l } }

def updCache (p : Part) (seat hand slot gen : Nat) (f : CacheEntry → CacheEntry) : Part :=
  p.setCache (p.seats.cache.map (fun c => if c.seat = seat ∧ c.hand = hand ∧ c.slot = slot ∧ c.gen = gen then f c else c))

/-- The TDEA_LIMIT record and notice when a key's granted count first reaches the policy's limit: one for the key (R132). -/
def tdeaReached (p : Part) (hand slot old new : Nat) (q : Policy) : Part :=
  match q.tdeaLimit with
  | none => p
  | some e => if (p.slot slot).limitSeen = false ∧ old < 2 ^ e ∧ 2 ^ e ≤ new then
      (p.updSlot slot (fun s => { s with limitSeen := true })).event 7 0x0210 2 0 hand hand slot e else p

/-- A Seat asks for its next allowance of a key: uses, or TDEA blocks of a TDEA key, whichever is half spent, cut short at the policy's limits. Keys
with a usage limit take it by a committed mutation; the others at once, journaled (R131, R132). -/
def requestAllowance (p : Part) (seat slot : Nat) (q : Policy) (forUses forBlocks : Bool) : Part :=
  let s := p.slot slot
  let uses := if forUses then min allowanceUnit (q.usageLimit - s.uses) else 0
  let room := match tdeaCap q with
    | some c => c - s.tdea
    | none => allowanceUnit
  let blocks := if forBlocks && isTdea s.ktype then min allowanceUnit room else 0
  if uses = 0 ∧ blocks = 0 then p
  else if p.vault.muts.any (fun m => match m.kind with
      | .allowance i k _ _ => i == slot && k == seat
      | _ => false) then p
  else if q.usageLimit < maxUses then p.mutate (.allowance slot seat uses blocks) s.hand none [.slot slot] true
  else if p.journalRoom true false 72 then
    let new := { s with uses := sat56 (s.uses + uses), tdea := sat56 (s.tdea + blocks) }
    let (p, _) := ((p.setSlot slot new).writeLines (slotLine slot) 1).writeJournal s.hand false p.leadEpoch (.allowance slot new.uses new.tdea)
    let p := if p.mirrored then p.sendMirror (.mutation p.leadEpoch s.hand 0 (.allowance slot new.uses new.tdea)) else p
    let p := p.updCache seat s.hand slot s.gen (fun c => { c with uses := c.uses + uses, blocks := c.blocks + blocks })
    p.tdeaReached s.hand slot s.tdea new.tdea q
  else p

/-- Outcome of charging a key's use to a Seat's allowance. -/
inductive Charge where
  | ok (p : Part)
  | exhausted
  | wait (p : Part)

/-- Charges uses and TDEA blocks of a key to the Seat's allowance, asking for the next one when half is spent (R131, R132). A draining
entry's further uses are counted to no key (R131). -/
def charge (p : Part) (seat hand slot gen uses blocks : Nat) (q : Policy) : Charge :=
  match p.cacheEntry seat hand slot gen with
  | none => .wait p
  | some c =>
    let spend := fun (n : Nat) (c : CacheEntry) => ({ c with uses := c.uses - uses, blocks := c.blocks - n, lastUse := p.now } : CacheEntry)
    if c.draining || c.cutoff.isSome then .ok (p.updCache seat hand slot gen (spend blocks))
    else
      let p := if c.uses < uses ∨ c.blocks < blocks then p.requestAllowance seat slot q (decide (c.uses < uses)) (decide (c.blocks < blocks)) else p
      match p.cacheEntry seat hand slot gen with
      | none => .wait p
      | some c =>
        let need := if (tdeaCap q).isSome ∨ isTdea c.key.ktype = true then blocks else 0
        if uses ≤ c.uses ∧ need ≤ c.blocks then
          .ok ((p.updCache seat hand slot gen (spend need)).requestAllowance seat slot q (decide (2 * (c.uses - uses) ≤ allowanceUnit))
            (decide (2 * (c.blocks - need) ≤ allowanceUnit)))
        else if q.usageLimit ≤ (p.slot slot).uses ∧ c.uses < uses then .exhausted
        else match tdeaCap q with
          | some cap => if cap ≤ (p.slot slot).tdea ∧ c.blocks < need then .exhausted else .wait p
          | none => .wait p

/-- The unspent allowance of an entry that is evicted returns to the vault's counter (R131). -/
def returnAllowance (p : Part) (c : CacheEntry) : Part :=
  if c.draining ∨ c.cutoff.isSome ∨ (p.slot c.slot).gen ≠ c.gen then p
  else (p.updSlot c.slot (fun s => { s with uses := s.uses - c.uses, tdea := s.tdea - c.blocks })).writeLines (slotLine c.slot) 1

end Part

end Sys2Proof.Machine
end

