-- ==== Sys2Proof/Machine/Classes.lean ====
section
/-! DEFINITION. What a command's code and parameters say of it: who serves it, its dispatch class (04 R92), the key handles it
names (05 R121), its affinity key (04 R98). -/

namespace Sys2Proof.Machine

/-- Codes a session may send that a Seat serves (03 R87, and each chapter's command table). -/
def seatCodes : List Nat :=
  [0x2001, 0x2002, 0x2003, 0x2004, 0x3001, 0x3002, 0x3011, 0x3012, 0x3021, 0x3022, 0x3031, 0x3032, 0x3041, 0x3042, 0x3051, 0x3052,
   0x4001, 0x4002, 0x4003, 0x4004, 0x4005, 0x4006, 0x4101, 0x4102, 0x4103,
   0x5001, 0x5002, 0x5003, 0x5004, 0x5011, 0x5021, 0x5022, 0x5023, 0x5031, 0x6001, 0x6101, 0x6102, 0x6103, 0x7001]

/-- Codes a session may send that the Dealer serves. -/
def dealerCodes : List Nat :=
  [0x1003, 0x1004, 0x1101, 0x1102, 0x1103, 0x1104, 0x1201, 0x1301, 0x1302, 0x1303, 0x1304, 0x1401, 0x1501, 0x1601, 0x1602,
   0x2005, 0x2006, 0x2007, 0x2101, 0x2102, 0x2103, 0x2201, 0x2202, 0x2203, 0x2204, 0x2205, 0x2206, 0x2207,
   0x8001, 0x8002, 0x8100, 0x8101, 0x9101, 0x9102, 0x9103, 0x9104, 0x9201, 0xA001, 0xA002, 0xA003, 0xA004]

/-- Codes an applet may call (10 R279). -/
def callCodes : List Nat :=
  (seatCodes.filter (fun c => 0x3000 ≤ c && c < 0x7000)) ++ [0x2006, 0x2007, 0x2102, 0x7101, 0x7102]

/-- The units that serve a command; none: the Dealer (04 R92). -/
def siteOf (code : Nat) : Option Site :=
  if code = 0x2001 ∨ code = 0x2002 ∨ code = 0x2004 then some .tu
  else if code = 0x2003 then some .pke
  else if code / 4096 = 3 then some .tu
  else if code / 4096 = 4 then some .lane
  else if code / 4096 = 5 then some .pke
  else if code / 4096 = 6 then some .digest
  else if code = 0x7001 then some .core
  else none

/-- Offsets of the key handles in a parameter block, in order (each chapter's block). -/
def handleOffsets (code : Nat) : List Nat :=
  if code = 0x2001 then [4]
  else if code = 0x2002 then [0, 8]
  else if code = 0x2005 ∨ code = 0x2006 then [0]
  else if code = 0x3001 ∨ code = 0x3002 ∨ code = 0x3011 then [0, 8]
  else if code = 0x3022 then [0, 8, 16]
  else if code / 4096 = 3 then [0]
  else if 0x4001 ≤ code ∧ code ≤ 0x4006 then [0, 8]
  else if code = 0x4101 ∨ code = 0x6101 then [8]
  else if code = 0x4102 ∨ code = 0x6102 then [0]
  else if code = 0x5011 then [0, 8]
  else if code / 4096 = 5 then [0]
  else if code = 0x6001 then [0]
  else []

/-- The handles a command names; an all-zero field names none. -/
def handlesOf (code : Nat) (params : Bytes) : List Handle :=
  ((handleOffsets code).filter (fun o => o + 8 ≤ params.length && !(allZero (slice params o 8)))).map (fun o => handleOf (slice params o 8))

/-- The slot of the affinity key: the first handle (R98). -/
def affinitySlot (code : Nat) (params : Bytes) : Option Nat := (handlesOf code params).head?.map (·.slot)

namespace Part

/-- Modulus bits of an RSA command: inline, or of the key its handle names (08 R230 to R232). -/
def modulusBits (p : Part) (code : Nat) (params : Bytes) : Nat :=
  if code = 0x5022 ∧ allZero (slice params 0 8) then field params 8 2
  else match affinitySlot code params with
    | some i => 256 * (p.slot i).size
    | none => 0

/-- The class of a command, fixed at its acceptance (R92, R93, 09 'The dispatcher classes DGST_HASH'). -/
def classOf (p : Part) (code : Nat) (params : Bytes) : Cls :=
  match siteOf code with
  | none => .dealer
  | some .lane => .plain
  | some .digest => if code = 0x6001 ∧ 4096 < field params 24 8 then .plain else .trump
  | some .pke =>
    if code = 0x2003 ∨ code = 0x5031 then .long
    else if code = 0x5011 then (if byteAt params 26 = 0 then .trump else .long)
    else if code = 0x5021 ∨ code = 0x5022 ∨ code = 0x5023 then (if p.modulusBits code params < 3072 then .trump else .long)
    else .trump
  | some .tu => .trump
  | some .core => .trump

end Part

/-- True when a command uses the key of a slot. -/
def Cmd.uses (c : Cmd) (slot : Nat) : Bool := (handlesOf c.code c.params).any (fun h => h.slot = slot)

def Cmd.isCall (c : Cmd) : Bool := match c.origin with
  | .host .. => false
  | .call .. => true

def Cmd.session? (c : Cmd) : Option (BitVec 32) := match c.origin with
  | .host x _ => some x
  | .call .. => none

/-- Commands of one host session. -/
def Cmd.sameSession (c d : Cmd) : Bool :=
  match c.session?, d.session? with
  | some a, some b => a == b
  | _, _ => false

def Cmd.request (c : Cmd) : BitVec 64 := match c.origin with
  | .host _ r => r
  | .call .. => 0

/-- Dealt and not answered: on its link, in its Seat, or on the way back (04 R96). -/
def Cmd.onSeat (c : Cmd) (n : Nat) : Bool := match c.place with
  | .link k => k = n
  | .seatQ k => k = n
  | .engine k _ _ => k = n
  | .scrubbing k _ _ => k = n
  | .up k => k = n
  | .waiting => c.seat = n && n ≠ 0
  | _ => false

/-- Slots and counters a command names. -/
def Cmd.objs (c : Cmd) : List Obj :=
  (handlesOf c.code c.params).map (fun h => .slot h.slot) ++
  (if c.code = 0x2101 ∨ c.code = 0x2102 ∨ c.code = 0x2103 then [.ctr (field c.params 0 4)] else [])

/-- A command that names an object a resync has not settled waits (13 R365). -/
def Part.mustWait (p : Part) (c : Cmd) : Bool := c.objs.any p.unsettled

/-- A status and reason payload of one byte. -/
def reason (r : Nat) : Bytes := [BitVec.ofNat 8 r]

/-- Status SYSTEM 0x0F02 STATE_REFUSED is of chapter 16; its reason payload is one byte. -/
def stateRefused : BitVec 16 := 0x0F02

end Sys2Proof.Machine
end

