-- ==== Sys2Proof/Machine/Abort.lean ====
section
/-! DEFINITION. Stopping work: a command stopped before it ends scrubs its engine (2,048 cycles), releases nothing and answers as its cause
says (06 R162, 07 R209, 08 R244, 09 R267, 10 R277); re-dealing what had not started (04 R115). -/

namespace Sys2Proof.Machine

/-- The scrub of an engine (06 R162). -/
def scrubCycles : Nat := 2048

/-- Tile group 0 to 3 of a site that has tiles. -/
def siteTile (seat : Nat) (site : Site) (index : Nat) : Nat := tileKey seat site.group index

namespace Part

/-! ### Engine time paid to a hand (04 R102) -/

/-- Commands of an engine class that wait on a Seat or cross its link. -/
def waitingOn (p : Part) (seat : Nat) (site : Site) : List Cmd :=
  p.xct.cmds.filter (fun c => siteOf c.code == some site && (c.place == .seatQ seat || c.place == .link seat))

/-- Seats the mask of the command's epoch permits (R97). -/
def permitted (p : Part) (c : Cmd) : List Nat := p.seatNums.filter (fun n => (permittedMask (p.dealOf c.epoch) c.hand).testBit n)

/-- A hand has work of a class queued for a Seat: on it, or in its hand queue with the Seat permitted (R102). -/
def queuedFor (p : Part) (seat hand : Nat) (site : Site) : Bool :=
  (p.waitingOn seat site).any (fun c => c.hand == hand) ||
    p.xct.cmds.any (fun c => c.place == .queued && c.hand == hand && siteOf c.code == some site && (p.permitted c).contains seat)

/-- A hand receives engine time; when none of its work is left queued the account closes. -/
def payShare (p : Part) (seat hand : Nat) (site : Site) (cycles : Nat) : Part :=
  let mine := fun (s : Share) => s.seat == seat && s.site == site && s.hand == hand
  let l := p.disp.shares.map (fun s => if mine s then { s with paid := (p.now, cycles) :: s.paid } else s)
  let l := if p.queuedFor seat hand site then l else l.filter (fun s => !(mine s))
  { p with disp := { p.disp with shares := l } }

/-! ### Scrubs -/

def startScrub (p : Part) (key : Nat) : Part :=
  p.updTile key (fun t => { t with st := .scrubbing, since := p.now, scrubEnd := p.now + scrubCycles })

/-- Takes a command off its engine; the engine scrubs. A lane goes on with its other residents, a PKE core with its other bank. -/
def freeEngine (p : Part) (seat : Nat) (site : Site) (index uid : Nat) : Part :=
  match site with
  | .tu => (p.setTu seat index none).startScrub (siteTile seat .tu index)
  | .lane =>
    (p.updLane seat index (fun l => { l with slots := l.slots.filter (fun e => !(e.2.uid == uid)) })).updTile (siteTile seat .lane index)
      (fun t => { t with scrubEnd := p.now + scrubCycles })
  | .pke =>
    let c := p.pke seat index
    let keep := fun (j : Option Job) => j.filter (fun j => !(j.uid == uid))
    let b0 := keep c.bank0
    let b1 := keep c.bank1
    let p := p.setPke seat index { c with bank0 := b0, bank1 := b1, parked := c.parked && b1.isSome, keygen := if b1.isSome then c.keygen else {} }
    let key := siteTile seat .pke index
    if b0.isNone ∧ b1.isNone then p.startScrub key else p.updTile key (fun t => { t with scrubEnd := p.now + scrubCycles })
  | .digest =>
    let p := p.updDgst seat index (fun d => { d with job := none, res := [], output := [] })
    p.startScrub (siteTile seat .digest index)
  | .core => p

/-- A job stopped and scrubbed counts in its engine (06 R162, 08 R244, 09 R267). -/
def countScrub (p : Part) (seat : Nat) (site : Site) (index : Nat) : Part :=
  match site with
  | .tu => p.bump (regAddr seat (swinTU + index * 0x1000) 0x0118)
  | .pke => p.bump (regAddr seat (swinPKE + index * 0x2000) 0x0128)
  | .digest => p.bump (regAddr seat (if index = 0 then swinDGSTA else swinDGSTB) 0x0128)
  | .lane => p
  | .core => p

/-- Nothing waits for a command any longer. -/
def forget (p : Part) (uid : Nat) : Part :=
  p.setVault { p.vault with
    leaseWaits := p.vault.leaseWaits.filter (fun w => !(w.2 == uid))
    muts := p.vault.muts.map (fun m => if m.owner = some uid then { m with owner := none } else m) }

/-- Stops a command that is no applet invocation: with a status it answers so, at once or after its scrub; with none it leaves no
response (03 R77). A command that is answered, or whose scrub runs, keeps its answer. -/
def stopWork (p : Part) (uid : Nat) (status : Option (BitVec 16)) (payload : Bytes := []) : Part :=
  match p.findCmd uid with
  | none => p
  | some c =>
    let p := p.forget uid
    match c.place, status with
    | .engine seat site index, some st =>
      ((p.freeEngine seat site index uid).countScrub seat site index).updCmd uid (fun c =>
        { c with place := .scrubbing seat site index, status := st, payload := payload })
    | .engine seat site index, none => (((p.freeEngine seat site index uid).countScrub seat site index).closeStreams uid).dropCmd uid
    | .scrubbing .., some _ => p
    | .xct, some _ => p
    | _, some st => p.answer uid st payload
    | _, none => (p.closeStreams uid).dropCmd uid

/-- A register job's engine time counts against its hand's digest share: its setup, and what has passed since GO, the words' wait among it
(09 R259, R260). -/
def payFeed (p : Part) (seat : Nat) (j : RegJob) : Part :=
  p.payShare seat (p.dgst seat 1).hand.toNat .digest (200 + (if j.inject = 0 then 0 else 300) + (p.now - j.begun))

/-- A register job ends without output: its status shows, the engine scrubs (09 R257, R260, R261). -/
def endRegJob (p : Part) (seat : Nat) (status : BitVec 16) : Part :=
  let p := match (p.dgst seat 1).reg with
    | some j => p.payFeed seat j
    | none => p
  let p := p.updDgst seat 1 (fun d => { d with reg := none, busy := false, done := true, status := status, res := [], output := [] })
  let p := if status = Status.digestContextPoisoned then p.bump (regAddr seat swinDGSTB 0x0110) else p
  p.startScrub (siteTile seat .digest 1)

/-- Releases engine B's register feed (09 R261); a job that still runs is scrubbed. -/
def releaseClaim (p : Part) (seat : Nat) (status : BitVec 16) : Part :=
  let d := p.dgst seat 1
  let p := p.setDgst seat 1 { d with claim := none }
  if d.claim.isSome ∧ d.reg.isSome then (p.countScrub seat .digest 1).endRegJob seat status else p

/-- The calls an instance has outstanding. -/
def callsOf (p : Part) (seat core : Nat) : List Nat :=
  (p.xct.cmds.filter (fun c => match c.origin with
    | .call s k _ => s == seat && k == core
    | .host .. => false)).map (·.uid)

/-- Ends an applet instance in another way than a normal exit (10 R277): its outstanding calls are aborted and scrubbed, then its
invocation answers. `status` none: no response. -/
def endInstance (p : Part) (seat core : Nat) (status : Option (BitVec 16)) (payload : Bytes := []) (cause : Nat := 0) : Part :=
  let c := p.core seat core
  match c.uid with
  | none => p
  | some uid =>
    let st := status.getD Status.abortedScrubbed
    let p := (p.callsOf seat core).foldl (fun p u => p.stopWork u (some st)) (p.updCore seat core (fun c => { c with calls := [] }))
    let left := (p.callsOf seat core).length
    let p := if (p.dgst seat 1).claim = some core then p.releaseClaim seat Status.abortedScrubbed else p
    let p := p.updDgst seat 1 (fun d => if d.wanted = some core then { d with wanted := none } else d)
    let p := p.updCore seat core (fun c =>
      { c with run := .idle, uid := none, pendingEnd := none, stalledAt := none, lastHand := c.hand.toNat, hand := 0 })
    let p := p.event (seatSource seat (44 + core)) 0x0620 1 seat c.hand.toNat c.image (core * 2 ^ 24 + st.toNat) cause
    match status with
    | none => p.dropCmd uid
    | some st =>
      if left = 0 then
        if p.seatIn seat .inService then p.seatAnswer seat uid st payload else p.answer uid st payload
      else p.updCmd uid (fun c => { c with place := .scrubbing seat .core core, status := st, payload := payload })

/-- Stops a command of any kind. -/
def stopCommand (p : Part) (uid : Nat) (status : Option (BitVec 16)) (payload : Bytes := []) : Part :=
  match p.findCmd uid with
  | none => p
  | some c => match c.place with
    | .engine seat .core k => p.endInstance seat k status payload
    | _ => p.stopWork uid status payload

/-- A command whose scrub has ended answers; a call of an ended instance leaves no trace. -/
def scrubbed (p : Part) (seat uid : Nat) : Part :=
  match p.findCmd uid with
  | none => p
  | some c => match c.origin with
    | .host .. => if p.seatIn seat .inService then p.seatAnswer seat uid c.status c.payload else p.answer uid c.status c.payload
    | .call s k d => p.deliverCall uid s k d c.status c.payload

/-- Invocations whose calls have all ended their scrubs answer. -/
def finishEnds (p : Part) (seat : Nat) : Part :=
  let due := p.xct.cmds.filter (fun c => match c.place with
    | .scrubbing s .core k => s = seat && (p.callsOf seat k).isEmpty
    | _ => false)
  due.foldl (fun p c => p.scrubbed seat c.uid) p

/-- The scrub of an engine ends: what was stopped on it answers (06 R162, 07 R209, 08 R244, 09 R267). -/
def scrubEnds (p : Part) (seat : Nat) (site : Site) (index : Nat) : Part :=
  let key := siteTile seat site index
  let t := p.tile key
  let p := p.atTime t.scrubEnd
  let p := if t.st = .scrubbing then p.updTile key (fun t => { t with st := .running, since := p.now }) else p
  let due := p.xct.cmds.filter (fun c => c.place == .scrubbing seat site index)
  (due.foldl (fun p c => p.scrubbed seat c.uid) p).finishEnds seat

/-! ### Re-dealing (04 R115) -/

/-- A command that had not started goes back to the head of its hand queue. -/
def redeal (p : Part) (seat : Nat) (c : Cmd) : Part :=
  let p := (p.updCmd c.uid (fun c => { c with place := .queued, seat := 0, startMark := false, missed := false, woke := false })).bump
    (regAddr 0 winDISP 0x0110)
  p.event 6 0x0F16 1 0 c.hand seat c.hand (c.request.toNat % 2 ^ 32)

/-- What a Hold or Shed of a Seat does to the work dealt to it (R115): started work ends with the status, the rest is re-dealt. -/
def loseSeat (p : Part) (seat : Nat) (status : BitVec 16) : Part :=
  let work := p.xct.cmds.filter (fun c => c.onSeat seat && !c.isCall)
  let p := work.foldl (fun p c =>
    if c.startMark = false then p.redeal seat c
    else match c.place with
      | .scrubbing .. => p.updCmd c.uid (fun c => { c with status := status, payload := [] })
      | _ => p.stopCommand c.uid (some status)) p
  (p.releaseClaim seat Status.abortedScrubbed).updDgst seat 1 (fun d => { d with wanted := none })

/-! ### Wiping a Seat -/

/-- The key-cache entries `sel` picks are wiped: gone, and counted as wiped (05 KCACHE). -/
def wipeCache (p : Part) (sel : CacheEntry → Bool) : Part :=
  let gone := p.seats.cache.filter sel
  let p := p.setCache (p.seats.cache.filter (fun c => !(sel c)))
  gone.foldl (fun p c => p.bump (regAddr c.seat swinKCACHE 0x0110)) p

/-- Removes every engine's state of a Seat and gates its tiles (12 R335 step 4). -/
def emptyEngines (p : Part) (n : Nat) : Part :=
  let out {α : Type} (w : Nat) (l : List (Nat × α)) : List (Nat × α) := l.filter (fun e => !(e.1 / w == n))
  { p with seats := { p.seats with
      tiles := out 32 p.seats.tiles
      tus := out 16 p.seats.tus
      lanes := out 2 p.seats.lanes
      pkes := out 8 p.seats.pkes
      dgsts := out 2 p.seats.dgsts
      fetching := p.seats.fetching.filter (fun e => !(e.1 == n)) } }

/-- Saved contexts of a hand whose key is a slot's are zeroized (09 R265); `data` holds the record of R263, its handle at 8. -/
def zeroKeyCtxs (p : Part) (slot hand : Nat) : Part :=
  p.zeroCtxs hand (fun c => byteAt c.data 0 == 2 && (handleOf (slice c.data 8 8)).slot == slot && !(allZero (slice c.data 8 8)))

end Part

end Sys2Proof.Machine
end

