-- ==== Sys2Proof/Machine/Cards.lean ====
section
/-! DEFINITION. A ceremony port's card and lock (15 R394, R402, R403): deactivation, the end of a ceremony and of an authorisation. -/

namespace Sys2Proof.Machine

namespace CerStatus
def protocolError : BitVec 16 := 0x0A03
def timeout : BitVec 16 := 0x0A04
def portBusy : BitVec 16 := 0x0A05
def notCustodian : BitVec 16 := 0x0A06
def quorumNotMet : BitVec 16 := 0x0A07
def void : BitVec 16 := 0x0A08
def refused : BitVec 16 := 0x0A09
end CerStatus

namespace Part

def cerWin (port : Nat) : Nat := if port = 0 then winCERA else winCERB

/-- Records of a ceremony port (R405): port and custodian index in parameter 1. -/
def cerEvent (p : Part) (port : Nat) (code : BitVec 16) (sev index p2 p3 : Nat) : Part :=
  p.event (12 + port) code sev 0 0 (port * 2 ^ 24 + index) p2 p3

/-- The deactivation sequence has run (R394): the supply is off, the clock stopped. -/
def deactivate (p : Part) (port : Nat) : Part :=
  p.updCer port (fun c => { c with active := false, cls := 0, proto := 0, div := 0, clkstop := false })

/-- The custodian index of a running step, or 0xFF (R405). -/
def stepIndex (c : CerPort) : Nat := ((c.step.bind (·.index))).getD 0xFF

/-- A running step answers; its card is deactivated. -/
def endStep (p : Part) (port : Nat) (status : BitVec 16) (payload : Bytes := []) : Part :=
  match (p.cerPort port).step with
  | none => p
  | some s =>
    let p := if status = CerStatus.timeout then p.bump (regAddr 0 (cerWin port) 0x0120) else p
    let p := if status = Status.cardOutcomeUnknown then p.bump (regAddr 0 (cerWin port) 0x0118) else p
    ((p.updCer port (fun c => { c with step := none })).deactivate port).answer s.uid status payload

/-- CEREMONY_END: 0 applied, 1 void, 2 ended unused (R405). -/
def ceremonyEnded (p : Part) (port : Nat) (c : Ceremony) (outcome : Nat) : Part :=
  p.cerEvent port 0x0A14 3 0xFF (c.kind * 256 + outcome) c.counted.length

/-- A port's ceremony ends void (R403): a running step answers CEREMONY_VOID, the lock is released, the components are scrubbed. -/
def voidCeremony (p : Part) (port : Nat) : Part :=
  let p := p.endStep port CerStatus.void
  match (p.cerPort port).cer with
  | none => p
  | some c => ((p.updCer port (fun x => { x with cer := none, unknown := none })).deactivate port).ceremonyEnded port c 1

/-- An unused authorisation lapses. -/
def lapseAuth (p : Part) (port : Nat) : Part :=
  match (p.cerPort port).auth with
  | none => p
  | some a => (p.updCer port (fun x => { x with auth := none })).ceremonyEnded port a.cer 2

/-- An authorisation of a kind held by a session, at most 60 s old, with its port (R398). -/
def authOf (p : Part) (kind : Nat) (session : BitVec 32) : Option (Nat × Auth) :=
  let fit := fun (port : Nat) => match (p.cerPort port).auth with
    | some a => if a.cer.kind = kind ∧ a.cer.session = session ∧ p.now ≤ a.granted + sec 60 then some (port, a) else none
    | none => none
  match fit 0 with
  | some x => some x
  | none => fit 1

/-- The authorisation of a port is used. -/
def useAuth (p : Part) (port : Nat) : Part :=
  match (p.cerPort port).auth with
  | none => p
  | some a => (p.updCer port (fun x => { x with auth := none })).ceremonyEnded port a.cer 0

/-- Component ceremonies of a Seat that is shed are void (R403). -/
def voidSeatCeremonies (p : Part) (seat : Nat) : Part :=
  [0, 1].foldl (fun p port =>
    let p := match (p.cerPort port).cer with
      | some c => if c.kind = 4 ∧ c.seat = seat then p.voidCeremony port else p
      | none => p
    match (p.cerPort port).auth with
    | some a => if a.cer.kind = 4 ∧ a.cer.seat = seat then p.lapseAuth port else p
    | none => p) p

end Part

end Sys2Proof.Machine
end

