-- ==== Sys2Proof/Machine/Guard.lean ====
section
/-! DEFINITION. The guard (12): severities, the policy matrix, the silicon floor, and the responses Note, Hold, Shed and Erase. -/

namespace Sys2Proof.Machine

/-- Severity of a magnitude against the lower limits of severities 1 to 4 of its class; 0 below the first. -/
def grade (l1 l2 l3 l4 m : Nat) : Nat := if l4 ≤ m then 4 else if l3 ≤ m then 3 else if l2 ≤ m then 2 else if l1 ≤ m then 1 else 0

/-- The severity the guard assigns (R325). Class 0xA: a source number (11 R319), or 0xFF the DRBG stopped (11 R316); class 0xB: a sensor
index, or 0xFFFF for lost coverage (11 R314). -/
def severity (cls : Nat) (m : Nat) : Nat :=
  match cls with
  | 1 => grade 1 8 40 120 m
  | 2 => grade 1 10 30 100 m
  | 3 => if m = 0xFFFE ∨ m = 0xFFFF then 3 else grade 0 100 250 500 m
  | 4 => if m = 0xFFFE ∨ m = 0xFFFF then 3 else grade 501 1000 10000 100000 m
  | 5 => grade 20 100 1000 10000 m
  | 6 => grade 50 50 100 500 m
  | 7 => 3
  | 8 => grade 151 151 300 600 (if 0x8000 ≤ m then 0x10000 - m else m)
  | 9 => 4
  | 10 => if m = 0xFF then 3 else 2
  | 11 => if m = 0xFFFF then 2 else 1
  | 13 => 3
  | 14 => 3
  | 15 => 3
  | _ => 0

/-- Independence groups A to G as 0 to 6 (R326); class 0xB has none. -/
def groupOf (cls : Nat) : Option Nat :=
  match cls with
  | 1 => some 0
  | 2 => some 0
  | 3 => some 1
  | 4 => some 1
  | 5 => some 2
  | 6 => some 2
  | 7 => some 3
  | 8 => some 3
  | 9 => some 4
  | 10 => some 5
  | 13 => some 6
  | 14 => some 6
  | 15 => some 6
  | _ => none

/-- The response codes of R327, R346 and GUARD_LAST. -/
def rNote := 0
def rHold := 1
def rShed := 2
def rErase := 3

/-- The entries of a matrix with their indices that fire for a die's witness of a class and severity (R328). -/
def firing (matrix : List MatrixEntry) (seen : List Witness) (die cls sev now : Nat) : List (MatrixEntry × Nat) :=
  matrix.zipIdx.filter (fun (e, _) =>
    e.cls == cls && e.sev ≤ sev && e.scope.getLsbD (if die = 0 then 1 else 0) &&
      e.count ≤ (seen.filter (fun w => w.die == die && w.cls == cls && e.sev ≤ w.sev && now ≤ w.at_ + msec e.window)).length)

/-- The strongest of the firing entries, the first of equals. -/
def strongest (l : List (MatrixEntry × Nat)) : Option (MatrixEntry × Nat) :=
  l.foldl (fun b e => match b with
    | none => some e
    | some x => if x.1.resp < e.1.resp then some e else b) none

/-- Groups with a witness of at least `sev` within `span` (R326, R329), as bits A to G. -/
def groupMask (seen : List Witness) (sev span now : Nat) : Nat :=
  seen.foldl (fun m w => if sev ≤ w.sev ∧ now ≤ w.at_ + span then (match groupOf w.cls with
    | some g => m ||| 2 ^ g
    | none => m) else m) 0

def bitCount (m : Nat) : Nat := ((List.range 8).filter (fun i => m.testBit i)).length

namespace Part

def setGuard (p : Part) (g : GuardUnit) : Part := { p with guard := g }

/-- GUARD_GROUPS.LIT (R326). -/
def litGroups (p : Part) : Nat := groupMask p.guard.seen 3 (sec 1) p.now

/-- Guard records (R346): class, die, severity and index in parameter 1; source 10, concerning hand 0. -/
def guardEvent (p : Part) (code : BitVec 16) (sev die cls wsev index p2 p3 : Nat) : Part :=
  p.event 10 code sev die 0 (cls * 2 ^ 28 + die * 2 ^ 24 + wsev * 2 ^ 20 + index) p2 p3

/-! ### Hold (R331, R334) -/

/-- Holds a Seat for 100 µs. -/
def holdSeat (p : Part) (n cls wsev index : Nat) : Part :=
  let holds := p.now :: (p.seat n).holds.filter (fun t => p.now ≤ t + sec 1)
  let p := p.updSeat n (fun s => { s with st := .held, holdEnd := some (p.now + usec 100), holds := holds })
  let p := (p.bump (regAddr 0 winGUARD 0x0108)).guardEvent 0x0710 2 n cls wsev index holds.length 0
  (p.loseSeat n Status.guardHold).relevel

/-- Dealer-class commands at the head of their session's order: those the Dealer is serving (R334, 04 R92). -/
def served (p : Part) : List Nat :=
  let mine := p.xct.cmds.filter (fun c => c.place == .dealer)
  (mine.filter (fun c => mine.all (fun d => !(d.sameSession c) || c.uid ≤ d.uid))).map (·.uid)

/-- Holds the Dealer for 100 µs: commands being served answer GUARD_HOLD. -/
def holdDealer (p : Part) (cls wsev index : Nat) : Part :=
  let holds := p.now :: p.guard.dealerHolds.filter (fun t => p.now ≤ t + sec 1)
  let p := p.setGuard { p.guard with dealerHold := some (p.now + usec 100), dealerHolds := holds }
  let p := (p.bump (regAddr 0 winGUARD 0x0108)).guardEvent 0x0710 2 0 cls wsev index holds.length 0
  p.served.foldl (fun p u => p.answer u Status.guardHold) p

/-! ### Shed (R335 to R337) -/

/-- A committed erase that waits for a Seat's wipe confirmation no longer does (05 R137). -/
def dropConfirm (p : Part) (seat : Nat) : Part :=
  let ms := p.vault.muts.map (fun m => { m with confirms := m.confirms.filter (fun k => !(k == seat)) })
  let due : List Mutation := ms.filter (fun m => m.committed && m.confirms.isEmpty)
  let p := p.setVault { p.vault with muts := ms.filter (fun m => !(m.committed && m.confirms.isEmpty)) }
  due.foldl (fun p m => match m.owner with
    | some u => p.answer u Status.done
    | none => p) p

/-- Sheds a Seat: its work ends or is re-dealt, its caches and engines are wiped, its tiles gated, and it leaves the affinity directory
(R335, 04 R116). The third non-thermal Shed within 1 h parks it (R337). -/
def shedSeat (p : Part) (n : Nat) (thermal : Bool) (cls wsev index : Nat) : Part :=
  let old := (p.seat n).sheds.filter (fun t => p.now ≤ t + sec 3600)
  let sheds := if thermal then old else p.now :: old
  let p := p.updSeat n (fun s =>
    { s with st := .shed, thermal := thermal, holdEnd := none, sheds := sheds, quiet := p.now, cool := p.now, readmitBy := false
             parked := s.parked || 3 ≤ sheds.length && !thermal })
  let p := (p.bump (regAddr 0 winGUARD 0x0110)).guardEvent 0x0711 3 n cls wsev index sheds.length (if thermal then 1 else 0)
  let p := ((p.loseSeat n Status.seatShed).voidSeatCeremonies n).wipeCache (fun c => c.seat == n)
  let p := (p.emptyEngines n).dropConfirm n
  let clear : Nat × Affinity → Nat × Affinity := fun e => (e.1, { e.2 with seats := e.2.seats.filter (fun k => !(k == n)) })
  let p := { p with disp := { p.disp with affinity := p.disp.affinity.map clear
                                          shares := p.disp.shares.filter (fun s => !(s.seat == n)) } }
  p.relevel

/-! ### Erase (R338) -/

/-- The session table and everything XCT holds is gone, with no response to any command. -/
def closeEverything (p : Part) : Part :=
  { p with xct := { p.xct with sessions := [], cmds := [], replies := [], streams := [] } }

/-- The vault's keys and everything sealed under them is lost; the incarnation stays for the next claim to raise. -/
def eraseVault (p : Part) : Part :=
  p.setVault { incarnation := p.vault.incarnation, st := .erased, offErase := p.vault.offErase }

/-- The Erase of a part with main power on: steps 1 to 4 (R338). `groups` is parameter 2 of the record. -/
def eraseNow (p : Part) (die cls wsev index groups : Nat) : Part :=
  let p := (p.voidCeremony 0).voidCeremony 1
  let p := p.closeEverything.eraseVault
  let p := if p.shuffle.en then p.disarmed 5 else p
  let parkSeat := fun (p : Part) (n : Nat) =>
    ((p.emptyEngines n).updSeat n (fun s => { s with st := .shed, parked := true, holdEnd := none }))
  let p := p.seatNums.foldl parkSeat p
  let bare := fun (x : HalfSt) => { x with assocs := [], link := if x.link = 3 then 2 else x.link }
  let p := { p with
    ha0 := bare p.ha0, ha1 := bare p.ha1, hb0 := bare p.hb0, hb1 := bare p.hb1, ppAssocs := []
    seats := { p.seats with cache := [], cores := [], appNotices := [] }
    trngs := p.trngs.map (fun (e : Nat × Trng) => (e.1, { e.2 with drbg := 0 }))
    deal := { p.deal with st := .noDeal, active := none, staged := none, verdict := none, stagingUid := none, cut := none, key := none, olds := [] }
    joker := { p.joker with scope := 0, hand := 0, seats := 0, expiry := 0, next := none }
    cera := { p.cera with auth := none }
    cerb := { p.cerb with auth := none }
    part := { enabled := p.part.enabled, link := 0, missed := p.part.missed }
    power := { p.power with life := if p.power.life = 1 then 2 else p.power.life, fold := .running, foldUid := none, exitUid := [], enterUid := [] }
    disp := { affEn := p.disp.affEn, slack := p.disp.slack, longCap := p.disp.longCap }
    guard := { p.guard with tamperLow := true, dealerHold := none, erases := satIncr p.guard.erases } }
  ((p.wait (usec 40)).guardEvent 0x0713 4 die cls wsev index groups p.guard.erases.toNat).relevel

/-! ### Decisions (R328 to R333, R339) -/

/-- A Seat that has been held 16 times within the last 1 s takes no 17th Hold (R331). -/
def heldOften (p : Part) (n : Nat) : Bool := decide (16 ≤ ((p.seat n).holds.filter (fun t => p.now ≤ t + sec 1)).length)

/-- What the floor makes of a proposed response (R329 to R331, R339): the response taken, raised by R329, lowered by R330 or R331. -/
def bound (p : Part) (die cls proposed : Nat) (battery : Bool) : Nat × Bool × Bool :=
  let must := cls == 9 || battery || 2 ≤ bitCount (groupMask p.guard.seen 4 (msec 1) p.now)
  let want := if must then rErase else proposed
  let (r, down) :=
    if want = rErase ∧ must = false ∧ bitCount p.litGroups < 2 then (if die = 0 then rHold else rShed, true)
    else if want = rShed ∧ die = 0 then (rHold, true) else (want, false)
  let (r, down) :=
    if r = rHold ∧ die = 0 ∧ p.now < p.guard.dealerFree ∧ p.guard.dealerHold = none then (rNote, true)
    else if r = rHold ∧ die ≠ 0 ∧ p.seatIn die .inService = true ∧ p.heldOften die = true then (rShed, down)
    else (r, down)
  let r := if p.power.life = 3 then rNote else r
  let void := (r = rHold ∧ die ≠ 0 ∧ p.seatIn die .inService = false ∧ p.seatIn die .held = false) ∨
    (r = rShed ∧ die ≠ 0 ∧ p.seatIn die .shed = true)
  (if void then rNote else r, must && proposed < rErase, down)

/-- Carries a response out. A Hold of a die that is held does not extend its Hold (R334). -/
def respond (p : Part) (die cls sev index r : Nat) (floor : Bool) : Part :=
  if r = rErase then p.eraseNow die cls sev index (if floor then 0xFF else p.litGroups)
  else if r = rShed then p.shedSeat die false cls sev index
  else if r = rHold then
    if die = 0 then (if p.guard.dealerHold.isSome then p else p.holdDealer cls sev index)
    else if p.seatIn die .held then p else p.holdSeat die cls sev index
  else p.bump (regAddr 0 winGUARD 0x0100)

/-- The longest window of an entry is 65,535 ms. -/
def pruneSeen (l : List Witness) (now : Nat) : List Witness := l.filter (fun w => now ≤ w.at_ + msec 65535)

/-- A witness reaches the guard (R325 to R333): WITNESS record, decision, response. -/
def witness (p : Part) (die cls index mag : Nat) : Part :=
  let sev := severity cls mag
  if sev = 0 then p
  else
    let w : Witness := { die := die, cls := cls, sev := sev, at_ := p.now }
    let p := p.setGuard { p.guard with seen := pruneSeen (w :: p.guard.seen) p.now }
    let p := if die = 0 then p else p.updSeat die (fun s => if s.st = .shed then { s with quiet := p.now } else s)
    let fire := strongest (firing ((p.deal.active.map (·.matrix)).getD []) p.guard.seen die cls sev p.now)
    let proposed := (fire.map (fun e => e.1.resp)).getD rNote
    let (taken, up, down) := p.bound die cls proposed false
    let last := BitVec.ofNat 32 (cls * 2 ^ 28 + die * 2 ^ 25 + sev * 2 ^ 22 + proposed * 2 ^ 20 + taken * 2 ^ 18 +
      (if down then 2 ^ 17 else 0) + (if up then 2 ^ 16 else 0) +
      (match fire with
        | some e => e.2 % 2048
        | none => 2 ^ 15))
    let p := p.setGuard { p.guard with last := last }
    let p := p.guardEvent 0x0700 sev die cls sev index mag (proposed * 256 + taken)
    let p := if down then (p.bump (regAddr 0 winGUARD 0x0118)).guardEvent 0x0714 3 die cls sev index p.litGroups taken else p
    let must := cls == 9 || 2 ≤ bitCount (groupMask p.guard.seen 4 (msec 1) p.now)
    p.respond die cls sev index taken must

/-! ### Thermal reports (R332) -/

/-- A thermal report on a die is raised or clears. GUARD_THERM counts those acted on: at once, or when the Hold that runs ends. -/
def thermalReport (p : Part) (die : Nat) (raised : Bool) : Part :=
  let p := p.updLat die (fun l => { l with thermal := raised })
  if raised = false then (if die = 0 then p.setGuard { p.guard with dealerCap := false } else p)
  else if p.power.life = 3 then p
  else
    let acted := die == 0 || p.seatIn die .inService || p.seatIn die .held
    let p := if acted then p.bump (regAddr 0 winGUARD 0x0120) else p
    if die = 0 then
      let half := fun (e : Nat × Lane) => (e.1, { e.2 with duty := if 2 < e.2.duty.toNat then 2 else e.2.duty })
      let p := p.setGuard { p.guard with dealerCap := true }
      let p := { p with seats := { p.seats with lanes := p.seats.lanes.map half } }
      if p.guard.dealerHold.isSome then p else p.holdDealer 12 0 0
    else if p.seatIn die .inService then (if p.heldOften die then p.shedSeat die true 12 0 0 else p.holdSeat die 12 0 0) else p

/-- A Hold ends: the die returns to service, or a Seat whose thermal report still stands is shed (R332, R334). A Seat held while a Deal was armed is
armed before it takes new work (02 R47). -/
def endHold (p : Part) (die : Nat) : Part :=
  if die = 0 then
    match p.guard.dealerHold with
    | none => p
    | some t =>
      let p := p.atTime t
      p.setGuard { p.guard with dealerHold := none, dealerFree := p.now + usec 400 }
  else if p.seatIn die .held then
    let p := p.atTime (((p.seat die).holdEnd).getD 0)
    if (p.lat die).thermal then p.shedSeat die true 12 0 0
    else
      let armed := p.deal.st == .armed || p.deal.st == .cutting
      (p.updSeat die (fun s => { s with st := .inService, holdEnd := none, armed := s.armed || armed })).relevel
  else p

/-! ### Re-admission (R336, R337) -/

/-- The resets of re-admission: ECC and FAB counts (01 R26, R27), overheads and waits (04 R101, R117), antes (11 R310), sensors (11 R314);
the counts of the Seat's units follow R26. -/
def readmitResets (p : Part) (n : Nat) : Part :=
  let p := p.updSeat n (fun s => { s with ecc1 := 0, ecc2 := 0, eccu := 0, replay := 0, retrain := 0, fails := 0, failsUp := 0
                                          failedTrainings := 0, thermal := false, cool := 0
                                          epoch := p.deal.epoch, armed := true })
  let mine := fun (a : Nat) => a / 0x1000000 == n
  let p := { p with
    disp := { p.disp with overhead := p.disp.overhead.filter (fun e => !(e.1 / 8 == n)) }
    counts := p.counts.filter (fun e => !(mine e.1))
    latches := p.latches.filter (fun e => !(mine e.1)) }
  p.updLat n (fun l => { l with entries := [], peaks := [], windows := [], sensors := l.sensors.map (fun e =>
    (e.1, { e.2 with retired := false, refusals := 0 })), cover := false })

/-- A shed Seat that may be re-admitted starts its self-tests (R336): quiet for 1 s, and cool for 1 s after a thermal Shed (R332). -/
def startReadmit (p : Part) (n : Nat) : Part :=
  let s := p.seat n
  if s.st = .shed ∧ s.parked = false ∧ p.power.life = 1 ∧ ¬ (p.joker.scope = 3 ∧ p.joker.seats.getLsbD n = true) then
    let p := p.atTime (max (s.quiet + sec 1) (if s.thermal then s.cool + sec 1 else 0))
    (p.updSeat n (fun s => { s with st := .selfTest })).relevel
  else p

/-- The self-tests and the calibration round end (R336). A Seat that fails them stays shed. -/
def endReadmit (p : Part) (n : Nat) (ok : Bool) : Part :=
  let s := p.seat n
  if s.st = .selfTest then
    let p := p.wait (msec 2)
    if ok then
      let p := (p.readmitResets n).updSeat n (fun s => { s with st := .inService, parked := false, readmitBy := false, power := true, pll := true, link := 1 })
      let p := p.bump (regAddr 0 winDISP 0x0128)
      (p.guardEvent 0x0712 1 n 0 0 0 n (if s.readmitBy then 1 else 0)).relevel
    else (p.updSeat n (fun s => { s with st := .shed, quiet := p.now })).relevel
  else p

/-- A guard shell's report of its sensors, of an engine's fault (R324) or of a Slot Guard's conflict, shown in LAT_LASTW and counted in LAT_WITN (11 R305). A loss of lock of a die PLL or to the
reference counts in CLKPWR_UNLOCK (16). -/
def latWitness (p : Part) (die cls index mag : Nat) : Part :=
  let p := p.updLat die (fun l => { l with
    lastW := BitVec.ofNat 32 (cls * 2 ^ 28 + index % 4096 * 2 ^ 16 + mag % 65536)
    windows := if cls = 1 then l.windows.map (fun w => { w with spoiled := w.spoiled || (w.from_ ≤ p.now && p.now ≤ w.until_) }) else l.windows
    shield := if cls = 9 then l.shield ||| BitVec.ofNat 24 (2 ^ (mag % 256)) else l.shield })
  let p := if mag = 0xFFFF ∧ (cls = 4 ∨ (cls = 3 ∧ index = 0)) then p.bump (regAddr 0 winCLKPWR 0x0110) else p
  (p.bump (regAddr die (if die = 0 then winLAT else swinLAT) 0x0128)).witness die cls index mag

end Part

/-! ### The rows -/

/-- SEAT_READMIT (R336). -/
def execSeatReadmit (seat : Nat) (s : State) : Result := onUnit (s.hasSeat seat) s (fun p => p.startReadmit seat)

/-- SEAT_SELF_TEST_COMPLETE (R336). -/
def execSeatSelfTestComplete (seat : Nat) (ok : Bool) (s : State) : Result := onUnit (s.hasSeat seat) s (fun p => p.endReadmit seat ok)

/-- THERMAL_REPORT (R332): a report that stands is not raised again. -/
def execThermalReport (die : Nat) (raised : Bool) (s : State) : Result := 
  onUnit (s.hasDie die) s (fun p => if (p.lat die).thermal = raised then p else p.thermalReport die raised)

/-- ENGINE_SCRUB_COMPLETE (06 R162, 07 R209, 08 R244, 09 R267). -/
def execEngineScrubComplete (seat : Nat) (engine : Engine) (index : Nat) (s : State) : Result :=
  onUnit (s.hasSeat seat && index < (siteOfEngine engine).count) s (fun p => p.scrubEnds seat (siteOfEngine engine) index)

end Sys2Proof.Machine
end

