-- ==== Sys2Proof/Machine/Admit.lean ====
section
/-! DEFINITION. Accepting a command (03 R82, R85 to R87, 04 R106, R107), the answers a command gets at once, and serving a
Dealer-class command in its session's order (04 R92, R106; log 6). -/

namespace Sys2Proof.Machine

/-- Management commands (03 R74 flag [2]). -/
def isMgmt (code : Nat) : Bool := code / 4096 == 1 && !(0x1001 ≤ code && code ≤ 0x1006)

/-- Commands whose effect is a host-issued mutation (05 R133). -/
def mutationCodes : List Nat := [0x2001, 0x2003, 0x2004, 0x2005, 0x2101, 0x5011, 0x5023, 0x7102]

/-- Of these, the mutations of the key and counter tables (02 R58). -/
def vaultMutations : List Nat := mutationCodes.filter (· != 0x7102)

/-- Register commands reach Seat windows at die 1 and up (16 R420, 01 R29). -/
def touchesSeat (code : Nat) (params : Bytes) : Bool :=
  let a := field params 0 4
  0x1000000 ≤ a || (code == 0x1601 && 0x1000000 ≤ a + 4 * (field params 4 4 - 1))

/-- Target slots of a command that writes a key: the head and how many the key's type takes; of an import the head, as its type is in the wrapped
block. -/
def targetSlots (code : Nat) (params : Bytes) : List Nat :=
  let run := fun (head type size : Nat) => (List.range (max 1 (runLength (field params type 1) (field params size 1)))).map (field params head 4 + ·)
  if code = 0x2001 then [field params 0 4]
  else if code = 0x2003 then run 0 4 5
  else if code = 0x2004 then run 4 8 9
  else if code = 0x5011 then run 16 20 21
  else if code = 0x5023 then run 8 12 13
  else if code = 0x2005 then (affinitySlot code params).toList
  else []

/-- Commands whose operand is a whole input stream: DEAL_STAGE, FW_LOAD, DECK_LOAD, JOURNAL_REPLAY. Their parameter block is a stream ID, four reserved
bytes and a length; that DEAL_STAGE's is so too is DEDUCED (log 20). -/
def wholeCodes : List Nat := [0x1101, 0x1401, 0x2203, 0x2206]

/-- Stream IDs a command opens: input with its declared length, and output (03 R71). -/
def streamsOf (code : Nat) (params : Bytes) : List (Nat × Bool × Option Nat) :=
  let one := fun (id : Nat) (input : Bool) (len : Option Nat) => if id = 0 then [] else [(id, input, len)]
  if 0x4001 ≤ code ∧ code ≤ 0x4006 then
    let aad := if code = 0x4004 then field params 56 8 else 0
    one (field params 20 4) true (some (aad + field params 32 8)) ++ one (field params 24 4) false none
  else if code = 0x6001 then
    one (field params 16 4) true (if field params 24 8 = 0xFFFFFFFFFFFFFFFF then none else some (field params 24 8))
  else if wholeCodes.contains code then one (field params 0 4) true (some (field params 8 8))
  else if code = 0x2201 ∨ code = 0x2204 then one (field params 0 4) false none
  else []

namespace Part

/-- µs to the end of the entry or the wake that runs; all ones while the drain has no known end (16 CLKPWR_REMAIN). -/
def phaseRemaining (p : Part) : Nat :=
  let us := fun (t : Nat) => (t - p.now + 2999) / 3000
  match p.power.fold, p.power.drained with
  | .waking, _ => us (p.power.wakeAt + usec 1500)
  | .entering, some t => us (t + usec 200)
  | .entering, none => 0xFFFFFFFF
  | _, _ => 0

/-- µs until commands are accepted again (16 R419, R422, R424); all ones while no wake is pending and none will start by itself. -/
def foldRemaining (p : Part) : Nat :=
  let wakes := p.power.autowake || p.power.retained.isSome
  match p.power.fold with
  | .folded => if p.power.autowake then 1500 else 0xFFFFFFFF
  | .entering => if wakes && p.power.drained.isSome then p.phaseRemaining + 1500 else 0xFFFFFFFF
  | _ => p.phaseRemaining

/-- A wake trigger (16 R421): 1 FOLD_EXIT, 2 a command, 3 the partner. During entry it is retained. -/
def wakeTrigger (p : Part) (by_ : Nat) : Part :=
  match p.power.fold with
  | .folded => { p with power := { p.power with fold := .waking, wakeAt := p.now, wakeBy := by_ } }
  | .entering => { p with power := { p.power with retained := if p.power.retained.isSome then p.power.retained else some by_ } }
  | _ => p

/-- A reply to a command that was not accepted: it waits to be sent. -/
def reply (p : Part) (r : Reply) : Part :=
  let n := p.xct.nextDone
  { p with xct := { p.xct with replies := p.xct.replies ++ [{ r with doneSeq := n, doneAt := p.now / 2 }], nextDone := n + 1 } }

/-- The admitted hand's in-flight limit in the active Deal (02 R37); none where no Deal is active. -/
def inflightLimit (p : Part) (hand : Nat) : Option Nat :=
  (((p.deal.active.map (·.seats)).getD []).find? (fun e => e.hand = hand)).map (·.inflight)

/-- A hand that survives in both parts' Deals while their serials differ (02 R58); equal serials, or an unknown one, count as surviving. -/
def survivesBoth (p : Part) (hand : Nat) : Bool :=
  if p.paired = false ∨ p.deal.peerKnown = false then true
  else match p.deal.active with
    | none => true
    | some a =>
      if p.deal.peerMatch = true ∨ (p.solo = true ∧ p.deal.peerSerial = a.serial) then true
      else
        let other := if p.deal.peerSerial ≤ a.serial then (p.deal.olds.getLast?.map Prod.snd) else p.deal.staged
        match other with
        | none => true
        | some o => a.hands.any (fun e => e.hand == hand && o.hands.any (fun f => f.hand == hand && f.inst == e.inst))

/-- Commands served in a lifecycle state other than Dealt (12 R342, 15 R401, 16 R415, 01 R28). -/
def servedLife (life : BitVec 3) (code : Nat) : Bool :=
  let own := [0x1003, 0x1004, 0x1304, 0x1601, 0x1602, 0x1301, 0x1302, 0x1303, 0x1401, 0x1101]
  if life = 1 then true
  else if life = 2 then own.contains code || code == 0x1104 || code == 0x1501 || code == 0x8002 || code / 4096 == 9 || code / 4096 == 10
  else if life = 0 then own.contains code || code == 0x1104 || code == 0x8002 || code == 0x9101 || code == 0x9201 || code / 4096 == 10
  else own.contains code || code == 0x9101

/-- House-hand commands that need the vault (01 R23). -/
def needsVault (code : Nat) : Bool := code / 4096 == 2 || code == 0x8001 || code == 0x8100 || code == 0x8101

/-- The answer an accepted command gets at once, before any unit serves it: it comes before `busy` (R23's refusal before R424's is the model's
order, log 49). -/
def firstAnswer (p : Part) (x : Session) (frameHand code : Nat) : Option (BitVec 16 × Bytes) :=
  let known := seatCodes.contains code || dealerCodes.contains code
  if frameHand ≠ x.hand then some (Status.accessFault, [])
  else if isMgmt code && !x.mgmt then some (Status.accessFault, [])
  else if code / 256 = 0x11 ∧ x.hand ≠ 0 then some (Status.accessFault, [])
  else if known = false then some (Status.commandUnknown, [])
  else if servedLife p.power.life code = false then some (Status.handNotServed, [])
  else if needsVault code && p.levelNow == 0 then some (Status.handNotServed, [])
  else if seatCodes.contains code && p.levelNow.toNat < 2 then some (Status.handNotServed, [])
  else if ((siteOf code).isSome || (p.deal.active.isSome && code / 4096 != 1 && code / 4096 != 9)) && (p.handEntry p.deal.epoch x.hand).isNone then
    some (Status.handNotServed, [])
  else if mutationCodes.contains code && p.solo && !p.part.lead then some (Status.partnerUnreachable, [1])
  else if vaultMutations.contains code && !(p.survivesBoth x.hand) then some (Status.dealCutPending, [])
  else none

/-- What keeps a mutation from being made for now: its target is being torn down for a hand that went (02 R54), or a resync runs (13 R365). -/
def busyWrite (p : Part) (hand code : Nat) (params : Bytes) : Option (Nat × Nat) :=
  let mine := (targetSlots code params).filter (p.slotInHand p.deal.epoch hand)
  match p.tearEnd (fun e => mine.any (fun i => e.holds (.slot i))) with
  | some t => some (3, p.usUntil t)
  | none => if mutationCodes.contains code && p.part.st == .resync && !p.part.lead then some (6, p.resyncUs) else none

/-- What keeps a command from being accepted for now (16 R424): the reason and the µs it lasts. -/
def busy (p : Part) (hand code : Nat) (params : Bytes) : Option (Nat × Nat) :=
  let folding := p.power.fold != .running
  if folding && !(servedFolded code) && !(code == 0x1301 && p.power.fold == .folded) then some (1, p.foldRemaining)
  else if folding && (code == 0x1601 || code == 0x1602) && touchesSeat code params then some (1, p.foldRemaining)
  else if p.joker.scope = 5 ∧ p.joker.hand.toNat = hand ∧ hand ≠ 0 then some (5, 0xFFFFFFFF)
  else p.busyWrite hand code params

/-- Opens the streams of an accepted command: IDs that are free in the session, within its stream limit (03 R71, R74, 07 R191). -/
def openStreams (p : Part) (x : Session) (uid : Nat) : List (Nat × Bool × Option Nat) → Part
  | [] => p
  | (id, input, len) :: r =>
    let mine := p.xct.streams.filter (fun y => y.session = x.id)
    let p := if mine.any (fun y => y.id.toNat = id) ∨ x.slimit ≤ mine.length then p
      else
        let y : Stream := { session := x.id, id := BitVec.ofNat 32 id, input := input, uid := uid, declared := len, lastAt := p.now }
        p.setStreams (p.xct.streams ++ [y])
    p.openStreams x uid r

/-- An accepted command takes its place: its hand queue, or its session's Dealer order. -/
def enter (p : Part) (o : Origin) (hand code : Nat) (params : Bytes) (ordered : Bool) (path : Path) : Part × Nat :=
  let uid := p.xct.nextUid
  let cls := p.classOf code params
  let c : Cmd := { uid := uid, origin := o, code := code, params := params, hand := hand, epoch := p.deal.epoch, cls := cls
                   ordered := ordered, path := path, stamp := p.now, place := if cls = .dealer then .dealer else .queued }
  ({ p with xct := { p.xct with cmds := p.xct.cmds ++ [c], nextUid := uid + 1 } }, uid)

/-- State and original status of a recorded request (R82). -/
def replayPayload (x : Session) (req : Nat) : Bytes :=
  match x.recorded.find? (fun e => e.1 = req) with
  | some (_, none) => [0, 0, 0, 0]
  | some (_, some st) => [1, 0] ++ toBE 2 st.toNat
  | none => [2, 0, 0, 0]

/-- One command of an accepted frame, in the order of the checks of R82, R85 to R87, R107 and R424. -/
def accept (p : Part) (x : Session) (frameHand : Nat) (ordered : Bool) (path : Path) (code : Nat) (request : BitVec 64) (params : Bytes) : Part :=
  let req := request.toNat
  let back := fun (status : BitVec 16) (payload : Bytes) =>
    (p.countAnswer status).reply { session := x.id, request := request, code := code, status := status, payload := payload, path := path, ordered := ordered }
  if x.st ≠ .open_ then back Status.sessionUnknown []
  else if x.recorded.any (fun e => e.1 = req) then back Status.replayRejected (replayPayload x req)
  else if req = 0 ∨ req + x.window ≤ x.reqHigh then back Status.replayRejected [2, 0, 0, 0]
  else if ordered = true ∧ req < x.orderedHigh then back Status.replayRejected [2, 0, 0, 0]
  else if x.credit ≤ p.unanswered x.id then back Status.windowExceeded [1]
  else if (match p.inflightLimit x.hand with
      | some n => decide (n ≤ p.handInFlight x.hand)
      | none => false) = true then back Status.windowExceeded [2]
  else
    let first := p.firstAnswer x frameHand code
    match (if first.isSome then none else p.busy x.hand code params) with
    | some (why, left) =>
      let p := p.reply { session := x.id, request := request, code := code, status := Status.busyDraining, payload := busyPayload why left, path := path, ordered := ordered }
      if code = 0x1301 then { p with power := { p.power with retained := none } }
      else if why = 1 ∧ p.power.autowake = true ∧ servedFolded code = false then p.wakeTrigger 2 else p
    | none =>
      let high := max x.reqHigh req
      let p := p.updSession x.id (fun x =>
        { x with reqHigh := high, recorded := ((req, none) :: x.recorded).filter (fun e => high < e.1 + x.window)
                 orderedHigh := if ordered then max x.orderedHigh req else x.orderedHigh })
      let (p, uid) := p.enter (.host x.id request) x.hand code params ordered path
      match first with
      | some (status, payload) => p.answer uid status payload
      | none => p.openStreams x uid (streamsOf code params)

/-! ### Serving a Dealer-class command -/

/-- True when no ordered command of the session with a lower request ID is unfinished (04 R106). -/
def orderedTurn (p : Part) (c : Cmd) : Bool :=
  !c.ordered || p.xct.cmds.all (fun d => !(d.ordered && d.sameSession c && d.request.toNat < c.request.toNat && d.place != .xct))

/-- A Dealer-class command that holds back the later ones of its session until it is answered (R92, R455), be it parked for a commit, a grant, a
card or a shutdown. An attached journal sink does not: its session's JOURNAL_ACK comes while it stands (05 R145; DEDUCED, log 24). -/
def holdsBack (p : Part) (d : Cmd) : Bool :=
  (d.place == .dealer && p.orderedTurn d) || (d.place == .waiting && d.cls == .dealer && d.code != 0x2204)

/-- A Dealer-class command at the head of its session's order, whose turn has come. -/
def isHead (p : Part) (c : Cmd) : Bool :=
  c.place == .dealer && p.orderedTurn c && p.xct.cmds.all (fun d => !(p.holdsBack d && d.sameSession c && d.uid < c.uid))

/-- An applet's call as its Seat issues it (10 R278, R279): at most 32 outstanding; codes an applet may not call are unknown. It is work of its
instance's epoch (02 R52; DEDUCED, log 64). -/
def placeCall (p : Part) (seat core : Nat) (desc : BitVec 32) (code : Nat) (params : Bytes) : Part :=
  let c := p.core seat core
  if c.run ≠ .running then p
  else
    let (p, uid) := p.enter (.call seat core desc) c.hand.toNat code params false {}
    let epoch := ((c.uid.bind p.findCmd).map (·.epoch)).getD p.deal.epoch
    let n := p.disp.dealSeq + 1
    let p : Part := { p with disp := { p.disp with dealSeq := n } }
    let p := p.updCmd uid (fun d => { d with epoch := epoch, dealSeq := n })
    let p := p.updCore seat core (fun c => { c with calls := c.calls ++ [{ desc := desc, uid := uid }] })
    if 32 ≤ c.calls.length then p.deliverCall uid seat core desc Status.windowExceeded []
    else if callCodes.contains code = false then p.deliverCall uid seat core desc Status.commandUnknown []
    else if mutationCodes.contains code && p.solo && !p.part.lead then p.deliverCall uid seat core desc Status.partnerUnreachable [1]
    else if vaultMutations.contains code && !(p.survivesBoth c.hand.toNat) then p.deliverCall uid seat core desc Status.dealCutPending []
    else match (if epoch = p.deal.epoch then p.busyWrite c.hand.toNat code params else none) with
      | some (why, left) => p.deliverCall uid seat core desc Status.busyDraining (busyPayload why left)
      | none => if (siteOf code).isSome then p.updCmd uid (fun c => { c with place := .seatQ seat, seat := seat }) else p

/-- The command a row names: its origin and code. -/
def findRow (p : Part) (o : Origin) (code : Nat) : Option Cmd := p.xct.cmds.find? (fun c => c.origin = o ∧ c.code = code ∧ c.place = .dealer)

/-- Serves the Dealer-class command a row names (log 6): the accepted one; where none is accepted, one that arrives now, alone in its frame, under
the session's next sequence. It waits while another command is before it, and through a Dealer Hold (12 R334). -/
def serve (p : Part) (o : Origin) (code : Nat) (params : Bytes) (f : Part → Cmd → Part) : Part :=
  let p := match p.findRow o code with
    | some _ => p
    | none => match o with
      | .host id req => match p.findSession id with
        | none => p
        | some x =>
          let p := p.updSession id (fun x => { x with seqIn := x.seqIn + 1, seen := (x.seqIn + 1) :: x.seen, lastAt := p.now })
          p.accept x x.hand false x.path code req params
      | .call seat core desc => p.placeCall seat core desc code params
  match p.findRow o code with
  | none => p
  | some c => if p.isHead c && p.guard.dealerHold.isNone then f p c else p

/-- A Dealer command goes on waiting: for a commit, a grant, a card, a shutdown. -/
def parkCmd (p : Part) (uid : Nat) : Part := p.updCmd uid (fun c => { c with place := .waiting })

/-- The length and reserved-field faults of R456. -/
def lengthFault (p : Part) (uid : Nat) : Part := p.answer uid Status.lengthMismatch

/-- A Dealer command whose operand is a stream (R72, R73; log 20): the bytes delivered so far go to it, with what they are of the declared length. -/
def streamOf (p : Part) (c : Cmd) : Option Stream :=
  (c.session?.bind (fun x => p.findStream x (BitVec.ofNat 32 (field c.params 0 4)))).filter (fun y => y.uid == c.uid)

/-- It waits until its stream has delivered the whole; one with no stream of its own, or whose block is of another form, answers LENGTH_MISMATCH. -/
def whenStreamed (p : Part) (c : Cmd) (f : Part → Bytes → Part) : Part :=
  if c.params.length ≠ 16 ∨ allZero (slice c.params 4 4) = false then p.lengthFault c.uid
  else match p.streamOf c with
    | none => p.lengthFault c.uid
    | some y => if y.data.length < field c.params 8 8 then p else f p y.data

/-- A command only house-hand sessions may issue. -/
def houseOnly (p : Part) (c : Cmd) (f : Part → Part) : Part := if c.hand ≠ 0 then p.answer c.uid Status.accessFault else f p

end Part

end Sys2Proof.Machine
end

