-- ==== Sys2Proof/Machine/Xct.lean ====
section
/-! DEFINITION. XCT (03): frames from the port to the commands they carry, the handshake, the states of a session, responses and notices. -/

namespace Sys2Proof.Machine

/-! ### Ports -/

/-- The window of a half's port. -/
def halfWindow (h : Half) : Nat := if halfIndex h < 2 then winHPA else winHPB

namespace Part

def portOf (p : Part) (h : Half) : HostPort := if halfIndex h < 2 then p.hpa else p.hpb

def hpCount (p : Part) (h : Half) (offset : Nat) (n : Nat := 1) : Part := p.bump (regAddr 0 (halfWindow h) offset) n

/-- MACsec-required (R62); in Tamper and in Retired every half follows the rule for mixed halves (12 R342, 16 R413). -/
def msRequired (p : Part) (h : Half) : Bool :=
  (if halfIndex h % 2 = 0 then (p.portOf h).msreq0 else (p.portOf h).msreq1) && p.power.life != 2 && p.power.life != 3

/-- The first four bytes of the source IP address; 0 without IP. -/
def srcIp4 (a : Arrival) : Nat := match a.encap with
  | .eth => 0
  | .udp4 => a.src.toNat % 2 ^ 32
  | .udp6 => a.src.toNat / 2 ^ 96

/-- A stranger frame: dropped silently, counted and recorded (R86). -/
def stranger (p : Part) (a : Arrival) : Part :=
  let mac := a.srcMac.toNat
  (p.hpCount a.half 0x0128).event 5 0x0110 1 0 0 (halfIndex a.half * 2 ^ 24 + mac / 2 ^ 32) (mac % 2 ^ 32) (srcIp4 a)

/-- The path of a frame, on which its answer goes (R63). -/
def pathOf (a : Arrival) : Path :=
  { half := a.half, encap := a.encap, secured := a.secTag, vlan := a.vlan, mac := a.srcMac, peer := a.src, own := a.dst
    peerPort := a.srcPort, ownPort := a.udpPort }

/-- UDP addressing (R63): the half's address, the port of HPx_UDP, a zero checksum only with IPv4. -/
def udpOk (p : Part) (a : Arrival) : Bool :=
  let h := p.half a.half
  let port := (p.portOf a.half).udp
  port != 0 && a.udpPort == port &&
    match a.encap with
    | .eth => false
    | .udp4 => h.ip4 != 0 && a.dst.toNat == h.ip4.toNat
    | .udp6 => h.ip6 != 0 && a.dst == h.ip6 && !a.csumZero

/-- The VLAN of a half: only its tag, or untagged (HPx_VLAN). -/
def vlanOk (p : Part) (a : Arrival) : Bool :=
  let v := (p.half a.half).vlan.toNat
  let vid := v % 4096
  if 32768 ≤ v then vid != 0 && vid != 0xFFF && a.vlan == some (BitVec.ofNat 12 vid) else a.vlan.isNone

/-- The port's checks of a frame (R61, R62, R87): true when it goes into the ingress buffer. -/
def portChecks (p : Part) (a : Arrival) (len : Nat) : Part × Bool :=
  let h := p.half a.half
  if h.up = false ∨ h.enabled = false then (p, false)
  else
    let p := if a.fecFixed = 0 then p else p.hpCount a.half 0x0100 a.fecFixed
    let p := if a.fecFailed = 0 then p else p.hpCount a.half 0x0108 a.fecFailed
    if a.fcsOk = false then (p.hpCount a.half 0x0110, false)
    else if a.fecFailed ≠ 0 then (p, false)
    else if 9216 < a.wireLen ∨ a.stacked = true ∨ a.fragment = true ∨ p.vlanOk a = false ∨ 9000 < len then (p.hpCount a.half 0x0120, false)
    else if a.secTag = true ∧ a.icvOk = false then (p.hpCount a.half 0x0118, false)
    else if a.secTag = false ∧ (p.msRequired a.half = true ∨ a.encap = .eth) then (p.hpCount a.half 0x0118, false)
    else if a.encap ≠ .eth ∧ p.udpOk a = false then (p, false)
    else if a.full then (p.hpCount a.half 0x0130, false)
    else (p, true)

end Part

/-! ### The header (R65) -/

structure Header where
  version : Nat
  flags : Byte
  len : Nat
  hand : Nat
  session : BitVec 32
  seq : Nat
  request : BitVec 64
  code : Nat
  status : Nat
  plen : Nat
deriving DecidableEq, Repr

def headerOf (b : Bytes) : Header :=
  { version := field b 0 1, flags := byteAt b 1, len := field b 2 1, hand := field b 3 1, session := BitVec.ofNat 32 (field b 4 4)
    seq := field b 8 8, request := BitVec.ofNat 64 (field b 16 8), code := field b 24 2, status := field b 26 2, plen := field b 28 4 }

def Header.bundle (h : Header) : Bool := h.flags.getLsbD 1
def Header.ordered (h : Header) : Bool := h.flags.getLsbD 2
def Header.segment (h : Header) : Bool := h.flags.getLsbD 3
def Header.sealed_ (h : Header) : Bool := h.flags.getLsbD 5

/-- A header the part reads at all (R65, R66): version, length, no flag only the part sets, no reserved flag. -/
def Header.readable (h : Header) : Bool := h.version == 1 && h.len == 32 && (h.flags &&& 0xD1) == 0

/-- An entry of a bundle (R68). -/
structure Entry where
  request : BitVec 64
  code : Nat
  status : Nat
  payload : Bytes
deriving DecidableEq, Repr

/-- The entries of a bundle's payload, none when one runs past it or its padding is not zero (R69). -/
def entriesOf : Nat → Bytes → Option (List Entry)
  | 0, b => if b.isEmpty then some [] else none
  | n + 1, b =>
    if b.isEmpty then some []
    else
      let len := field b 12 4
      let pad := padding 8 len
      if b.length < 16 + len + pad ∨ allZero (slice b (16 + len) pad) = false then none
      else (entriesOf n (b.drop (16 + len + pad))).map (fun r =>
        { request := BitVec.ofNat 64 (field b 0 8), code := field b 8 2, status := field b 10 2, payload := slice b 16 len } :: r)

/-- A bundle that breaks none of R69. -/
def bundleOf (request : BitVec 64) (b : Bytes) : Option (List Entry) :=
  match entriesOf 65 b with
  | none => none
  | some l =>
    if l = [] ∨ 64 < l.length ∨ rising (l.map (fun e => e.request.toNat)) = false ∨ (l.head?.map (·.request)) ≠ some request then none
    else some l

/-! ### Notices out (R88, 14 R389) -/

namespace Part

/-- Tokens the bucket must hold for a severity (14 R389). -/
def reserve (sev : Nat) : Nat := if sev = 0 then 2001 else if sev = 1 then 1501 else if sev = 2 then 1001 else if sev = 3 then 501 else 1

/-- Takes a notice's token, if the budget holds its reserve (14 R389). -/
def takeBudget (p : Part) (sev : Nat) : Option Part :=
  let have_ := refilled p.evr.budget 4000000 4000 p.now
  if reserve sev * tokenUnit ≤ have_ then some (p.setEvr { p.evr with budget := { amount := have_ - tokenUnit, at_ := p.now } }) else none

/-- Numbers the notices the budget lets through; the others are dropped and counted (14 R389). -/
def numberNotices (p : Part) (id : BitVec 32) : List Notice → Part × List SentNotice
  | [] => (p, [])
  | n :: r =>
    match p.takeBudget n.sev, p.findSession id with
    | some p, some x =>
      let sn : SentNotice := { seq := x.noticeSeq + 1, notice := n }
      let p := p.updSession id (fun x => { x with noticeSeq := x.noticeSeq + 1, kept := (sn :: x.kept).take 64 })
      let (p, l) := (p.bump (regAddr 0 winXCT 0x0148)).numberNotices id r
      (p, sn :: l)
    | _, _ => (p.bump (regAddr 0 winNTC 0x0108)).numberNotices id r

/-- Up to 32 waiting notices leave in one NOTICE frame (R88). -/
def noticeFrame (p : Part) (x : Session) : Part :=
  let p := p.updSession x.id (fun x => { x with waiting := x.waiting.drop 32 })
  let (p, l) := p.numberNotices x.id (x.waiting.take 32)
  if l = [] then p else p.emit x.id 0 0x9001 0 (l.flatMap (fun s => s.notice.bytes s.seq)) x.path

/-- While a RETRACT notice of a session waits, its notices go out, so that the notice is ahead of the response (07 R199). -/
def sendRetracts : Nat → Part → BitVec 32 → Part
  | 0, p, _ => p
  | n + 1, p, id => match p.findSession id with
    | none => p
    | some x => if x.waiting.any (fun w => w.code == 0x0330) && p.canSend x.half then sendRetracts n (p.noticeFrame x) id else p

def sendWaiting (p : Part) (id : BitVec 32) : Part := sendRetracts ((p.findSession id).elim 0 (·.waiting.length)) p id

end Part

/-! ### Closing a session (R77) -/

namespace Part

/-- The last record whose bytes have all gone to the sink: those beyond the stream's window wait in the part (05 R145, R73). -/
def sinkSent (p : Part) : Nat :=
  let j := p.vault.journal
  match j.sink with
  | none => j.acked
  | some (session, stream, _) =>
    let out := (p.findStream session stream).elim 0 (·.announced)
    (j.marks.filter (fun e => e.2 ≤ out)).foldl (fun m e => max m e.1) j.acked

/-- The sink detaches: its JOURNAL_ATTACH answers with the last sequence sent (05 R145); one whose stream ends under R73 answers STREAM_ABORTED. -/
def detachSink (p : Part) (status : BitVec 16 := Status.done) : Part :=
  match p.vault.journal.sink with
  | none => p
  | some (session, stream, uid) =>
    let last := p.sinkSent
    let p := p.setJournal { p.vault.journal with sink := none, sent := 0, marks := [] }
    let p := p.updStream session stream (fun x => { x with ended := some x.data.length })
    p.answer uid status (toBE 8 last)

/-- The ceremonies and unused authorisations of a session end (15 R403). -/
def endCeremonies (p : Part) (session : BitVec 32) : Part :=
  [0, 1].foldl (fun p port =>
    let p := match (p.cerPort port).cer with
      | some c => if c.session = session then p.voidCeremony port else p
      | none => p
    match (p.cerPort port).auth with
    | some a => if a.cer.session = session then p.lapseAuth port else p
    | none => p) p

/-- Shuffle disarms as its selected session closes (17 R436): held frames that were leaving leave; held frames that were arriving find no
session (R86). -/
def shuffleClose (p : Part) (id : BitVec 32) : Part :=
  if p.shuffle.en = true ∧ p.shuffle.sess = id ∧ 2 ≤ p.shuffle.target.toNat then
    let out := p.shuffle.held.flatMap heldOut
    let p := (p.disarmed 3).putTx out
    out.foldl (fun p e => match e.1 with
      | .hostIn a _ => p.stranger a
      | _ => p) p
  else p

/-- Closed: keys gone, the table entry free, nothing of the session left (R77, R79). -/
def closeSession (p : Part) (id : BitVec 32) : Part :=
  let p := p.shuffleClose id
  let sinkHere := p.vault.journal.sink.any (fun s => s.1 == id)
  let p := if sinkHere then p.setJournal { p.vault.journal with sink := none, sent := 0, marks := [] } else p
  { p with xct := { p.xct with
      sessions := p.xct.sessions.filter (fun x => !(x.id == id))
      replies := p.xct.replies.filter (fun r => !(r.session == id))
      streams := p.xct.streams.filter (fun y => !(y.session == id)) } }

/-- A Closing session whose commands are all answered and whose responses have left is Closed. -/
def settleSession (p : Part) (id : BitVec 32) : Part :=
  match p.findSession id with
  | none => p
  | some x => if x.st = .closing ∧ p.unanswered id = 0 ∧ p.xct.replies.all (fun r => !(r.session == id)) = true then p.closeSession id else p

/-- Open to Closing: its notices and ceremonies end, its sink detaches. -/
def startClosing (p : Part) (id : BitVec 32) : Part :=
  match p.findSession id with
  | none => p
  | some x =>
    if x.st ≠ .open_ then p
    else
      let p := p.updSession id (fun x => { x with st := .closing, closingAt := p.now, waiting := [] })
      let p := p.endCeremonies id
      let p := if p.vault.journal.sink.any (fun s => s.1 == id) then p.detachSink else p
      p.settleSession id

/-- The end of Closing's 100 ms: what is still in flight is aborted and scrubbed, with no response (R77); what a lane command of it released is
retracted first (07 R199). -/
def killSession (p : Part) (id : BitVec 32) : Part :=
  let mine := p.xct.cmds.filter (fun c => c.session? == some id)
  let p := mine.foldl (fun p c => p.sendRetract c.uid Status.streamAborted) p
  let p := p.sendWaiting id
  (mine.foldl (fun p c => p.stopCommand c.uid none) p).closeSession id

/-! ### Handshake (R76, R78, R79) -/

/-- What admits a certificate: the active Deal's entry; after a claim, the claiming certificate; while no bank yields the active Deal (02 R48), the
certificates hand 0 admitted in it; in Blank any; in Tamper and Retired the
Tamper admission list (12 R342, 15 R401). The limits of an admission outside a Deal are the model's (log 10). -/
def admission (p : Part) (cert : Bytes) : Option AdmissionEntry :=
  let fp := sha384 cert
  let house : AdmissionEntry := { cert := fp, hand := 0, flags := 0x04, limit := 64, credit := 65536, window := 64, idle := 65535, swin := 64, slimit := 256 }
  if p.power.life = 1 then
    match p.deal.active with
    | some d => d.admission.find? (fun e => e.cert = fp)
    | none => if p.xct.claimCert = some fp ∨ (p.deal.failed = true ∧ p.xct.tamperList.contains fp = true) then some house else none
  else if p.power.life = 0 then some house
  else if p.xct.tamperList.contains fp then some house else none

/-- The lowest table index that holds no session and is not retired, with its next incarnation (R79); index 0 starts at incarnation 1. -/
def freeIndex (p : Part) : Option (Nat × Nat) :=
  let used := fun (i : Nat) => p.xct.sessions.any (fun x => x.id.toNat % 16384 = i) || p.xct.retired.contains i
  let inc := fun (i : Nat) => match Sparse.get? p.xct.incs i with
    | some n => n + 1
    | none => if i = 0 then 1 else 0
  ((List.range 16384).find? (fun i => !(used i))).map (fun i => (i, inc i))

/-- An answer within the handshake, with no session of its own: sequence 0, unsealed (R76); it waits while its half cannot send. -/
def shakeOut (p : Part) (r : Reply) (hand : Nat) : Part :=
  if p.canSend r.half then { p with tx := frameOut r.path none hand r.session 0 r.request r.code r.status r.payload :: p.tx }
  else p.reply { r with bare := true }

def helloFail (p : Part) (path : Path) (request : BitVec 64) (status : BitVec 16) : Part :=
  (p.countAnswer status).reply { session := 0, request := request, code := 0x1001, status := status, payload := [], path := path, bare := true }

/-- More than 1,024 Offered sessions: the oldest is closed silently (R78). -/
def trimOffered (p : Part) : Part :=
  let off := p.xct.sessions.filter (fun x => x.st == .offered)
  if off.length ≤ 1024 then p
  else
    let oldest := off.foldl (fun b x => match b with
      | none => some x
      | some y => if x.offeredAt < y.offeredAt then some x else b) (none : Option Session)
    match oldest with
    | none => p
    | some y => (p.closeSession y.id).bump (regAddr 0 winXCT 0x0110)

/-- Step 1 of the handshake and the part's step 2. `fault`: the frame's status is nonzero, or its payload length is not what it carries (R66, R67). A
table entry counts as retired from the moment its last incarnation is assigned, while that session is still live (DEDUCED, log 66). -/
def hello (p : Part) (a : Arrival) (request : BitVec 64) (fault : Bool) (payload : Bytes) : Part :=
  let cert := (payload.drop 1672).take (field payload 1668 4)
  match p.admission cert, Config.certKey cert with
  | some e, some key =>
    if payload.length < 1672 ∨ 4096 < cert.length then p.stranger a
    else
      let hellos := p.xct.hellos.filter (fun t => p.now < t + sec 1)
      let flags := field payload 1664 4
      if 10000 ≤ hellos.length then p.bump (regAddr 0 winXCT 0x0110)
      else
        let p := { p with xct := { p.xct with hellos := p.now :: hellos } }
        let mine : List Session := p.xct.sessions.filter (fun x => x.cert = e.cert)
        if fault = true ∨ payload.length ≠ 1672 + cert.length ∨ 2 ≤ flags then p.helloFail (pathOf a) request Status.lengthMismatch
        else if e.limit ≤ mine.length ∨ 16384 ≤ p.xct.sessions.length then p.helloFail (pathOf a) request Status.sessionLimit
        else if e.flags.getLsbD 1 = true ∧ flags = 0 then p.helloFail (pathOf a) request Status.handshakeFailed
        else match p.freeIndex with
          | none => p.helloFail (pathOf a) request Status.sessionLimit
          | some (i, inc) =>
            let id := BitVec.ofNat 32 (inc * 16384 + i)
            let eph := p.drawn 32
            let rand := (p.draw 32).drawn 32
            let nonce := (p.draw 64).drawn 32
            let k := be ((p.draw 96).drawn 48)
            let p := p.drbgTakes 0 144
            let (ct, kss) := Kem.encaps (slice payload 32 1568) rand
            let own := p.idCert.getD []
            let step2 := toBE 4 id.toNat ++ C25519.x25519Base eph ++ padTo 1568 ct ++ nonce ++ toBE 4 own.length ++ own
            let th := sha384 (payload ++ step2)
            let ss := C25519.x25519 eph (slice payload 0 32) ++ kss
            let prk := hkdfExtract384 th ss
            let sig := match p384.sign Config.identityKey (k % (p384.n - 1) + 1) th with
              | some (r, s) => toBE 48 r ++ toBE 48 s
              | none => zeros 96
            let x : Session :=
              { id := id, st := .offered, hand := e.hand, cert := e.cert, sealOn := flags = 1, th := th, prk := prk, hostKey := key
                keyIn := hkdfExpand384 prk (ascii "XCT seal h2p") 32, keyOut := hkdfExpand384 prk (ascii "XCT seal p2h") 32
                mgmt := e.flags.getLsbD 2, drill := e.flags.getLsbD 0, credit := e.credit, window := e.window, idle := e.idle
                swin := e.swin, slimit := e.slimit, path := pathOf a, lastAt := p.now, offeredAt := p.now }
            let retire := if inc + 1 = 2 ^ 18 then i :: p.xct.retired else p.xct.retired
            let p := { p with xct := { p.xct with sessions := p.xct.sessions ++ [x], incs := Sparse.put p.xct.incs i inc, retired := retire } }
            let p := p.trimOffered
            p.shakeOut { session := 0, request := request, code := 0x1001, status := 0, payload := step2 ++ sig, path := pathOf a } e.hand
  | _, _ => p.stranger a

/-- The part's and the host's finish values (R76). -/
def finish (label : String) (x : Session) : Bytes := (hmacSha384 (hkdfExpand384 x.prk (ascii label) 48) x.th).take 32

/-- The host's signature over SHA-384(th, "XCT host"), under its certificate's P-256 or P-384 key. -/
def hostSigned (x : Session) (sig : Bytes) : Bool :=
  let m := sha384 (x.th ++ ascii "XCT host")
  let go := fun (c : Curve) (f : Nat) =>
    x.hostKey.length == 2 * f && sig.length == 2 * f && c.onCurve (field x.hostKey 0 f) (field x.hostKey f f) &&
      c.verify (some (field x.hostKey 0 f, field x.hostKey f f)) m (field sig 0 f) (field sig f f)
  go p256 32 || go p384 48

/-- Step 3 and the part's step 4 (R76, R77). The header of step 4 carries the new session ID, as step 3's does (DEDUCED, log 17). -/
def prove (p : Part) (a : Arrival) (x : Session) (request : BitVec 64) (payload : Bytes) : Part :=
  let sig := payload.take (payload.length - 32)
  let fin := payload.drop (payload.length - 32)
  let out := fun (p : Part) (status : BitVec 16) (b : Bytes) =>
    p.shakeOut { session := x.id, request := request, code := 0x1002, status := status, payload := b, path := pathOf a } x.hand
  if 32 ≤ payload.length ∧ hostSigned x sig = true ∧ fin = finish "XCT fin h" x then
    let p := p.updSession x.id (fun x => { x with st := .open_, path := pathOf a, lastAt := p.now })
    out (p.bump (regAddr 0 winXCT 0x0100)) Status.done (finish "XCT fin p" x)
  else out ((p.closeSession x.id).countAnswer Status.handshakeFailed) Status.handshakeFailed []

/-! ### Streams in (R72, R73) -/

/-- The byte held for position `at_`, from the earliest segment that carries it. -/
def byteOf (segs : List (Nat × Bytes)) (at_ : Nat) : Option Byte :=
  match segs.find? (fun e => e.1 ≤ at_ && at_ < e.1 + e.2.length) with
  | some e => e.2[at_ - e.1]?
  | none => none

/-- The bytes that may be delivered in order from `at_` on. -/
def runFrom (segs : List (Nat × Bytes)) : Nat → Nat → Bytes
  | 0, _ => []
  | n + 1, at_ => match byteOf segs at_ with
    | some b => b :: runFrom segs n (at_ + 1)
    | none => []

/-- A STREAM_ACK frame for a stream, from the half of the session's most recently accepted frame (DEDUCED, log 65), while it can send. -/
def sendAck (p : Part) (session id : BitVec 32) : Part :=
  match p.findSession session, p.findStream session id with
  | some s, some x =>
    if p.canSend s.half = false then p
    else (p.updStream session id (fun x => { x with announced := x.acked })).emit session 0 0x1005 0
      (toBE 4 id.toNat ++ zeros 4 ++ toBE 8 x.acked) s.path
  | _, _ => p

def streamDrop (p : Part) (n : Nat) : Part := if n = 0 then p else p.bump (regAddr 0 winXCT 0x0140) n

/-- A segment of an input stream (R72); one that contradicts the declared length ends its command (07 R192), or poisons its digest (09 R257). One
with a reserved flag set, or shorter than its own header, is dropped as bytes of no stream are, and counted so (DESIGN CHOICE, log 67). -/
def takeSegment (p : Part) (x : Session) (b : Bytes) : Part :=
  let data := b.drop 16
  let id := BitVec.ofNat 32 (field b 0 4)
  let off := field b 8 8
  match p.findStream x.id id with
  | none => p.streamDrop data.length
  | some y =>
    if b.length < 16 ∨ 2 ≤ field b 4 4 ∨ y.input = false then p.streamDrop data.length
    else
      let last := field b 4 4 = 1
      let bad := match y.declared with
        | some d => (decide (d < off + data.length) || (last && decide (off + data.length < d)))
        | none => false
      if bad then
        if (p.findCmd y.uid).any (fun c => c.code == 0x6001) then p.updStream x.id id (fun y => { y with ended := some (off + data.length) })
        else p.stopCommand y.uid (some Status.lengthMismatch)
      else
        let limit := y.acked + x.swin * 1024
        let lo := max off y.acked
        let hi := min (off + data.length) limit
        let piece := slice data (lo - off) (hi - lo)
        let fresh := ((List.range piece.length).filter (fun i => (byteOf y.segs (lo + i)).isNone)).length
        let p := p.streamDrop (data.length - fresh)
        let segs := if fresh = 0 then y.segs else y.segs ++ [(lo, piece)]
        let got := runFrom segs (segs.foldl (fun n e => n + e.2.length) 0) y.acked
        let acked := y.acked + got.length
        let p := p.updStream x.id id (fun y =>
          { y with segs := segs.filter (fun e => acked < e.1 + e.2.length), data := y.data ++ got, acked := acked
                   ended := if last then some (off + data.length) else y.ended
                   advAt := if got ≠ [] ∧ y.announced = y.acked then p.now else y.advAt
                   lastAt := if fresh = 0 then y.lastAt else p.now })
        if y.announced + 65536 ≤ acked then p.sendAck x.id id else p

/-- A STREAM_ACK of the host for an output stream (R73): the window moves, and a held plaintext's reservation with it (07 R198). An entry with a
nonzero reserved field, or beyond what has been sent, is ignored (DESIGN CHOICE, log 67). -/
def takeAckEntry (p : Part) (x : Session) (b : Bytes) : Part :=
  let id := BitVec.ofNat 32 (field b 0 4)
  let off := field b 8 8
  match p.findStream x.id id with
  | none => p
  | some y =>
    if y.input = true ∨ field b 4 4 ≠ 0 ∨ off ≤ y.acked ∨ y.announced < off then p
    else
      let p := p.updStream x.id id (fun y => { y with acked := off, resends := 0, hold := min y.hold (y.data.length - off) })
      let p := p.pump x.id id
      if (p.findCmd y.uid).isNone ∧ off = y.data.length then
        p.setStreams (p.xct.streams.filter (fun z => !(z.session == x.id && z.id == id)))
      else p

def takeAck (p : Part) (x : Session) (b : Bytes) : Part := ((chunks 16 b).take 64).foldl (fun p e => p.takeAckEntry x e) p

/-! ### A frame of a session -/

/-- The payload of a session's frame as R80 lets it through. -/
def openFrame (x : Session) (h : Header) (frame : Bytes) (secTag : Bool) : Option Bytes :=
  let body := frame.drop 32
  if x.sealOn then
    if h.sealed_ = false ∨ body.length < 16 then none
    else gcmOpen x.keyIn (toBE 4 1 ++ toBE 8 h.seq) (frame.take 32) (body.take (body.length - 16)) (body.drop (body.length - 16))
  else if h.sealed_ = true ∨ secTag = false then none
  else some body

/-- R81. -/
def seqOk (x : Session) (s : Nat) : Bool := s ≠ 0 && (x.seqIn < s || (x.seqIn < s + x.window && !(x.seen.contains s)))

/-- The frame's commands, once the frame is accepted. A bundle entry with a nonzero status is answered LENGTH_MISMATCH by itself, as one with a
wrong parameter block is (R69); the others proceed (DEDUCED, log 67). -/
def takeFrame (p : Part) (x : Session) (h : Header) (path : Path) (body : Bytes) : Part :=
  let mismatch := fun (p : Part) (request : BitVec 64) (code : Nat) =>
    (p.countAnswer Status.lengthMismatch).reply
      { session := x.id, request := request, code := code, status := Status.lengthMismatch, payload := [], path := path, ordered := h.ordered }
  if h.plen ≠ body.length then mismatch p h.request h.code
  else if h.segment then (if h.code = 0x1006 then p.takeSegment x body else p.streamDrop body.length)
  else if h.code = 0x1005 ∧ h.bundle = false then p.takeAck x body
  else if h.status ≠ 0 then mismatch p h.request h.code
  else if h.bundle then
    match bundleOf h.request body with
    | none => mismatch p h.request 0
    | some l => l.foldl (fun p e =>
        if e.status ≠ 0 then mismatch p e.request e.code
        else match p.findSession x.id with
          | some y => p.accept y h.hand h.ordered path e.code e.request e.payload
          | none => p) p
  else match p.findSession x.id with
    | some y => p.accept y h.hand h.ordered path h.code h.request body
    | none => p

/-- A session ID that the part has assigned since power-up (R79): without a session in the table it names a Closed one. -/
def wasAssigned (p : Part) (id : BitVec 32) : Bool :=
  let i := id.toNat % 16384
  let n := id.toNat / 16384
  id != 0 && (Sparse.get? p.xct.incs i).any (fun m => decide (n ≤ m))

/-- A frame of a session that passes R80 and R81, or a stranger (R86). -/
def sessionFrame (p : Part) (a : Arrival) (x : Session) (h : Header) (frame : Bytes) : Part :=
  match openFrame x h frame a.secTag with
  | none => (p.bump (regAddr 0 winXCT 0x0120)).stranger a
  | some body =>
    if seqOk x h.seq = false then (p.bump (regAddr 0 winXCT 0x0118)).stranger a
    else
      let high := max x.seqIn h.seq
      let p := p.updSession x.id (fun x =>
        { x with seqIn := high, seen := (h.seq :: x.seen).filter (fun s => high < s + x.window), path := pathOf a, lastAt := p.now })
      let p := p.takeFrame x h (pathOf a) body
      if 2 ^ 64 - 1 ≤ h.seq then p.startClosing x.id else p

/-- A frame that reaches XCT from a port (R65 to R73, R80, R81, R86). On an Offered session every frame but SESSION_PROVE is one of a session like
any other, whose commands answer SESSION_UNKNOWN (DEDUCED, log 17). -/
def xctFrame (p : Part) (a : Arrival) (frame : Bytes) : Part :=
  let h := headerOf frame
  let body := frame.drop 32
  if frame.length < 32 ∨ h.readable = false then p.stranger a
  else
    let shake := ((h.code = 0x1001 ∧ h.session = 0) ∨ (h.code = 0x1002 ∧ h.session ≠ 0)) ∧ h.seq = 0 ∧ h.flags = 0
    let fault := decide (h.status ≠ 0) || decide (h.plen ≠ body.length)
    if a.secTag = false ∧ ¬ shake ∧ h.sealed_ = false then p.hpCount a.half 0x0118
    else if h.session = 0 then
      if shake then p.hello a h.request fault body else p.stranger a
    else match p.findSession h.session with
      | none =>
        if h.sealed_ = false ∧ a.secTag = true ∧ p.wasAssigned h.session = true then
          p.reply { session := h.session, request := h.request, code := h.code, status := Status.sessionUnknown, payload := [], path := pathOf a
                    bare := true }
        else p.stranger a
      | some x =>
        if x.st = .offered ∧ shake then
          if fault then (p.countAnswer Status.lengthMismatch).reply
            { session := x.id, request := h.request, code := h.code, status := Status.lengthMismatch, payload := [], path := pathOf a, bare := true }
          else p.prove a x h.request body
        else p.sessionFrame a x h frame

/-- A frame as Shuffle lets it through: a damaged one fails its tag, on an unsealed session its ICV (17 R435). -/
def delivered (p : Part) (e : ShufFrame × Bool) : Part :=
  match e.1 with
  | .hostIn a frame =>
    if e.2 = false then p.xctFrame a frame
    else if (headerOf frame).sealed_ then (p.bump (regAddr 0 winXCT 0x0120)).stranger a
    else p.hpCount a.half 0x0118
  | _ => p

/-- A frame that a port's checks let through, by way of Shuffle where it is armed on the frame's session (17 R434). -/
def arrive (p : Part) (a : Arrival) (frame : Bytes) : Part :=
  match p.findSession (headerOf frame).session with
  | none => p.xctFrame a frame
  | some x =>
    if p.shufflesHost 2 x = true ∧ x.st ≠ .offered then
      let (p, l) := p.inject (.hostIn a frame) x.id.toNat
      l.foldl delivered p
    else p.xctFrame a frame

/-- Frames of one Dealer cycle are checked in the order of the halves (R84): one on the same half as the last, or on one before it, is of the next
cycle. -/
def inCycle (p : Part) (h : Half) : Part :=
  let late := p.xct.lastIn.any (fun e => e.1 == p.now / 2 && decide (halfIndex h ≤ halfIndex e.2))
  let p := if late then p.wait (2 - p.now % 2) else p
  { p with xct := { p.xct with lastIn := some (p.now / 2, h) } }

/-- A frame in the ingress buffer goes to XCT. -/
def intoXct (p : Part) (e : Arrival × Bytes) : Part := (p.inCycle e.1.half).arrive e.1 e.2

/-- A frame arrives. During a Dealer Hold XCT accepts none: it waits in the ingress buffer (12 R334). -/
def receive (p : Part) (a : Arrival) (frame : Bytes) : Part :=
  let (p, ok) := p.portChecks a frame.length
  if ok = false then p
  else if p.guard.dealerHold.isSome then { p with xct := { p.xct with inbox := p.xct.inbox ++ [(a, frame)] } }
  else p.intoXct (a, frame)

/-- The frames that waited go to XCT, in the order of their arrival. -/
def drainInbox (p : Part) : Part :=
  let p' : Part := { p with xct := { p.xct with inbox := [] } }
  p.xct.inbox.foldl intoXct p'

/-- A handshake frame as the host sends it (R76). -/
def shakeFrame (code : Nat) (session : BitVec 32) (payload : Bytes) : Bytes :=
  frameHeader 0 0 session 0 0 code 0 payload.length ++ payload

/-! ### Sending (R70, R84, R85, R88, R89) -/

/-- An outcome that waits to be sent: an answered command, or a frame or entry that was not accepted. -/
structure Ready where
  session : BitVec 32
  request : BitVec 64
  ordered : Bool
  doneAt  : Nat
  doneSeq : Nat
  half    : Half
  source  : Nat                     -- its requester of R108

/-- A Seat's response comes from that Seat, a Dealer command's from a house core, a refusal from the half of its frame. -/
def readyCmd (c : Cmd) : Ready :=
  { session := c.session?.getD 0, request := c.request, ordered := c.ordered, doneAt := c.doneAt, doneSeq := c.doneSeq, half := c.half
    source := if c.seat = 0 then 5 else 7 + c.seat }

def readyReply (r : Reply) : Ready :=
  { session := r.session, request := r.request, ordered := r.ordered, doneAt := r.doneAt, doneSeq := r.doneSeq, half := r.half, source := halfIndex r.half }

def ready (p : Part) : List Ready :=
  p.xct.replies.map readyReply ++ (p.xct.cmds.filter (fun c => c.place == .xct && !c.isCall)).map readyCmd

/-- Responses to ordered frames leave in ascending request-ID order: one with a lower ID is still to leave (R85). -/
def outOfOrder (p : Part) (r : Ready) : Bool :=
  r.ordered && (p.xct.cmds.any (fun d => d.ordered && d.session? == some r.session && d.request.toNat < r.request.toNat) ||
    p.xct.replies.any (fun d => d.ordered && d.session == r.session && d.request.toNat < r.request.toNat))

/-- Which of two outcomes came first: by cycle, then as the pointer of the XCT response path finds their requesters (R85, R108). -/
def readyBefore (p : Part) (a b : Ready) : Bool :=
  let ra := p.arbRank 1 a.source
  let rb := p.arbRank 1 b.source
  a.doneAt < b.doneAt || (a.doneAt == b.doneAt && (ra < rb || (ra == rb && a.doneSeq < b.doneSeq)))

/-- An outcome may leave: its half can send, and no other that can, of its session or of its cycle, comes before it (R85, R108). What waits for its
half, or for the ascending order, holds back none (DEDUCED, log 68). -/
def mayLeave (p : Part) (r : Ready) : Bool :=
  p.canSend r.half && !(p.outOfOrder r) && p.ready.all (fun d =>
    !(p.canSend d.half) || p.outOfOrder d || (d.session == r.session && d.ordered && r.ordered) ||
    !((d.session == r.session || d.doneAt == r.doneAt) && p.readyBefore d r))

/-- An answered command's response leaves: its credit returns, its status is kept for the replay window (R82, R85). A command turned away with
BUSY_DRAINING is not kept, but for the ones that are retained (16 R424). -/
def sendResponse (p : Part) (c : Cmd) (x : Session) : Part :=
  let req := c.request.toNat
  let p := (p.dropCmd c.uid).updSession x.id (fun x =>
    { x with recorded := if c.status = Status.busyDraining ∧ c.code ≠ 0x1303 ∧ c.code ≠ 0x1201 then x.recorded.filter (fun e => !(e.1 == req))
                         else x.recorded.map (fun e => if e.1 = req then (req, some c.status) else e) })
  (p.emit x.id c.request c.code c.status c.payload c.path).settleSession x.id

/-- The response to a request leaves the part, when it is ready and its turn has come; a RETRACT notice that waits goes ahead of it. -/
def sendReply (p : Part) (session : BitVec 32) (request : BitVec 64) : Part :=
  match p.xct.replies.find? (fun r => r.session = session ∧ r.request = request) with
  | some r =>
    if p.mayLeave (readyReply r) then
      let p := p.arbServe 1 (halfIndex r.half)
      let p := { p with xct := { p.xct with replies := p.xct.replies.erase r } }
      if r.bare then { p with tx := frameOut r.path none 0 session 0 request r.code r.status r.payload :: p.tx }
      else (p.emit session request r.code r.status r.payload r.path).settleSession session
    else p
  | none =>
    match p.xct.cmds.find? (fun c => c.origin = .host session request ∧ c.place = .xct), p.findSession session with
    | some c, some x =>
      if p.mayLeave (readyCmd c) then ((p.arbServe 1 (readyCmd c).source).sendWaiting session).sendResponse c x else p
    | _, _ => p

/-- Waiting notices of an Open session leave (R88). -/
def sendNotices (p : Part) (id : BitVec 32) : Part :=
  match p.findSession id with
  | none => p
  | some x => if x.st ≠ .open_ ∨ x.waiting = [] ∨ p.canSend x.half = false then p else p.noticeFrame x

end Part

/-! ### The rows -/

/-- HOST_FRAME_RECEIVE (R61 to R73, R80 to R87). -/
def execHostFrameReceive (a : Arrival) (frame : Bytes) (s : State) : Result := powered s (fun p => p.receive a frame)

/-- SESSION_HELLO (R76, R78): the frame of step 1, with session ID, sequence and request ID 0. -/
def execSessionHello (a : Arrival) (payload : Bytes) (s : State) : Result := powered s (fun p => p.receive a (Part.shakeFrame 0x1001 0 payload))

/-- SESSION_PROVE (R76, R77): the frame of step 3, with the session's ID. -/
def execSessionProve (a : Arrival) (session : BitVec 32) (payload : Bytes) (s : State) : Result :=
  powered s (fun p => p.receive a (Part.shakeFrame 0x1002 session payload))

/-- SESSION_CLOSE (R77). -/
def execSessionClose (o : Origin) (b : Bytes) (s : State) : Result :=
  powered s (fun p => p.serve o 0x1003 b (fun p c =>
    if c.params ≠ [] then p.lengthFault c.uid
    else match c.session? with
      | some id => (p.answer c.uid Status.done).startClosing id
      | none => p.lengthFault c.uid))

/-- SESSION_STATUS (R85): credit in use, S, H and the open stream IDs (layout: log 10). -/
def execSessionStatus (o : Origin) (b : Bytes) (s : State) : Result :=
  powered s (fun p => p.serve o 0x1004 b (fun p c =>
    if c.params ≠ [] then p.lengthFault c.uid
    else match c.session?.bind p.findSession with
      | some x =>
        let ids := (p.xct.streams.filter (fun y => y.session = x.id)).map (fun y => y.id.toNat)
        p.answer c.uid Status.done (toBE 4 (p.unanswered x.id) ++ toBE 8 x.seqIn ++ toBE 8 x.reqHigh ++ toBE 4 ids.length ++ ids.flatMap (toBE 4))
      | none => p.lengthFault c.uid))

/-- STREAM_ACK (R72, R73): the host acknowledges output streams. -/
def execStreamAck (session : BitVec 32) (b : Bytes) (s : State) : Result :=
  powered s (fun p => match p.findSession session with
    | some x => if x.st = .offered then p else (p.updSession session (fun x => { x with lastAt := p.now })).takeAck x b
    | none => p)

/-- STREAM_DATA (R71, R72): a segment of an input stream. -/
def execStreamData (session : BitVec 32) (b : Bytes) (s : State) : Result :=
  powered s (fun p => match p.findSession session with
    | some x => if x.st = .offered then p else (p.updSession session (fun x => { x with lastAt := p.now })).takeSegment x b
    | none => p)

/-- RESPONSE_SEND (R70, R84, R85). -/
def execResponseSend (session : BitVec 32) (request : BitVec 64) (s : State) : Result := powered s (fun p => p.sendReply session request)

/-- NOTICE_FRAME_SEND (R88, R89, 14 R388, R389). -/
def execNoticeFrameSend (session : BitVec 32) (s : State) : Result := powered s (fun p => p.sendNotices session)

/-- NOTICE_RESEND (R89): the kept notices from a sequence on, in serial-number order. -/
def execNoticeResend (o : Origin) (b : Bytes) (s : State) : Result :=
  powered s (fun p => p.serve o 0x9201 b (fun p c =>
    match c.session?.bind p.findSession with
    | none => p.lengthFault c.uid
    | some x =>
      if c.params.length ≠ 4 then p.lengthFault c.uid
      else
        let from_ := BitVec.ofNat 32 (field c.params 0 4)
        let notBefore := fun (n : SentNotice) => (n.seq - from_).toNat < 2 ^ 31
        let lost := match x.kept.getLast? with
          | some n => let d := (n.seq - from_).toNat
            decide (1 ≤ d) && decide (d < 2 ^ 31)
          | none => false
        let again := (x.kept.filter notBefore).reverse
        let p := if again = [] then p else p.bump (regAddr 0 winXCT 0x0148) again.length
        p.answer c.uid Status.done ([if lost then 1 else 0] ++ again.flatMap (fun n => n.notice.bytes n.seq))))

/-- STREAM_ACK_DELAY (R72). -/
def execStreamAckDelay (session stream : BitVec 32) (s : State) : Result :=
  powered s (fun p => match p.findStream session stream with
    | some x => if x.input ∧ x.announced < x.acked then (p.atTime (x.advAt + usec 20)).sendAck session stream else p
    | none => p)

/-- STREAM_OUTPUT_RESEND (R73): output unacknowledged for 1 ms goes again; after 8 resends its command ends STREAM_ABORTED. -/
def execStreamOutputResend (session stream : BitVec 32) (s : State) : Result :=
  powered s (fun p => match p.findStream session stream, p.findSession session with
    | some y, some x =>
      if y.input = true ∨ y.announced ≤ y.acked ∨ p.canSend x.half = false then p.pump session stream
      else
        let p := p.atTime (y.lastAt + msec 1)
        if 8 ≤ y.resends then
          let drop := fun (p : Part) => p.setStreams (p.xct.streams.filter (fun z => !(z.session == session && z.id == stream)))
          if p.vault.journal.sink = some (session, stream, y.uid) then drop (p.detachSink Status.streamAborted)
          else drop (p.stopCommand y.uid (some Status.streamAborted))
        else
          let segs := segments stream y.ended y.acked (slice y.data y.acked (y.announced - y.acked))
          let p := p.updStream session stream (fun y => { y with resends := y.resends + 1, lastAt := p.now })
          segs.foldl (fun p b => p.emit session 0 0x1006 0 b x.path) p
    | _, _ => p)

/-- STREAM_INPUT_IDLE (R73): 100 ms without a new byte. -/
def execStreamInputIdle (session stream : BitVec 32) (s : State) : Result :=
  powered s (fun p => match p.findStream session stream with
    | some y =>
      if y.input = true ∧ y.ended ≠ some y.acked ∧ y.declared ≠ some y.acked then
        (p.atTime (y.lastAt + msec 100)).stopCommand y.uid (some Status.streamAborted)
      else p
    | none => p)

/-- SESSION_OFFER_TIMEOUT (R77). -/
def execSessionOfferTimeout (session : BitVec 32) (s : State) : Result :=
  powered s (fun p => match p.findSession session with
    | some x =>
      if x.st = .offered then ((p.atTime (x.offeredAt + sec 1)).closeSession session).bump (regAddr 0 winXCT 0x0110) else p
    | none => p)

/-- SESSION_IDLE_TIMEOUT (R77). -/
def execSessionIdleTimeout (session : BitVec 32) (s : State) : Result :=
  powered s (fun p => match p.findSession session with
    | some x => if x.st = .open_ then (p.atTime (x.lastAt + sec x.idle)).startClosing session else p
    | none => p)

/-- SESSION_CLOSING_TIMEOUT (R77). -/
def execSessionClosingTimeout (session : BitVec 32) (s : State) : Result :=
  powered s (fun p => match p.findSession session with
    | some x => if x.st = .closing then (p.atTime (x.closingAt + msec 100)).killSession session else p
    | none => p)

/-- HOLD_END (12 R334): after the Dealer's, XCT takes the frames that waited. -/
def execHoldEnd (die : Nat) (s : State) : Result :=
  onUnit (s.hasDie die) s (fun p =>
    if die = 0 then (p.endHold 0).drainInbox else p.endHold die)

/-- GUARD_READMIT (12 R345). -/
def execGuardReadmit (o : Origin) (b : Bytes) (s : State) : Result :=
  powered s (fun p => p.serve o 0x1201 b (fun p c => p.houseOnly c (fun p =>
    let n := field c.params 0 1
    if c.params.length ≠ 8 ∨ allZero (c.params.drop 1) = false then p.lengthFault c.uid
    else if p.hasSeat n = false then p.answer c.uid Status.accessFault
    else if p.seatIn n .selfTest then p.answer c.uid Status.busyDraining (busyPayload 4 2000)
    else if (p.seat n).parked = false then p.answer c.uid 0x0703
    else (p.updSeat n (fun s => { s with parked := false, readmitBy := true })).answer c.uid Status.done)))

end Sys2Proof.Machine
end

