-- ==== Sys2Proof/Machine/Registry.lean ====
section
/-! DEFINITION. The custodian registry (15 R396) and signature sections under its quorums (02 R39 to R41). -/

namespace Sys2Proof.Machine

/-- The 2,712-byte entry of custodian i (R396). -/
def parseCustodian (i : Nat) (b : Bytes) : Option Custodian :=
  let key := slice b 20 96
  if field b 0 1 ≠ i ∨ 1 < field b 1 1 ∨ field b 2 2 ≠ 0 ∨ field b 2708 4 ≠ 0 ∨ p384.onCurve (field key 0 48) (field key 48 48) = false then none
  else some { index := i, components := field b 1 1 = 1, cardId := slice b 4 16, ecdsa := key, mldsa := slice b 116 2592 }

/-- Entries i, i + 1, … of a registry. -/
def parseCustodians : Nat → Nat → Bytes → Option (List Custodian)
  | 0, _, _ => some []
  | n + 1, i, b => match parseCustodian i (b.take 2712), parseCustodians n (i + 1) (b.drop 2712) with
    | some c, some r => some (c :: r)
    | _, _ => none

/-- The registry section's value, none where it breaks a rule of R396. -/
def parseRegistry (b : Bytes) : Option Registry :=
  let n := field b 0 1
  let q := fun (i : Nat) => field b i 1
  let inRange := fun (i : Nat) => 1 ≤ q i && q i ≤ n
  if b.length < 16 ∨ n = 0 ∨ 16 < n ∨ b.length ≠ 16 + 2712 * n ∨ allZero (slice b 6 10) = false ∨
      ([1, 2, 3, 4, 5].all inRange) = false then none
  else match parseCustodians n 0 (b.drop 16) with
    | none => none
    | some l =>
      if distinct (l.map (·.cardId)) then
        some { deal := q 1, joker := q 2, promote := q 3, pairing := q 4, gap := q 5, custodians := l, fingerprint := sha384 b }
      else none

/-- A signature section's value: its quorum field and its entries; none on a fault of its structure (R39). -/
def parseSignatures (b : Bytes) : Option (Nat × List Bytes) :=
  let m := field b 0 1
  let n := field b 1 1
  let entries := chunks 4728 (b.drop 8)
  if b.length < 8 ∨ m = 0 ∨ 16 < m ∨ n < m ∨ 16 < n ∨ allZero (slice b 2 6) = false ∨ b.length ≠ 8 + 4728 * n then none
  else if entries.all (fun e => allZero (slice e 1 3) && byteAt e 4727 == 0) then some (m, entries)
  else none

/-- Both signatures of a custodian over a digest, the ML-DSA-87 one with a context (R40). -/
def signedBy (c : Custodian) (digest context ecdsa mldsa : Bytes) : Bool :=
  p384.verify (some (field c.ecdsa 0 48, field c.ecdsa 48 48)) digest (field ecdsa 0 48) (field ecdsa 48 48) &&
    Dsa.verify c.mldsa digest context mldsa

/-- The custodian an entry counts for (R40). -/
def signer (r : Registry) (digest context e : Bytes) : Option Nat :=
  match r.custodians.find? (fun c => c.index = field e 0 1) with
  | none => none
  | some c => if signedBy c digest context (slice e 4 96) (slice e 100 4627) then some c.index else none

/-- Distinct custodians that count. -/
def signers (r : Registry) (digest context : Bytes) (entries : List Bytes) : List Nat := (entries.filterMap (signer r digest context)).dedup

/-- A signature section that meets a quorum of a registry: its M field equals the quorum, and at least that many custodians count (R41). -/
def quorumSigned (r : Registry) (quorum : Nat) (digest context : Bytes) (m : Nat) (entries : List Bytes) : Bool :=
  m == quorum && quorum ≤ (signers r digest context entries).length

namespace Part

/-- The registry in force: the active Deal's, or without one the one recorded at the owner claim (02 R41, 10 R291, 16 R416). -/
def registryNow (p : Part) : Option Registry := match p.deal.active with
  | some d => some d.registry
  | none => p.registry

/-- The active serial, or the recorded one where no Deal is active. -/
def serialNow (p : Part) : Nat := match p.deal.active with
  | some d => d.serial
  | none => p.deal.recSerial

end Part

end Sys2Proof.Machine
end

