-- ==== Sys2Proof/Machine/VaultCmds.lean ====
section
/-! DEFINITION. The vault's commands and events (05): commits, invalidations and erases, key and counter commands, the journal's sink. -/

namespace Sys2Proof.Machine

namespace Part

/-- Key and counter commands of tenant hands wait for the vault to open (05 'Cold start'), and for what a resync has not settled. -/
def withVault (p : Part) (c : Cmd) (f : Part → Part) : Part :=
  if c.hand ≠ 0 ∧ p.vault.st ≠ .open_ then p.answer c.uid Status.handNotServed
  else if p.mustWait c then p else f p

/-! ### Counters (R142 to R144) -/

/-- Unissued values held for a counter. -/
def heldValues (p : Part) (i : Nat) : Nat :=
  ((p.vault.leases.filter (fun l => l.ctr = i)).flatMap (·.ranges)).foldl (fun n r => n + (r.2 - r.1)) 0

/-- The first n values of ranges, and what is left of them. -/
def takeValues : Nat → List (Nat × Nat) → List Nat × List (Nat × Nat)
  | _, [] => ([], [])
  | n, (lo, hi) :: r =>
    let k := min n (hi - lo)
    let first := (List.range k).map (lo + ·)
    if lo + k < hi then (first, (lo + k, hi) :: r)
    else
      let (l, rest) := takeValues (n - k) r
      (first ++ l, rest)

/-- Issues n values of a counter whose held values suffice (R144). -/
def issueValues (p : Part) (i n : Nat) : Part × List Nat :=
  match p.vault.leases.find? (fun l => l.ctr = i) with
  | none => (p, [])
  | some l =>
    let (vals, rest) := takeValues n l.ranges
    let leases := p.vault.leases.filter (fun l => !(l.ctr == i))
    let leases := if rest = [] then leases else leases ++ [{ l with ranges := rest, lastIssue := p.now }]
    ((p.setVault { p.vault with leases := leases }).bump (regAddr 0 winCTR 0x0100) n, vals)

/-- Requests that wait for a counter's grant are served from what is held now; a lane's request takes its value when its row runs again. -/
def serveWaiters (p : Part) (i : Nat) : Part :=
  (p.vault.leaseWaits.filter (fun w => w.1 = i)).foldl (fun p w =>
    match p.findCmd w.2 with
    | none => p
    | some c =>
      let drop := fun (p : Part) => p.setVault { p.vault with leaseWaits := p.vault.leaseWaits.filter (fun v => !(v == w)) }
      if c.code = 0x2102 then
        let n := field c.params 4 4
        if n ≤ p.heldValues i then
          let (p, vals) := (drop p).issueValues i n
          p.answer c.uid Status.done (vals.flatMap (toBE 8))
        else if (p.ctr i).st = .exhausted then (drop p).answer c.uid Status.counterLeaseEmpty [1]
        else p
      else drop p) p

/-- A lease is held; beyond 65,536 counters the one least recently issued from, with no request waiting, leaves the held set (R143). -/
def addLease (p : Part) (i lo hi : Nat) : Part :=
  let l := p.vault.leases
  match l.find? (fun x => x.ctr = i) with
  | some x => p.setVault { p.vault with leases := l.map (fun y => if y.ctr = i then { x with ranges := x.ranges ++ [(lo, hi)] } else y) }
  | none =>
    let free := l.filter (fun x => p.vault.leaseWaits.all (fun w => !(w.1 == x.ctr)))
    let oldest := free.foldl (fun (b : Option Lease) x => match b with
      | none => some x
      | some y => if x.lastIssue < y.lastIssue then some x else b) none
    let p := if 65536 ≤ l.length then (match oldest with
      | some x => p.abandon x.ctr
      | none => p) else p
    p.setVault { p.vault with leases := p.vault.leases ++ [{ ctr := i, ranges := [(lo, hi)], lastIssue := p.now }] }

/-- A grant in Solo would end above M + 2^48 (13 R360). -/
def soloLimit (p : Part) (i : Nat) : Bool :=
  let c := p.ctr i
  p.solo && p.part.lead && decide (c.mirrored + 2 ^ 48 < c.hw + 4096)

/-! ### Draining entries (R136) -/

/-- The order of dealing that binds a command: its own, or its invocation's (R136). -/
def boundSeq (p : Part) (c : Cmd) : Nat := match c.origin with
  | .host .. => c.dealSeq
  | .call s k _ => match (p.core s k).uid.bind p.findCmd with
    | some d => d.dealSeq
    | none => 0

/-- A command that may still use an old cache entry: dealt by the cutoff, presenting its generation, or an applet of its hand. -/
def mayUse (p : Part) (e : CacheEntry) (cutoff : Nat) (c : Cmd) : Bool :=
  c.onSeat e.seat && c.place != .waiting && p.boundSeq c ≤ cutoff &&
    ((handlesOf c.code c.params).any (fun h => h.slot = e.slot && h.gen = e.gen) || (c.code == 0x7001 && c.hand == e.hand))

/-- Draining entries that no command may use any longer are wiped. -/
def sweepDraining (p : Part) (seat : Nat) : Part :=
  p.wipeCache (fun e => e.seat == seat && e.draining && match e.cutoff with
    | some t => p.xct.cmds.all (fun c => !(p.mayUse e t c))
    | none => true)

/-! ### Commit (R133, R135 to R138) -/

/-- What R133 asks of a mutation before it commits: its record acknowledged and the acknowledgement in MRAM; in a pair that is not in
Solo, the partner holds it. One received from the partner asks only the first (13 R359). Commits of a folded part wait for its wake (16 R422). -/
def mayCommit (p : Part) (m : Mutation) : Bool :=
  match m.formed with
  | none => false
  | some r =>
    let remote := match m.kind with
      | .remote _ => true
      | _ => false
    p.power.fold != .folded && !m.committed && r.seq ≤ p.vault.journal.inMram && (remote || m.frame.isNone || p.solo || p.part.st == .resync || !p.paired || m.held)

/-- The response payload of a key write (R127). -/
def writePayload (b : JBody) (pub : Bytes) : Bytes :=
  match b with
  | .slotWrite head s => handleBytes s.hand s.gen head ++ toBE 3 s.kcv.toNat ++ zeros 5 ++ pub
  | _ => []

/-- At a rewrite's commit the Seats' copies of the old key serve only commands dealt before it (R136); a Seat with such a command and no
copy keeps one for it. -/
def cutoffs (p : Part) (slot : Nat) (old : Slot) : Part :=
  let t := p.disp.dealSeq
  let users := p.xct.cmds.filter (fun c => (handlesOf c.code c.params).any (fun h => h.slot = slot && h.gen = old.gen))
  let needs := p.seatNums.filter (fun n => users.any (fun c => c.onSeat n) && (p.cacheEntry n old.hand slot old.gen).isNone)
  let fresh := needs.map (fun n => ({ seat := n, hand := old.hand, slot := slot, gen := old.gen, cutoff := some t, lastUse := p.now, key := old } : CacheEntry))
  p.setCache (p.seats.cache.map (fun e => if e.slot = slot ∧ e.gen = old.gen then { e with cutoff := some t } else e) ++ fresh)

/-- What a mutation's commit does beside its record. -/
def commitEffect (p : Part) (m : Mutation) (body : JBody) : Part :=
  match m.kind with
  | .remote _ => p
  | .note _ => p
  | .keyWrite slot _ =>
    let old := p.slot slot
    let p := p.applyBody m.hand body
    match body with
    | .slotWrite .. => if old.st = .head then (p.cutoffs slot old).zeroKeyCtxs slot old.hand else p
    | _ => p
  | .ctrInit i _ => (p.abandon i).applyBody m.hand body
  | .lease i forPartner =>
    let lo := (p.ctr i).hw
    let p := (p.applyBody m.hand body).bump (regAddr 0 winCTR 0x0108)
    let hi := (p.ctr i).hw
    if forPartner then p else (p.addLease i lo hi).serveWaiters i
  | .appData off d =>
    let epoch := ((m.owner.bind p.findCmd).map (·.epoch)).getD p.deal.epoch
    p.writeApp (Part.baseIn (((p.dealOf epoch).map (·.hands)).getD []) m.hand + off) d
  | .allowance slot seat uses blocks =>
    let old := p.slot slot
    let p := (p.applyBody m.hand body).updCache seat old.hand slot old.gen (fun c => { c with uses := c.uses + uses, blocks := c.blocks + blocks })
    match policyOf p.deal.active old.hand old.ktype with
    | some q => p.tdeaReached old.hand slot old.tdea (p.slot slot).tdea q
    | none => p
  | _ => p.applyBody m.hand body

/-- M follows the high-water the partner holds (13 R360). -/
def raiseMirrored (p : Part) (m : Mutation) (b : JBody) : Part :=
  match b with
  | .counter i _ hw => if m.held then p.updCtr i (fun c => { c with mirrored := max c.mirrored hw }) else p
  | _ => p

/-- An erase's commit (R137): the order goes to every Seat that holds keys; HMAC contexts under the key are zeroized (09 R265). -/
def commitErase (p : Part) (m : Mutation) (slot : Nat) (body : JBody) : Part :=
  let old := p.slot slot
  let p := p.applyBody m.hand body
  let p := if old.ktype = 6 then p.zeroKeyCtxs slot old.hand else p
  let waits := p.seatNums.filter (fun n => p.seatIn n .inService || p.seatIn n .held)
  (p.updMut m.id (fun m => { m with committed := true, confirms := waits, te := p.disp.dealSeq })).dropConfirm 0

/-- Objects of a mutation that the solo map marks: usage counts are no part of a slot's settled state (13 R363, R364). -/
def dirtied (b : JBody) (objs : List Obj) : List Obj := match b with
  | .allowance .. => []
  | _ => objs

/-- tw: the mutation becomes visible and its command answers (R133). -/
def commit (p : Part) (m : Mutation) (r : JRec) : Part :=
  let p := if p.solo then p.markDirty (dirtied r.body m.objs) else p
  let p := if m.held then p.bump (regAddr 0 winPART 0x0100) else p
  match m.kind, r.body with
  | .keyErase slot _, .slotErase .. => ((p.commitErase m slot r.body).raiseMirrored m r.body).formReady
  | _, _ =>
    let p := ((p.dropMut m.id).commitEffect m r.body).raiseMirrored m r.body
    let retired := match r.body with
      | .slotRetire .. => true
      | _ => false
    let p := match m.owner with
      | some u => if retired then p.answer u VStatus.slotRetired else p.answer u Status.done (writePayload r.body m.pub)
      | none => p
    p.formReady

/-! ### Erase orders -/

/-- The erased generation of a slot whose committed erase waits for a Seat, and the order of dealing at its commit; a retired slot's generation is
any (R137, R138). -/
def erasedGen (p : Part) (seat slot : Nat) : Option (Nat × Nat) :=
  match p.vault.muts.find? (fun m => m.committed && m.confirms.contains seat && match m.kind with
      | .keyErase s _ => s == slot
      | _ => false) with
  | some m => match m.kind with
    | .keyErase _ g => some (g, m.te)
    | _ => none
  | none => if (p.slot slot).st = .retired then some (0xFFFFFF, (p.slot slot).leftAt) else none

/-- Commands of a Seat, dealt by an erase's commit, that use a slot at a generation up to g. -/
def usersOf (p : Part) (seat slot : Nat) (e : Nat × Nat) : List Cmd :=
  p.xct.cmds.filter (fun c => c.onSeat seat && c.place != .waiting && c.dealSeq ≤ e.2 &&
    (handlesOf c.code c.params).any (fun h => h.slot = slot && h.gen ≤ e.1))

/-- A register job that uses an erased key ends (09 R267). -/
def eraseFeed (p : Part) (seat slot : Nat) (e : Nat × Nat) : Part :=
  if (p.dgst seat 1).reg.any (fun j => let h := handleOf (toBE 8 j.key.toNat)
      j.key != 0 && h.slot == slot && h.gen ≤ e.1) then
    (p.countScrub seat .digest 1).endRegJob seat Status.keyErasedInFlight
  else p

/-- An erase order at a Seat (R137): users are aborted and scrubbed, every copy is wiped. -/
def eraseOrder (p : Part) (seat slot : Nat) : Part :=
  match p.erasedGen seat slot with
  | none => p
  | some e =>
    let p := (p.usersOf seat slot e).foldl (fun p c => p.stopCommand c.uid (some Status.keyErasedInFlight)) p
    (p.eraseFeed seat slot e).wipeCache (fun x => x.seat == seat && x.slot == slot && x.gen ≤ e.1)

/-- A Seat confirms once no copy and no user is left; with the last confirmation the erase answers DONE (R137). -/
def eraseConfirm (p : Part) (seat slot : Nat) : Part :=
  match p.erasedGen seat slot with
  | none => p
  | some g =>
    if (p.seats.cache.any (fun e => e.seat == seat && e.slot == slot && e.gen ≤ g.1)) || !(p.usersOf seat slot g).isEmpty then p
    else
      let confirm := fun (m : Mutation) => match m.kind with
        | .keyErase s _ => if s = slot ∧ m.committed = true then { m with confirms := m.confirms.filter (fun k => !(k == seat)) } else m
        | _ => m
      (p.setVault { p.vault with muts := p.vault.muts.map confirm }).dropConfirm 0

/-! ### The journal's sink (R145, R146) -/

/-- Frees the records up to a sequence; Held follows on a paired part (13 R353); operations that waited for room form their records. -/
def ackJournal (p : Part) (seq : Nat) : Part :=
  let j := p.vault.journal
  let gone := j.buffer.filter (fun r => r.seq ≤ seq)
  let p := p.setJournal { j with acked := seq, buffer := j.buffer.filter (fun r => seq < r.seq)
                                 used := j.used - gone.foldl (fun n r => n + r.size) 0
                                 marks := j.marks.filter (fun e => seq < e.1) }
  let held := (p.part.applied.filter (fun e => e.2 ≤ seq)).foldl (fun m e => max m e.1) p.part.heldSeq
  (p.setPart { p.part with heldSeq := held, applied := p.part.applied.filter (fun e => seq < e.2) }).formReady

/-- Records the part writes again, for a new sink, from the first one not acknowledged. -/
def attachSink (p : Part) (session stream : BitVec 32) (uid : Nat) : Part :=
  let j := p.vault.journal
  (p.setJournal { j with sink := some (session, stream, uid), sent := j.acked, marks := [] }).feedSink

/-! ### Leases (R143) -/

def hasWaiter (p : Part) (i : Nat) : Bool := p.vault.leaseWaits.any (fun w => w.1 == i)

/-- A lease for a counter is under way. -/
def leasing (p : Part) (i : Nat) : Bool := p.vault.muts.any (fun m => match m.kind with
  | .lease j forPartner => j == i && !forPartner
  | _ => false)

/-- True when the part wants another lease of a counter: fewer than 8,192 values remain, or a request waits (R143). -/
def wantsLease (p : Part) (i : Nat) : Bool :=
  let held := p.heldValues i
  let known := p.vault.leases.any (fun l => l.ctr == i)
  let room := known || p.vault.leases.length < 65536 || p.vault.leases.any (fun l => !(p.hasWaiter l.ctr))
  (p.ctr i).st == .live && !(p.leasing i) && room && held + 4096 ≤ 16384 && (p.hasWaiter i || known && held < 8192)

/-- The hand whose range holds a counter. -/
def ctrHand (p : Part) (i : Nat) : Option Nat := (((p.deal.active.map (·.hands)).getD []).find? (fun e => e.holds (.ctr i))).map (·.hand)

/-- The part grants itself a lease, or asks the lead for one (R143, 13 R360). In Solo a follow grants nothing, and a lead at M + 2^48 ends
the requests that wait. A hand that does not survive in both Deals gets none while the serials differ (02 R58). -/
def grantLease (p : Part) (i : Nat) : Part :=
  if p.wantsLease i = false ∨ (p.solo = true ∧ p.part.lead = false) then p
  else if (p.ctrHand i).any (fun h => !(p.survivesBoth h)) then p.endWaiters i Status.dealCutPending []
  else if p.soloLimit i then p.endWaiters i Status.partnerUnreachable [1]
  else if p.orders then p.mutate (.lease i false) 0 none [.ctr i] true
  else if p.mirrored then
    let id := p.vault.nextMut
    let m : Mutation := { id := id, kind := .lease i false, hand := 0, owner := none, objs := [.ctr i], forwarded := true, own := true }
    (p.setVault { p.vault with muts := p.vault.muts ++ [m], nextMut := id + 1 }).sendMirror (.leaseRequest i)
  else p

end Part

/-! ### Rows: commits, invalidations, erases -/

/-- MUTATION_COMMIT (R133). -/
def execMutationCommit (id : Nat) (s : State) : Result :=
  powered s (fun p => match p.findMut id with
    | some m => match m.formed with
      | some r => if p.mayCommit m then p.commit m r else p
      | none => p
    | none => p)

/-- ACK_ROOT_WRITE (R133). -/
def execAckRootWrite (s : State) : Result :=
  powered s (fun p => p.setJournal { p.vault.journal with inMram := p.vault.journal.acked })

/-- JOURNAL_DEFERRED_RECORD (R146). -/
def execJournalDeferredRecord (id : Nat) (s : State) : Result := powered s (fun p => p.tryForm id)

/-- LEASE_GRANT (R143). -/
def execLeaseGrant (counter : Nat) (s : State) : Result := powered s (fun p => p.grantLease counter)

/-- KEY_INVALIDATE (R136). -/
def execKeyInvalidate (seat slot : Nat) (s : State) : Result :=
  onUnit (s.hasSeat seat) s (fun p =>
    let mark := fun (e : CacheEntry) => if e.seat = seat ∧ e.slot = slot ∧ e.cutoff.isSome = true then { e with draining := true } else e
    (p.setCache (p.seats.cache.map mark)).sweepDraining seat)

/-- KEY_ERASE_ORDER (R137, R138). -/
def execKeyEraseOrder (seat slot : Nat) (s : State) : Result := onUnit (s.hasSeat seat) s (fun p => p.eraseOrder seat slot)

/-- ERASE_CONFIRM (R137). -/
def execEraseConfirm (seat slot : Nat) (s : State) : Result := onUnit (s.hasSeat seat) s (fun p => p.eraseConfirm seat slot)

/-! ### Rows: key commands -/

/-- KEY_ERASE (R121, R127, R137). -/
def execKeyErase (o : Origin) (b : Bytes) (s : State) : Result :=
  powered s (fun p => p.serve o 0x2005 b (fun p c =>
    if c.params.length ≠ 8 then p.lengthFault c.uid
    else p.withVault c (fun p =>
      match p.handleFault c.epoch c.hand c.params 4 with
      | some st => p.answer c.uid st
      | none => match p.journalRefusal with
        | some n => p.answer c.uid VStatus.journalUnavailable (reason n)
        | none =>
          let h := handleOf c.params
          (p.parkCmd c.uid).hostMutation (.keyErase h.slot h.gen) c.hand c.uid (Part.runObjs h.slot (p.slot h.slot).run))))

/-- KEY_ATTR_READ (R121, R127). -/
def execKeyAttrRead (o : Origin) (b : Bytes) (s : State) : Result :=
  powered s (fun p => p.serve o 0x2006 b (fun p c =>
    if c.params.length ≠ 8 then p.lengthFault c.uid
    else p.withVault c (fun p =>
      match p.handleFault c.epoch c.hand c.params 5 with
      | some st => p.answer c.uid st
      | none => p.answer c.uid Status.done (p.slotSeen c.epoch (handleOf c.params).slot).header)))

/-- KEY_GEN_READ (R127). -/
def execKeyGenRead (o : Origin) (b : Bytes) (s : State) : Result :=
  powered s (fun p => p.serve o 0x2007 b (fun p c =>
    let i := field c.params 0 4
    if c.params.length ≠ 8 ∨ allZero (c.params.drop 4) = false ∨ 8388608 ≤ i then p.lengthFault c.uid
    else p.withVault c (fun p =>
      if p.slotInHand c.epoch c.hand i = false then p.answer c.uid Status.accessFault
      else if p.linePoisoned (slotLine i) then p.answer c.uid Status.abortedScrubbed
      else
        let s := p.slotSeen c.epoch i
        p.answer c.uid Status.done (toBE 1 s.st.code ++ zeros 1 ++ toBE 3 s.gen ++ zeros 3))))

/-! ### Rows: counters -/

/-- CTR_INIT (R127, R142). -/
def execCtrInit (o : Origin) (b : Bytes) (s : State) : Result :=
  powered s (fun p => p.serve o 0x2101 b (fun p c =>
    let i := field c.params 0 4
    if c.params.length ≠ 16 ∨ allZero (slice c.params 4 4) = false ∨ 1048576 ≤ i then p.lengthFault c.uid
    else p.withVault c (fun p =>
      if p.ctrInHand c.epoch c.hand i = false then p.answer c.uid Status.accessFault
      else if p.linePoisoned (ctrLine i) then p.answer c.uid Status.abortedScrubbed
      else if c.epoch = p.deal.epoch ∧ p.ctrTearing i = true then p.answer c.uid Status.busyDraining (p.tearPayload (fun e => e.holds (.ctr i)))
      else match p.journalRefusal with
        | some n => p.answer c.uid VStatus.journalUnavailable (reason n)
        | none => (p.parkCmd c.uid).hostMutation (.ctrInit i (field c.params 8 8)) c.hand c.uid [.ctr i])))

/-- CTR_NEXT (R127, R143, R144, 13 R360). -/
def execCtrNext (o : Origin) (b : Bytes) (s : State) : Result :=
  powered s (fun p => p.serve o 0x2102 b (fun p c =>
    let i := field c.params 0 4
    let n := field c.params 4 4
    if c.params.length ≠ 8 ∨ n = 0 ∨ 64 < n ∨ 1048576 ≤ i then p.lengthFault c.uid
    else p.withVault c (fun p =>
      if p.ctrInHand c.epoch c.hand i = false then p.answer c.uid Status.accessFault
      else if p.linePoisoned (ctrLine i) then p.answer c.uid Status.abortedScrubbed
      else if (p.ctrSeen c.epoch i).st = .uninit then p.answer c.uid Status.counterLeaseEmpty (reason 2)
      else if n ≤ p.heldValues i then
        let (p, vals) := p.issueValues i n
        p.answer c.uid Status.done (vals.flatMap (toBE 8))
      else if (p.ctr i).st = .exhausted then p.answer c.uid Status.counterLeaseEmpty (reason 1)
      else if (p.solo = true ∧ p.part.lead = false) ∨ p.soloLimit i = true then p.answer c.uid Status.partnerUnreachable (reason 1)
      else if p.survivesBoth c.hand = false then p.answer c.uid Status.dealCutPending
      else
        let p := (p.parkCmd c.uid).bump (regAddr 0 winCTR 0x0118)
        p.setVault { p.vault with leaseWaits := p.vault.leaseWaits ++ [(i, c.uid)] })))

/-- CTR_READ (R127). -/
def execCtrRead (o : Origin) (b : Bytes) (s : State) : Result :=
  powered s (fun p => p.serve o 0x2103 b (fun p c =>
    let i := field c.params 0 4
    if c.params.length ≠ 8 ∨ allZero (c.params.drop 4) = false ∨ 1048576 ≤ i then p.lengthFault c.uid
    else p.withVault c (fun p =>
      if p.ctrInHand c.epoch c.hand i = false then p.answer c.uid Status.accessFault
      else if p.linePoisoned (ctrLine i) then p.answer c.uid Status.abortedScrubbed
      else
        let x := p.ctrSeen c.epoch i
        p.answer c.uid Status.done (toBE 1 x.st.code ++ zeros 7 ++ toBE 8 x.hw ++ toBE 8 (if x.st = .uninit then 0 else p.heldValues i)))))

/-! ### Rows: the journal's sink -/

/-- JOURNAL_ATTACH (R127, R145): it answers when the sink detaches. -/
def execJournalAttach (o : Origin) (b : Bytes) (s : State) : Result :=
  powered s (fun p => p.serve o 0x2204 b (fun p c => p.houseOnly c (fun p =>
    let id := BitVec.ofNat 32 (field c.params 0 4)
    if c.params.length ≠ 8 ∨ id = 0 ∨ allZero (c.params.drop 4) = false then p.lengthFault c.uid
    else match c.session? with
      | none => p.lengthFault c.uid
      | some x =>
        if (p.findStream x id).any (fun y => y.uid == c.uid) then (p.detachSink.parkCmd c.uid).attachSink x id c.uid
        else p.lengthFault c.uid)))

/-- JOURNAL_ACK (R127, R145). -/
def execJournalAck (o : Origin) (b : Bytes) (s : State) : Result :=
  powered s (fun p => p.serve o 0x2205 b (fun p c => p.houseOnly c (fun p =>
    let n := field c.params 0 8
    let mine := match p.vault.journal.sink, c.session? with
      | some (x, _, _), some y => x == y
      | _, _ => false
    if c.params.length ≠ 8 then p.lengthFault c.uid
    else if mine = false then p.answer c.uid Status.accessFault
    else if n ≤ p.vault.journal.acked then p.answer c.uid Status.done
    else if p.sinkSent < n then p.lengthFault c.uid
    else (p.answer c.uid Status.done).ackJournal n)))

end Sys2Proof.Machine
end

