-- ==== Sys2Proof/Machine/Deck.lean ====
section
/-! DEFINITION. The deck and cold start (05 R149 to R153), the patrol and the re-encryption of vault lines (05 R140, R141). -/

namespace Sys2Proof.Machine

def mib : Nat := 1048576

/-- Segments of a deck: 2,048 of the key table, 16 of the counter table, 8,176 of applet data (R150). -/
def deckSegments : Nat := 10240

/-- Region and region offset of a segment (R150). -/
def segRegion (i : Nat) : Nat × Nat := if i < 2048 then (0, i * mib) else if i < 2064 then (1, (i - 2048) * mib) else (2, (i - 2064) * mib)

/-- The first line of a segment. -/
def segLine (i : Nat) : Nat :=
  let (r, off) := segRegion i
  off / 64 + (if r = 0 then 0 else if r = 1 then ctrLine 0 else appLine 0)

/-- The first 24 bytes of a segment record. -/
def segHeader (i : Nat) (zero : Bool) : Bytes :=
  let (r, off) := segRegion i
  toBE 4 i ++ toBE 1 r ++ [if zero then 1 else 0] ++ zeros 2 ++ toBE 8 off ++ toBE 4 (if zero then 0 else mib) ++ zeros 4

/-- A DECK_REJECTED answer's payload (R153). -/
def rejectDeck (p : Part) (uid n : Nat) : Part := p.answer uid VStatus.deckRejected (reason n)

namespace Part

/-! ### Writing a deck -/

/-- The nearest head at or below a slot, within the longest run of 21. -/
def headOf (p : Part) (i : Nat) : Nat := (((List.range 21).map (i - ·)).find? (fun j => (p.slot j).st == .head)).getD i

/-- A slot's 256 bytes as stored. -/
def slotBytes (p : Part) (i : Nat) : Bytes :=
  let s := p.slot i
  let ktk := p.vault.ktk.getD []
  if s.st = .head ∨ s.st = .cont then
    let h := if s.st = .head then i else p.headOf i
    slice (runBytes ktk (p.slot h)) (256 * (i - h)) 256
  else s.header ++ zeros 224

def ctrBytes (c : Counter) : Bytes := toBE 8 c.hw ++ toBE 1 c.st.code ++ zeros 7

/-- A segment that holds nothing but zeros, seen without reading it byte by byte. -/
def segEmpty (p : Part) (i : Nat) : Bool :=
  let (r, off) := segRegion i
  let within := fun (w k : Nat) => off ≤ k * w && k * w < off + mib
  if r = 0 then p.vault.slots.all (fun e => !(within 256 e.1)) && p.vault.torn.all (fun e => (e.1 + e.2) * 256 ≤ off || off + mib ≤ e.1 * 256)
  else if r = 1 then p.vault.ctrs.all (fun e => !(within 16 e.1))
  else p.vault.app.all (fun e => !(within 1 e.1))

/-- The plaintext of a segment: committed state only (R149). -/
def segPlain (p : Part) (i : Nat) : Bytes :=
  let (r, off) := segRegion i
  if r = 0 then (List.range 4096).flatMap (fun j => p.slotBytes (off / 256 + j))
  else if r = 1 then (List.range 65536).flatMap (fun j => ctrBytes (p.ctr (off / 16 + j)))
  else Memory.readBytes p.vault.app off mib

def segRecord (p : Part) (key : Bytes) (i : Nat) : Bytes :=
  let plain := if p.segEmpty i then [] else p.segPlain i
  let zero := allZero plain
  let head := segHeader i zero
  let (ct, tag) := gcmSeal key (toBE 12 i) head (if zero then [] else plain)
  head ++ ct ++ tag

/-- The header of a deck (R150). -/
def deckHeader (p : Part) (version : Nat) (salt : Bytes) : Bytes :=
  toBE 4 0x4445434B ++ toBE 2 1 ++ toBE 2 128 ++ p.fuses.idBytes ++ toBE 8 version ++ toBE 8 p.vault.journal.next ++
  toBE 4 p.vault.incarnation ++ toBE 4 deckSegments ++ toBE 8 p.serialNow ++ toBE 8 p.optime ++ salt ++ zeros 32

/-- The segments and the trailer that follow a header. -/
def deckBody (p : Part) (header : Bytes) (version : Nat) : Bytes × Bytes :=
  let key := deckKey p.fuses.idBytes (p.vault.root.getD []) (slice header 64 32) version
  let segs := (List.range deckSegments).flatMap (p.segRecord key)
  let chain := sha384 (header ++ segs)
  let t := toBE 4 0x44454E44 ++ toBE 4 deckSegments ++ toBE 8 p.vault.journal.next ++ chain
  let (_, tag) := gcmSeal key (List.replicate 12 0xFF) t []
  (segs ++ t ++ tag, chain)

/-! ### Loading a deck -/

/-- Slot i out of the key-table plaintexts read so far; its run is read from the bytes that follow it. A retired slot was retired by the hand whose
range it lies in under the deck's Deal: another's would have returned (05 R138). -/
def loadSlot (p : Part) (hands : List HandEntry) (raw : Bytes) (i : Nat) : Part :=
  let st := field raw 0 1
  let head := parseRun (p.vault.ktk.getD []) raw
  let other : Slot := { st := if st = 2 then .cont else if st = 3 then .retired else .empty, hand := field raw 1 1, gen := field raw 2 3
                        retiredBy := if st = 3 then (hands.find? (fun e => e.holds (.slot i))).map (·.hand) else none }
  if allZero (raw.take 256) then p.setVault { p.vault with slots := Sparse.erase p.vault.slots i }
  else if st = 1 then (match head with
    | some s => p.setSlot i s
    | none => p)
  else p.setSlot i other

def loadSlots (p : Part) (hands : List HandEntry) : Nat → Bytes → Nat → Part
  | 0, _, _ => p
  | n + 1, raw, i => (p.loadSlot hands raw i).loadSlots hands n (raw.drop 256) (i + 1)

def loadCtrs (p : Part) : Nat → Bytes → Nat → Part
  | 0, _, _ => p
  | n + 1, raw, i =>
    let c : Counter := match ctrStateOf (field raw 8 1) with
      | some st => { st := st, hw := field raw 0 8, mirrored := field raw 0 8 }
      | none => {}
    (p.setCtr i c).loadCtrs n (raw.drop 16) (i + 1)

/-- Everything a segment covers is cleared before what it holds is written. -/
def clearSegment (p : Part) (i : Nat) : Part :=
  let (r, off) := segRegion i
  let outside := fun (w k : Nat) => !(off ≤ k * w && k * w < off + mib)
  if r = 0 then p.setVault { p.vault with slots := p.vault.slots.filter (fun e => outside 256 e.1) }
  else if r = 1 then p.setVault { p.vault with ctrs := p.vault.ctrs.filter (fun e => outside 16 e.1) }
  else p.setVault { p.vault with app := Memory.clear p.vault.app off mib }

/-- The plaintext of segment i at the front of b, and the bytes of its record; none when it breaks R150. -/
def readSegment (key : Bytes) (i : Nat) (b : Bytes) : Option (Bytes × Nat) :=
  let zero := byteAt b 5 == 1
  let len := if zero then 0 else mib
  if b.length < 40 + len ∨ b.take 24 ≠ segHeader i zero then none
  else (gcmOpen key (toBE 12 i) (b.take 24) (slice b 24 len) (slice b (24 + len) 16)).map (fun d => (d, 40 + len))

/-- Reads segments in order and writes each into the vault. A key-table segment is written with what the run of its last slot takes from the
next one. Answers what is left, or the failure. -/
def loadSegments (key : Bytes) : Nat → Nat → Part → Bytes → Part × Option Bytes
  | 0, _, p, b => (p, some b)
  | n + 1, i, p, b =>
    match readSegment key i b with
    | none => (p, none)
    | some (d, len) =>
      let rest := b.drop len
      let (r, off) := segRegion i
      let p := (p.clearSegment i).sweepLines (segLine i) (mib / 64)
      let next := if i + 1 < 2048 then (match readSegment key (i + 1) rest with
        | some (x, _) => x.take (20 * 256)
        | none => []) else []
      let p := if d = [] then p
        else if r = 0 then p.loadSlots (p.handsAt p.vault.replayOf) 4096 (d ++ next) (off / 256)
        else if r = 1 then p.loadCtrs 65536 d (off / 16)
        else p.setVault { p.vault with app := Memory.writeBytes p.vault.app off d }
      loadSegments key n (i + 1) p rest

/-- Loads a deck (R152): 0, or the reason of R153. -/
def loadDeck (p : Part) (deck : Bytes) : Part × Nat :=
  let h := deck.take 128
  if deck.length < 128 ∨ field h 0 4 ≠ 0x4445434B ∨ field h 4 2 ≠ 1 ∨ field h 6 2 ≠ 128 ∨ allZero (slice h 96 32) = false ∨
      allZero (slice h 56 3) = false ∨ field h 44 4 ≠ deckSegments then (p, 1)
  else if slice h 8 16 ≠ p.fuses.idBytes then (p, 2)
  else if field h 24 8 ≠ p.vault.deckVer ∨ p.vault.deckVer = 0 then (p, 3)
  else
    let key := deckKey p.fuses.idBytes (p.vault.root.getD []) (slice h 64 32) p.vault.deckVer
    match loadSegments key deckSegments 0 (p.setVault { p.vault with replayOf := some (field h 48 8) }) (deck.drop 128) with
    | (p, none) => (p, 4)
    | (p, some t) =>
      let chain := sha384 (deck.take (deck.length - t.length))
      let good := t.length == 80 && field t 0 4 == 0x44454E44 && field t 4 4 == deckSegments && slice t 16 48 == chain &&
        (gcmOpen key (List.replicate 12 0xFF) (t.take 64) [] (t.drop 64)).isSome
      if good then (p.setVault { p.vault with deckLoaded := true, replayNext := p.vault.deckStart, st := .replaying }, 0) else (p, 5)

/-! ### Replaying the journal -/

/-- Objects a record changes. -/
def bodyObjs (p : Part) (hand : Nat) : JBody → List Obj
  | .slotWrite head s => runObjs head s.run
  | .slotErase head run _ => runObjs head run
  | .slotRetire head run => runObjs head run
  | .counter i _ _ => [.ctr i]
  | .appData off d => (List.range ((off % 4096 + d.length + 4095) / 4096)).map (fun k => .app ((p.appBase hand + off) / 4096 + k))
  | .promote _ => (p.vault.ctrs.filter (fun e => e.2.st == .live)).map (fun e => .ctr e.1)
  | _ => []

/-- Replay rebuilds the solo map from the records after the last partner-lost record that has no rejoin record after it (13 R363). -/
def replayMap (p : Part) (hand : Nat) (b : JBody) : Part :=
  let restart := fun (p : Part) (on : Bool) => (p.setVault { p.vault with replaySolo := on }).setPart { p.part with soloMap := [] }
  match b with
  | .partnerLost .. => restart p true
  | .rejoin .. => restart p false
  | b => if p.vault.replaySolo then p.markDirty (p.bodyObjs hand b) else p

/-- A record applied at replay. One of the partner's allowances is of its own counters, which are not mirrored (13 R359). -/
def replayRecord (p : Part) (hand : Nat) (fromPartner : Bool) (x : JBody) : Part :=
  let skip := fromPartner && match x with
    | .allowance .. => true
    | _ => false
  (if skip then p else p.applyBody hand x).replayMap hand x

/-- The records of a replay stream, in order, until one fails (R152), or, of a stream that has not delivered the whole, until one has not arrived;
how many bytes are left. Fuel bounds their number. -/
def replay (whole : Bool) : Nat → Part → Bytes → Part × Nat × Nat
  | 0, p, b => (p, b.length, 0)
  | n + 1, p, b =>
    if b = [] then (p, 0, 0)
    else
      let len := field b 29 3
      let header := b.take 32
      let seq := field b 0 8
      let key := journalKey p.fuses.idBytes (p.vault.root.getD []) (field b 8 4)
      if b.length < 32 ∨ b.length < 48 + len then (p, b.length, if whole then 7 else 0)
      else if seq ≠ p.vault.replayNext then (p, b.length, 6)
      else match gcmOpen key (journalIv seq) header (slice b 32 len) (slice b (32 + len) 16) with
        | none => (p, b.length, 7)
        | some body => match parseBody (p.vault.ktk.getD []) (field b 12 2) body with
          | none => (p, b.length, 8)
          | some x =>
            let p := p.replayRecord (field b 14 1) ((byteAt b 15).getLsbD 1) x
            replay whole n (p.setVault { p.vault with replayNext := seq + 1 }) (b.drop (48 + len))

/-- The partner is in service: its heartbeats are present (13 R356, R358). -/
def partnerServing (p : Part) : Bool := p.part.st == .resync || p.part.st == .mirrored || (p.part.st == .linking && p.part.exchanged)

/-- What VAULT_OPEN needs to have been applied (R152). -/
def openNeed (p : Part) : Nat := max p.vault.journal.inMram (if p.vault.deckVer = 0 then 0 else p.vault.deckEnd - 1)

/-- The vault opens (R152). -/
def openVault (p : Part) : Part :=
  let p := match p.deal.active with
    | some d => p.tearUnheld d.hands
    | none => p
  let s := p.vault.replayNext
  let j := p.vault.journal
  let p := p.setVault { p.vault with
    st := .open_, incarnation := p.vault.incarnation + 1, leases := []
    journal := { j with next := s, acked := s - 1, inMram := s - 1, sent := s - 1, buffer := [], used := 0 } }
  (p.setCache []).relevel

/-! ### Lines (R140, R141) -/

/-- LINE_POISON: a line fails its MAC, its tree check or its code. The guard takes a class 0xE witness (12 R325); the part asks its partner for a
key-table or counter-table line (R141). -/
def poisonLine (p : Part) (line mag : Nat) : Part :=
  let fresh := !(p.linePoisoned line)
  let p := if fresh then (p.setVault { p.vault with poisoned := line :: p.vault.poisoned }).bump (regAddr 0 winVAULT 0x0118) else p
  let p := p.witness 0 14 0 mag
  if p.paired ∧ p.solo = false ∧ line < ctrLine 1048576 then p.sendMirror (.repairRequest line) else p

/-- One finding of the patrol (R18, R19, R140, R141). A failing tree node poisons the 64 lines beneath it. -/
def patrolLine (p : Part) (line : Nat) (f : LineFinding) : Part :=
  match f with
  | .single => p.ecc 0 1 0 line
  | .double => p.ecc 0 2 0 line
  | .uncorrectable => (p.ecc 0 3 0 line).poisonLine line 2
  | .macFail => (p.bump (regAddr 0 winVAULT 0x0120)).poisonLine line 1
  | .treeFail => (List.range 64).foldl (fun p i => p.poisonLine (line / 64 * 64 + i) 1) (p.bump (regAddr 0 winVAULT 0x0120))

end Part

/-! ### Rows -/

/-- DECK_SNAPSHOT (R149, R150): the header goes out; the command answers at the snapshot's end. -/
def execDeckSnapshot (o : Origin) (b : Bytes) (s : State) : Result :=
  powered s (fun p => p.serve o 0x2201 b (fun p c => p.houseOnly c (fun p =>
    let id := BitVec.ofNat 32 (field c.params 0 4)
    if c.params.length ≠ 8 ∨ id = 0 ∨ allZero (c.params.drop 4) = false then p.lengthFault c.uid
    else if p.vault.snapshot.isSome then rejectDeck p c.uid 10
    else match c.session? with
      | none => p.lengthFault c.uid
      | some x =>
        if (p.findStream x id).any (fun y => y.uid == c.uid) then
          let salt := p.drawn 32
          let version := p.vault.deckVer + 1
          let header := p.deckHeader version salt
          let p := (p.drbgTakes 0 32).setVault { p.vault with
            snapshot := some { uid := some c.uid, version := version, start := p.vault.journal.next, stop := 0, chain := [], header := header } }
          (p.parkCmd c.uid).produce x id header
        else p.lengthFault c.uid)))

/-- DECK_SNAPSHOT_COMPLETE (R149 to R151): the body is written; the command answers once its stream has sent it all, as its window allows (03 R73). -/
def execDeckSnapshotComplete (s : State) : Result :=
  powered s (fun p => match p.vault.snapshot with
    | none => p
    | some n =>
      match n.uid.bind p.findCmd with
      | none => p.setVault { p.vault with snapshot := none }
      | some c =>
        let id := BitVec.ofNat 32 (field c.params 0 4)
        let stream := fun (p : Part) => c.session?.bind (fun x => p.findStream x id)
        let p := if n.stop ≠ 0 then p
          else
            let (body, chain) := p.deckBody n.header n.version
            let done : Snapshot := { n with stop := p.vault.journal.next, chain := chain }
            let p := match c.session? with
              | some x => p.produce x id body true
              | none => p
            p.setVault { p.vault with snapshot := some done }
        if (stream p).any (fun y => y.announced < y.data.length) then p
        else match p.vault.snapshot with
          | none => p
          | some m =>
            (p.setVault { p.vault with snapshot := none, completed := some { m with uid := none } }).answer c.uid Status.done (toBE 8 m.version ++ m.chain))

/-- DECK_COMMIT (R151). -/
def execDeckCommit (o : Origin) (b : Bytes) (s : State) : Result :=
  powered s (fun p => p.serve o 0x2202 b (fun p c => p.houseOnly c (fun p =>
    if c.params.length ≠ 56 then p.lengthFault c.uid
    else match p.vault.completed with
      | some n =>
        if field c.params 0 8 = n.version ∧ slice c.params 8 48 = n.chain then
          (p.setVault { p.vault with deckVer := n.version, deckStart := n.start, deckEnd := n.stop }).answer c.uid Status.done
        else rejectDeck p c.uid 11
      | none => rejectDeck p c.uid 11)))

/-- DECK_LOAD (R152, R153), once its stream has delivered the deck. -/
def execDeckLoad (o : Origin) (b : Bytes) (s : State) : Result :=
  powered s (fun p => p.serve o 0x2203 b (fun p c => p.houseOnly c (fun p => p.whenStreamed c (fun p deck =>
    if p.vault.st = .open_ then rejectDeck p c.uid 12
    else
      let (p, why) := p.loadDeck deck
      if why = 0 then p.answer c.uid Status.done else rejectDeck p c.uid why))))

/-- JOURNAL_REPLAY (R152, R153): the records its stream has delivered are applied as they come; it answers with the last one. -/
def execJournalReplay (o : Origin) (b : Bytes) (s : State) : Result :=
  powered s (fun p => p.serve o 0x2206 b (fun p c => p.houseOnly c (fun p =>
    if c.params.length ≠ 16 ∨ allZero (slice c.params 4 4) = false then p.lengthFault c.uid
    else match p.streamOf c with
      | none => p.lengthFault c.uid
      | some y =>
        let whole := decide (field c.params 8 8 ≤ y.data.length)
        if p.vault.st = .open_ then rejectDeck p c.uid 12
        else if p.vault.deckVer ≠ 0 ∧ p.vault.deckLoaded = false then rejectDeck p c.uid 6
        else
          let p := p.setVault { p.vault with st := .replaying }
          let (p, left, why) := Part.replay whole y.data.length p (y.data.drop y.used)
          if why ≠ 0 then rejectDeck p c.uid why
          else if whole then p.answer c.uid Status.done (toBE 8 (p.vault.replayNext - 1))
          else p.updStream y.session y.id (fun y => { y with used := y.data.length - left }))))

/-- VAULT_OPEN (R152): kind 3 of R397 is the gap ceremony. -/
def execVaultOpen (o : Origin) (b : Bytes) (s : State) : Result :=
  powered s (fun p => p.serve o 0x2207 b (fun p c => p.houseOnly c (fun p =>
    let gap := field c.params 0 4
    let auth := (c.session?).bind (p.authOf 3)
    if c.params.length ≠ 4 ∨ 1 < gap then p.lengthFault c.uid
    else if p.vault.st = .open_ then p.answer c.uid Status.done (toBE 8 (p.vault.replayNext - 1))
    else if gap = 1 ∧ auth.isNone then p.answer c.uid CerStatus.quorumNotMet
    else
      let last := p.vault.replayNext - 1
      let need := p.openNeed
      if last < need ∧ p.partnerServing = false ∧ gap = 0 then rejectDeck p c.uid 9
      else
        let p := match gap, auth with
          | 1, some (port, a) => (p.useAuth port).event 7 0x0212 4 0 0 a.cer.id.toNat (last % 2 ^ 32) (need % 2 ^ 32)
          | _, _ => p
        let short := decide (last < need) || gap == 1
        let p := if p.paired ∧ short = true then p.setPart { p.part with full := true, lead := false } else p
        p.openVault.answer c.uid Status.done (toBE 8 last))))

/-- VAULT_REENCRYPT_COMPLETE (R140). -/
def execVaultReencryptComplete (group : Nat) (s : State) : Result :=
  powered s (fun p =>
    if p.vault.reenc.contains group then
      ((p.setVault { p.vault with
        reenc := p.vault.reenc.filter (fun g => !(g == group))
        majors := Sparse.modify 0 p.vault.majors group (· + 1)
        minors := p.vault.minors.filter (fun e => !(e.1 / 64 == group))
        swept := Sparse.set 0 p.vault.swept group p.vault.sweeps.length }).bump (regAddr 0 winVAULT 0x0130)).formReady
    else p)

/-- VAULT_PATROL (R140, R141): one pass over every line, with what it found. -/
def execVaultPatrol (found : List (Nat × LineFinding)) (s : State) : Result :=
  powered s (fun p =>
    ((found.filter (fun e => e.1 < vaultLines)).foldl (fun p e => p.patrolLine e.1 e.2) p).bump (regAddr 0 winVAULT 0x0138))

end Sys2Proof.Machine
end

