-- ==== Sys2Proof/Machine/KeyBlock.lean ====
section
/-! DEFINITION. Key blocks (05 R124, R129, R130): ANSI X9.143 versions B and D, and ISO 20038. The manual names the two standards; the
layouts and the derivation are theirs as known from outside it (PRESUMED, log 11). -/

namespace Sys2Proof.Machine

namespace KB

def chr (c : Char) : Byte := BitVec.ofNat 8 c.toNat

/-- The value of an ASCII hex digit. -/
def hexDigit (b : Byte) : Option Nat :=
  let n := b.toNat
  if 48 ≤ n ∧ n ≤ 57 then some (n - 48) else if 65 ≤ n ∧ n ≤ 70 then some (n - 55) else if 97 ≤ n ∧ n ≤ 102 then some (n - 87) else none

def unhex : Bytes → Option Bytes
  | [] => some []
  | [_] => none
  | a :: b :: r => match hexDigit a, hexDigit b, unhex r with
    | some x, some y, some l => some (BitVec.ofNat 8 (16 * x + y) :: l)
    | _, _, _ => none

def hexChar (n : Nat) : Byte := BitVec.ofNat 8 (if n < 10 then 48 + n else 55 + n)

def hex (b : Bytes) : Bytes := b.flatMap (fun x => [hexChar (x.toNat / 16), hexChar (x.toNat % 16)])

/-- A decimal field of ASCII digits. -/
def dec (b : Bytes) : Option Nat :=
  b.foldl (fun a x => match a with
    | some n => if 48 ≤ x.toNat ∧ x.toNat ≤ 57 then some (10 * n + (x.toNat - 48)) else none
    | none => none) (some 0)

def decField (width n : Nat) : Bytes := ((List.range width).reverse).map (fun i => BitVec.ofNat 8 (48 + n / 10 ^ i % 10))

/-- Cipher block size under a wrapping key. -/
def blockOf (tdea : Bool) : Nat := if tdea then 8 else 16

def enc (tdea : Bool) (key : Bytes) : Bytes → Bytes := if tdea then tdeaEnc key else aesEnc key
def decr (tdea : Bool) (key : Bytes) : Bytes → Bytes := if tdea then tdeaDec key else aesDec key

/-- The derived block keys: use 0 encryption in CBC, 1 MAC, 2 encryption in CTR. -/
def derive (tdea : Bool) (key : Bytes) (use_ : Nat) : Bytes :=
  let n := blockOf tdea
  let alg := if tdea then (if key.length = 16 then 0 else 1) else key.length / 8
  let one := fun (i : Nat) => cmac n (enc tdea key) ([BitVec.ofNat 8 (i + 1)] ++ toBE 2 use_ ++ [0] ++ toBE 2 alg ++ toBE 2 (8 * key.length))
  ((List.range ((key.length + n - 1) / n)).flatMap one).take key.length

/-- The optional blocks of a header: their IDs and data, and where they end; none where a length runs past the block. -/
def optBlocks : Nat → Nat → Bytes → Option (List (Bytes × Bytes) × Nat)
  | 0, off, _ => some ([], off)
  | n + 1, off, b =>
    match unhex (slice b (off + 2) 2) with
    | some [l] =>
      let len := l.toNat
      if len < 4 ∨ b.length < off + len then none
      else (optBlocks n (off + len) b).map (fun r => ((slice b off 2, slice b (off + 4) (len - 4)) :: r.1, r.2))
    | _ => none

/-- The optional blocks the part accepts (R129). -/
def knownOpts : List Bytes := [ascii "KS", ascii "KC", ascii "KP", ascii "IK", ascii "PB", ascii "TS"]

/-- A KC or KP block's data names a method in two characters, then the check value in hex. -/
def kcvAgrees (data kcv : Bytes) : Bool :=
  match unhex (data.drop 2) with
  | some v => 3 ≤ v.length && v.take 3 == kcv
  | none => false

/-- Bytes of a block before its ciphertext; none when its header does not parse. -/
def headLen (b : Bytes) : Option Nat := (dec (slice b 12 2)).bind (fun n => (optBlocks n 16 b).map (·.2))

/-- Bytes of the MAC in a block's text. -/
def macHex (tdea : Bool) : Nat := 2 * blockOf tdea

/-- Cipher blocks of the deciphered key field of a block (06 R182). -/
def cipherBlocks (tdea : Bool) (b : Bytes) : Nat :=
  let h := (headLen b).getD 16
  ((b.length - h - macHex tdea) / 2 + blockOf tdea - 1) / blockOf tdea

/-- What a key block carries. -/
structure Content where
  usage : Bytes
  alg : Byte
  mode : Byte
  version : BitVec 16
  export_ : Byte
  key : Bytes
deriving DecidableEq, Repr

/-- Opens a key block under a wrapping key (R129); none in every case R129 refuses, KC and KP apart. -/
def openBlock (tdea iso : Bool) (wk b : Bytes) : Option (Content × List (Bytes × Bytes)) :=
  let ver := if iso then chr 'E' else if tdea then chr 'B' else chr 'D'
  if b.length < 16 ∨ byteAt b 0 ≠ ver ∨ dec (slice b 1 4) ≠ some b.length then none
  else match (dec (slice b 12 2)).bind (fun n => optBlocks n 16 b) with
    | none => none
    | some (opts, off) =>
      if opts.all (fun o => knownOpts.contains o.1) = false ∨ b.length < off + macHex tdea then none
      else match unhex (slice b off (b.length - off - macHex tdea)), unhex (b.drop (b.length - macHex tdea)) with
        | some ct, some mac =>
          if (!iso && ct.length % blockOf tdea != 0) || ct.length < 3 then none
          else
            let pt := if iso then ctrCrypt (aesEnc (derive tdea wk 2)) 128 mac ct
              else cbcDec (blockOf tdea) (decr tdea (derive tdea wk 0)) mac ct
            let bits := field pt 0 2
            if cmac (blockOf tdea) (enc tdea (derive tdea wk 1)) (b.take off ++ pt) ≠ mac ∨ bits % 8 ≠ 0 ∨ pt.length < 2 + bits / 8 then none
            else some ({ usage := slice b 5 2, alg := byteAt b 7, mode := byteAt b 8, version := BitVec.ofNat 16 (field b 9 2)
                         export_ := byteAt b 11, key := slice pt 2 (bits / 8) }, opts)
        | _, _ => none

/-- A key block of a key; `pad` is the random padding that fills its last cipher block. -/
def makeBlock (tdea iso : Bool) (wk : Bytes) (c : Content) (pad : Bytes) : Bytes :=
  let pt0 := toBE 2 (8 * c.key.length) ++ c.key
  let pt := if iso then pt0 else pt0 ++ pad.take (padding (blockOf tdea) pt0.length)
  let total := 16 + 2 * pt.length + macHex tdea
  let ver := if iso then chr 'E' else if tdea then chr 'B' else chr 'D'
  let head := [ver] ++ decField 4 total ++ c.usage ++ [c.alg, c.mode] ++ toBE 2 c.version.toNat ++ [c.export_] ++ ascii "0000"
  let mac := cmac (blockOf tdea) (enc tdea (derive tdea wk 1)) (head ++ pt)
  let ct := if iso then ctrCrypt (aesEnc (derive tdea wk 2)) 128 mac pt else cbcEnc (blockOf tdea) (enc tdea (derive tdea wk 0)) mac pt
  head ++ hex ct ++ hex mac

/-- Usage bits of a key block's usage and mode (R124); none for any other usage or mode. -/
def usageBits (usage : Bytes) (mode : Byte) : Option (BitVec 16) :=
  let u := usage.map (fun b => Char.ofNat b.toNat)
  let m := Char.ofNat mode.toNat
  let edb := m == 'E' || m == 'D' || m == 'B'
  let xn := m == 'X' || m == 'N'
  match u with
  | ['P', '0'] => if edb then some (bits [0]) else none
  | ['D', '0'] => if edb then some (bits [1]) else none
  | ['M', n] =>
    if ('0' ≤ n && n ≤ '8') = false then none
    else if m = 'G' then some (bits [2]) else if m = 'V' then some (bits [3]) else if m = 'C' then some (bits [2, 3]) else none
  | ['K', n] => if (n == '0' || n == '1') && edb then some (bits [4]) else none
  | ['B', n] => if (n == '0' || n == '1') && xn then some (bits [5]) else none
  | ['E', n] => if ('0' ≤ n && n ≤ '6') && xn then some (bits [5]) else none
  | ['S', '0'] => if m = 'S' then some (bits [6]) else if m = 'V' then some (bits [7]) else none
  | _ => none

/-- Key type and size field of a block's algorithm, usages and key length (R123); none where it is no type of R123. -/
def typeOf (alg : Byte) (u : BitVec 16) (len : Nat) : Option (Nat × Nat) :=
  let priv := u.getLsbD 6 || u.getLsbD 5
  if alg = chr 'A' then (if len = 16 then some (0x01, 0) else if len = 24 then some (0x02, 0) else if len = 32 then some (0x03, 0) else none)
  else if alg = chr 'T' then (if len = 16 then some (0x04, 0) else if len = 24 then some (0x05, 0) else none)
  else if alg = chr 'H' then (if 16 ≤ len ∧ len ≤ 128 then some (0x06, len) else none)
  else if alg = chr 'E' then
    if u.getLsbD 7 then
      (if len = 64 then some (0x18, 0) else if len = 96 then some (0x19, 0) else if len = 132 then some (0x1A, 0) else if len = 32 then some (0x1B, 0) else none)
    else if priv then
      (if len = 96 then some (0x10, 0) else if len = 144 then some (0x11, 0) else if len = 198 then some (0x12, 0)
       else if len = 64 then some (if u.getLsbD 6 then 0x13 else 0x14, 0) else none)
    else none
  else if alg = chr 'S' then (if u.getLsbD 7 ∧ len = 2592 then some (0x31, 0) else none)
  else if alg = chr 'R' then
    let fits := fun (t : Nat) => ((List.range 33).find? (fun s => 8 ≤ s && contentLen t s == len)).map (fun s => (t, s))
    match fits 0x20 with
    | some x => some x
    | none => fits 0x21
  else none

/-- Algorithm, usage and mode a block of a key is written with: the mode of the lowest usage it carries (log 11). -/
def headerFor (t : Nat) (u : BitVec 16) : Byte × Bytes × Byte :=
  let alg := if isAes t then chr 'A' else if isTdea t then chr 'T' else if t = 6 then chr 'H' else if t = 0x20 ∨ t = 0x21 then chr 'R'
    else if t = 0x31 then chr 'S' else chr 'E'
  let (us, m) := if u.getLsbD 0 then ("P0", 'B') else if u.getLsbD 1 then ("D0", 'B')
    else if u.getLsbD 2 ∧ u.getLsbD 3 then ("M6", 'C') else if u.getLsbD 2 then ("M6", 'G') else if u.getLsbD 3 then ("M6", 'V')
    else if u.getLsbD 4 then ("K0", 'B') else if u.getLsbD 5 then ("B0", 'X') else if u.getLsbD 6 then ("S0", 'S') else ("S0", 'V')
  (alg, ascii us, chr m)

/-- A stored public key is valid as it is written (08 R221): a point on its curve, an RSA modulus and exponent as an inline key's must be (08
R231); an ML-DSA-87 key has only its length. -/
def publicOk (t : Nat) (m : Bytes) : Bool :=
  let point := fun (c : Curve) (w : Nat) => c.onCurve (field m 0 w) (field m w w)
  if t = 0x18 then point p256 32 else if t = 0x19 then point p384 48 else if t = 0x1A then point p521 66
  else if t = 0x1B then (C25519.decode m).isSome
  else if t = 0x21 then
    let k := m.length - 8
    let e := field m k 8
    128 ≤ (byteAt m 0).toNat && field m 0 k % 2 == 1 && e % 2 == 1 && 3 ≤ e
  else true

end KB

end Sys2Proof.Machine
end

