-- ==== Sys2Proof/Machine/Engines.lean ====
section
/-! DEFINITION. What every engine of a Seat shares: its local queue and shares (04 R95, R102), the key cache and the checks of a key (05 R121,
R139), the charging of key uses (05 R131, R132), wake demands and their antes (04 R110 to R114), completion. -/

namespace Sys2Proof.Machine

/-- Depth of a Seat's local queue (04 R95). -/
def Site.depth : Site → Nat
  | .tu => 32
  | .lane => 24
  | .pke => 16
  | .digest => 8
  | .core => 16

/-- The share field of a seat assignment entry for an engine class (02 R37); applet cores have none. -/
def SeatEntry.share (e : SeatEntry) : Site → Nat
  | .tu => e.trick
  | .lane => e.lane
  | .pke => e.pke
  | .digest => e.digest
  | .core => 0

namespace Part

/-! ### Antes and wakes (04 R110, R111, R114) -/

/-- Predicted step of one event of a tile group, in 0.1 A: on a Seat (R111) and on the Dealer (16 R412). -/
def stepOf (die group : Nat) : Nat :=
  if die = 0 then (if group < 2 then 15 else if group = 2 then 20 else 4)
  else if group = 0 then 3 else if group = 1 then 10 else if group = 2 then 8 else 6

def dealerCycle (p : Part) : Nat := p.now / 2 % 2 ^ 32

def flitBytes (die group tiles start : Nat) : Bytes :=
  let n := ((List.range 16).filter (fun i => tiles.testBit i)).length
  toBE 1 group ++ toBE 1 ((n * stepOf die group + 4) / 5 - 1) ++ toBE 2 tiles ++ toBE 4 start

/-- Posts an ante for a tile (or a lane's duty rise): summed into a flit of the same group that is still in its 20 ns window (R111). -/
def postAnte (p : Part) (die group index : Nat) : Part :=
  let d := p.dealerCycle
  let open_ := fun (f : AnteFlit) => f.die == die && field f.bytes 0 1 == group && (d + 90 + 2 ^ 32 - field f.bytes 4 4) % 2 ^ 32 < 30
  let (flits, bytes, fresh) : List AnteFlit × Bytes × Bool := match p.disp.flits.find? open_ with
    | some f =>
      let b := flitBytes die group (field f.bytes 2 2 ||| 2 ^ index) (field f.bytes 4 4)
      (p.disp.flits.map (fun g => if g = f then { f with bytes := b } else g), b, false)
    | none =>
      let b := flitBytes die group (2 ^ index) ((d + 90) % 2 ^ 32)
      (p.disp.flits ++ [{ die := die, bytes := b }], b, true)
  let p := { p with disp := { p.disp with flits := flits, anteDie := BitVec.ofNat 3 die, anteGroup := BitVec.ofNat 2 group
                                          anteClass := BitVec.ofNat 4 (field bytes 1 1) } }
  if fresh = false then p
  else if die = 0 then (p.bump (regAddr 0 winDISP 0x0118)).bump (regAddr 0 winCLKPWR 0x0118)
  else p.bump (regAddr 0 winDISP 0x0118)

/-- A flit on its way names the tile. -/
def anted (p : Part) (die group index : Nat) : Bool :=
  p.disp.flits.any (fun f => f.die == die && field f.bytes 0 1 == group && (field f.bytes 2 2).testBit index)

/-- True when an engine of a Seat holds work. -/
def engineBusy (p : Part) (seat : Nat) (site : Site) (i : Nat) : Bool :=
  match site with
  | .tu => (p.tu seat i).isSome
  | .lane => !(p.lane seat i).slots.isEmpty
  | .pke => (p.pke seat i).bank0.isSome || (p.pke seat i).bank1.isSome
  | .digest => (p.dgst seat i).job.isSome || (p.dgst seat i).reg.isSome
  | .core => (p.core seat i).run != .idle

/-- Wakes tiles until every waiting command of the class has one that is free or coming (R110). A wake occurs for the commands, first dealt first,
that no free or coming tile is there for (R101). -/
def wakeFor (p : Part) (seat : Nat) (site : Site) : Part :=
  match site with
  | .core => p
  | _ =>
    let all := List.range site.count
    let st := fun (i : Nat) => p.tile (siteTile seat site i)
    let coming := all.filter (fun i => ((st i).st == .running && (!(p.engineBusy seat site i) || site == .lane)) ||
      (st i).demand.isSome || p.anted seat site.group i || ((st i).st == .scrubbing))
    let asleep := all.filter (fun i => ((st i).st == .gated || (st i).st == .idle || (st i).st == .poweringDown) && (st i).demand.isNone &&
      !(p.anted seat site.group i))
    let want := if site = .lane then 2 else (p.waitingOn seat site).length
    if (p.waitingOn seat site).isEmpty then p
    else
      let waking := asleep.take (want - coming.length)
      let woken := (((p.waitingOn seat site).mergeSort (fun a b => a.dealSeq ≤ b.dealSeq)).drop coming.length).take waking.length
      (waking.foldl (fun p i => p.postAnte seat site.group i) p).setCmds (p.xct.cmds.map (fun c =>
        if woken.any (fun w => w.uid == c.uid) then { c with woke := true } else c))

/-! ### The key cache (05 R136, R139) -/

/-- An old copy that serves a command dealt before its key's rewrite (R136): its own hand's, in its range (R121 checks 1 and 2, R139). -/
def oldCopy (p : Part) (seat : Nat) (c : Cmd) (h : Handle) : Option Slot :=
  match p.cacheEntry seat c.hand h.slot h.gen with
  | some e => match e.cutoff with
    | some t => if h.hand = c.hand ∧ h.reserved = 0 ∧ p.slotInHand c.epoch c.hand h.slot = true ∧ p.boundSeq c ≤ t then some e.key else none
    | none => none
  | none => none

/-- The key a handle names, or the status of R121's checks 1 to 5; of a command dealt before the key's erase, KEY_ERASED_IN_FLIGHT (R137, R138). -/
def keyOf (p : Part) (seat : Nat) (c : Cmd) (b : Bytes) : Except (BitVec 16) Slot :=
  let h := handleOf b
  match p.oldCopy seat c h with
  | some k => .ok k
  | none => match p.handleFault c.epoch c.hand b 5 with
    | some st =>
      let erased := decide (st = Status.keyGenerationStale) || decide (st = Status.keyEmpty)
      .error (if erased && (p.erasedGen seat h.slot).any (fun e => h.gen ≤ e.1 && c.dealSeq ≤ e.2) then Status.keyErasedInFlight else st)
    | none => .ok (p.slotSeen c.epoch h.slot)

/-- Bytes of the handles a command names. -/
def handleFields (c : Cmd) : List Bytes :=
  ((handleOffsets c.code).filter (fun o => o + 8 ≤ c.params.length && !(allZero (slice c.params o 8)))).map (fun o => slice c.params o 8)

/-- Keys of a command that its Seat's cache lacks. -/
def missing (p : Part) (seat : Nat) (c : Cmd) : List Nat :=
  (handleFields c).filterMap (fun b =>
    let h := handleOf b
    match p.keyOf seat c b with
    | .ok _ => if (p.cacheEntry seat c.hand h.slot h.gen).isSome then none else some h.slot
    | .error _ => none)

/-- Starts the fetches a command needs; fetches of one slot merge (R139). -/
def requestKeys (p : Part) (seat uid : Nat) : Part :=
  match p.findCmd uid with
  | none => p
  | some c =>
    let need := p.missing seat c
    if need = [] then p
    else
      let p := p.updCmd uid (fun c => { c with missed := true })
      need.foldl (fun p s =>
        let p := p.bump (regAddr seat swinKCACHE 0x0108)
        if p.seats.fetching.contains (seat, s) then p else { p with seats := { p.seats with fetching := p.seats.fetching ++ [(seat, s)] } }) p

/-- A cache entry in use by a command dealt to its Seat, or by engine B's register job, is pinned (R139, 09 R252). -/
def pinned (p : Part) (e : CacheEntry) : Bool :=
  p.xct.cmds.any (fun c => c.onSeat e.seat && (handlesOf c.code c.params).any (fun h => h.slot = e.slot && h.gen = e.gen)) ||
    (p.dgst e.seat 1).reg.any (fun j => let h := handleOf (toBE 8 j.key.toNat)
                                        h.slot == e.slot && h.gen == e.gen)

/-- Entries a Seat's cache holds, a run counting each of its slots. -/
def cacheFill (p : Part) (seat : Nat) : Nat := (p.seats.cache.filter (fun e => e.seat = seat)).foldl (fun n e => n + e.key.run) 0

/-- Makes room for a run, taking the least recently used entries that are not pinned; none when every entry is pinned. -/
def makeRoom (seat run : Nat) : Nat → Part → Option Part
  | 0, _ => none
  | n + 1, p =>
    if p.cacheFill seat + run ≤ 65536 then some p
    else
      let free := p.seats.cache.filter (fun e => e.seat = seat && !(p.pinned e))
      let oldest := free.foldl (fun (b : Option CacheEntry) e => match b with
        | none => some e
        | some x => if e.lastUse < x.lastUse then some e else b) none
      match oldest with
      | none => none
      | some e => makeRoom seat run n ((p.returnAllowance e).setCache (p.seats.cache.filter (fun x => x ≠ e)))

/-- A fetch from the vault ends: the key is in the cache, tagged with hand, slot and generation (R139). -/
def fetched (p : Part) (seat slot : Nat) : Part :=
  if p.seats.fetching.contains (seat, slot) = false then p
  else
    let s := p.slot slot
    let done := fun (p : Part) => { p with seats := { p.seats with fetching := p.seats.fetching.filter (fun f => !(f == (seat, slot))) } }
    if s.st ≠ .head ∨ p.runPoisoned slot s.run = true ∨ (p.cacheEntry seat s.hand slot s.gen).isSome = true then done p
    else match makeRoom seat s.run 65537 p with
      | none => p.bump (regAddr seat swinKCACHE 0x0118)
      | some p =>
        let e : CacheEntry := { seat := seat, hand := s.hand, slot := slot, gen := s.gen, lastUse := p.now, key := s }
        done (p.setCache (p.seats.cache ++ [e]))

/-- The start mark reaches the Dealer (04 R96). -/
def markStart (p : Part) (uid : Nat) : Part := p.updCmd uid (fun c => { c with startMark := true })

/-- A link carries traffic only while it is up: in training, retraining or failed it holds it (01 R7, R21). -/
def linkUp (p : Part) (seat : Nat) : Bool := (p.seat seat).link == 1

/-- A key's words arrive over the Seat's link (01 R7, R18). An uncorrectable flit is replayed, so the fetch goes on (R19). -/
def fetchArrives (p : Part) (seat slot : Nat) (ecc : Decoded) : Part :=
  if p.linkUp seat = false ∨ p.seats.fetching.contains (seat, slot) = false then p
  else
    let p := p.decoded seat ecc locLink slot
    if ecc = .uncorrectable ∨ p.unsettled (.slot slot) then p else p.fetched seat slot

/-- The first descriptor on the link, by the order of dealing. -/
def nextDescriptor (p : Part) (seat : Nat) : Option Cmd :=
  (p.xct.cmds.filter (fun c => c.place = .link seat)).foldl (fun (b : Option Cmd) c => match b with
    | none => some c
    | some x => if c.dealSeq < x.dealSeq then some c else b) none

/-- The first descriptor on a link that is up has arrived and enters its local queue; one with an uncorrectable word in the queue buffer is aborted (01 R19). -/
def descriptorArrives (p : Part) (seat : Nat) (ecc : Decoded) : Part :=
  match (if p.linkUp seat then p.nextDescriptor seat else none) with
  | none => p
  | some c =>
    let p := (p.decoded seat ecc locQueue (c.uid % 2 ^ 32)).updCmd c.uid (fun c => { c with place := .seatQ seat })
    if ecc = .uncorrectable then (p.markStart c.uid).seatAnswer seat c.uid Status.abortedScrubbed else p.requestKeys seat c.uid

/-! ### The order of a Seat's queue (04 R102, R109) -/

/-- A hand's share of an engine class, out of 1,024. -/
def shareOf (p : Part) (epoch hand : Nat) (site : Site) : Nat :=
  match (((p.dealOf epoch).map (·.seats)).getD []).find? (fun e => e.hand = hand) with
  | some e => e.share site
  | none => 0

/-- J of R102: the longest job of a class on a Seat, of those there now and those begun in the open accounts. -/
def longestJob (p : Part) (seat : Nat) (site : Site) : Nat :=
  let here := (p.xct.cmds.filter (fun c => siteOf c.code = some site && c.onSeat seat)).map (·.fixed)
  let paid := (p.disp.shares.filter (fun s => s.seat = seat ∧ s.site = site)).flatMap (fun s => s.paid.map (·.2))
  (here ++ paid).foldl max 0

/-- Cycles of jobs (begin, length) that fall after a time. -/
def paidSince (l : List (Nat × Nat)) (from_ now : Nat) : Nat := l.foldl (fun n e => n + (min now (e.1 + e.2) - max from_ e.1)) 0

/-- A hand has received less than its guarantee of a class on a Seat, over the last max(100 µs, 8 × J) (R102, R457). -/
def belowShare (p : Part) (seat hand epoch : Nat) (site : Site) : Bool :=
  match p.disp.shares.find? (fun s => s.seat = seat ∧ s.site = site ∧ s.hand = hand) with
  | none => false
  | some s =>
    let j := p.longestJob seat site
    let t := max (usec 100) (8 * j)
    decide (s.from_ + t ≤ p.now) && decide (1024 * (paidSince s.paid (p.now - t) p.now + j) < p.shareOf epoch hand site * site.count * t)

/-- A hand's work of a class is queued on a Seat from now on, if it was not. -/
def openShare (p : Part) (seat hand : Nat) (site : Site) : Part :=
  if p.disp.shares.any (fun s => s.seat == seat && s.site == site && s.hand == hand) then p
  else { p with disp := { p.disp with shares := p.disp.shares ++ [{ seat := seat, site := site, hand := hand, from_ := p.now }] } }

/-- First of a list of hands at or after a pointer, in hand order. -/
def turnOf (hands : List Nat) (ptr : Nat) : Option Nat :=
  let least := fun (l : List Nat) => l.foldl (fun (b : Option Nat) h => match b with
    | none => some h
    | some x => some (min x h)) none
  match least (hands.filter (fun h => ptr ≤ h)) with
  | some h => some h
  | none => least hands

/-- The command an engine of a class takes next: of a hand below its guarantee if there is one, hands in turn, and within the hand in order of
dealing (PKE jobs by arrival stamp). `fit` picks what the engine may take. -/
def nextFor (p : Part) (seat : Nat) (site : Site) (fit : Cmd → Bool) : Option Cmd :=
  let ready := p.xct.cmds.filter (fun c => siteOf c.code == some site && c.place == .seatQ seat && fit c && (p.missing seat c).isEmpty && !(p.mustWait c))
  let hands := (ready.map (·.hand)).dedup
  let low := hands.filter (fun h => ready.any (fun c => c.hand == h && p.belowShare seat h c.epoch site))
  let ptr := Sparse.get 0 p.seats.turn (seat * 8 + site.group)
  match turnOf (if low = [] then hands else low) ptr with
  | none => none
  | some h =>
    let key := fun (c : Cmd) => if site = .pke then (c.stamp, c.uid) else (c.dealSeq, c.uid)
    let before := fun (a b : Cmd) => (key a).1 < (key b).1 || ((key a).1 == (key b).1 && (key a).2 < (key b).2)
    (ready.filter (fun c => c.hand = h)).foldl (fun (b : Option Cmd) c => match b with
      | none => some c
      | some x => if before c x then some c else b) none

/-- The turn passes to the hand after the one served. -/
def passTurn (p : Part) (seat hand : Nat) (site : Site) : Part :=
  { p with seats := { p.seats with turn := Sparse.set 0 p.seats.turn (seat * 8 + site.group) ((hand + 1) % 256) } }

/-! ### Starting and ending a job -/

/-- The Seat's DRBG gives output (11 R316). -/
def drbgServes (p : Part) (die : Nat) : Bool := (p.trng die).drbg == 1 || (p.trng die).drbg == 2

/-- A command takes its engine. -/
def takeEngine (p : Part) (c : Cmd) (seat : Nat) (site : Site) (index fixed : Nat) : Part :=
  let p := p.updCmd c.uid (fun c => { c with place := .engine seat site index, startMark := true, fixed := fixed })
  ((p.payShare seat c.hand site fixed).passTurn seat c.hand site)

/-- Check 7 of R121: a key that can supply no more uses, or no more TDEA blocks. -/
def exhausted (p : Part) (seat slot : Nat) (s : Slot) (q : Policy) : Bool :=
  match p.cacheEntry seat s.hand slot s.gen with
  | some e =>
    if e.cutoff.isSome then false
    else (decide (q.usageLimit ≤ s.uses) && e.uses == 0) || (match tdeaCap q with
      | some cap => isTdea s.ktype && decide (cap ≤ s.tdea) && e.blocks == 0
      | none => false)
  | none => false

/-- R121's checks of one handle by an engine: the key, or the status. -/
def checkKey (p : Part) (seat : Nat) (c : Cmd) (b : Bytes) (types : List Nat) (usage : Nat) : Except (BitVec 16) Slot :=
  match p.keyOf seat c b with
  | .error st => .error st
  | .ok s => match p.usageFault c.epoch c.hand s types usage with
    | some st => .error st
    | none => match policyOf (p.dealOf c.epoch) c.hand s.ktype with
      | some q => if p.exhausted seat (handleOf b).slot s q then .error Status.keyExhausted else .ok s
      | none => .error Status.keyUsageDenied

/-- A use of a key: its slot, generation, uses and TDEA blocks. -/
structure KeyUse where
  slot : Nat
  gen : Nat
  ktype : Nat
  uses : Nat
  blocks : Nat
deriving DecidableEq, Repr

/-- Uses of the same key are one use; their blocks add (06 R163). -/
def mergeUses (l : List KeyUse) : List KeyUse :=
  l.foldl (fun acc u =>
    if acc.any (fun x => x.slot == u.slot && x.gen == u.gen) then
      acc.map (fun x => if x.slot = u.slot ∧ x.gen = u.gen then { x with blocks := x.blocks + u.blocks } else x)
    else acc ++ [u]) []

/-- Charges every key of a job, or none (R131, R132). A key that was in the cache when the command came is a hit (05 KCACHE_HIT). -/
def chargeAll (p : Part) (seat : Nat) (c : Cmd) (l : List KeyUse) : Charge :=
  l.foldl (fun r u => match r with
    | .ok q => (match policyOf (q.dealOf c.epoch) c.hand u.ktype with
      | some pol => (match q.charge seat c.hand u.slot u.gen u.uses u.blocks pol with
        | .ok q => .ok (if c.missed then q else q.bump (regAddr seat swinKCACHE 0x0100))
        | .exhausted => .exhausted
        | .wait _ => match p.charge seat c.hand u.slot u.gen u.uses u.blocks pol with
          | .wait w => .wait w
          | _ => .wait q)
      | none => .ok q)
    | r => r) (.ok p)

/-- The Seat answers a refused command. -/
def refuse (p : Part) (seat uid : Nat) (status : BitVec 16) (payload : Bytes := []) : Part := (p.markStart uid).seatAnswer seat uid status payload

/-! ### Learned overheads (04 R101) -/

def setDisp (p : Part) (d : DispUnit) : Part := { p with disp := d }

/-- o(s, c) in ns: 0.1 µs where nothing was learned (R101). -/
def overhead (p : Part) (seat : Nat) (site : Site) : Nat := Sparse.get 100 p.disp.overhead (seat * 8 + site.group)

/-- o(s, c) follows the measured time of a job that ended well. -/
def learn (p : Part) (c : Cmd) (seat : Nat) (site : Site) : Part :=
  if c.status = Status.done ∨ c.status = Status.doneProvisional then
    let o : Int := p.overhead seat site
    let fixed := c.fixed + (if c.missed then nsec 600 else 0) + (if c.woke then nsec 160 else 0)
    let measured : Int := ((p.now - c.dealtAt : Nat) : Int)
    let new := o + ((measured - fixed) / 3 - o) / 16
    p.setDisp { p.disp with overhead := Sparse.set 100 p.disp.overhead (seat * 8 + site.group) (min new.toNat 20000) }
  else p

/-- A key write leaves the Seat: its mutation is the Dealer's from here on (05 R128, R133). What the dispatcher learns of the job it
learns as the mutation reaches it (R101; log 23). -/
def sendWrite (p : Part) (seat uid slot : Nat) (key : Slot) (pub : Bytes) : Part :=
  match p.findCmd uid with
  | none => p
  | some c =>
    let p := match siteOf c.code with
      | some site => p.learn c seat site
      | none => p
    (p.parkCmd uid).hostMutation (.keyWrite slot key) c.hand uid (Part.runObjs slot (max key.run (p.slot slot).run)) pub

/-- A job's outcome is released: its answer, or its key write. -/
def release (p : Part) (seat uid : Nat) (o : Outcome) : Part :=
  match o.effect with
  | .writeKey slot key pub => p.sendWrite seat uid slot key pub
  | _ => p.seatAnswer seat uid o.status o.payload

/-- The tile of an engine is awake. -/
def tileUp (p : Part) (key : Nat) : Bool := (p.tile key).st == .running

/-- A tile is free from a time on. -/
def tileFrom (p : Part) (key t : Nat) : Part := p.updTile key (fun x => { x with since := t })

/-- An entry leaves a Seat's cache because its word is uncorrectable; what its allowance has left returns (01 R19, 05 R131). -/
def loseEntry (p : Part) (seat slot : Nat) : Part :=
  let mine := fun (e : CacheEntry) => e.seat == seat && e.slot == slot && !e.draining && e.cutoff.isNone
  let p := (p.seats.cache.filter mine).foldl (fun p e => p.returnAllowance e) p
  p.setCache (p.seats.cache.filter (fun e => !(mine e)))

/-- A job that starts reads its first key's words from the cache. Where they are uncorrectable, the entry is invalidated and fetched again, and
the job waits for it (01 R18, R19). Answers whether the job goes on. -/
def keyRead (p : Part) (seat : Nat) (c : Cmd) (ecc : Decoded) : Part × Bool :=
  match handlesOf c.code c.params with
  | [] => (p, true)
  | h :: _ =>
    let p := p.decoded seat ecc locKeyCache h.slot
    if ecc = .uncorrectable then ((p.loseEntry seat h.slot).requestKeys seat c.uid, false) else (p, true)

/-- A job's end reads its operand memory; an uncorrectable word there aborts and scrubs it (01 R18, R19). -/
def operandRead (p : Part) (seat index uid : Nat) (ecc : Decoded) (f : Part → Part) : Part :=
  let p := p.decoded seat ecc locOperand index
  if ecc = .uncorrectable then p.stopWork uid (some Status.abortedScrubbed) else f p

/-- An engine's fault check fails (06 R160, 08 R239, 09 R266): FAULT_DETECTED after the scrub, and a class 0xD witness of the die (12 R324). -/
def engineFault (p : Part) (seat : Nat) (site : Site) (index uid : Nat) : Part :=
  let p := ((p.forget uid).freeEngine seat site index uid).updCmd uid (fun c =>
    { c with place := .scrubbing seat site index, status := Status.faultDetected, payload := [] })
  p.latWitness seat 13 index ((site.group + 1) * 256 + index)

end Part

/-! ### Rows -/

/-- KEY_FETCH_COMPLETE (05 R139). -/
def execKeyFetchComplete (seat slot : Nat) (ecc : Decoded) (s : State) : Result := onUnit (s.hasSeat seat) s (fun p => p.fetchArrives seat slot ecc)

/-- SEAT_DESCRIPTOR_ARRIVE (01 R19 to R21, 04 R95, 05 R139): a good flit in sequence brings the first descriptor on the link. -/
def execSeatDescriptorArrive (seat : Nat) (ecc : Decoded) (s : State) : Result :=
  onUnit (s.hasSeat seat) s (fun p =>
    if p.linkUp seat && (p.nextDescriptor seat).isSome then
      (p.updSeat seat (fun x => { x with rxSeq := x.rxSeq + 1, fails := 0 })).descriptorArrives seat ecc
    else p)

end Sys2Proof.Machine
end

