-- ==== Sys2Proof/Machine/PinBlocks.lean ====
section
/-! DEFINITION. The arithmetic of the payment primitives (06): PIN blocks, DUKPT, EMV keys, MACs. ISO 9564-1, ISO 9797-1, ANSI X9.24-1 and
X9.24-3 and the EMV derivations are named by the manual; their content is PRESUMED (log 5). -/

namespace Sys2Proof.Machine

namespace Pin

def nibbles (b : Bytes) : List Nat := b.flatMap (fun x => [x.toNat / 16, x.toNat % 16])

def pack : List Nat → Bytes
  | a :: b :: r => BitVec.ofNat 8 (16 * a + b) :: pack r
  | [a] => [BitVec.ofNat 8 (16 * a)]
  | [] => []

/-- The digits of a PAN field (R166). -/
def panDigits (pan : Bytes) : List Nat := (nibbles (slice pan 2 10)).take (field pan 0 1)

/-- The PAN field that format 0 and 3 blocks are combined with (R167). -/
def panField (pan : Bytes) : Bytes :=
  let d := (panDigits pan).dropLast
  let r := d.drop (d.length - 12)
  pack (List.replicate (16 - r.length) 0 ++ r)

/-- The PAN field of format 4 (R167). -/
def panField4 (pan : Bytes) : Bytes :=
  let d := panDigits pan
  pack (((d.length - 12) :: d ++ List.replicate 32 0).take 32)

/-- The clear PIN field of a format with its fill; `rand` supplies random nibbles and bytes (R164, R167). -/
def clearField (fmt : Nat) (pin : List Nat) (rand : Bytes) : Bytes :=
  let fill := fun (i : Nat) => (byteAt rand i).toNat
  if fmt = 0 then pack (((0 :: pin.length :: pin) ++ List.replicate 16 15).take 16)
  else if fmt = 1 then pack (((1 :: pin.length :: pin) ++ (List.range 16).map (fun i => fill i % 16)).take 16)
  else if fmt = 2 then pack (((2 :: pin.length :: pin) ++ List.replicate 16 15).take 16)
  else if fmt = 3 then pack (((3 :: pin.length :: pin) ++ (List.range 16).map (fun i => 10 + fill i % 6)).take 16)
  else pack (((4 :: pin.length :: pin) ++ List.replicate 16 10).take 16) ++ (rand.drop 16).take 8

/-- R168: the PIN digits of a clear PIN field, none when a check fails. -/
def readField (fmt : Nat) (clear : Bytes) : Option (List Nat) :=
  let n := (nibbles clear).take 16
  let len := n.getD 1 0
  let pin := (n.drop 2).take len
  let fill := n.drop (2 + len)
  let fillOk := if fmt = 0 then fill.all (· == 15) else if fmt = 3 then fill.all (10 ≤ ·) else if fmt = 4 then fill.all (· == 10) else true
  if n.headD 99 = fmt ∧ 4 ≤ len ∧ len ≤ 12 ∧ pin.all (· ≤ 9) = true ∧ fillOk = true then some pin else none

/-- Enciphers a clear PIN field into a 16-byte PIN block field (R166, R167). -/
def encipher (fmt : Nat) (key pan clear : Bytes) : Bytes :=
  if fmt = 4 then aesEnc key (xorBytes (aesEnc key clear) (panField4 pan))
  else if fmt = 1 then tdeaEnc key clear ++ zeros 8
  else tdeaEnc key (xorBytes clear (panField pan)) ++ zeros 8

/-- The clear PIN field of a PIN block field. -/
def decipher (fmt : Nat) (key pan block : Bytes) : Bytes :=
  if fmt = 4 then aesDec key (xorBytes (aesDec key block) (panField4 pan))
  else if fmt = 1 then tdeaDec key (block.take 8)
  else xorBytes (tdeaDec key (block.take 8)) (panField pan)

/-- P of R169. -/
def phase (fmt : Nat) : Nat := if fmt = 4 then 2000 else 1500

/-- The pairs R169 permits. -/
def permitted (in_ out : Nat) : Bool := out != 1 || in_ == 1

def formats : List Nat := [0, 1, 3, 4]

/-- R167: the families a format takes. -/
def family (fmt t : Nat) : Bool := if fmt = 4 then isAes t else isTdea t

end Pin

/-! ### MACs (R179) -/

namespace Mac

def pad1 (n : Nat) (m : Bytes) : Bytes := if m = [] then zeros n else m ++ zeros (padding n m.length)
def pad2 (n : Nat) (m : Bytes) : Bytes := m ++ [0x80] ++ zeros (padding n (m.length + 1))

def alg1 (key m : Bytes) : Bytes := (chunks 8 m).foldl (fun c b => tdeaEnc key (xorBytes c b)) (zeros 8)

def alg3 (key m : Bytes) : Bytes :=
  let k1 := key.take 8
  desEnc k1 (desDec (slice key 8 8) ((chunks 8 m).foldl (fun c b => desEnc k1 (xorBytes c b)) (zeros 8)))

/-- The full MAC of an algorithm and padding. -/
def compute (alg pad : Nat) (t : Nat) (key m : Bytes) : Bytes :=
  let p := if pad = 2 then pad2 8 m else pad1 8 m
  if alg = 1 then alg1 key p else if alg = 3 then alg3 key p
  else if isAes t then cmac 16 (aesEnc key) m else cmac 8 (tdeaEnc key) m

/-- Cipher blocks after padding. -/
def blocks (alg pad t len : Nat) : Nat :=
  if alg = 5 then max 1 ((len + (if isAes t then 16 else 8) - 1) / (if isAes t then 16 else 8))
  else if pad = 2 then len / 8 + 1 else max 1 ((len + 7) / 8)

/-- The MAC phase M. -/
def phase (alg pad t len : Nat) : Nat :=
  let n := blocks alg pad t len
  if alg = 1 then 300 + 450 * n else if alg = 3 then 300 + 150 * (n + 2) else if isAes t then 300 + 240 * (n + 1) else 300 + 450 * (n + 1)

/-- TDEA blocks a MAC adds to its key's counter (R163). -/
def tdeaBlocks (alg pad t len : Nat) : Nat := if isTdea t then blocks alg pad t len + (if alg = 5 then 1 else 0) else 0

end Mac

/-! ### DUKPT (R172, R173) -/

namespace Dukpt

/-- Clear length of a working key type. -/
def keyLen (t : Nat) : Nat := if t = 1 ∨ t = 4 then 16 else if t = 2 ∨ t = 5 then 24 else 32

/-- The algorithm indicator of X9.24-3. -/
def indicator (t : Nat) : Nat := if t = 4 then 0 else if t = 5 then 1 else t + 1

/-- A derivation of X9.24-3: key material of a type under a key. -/
def step (key : Bytes) (use_ t : Nat) (tail : Bytes) : Bytes :=
  let len := keyLen t
  ((List.range ((len + 15) / 16)).flatMap (fun i =>
    aesEnc key ([1, BitVec.ofNat 8 (i + 1)] ++ toBE 2 use_ ++ toBE 2 (indicator t) ++ toBE 2 (8 * len) ++ tail))).take len

def aesType (key : Bytes) : Nat := if key.length = 16 then 1 else if key.length = 24 then 2 else 3

/-- The working key of AES DUKPT; `use_` is its key usage indicator. -/
def aesWorking (fromBdk : Bool) (key ksn : Bytes) (use_ wk : Nat) : Bytes :=
  let t := aesType key
  let start := if fromBdk then step key 0x8001 t (slice ksn 0 8) else key
  let counter := field ksn 8 4
  let id := slice ksn 4 4
  let (last, _) := ((List.range 32).reverse).foldl (fun (k, c) i =>
    if counter.testBit i then (step k 0x8000 t (id ++ toBE 4 (c + 2 ^ i)), c + 2 ^ i) else (k, c)) (start, 0)
  step last use_ wk (id ++ toBE 4 counter)

def mask : Bytes := [0xC0, 0xC0, 0xC0, 0xC0, 0, 0, 0, 0]

/-- The initial key of TDEA DUKPT. -/
def ipek (bdk ksn : Bytes) : Bytes :=
  let b := (slice ksn 0 7) ++ [byteAt ksn 7 &&& 0xE0]
  tdeaEnc bdk b ++ tdeaEnc (xorBytes bdk (mask ++ mask)) b

/-- One future key of TDEA DUKPT. -/
def next (key reg : Bytes) : Bytes :=
  let half := fun (k : Bytes) => xorBytes (desEnc (k.take 8) (xorBytes reg (k.drop 8))) (k.drop 8)
  half (xorBytes key (mask ++ mask)) ++ half key

/-- The working key of TDEA DUKPT; `variant` is the byte position of 0xFF in each half. -/
def tdeaWorking (fromBdk : Bool) (key ksn : Bytes) (variant : Nat) : Bytes :=
  let start := if fromBdk then ipek key ksn else key
  let right := field ksn 2 8
  let base := right - right % 2 ^ 21
  let counter := right % 2 ^ 21
  let (last, _) := ((List.range 21).reverse).foldl (fun (k, c) i =>
    if counter.testBit i then (next k (toBE 8 (base + c + 2 ^ i)), c + 2 ^ i) else (k, c)) (start, 0)
  let v := zeros variant ++ [0xFF] ++ zeros (7 - variant)
  xorBytes last (v ++ v)

/-- Ones of a counter. -/
def ones (n : Nat) : Nat := ((List.range 32).filter (fun i => n.testBit i)).length

/-- The transaction counter of a scheme's KSN. -/
def counter (scheme : Nat) (ksn : Bytes) : Nat := if scheme ≤ 2 then field ksn 8 4 else field ksn 2 8 % 2 ^ 21

/-- The validity rule of R172. -/
def valid (scheme : Nat) (ksn : Bytes) : Bool :=
  let c := counter scheme ksn
  c != 0 && ones c ≤ (if scheme ≤ 2 then 16 else 10)

/-- b of R173. -/
def b (t : Nat) : Nat := if t = 1 ∨ t = 4 then 1 else 2

/-- D of R173. -/
def cost (scheme dk wk : Nat) : Nat :=
  if scheme = 1 then 600 + 200 * (17 * b dk + b wk) else if scheme = 2 then 600 + 200 * (16 * b dk + b wk)
  else if scheme = 3 then 4800 else 3840

/-- The working key type in force: the field's, or 2-key TDEA (R172). -/
def workType (scheme wk : Nat) : Nat := if scheme ≤ 2 then wk else 4

/-- A working key longer than the derivation key is refused (R172). -/
def longer (scheme dk wk : Nat) : Bool := scheme ≤ 2 && decide (keyLen dk < keyLen wk)

end Dukpt

/-! ### EMV keys (R176) -/

namespace Emv

/-- Odd parity on each byte. -/
def parity (k : Bytes) : Bytes :=
  k.map (fun x => let n := ((List.range 7).filter (fun i => x.getLsbD (i + 1))).length
                  (x &&& 0xFE) ||| (if n % 2 = 0 then 1 else 0))

def digitsOf (pan : Bytes) (psn : Nat) : List Nat := Pin.panDigits pan ++ [psn / 16, psn % 16]

def flip (b : Bytes) : Bytes := b.map (fun x => x ^^^ 0xFF)

/-- The card master key of an issuer master key. -/
def card (t : Nat) (key pan : Bytes) (psn : Nat) : Bytes :=
  let d := digitsOf pan psn
  if isTdea t then
    let y := Pin.pack (List.replicate (16 - d.length) 0 ++ d.drop (d.length - 16))
    parity (tdeaEnc key y ++ tdeaEnc key (flip y))
  else
    let y := Pin.pack (List.replicate (32 - d.length) 0 ++ d)
    (aesEnc key y ++ aesEnc key (flip y)).take key.length

/-- The session key of a card master key and the ATC. -/
def session (t : Nat) (key atc : Bytes) : Bytes :=
  if isTdea t then tdeaEnc key (atc ++ [0xF0] ++ zeros 5) ++ tdeaEnc key (atc ++ [0x0F] ++ zeros 5)
  else (aesEnc key (atc ++ zeros 14) ++ aesEnc key (atc ++ [1] ++ zeros 13)).take key.length

/-- The 8-byte cryptogram over data under a session key (R177). -/
def cryptogram (t : Nat) (key m : Bytes) : Bytes :=
  if isTdea t then Mac.alg3 key (Mac.pad2 8 m) else (cmac 16 (aesEnc key) m).take 8

/-- The MAC phase of R177's cryptogram over n bytes. -/
def phase (t n : Nat) : Nat := if isTdea t then Mac.phase 3 2 4 n else Mac.phase 5 0 1 n

end Emv

end Sys2Proof.Machine
end

