-- ==== Sys2Proof/Machine/Payment.lean ====
section
/-! DEFINITION. Transaction units (06): the checks of a trick, its count, its programs, and the key-block and component programs
(05 R128 to R130, 15 R400). -/

namespace Sys2Proof.Machine

namespace TuStatus
def paramInvalid : BitVec 16 := 0x0310
def pinFormatInvalid : BitVec 16 := 0x0311
def pinTranslationDenied : BitVec 16 := 0x0312
def pinMismatch : BitVec 16 := 0x0313
def dukptCounterInvalid : BitVec 16 := 0x0314
def cryptogramMismatch : BitVec 16 := 0x0315
def macMismatch : BitVec 16 := 0x0316
end TuStatus

/-- What the checks of a job decide: refused, or free to run for a count with these key uses. -/
inductive Verdict where
  | refuse (status : BitVec 16) (payload : Bytes)
  | go (count : Nat) (uses : List Part.KeyUse)
deriving DecidableEq, Repr

/-- The lowest offset whose field fails (R159). -/
def firstBad (l : List (Nat × Bool)) : Option Nat := (l.find? (fun e => !e.2)).map (·.1)

/-- A parameter-invalid refusal carries the failing field's offset in two bytes. -/
def badField (status : BitVec 16) (off : Nat) : Verdict := .refuse status (toBE 2 off)

def symTypes : List Nat := [1, 2, 3, 4, 5]
def aesTypes : List Nat := [1, 2, 3]
def tdeaTypes : List Nat := [4, 5]

/-- A program ID (R165, R182). -/
def progOf (code : Nat) : Nat := if code = 0x2001 then 0x81 else if code = 0x2002 then 0x82 else if code = 0x2004 then 0x84 else code % 256

/-! ### Step 1: the length a block's own fields declare -/

def tuLength (code : Nat) (b : Bytes) : Option Nat :=
  let at_ := fun (off n base : Nat) => if off + n ≤ b.length then some (base + field b off n) else none
  if code = 0x3001 then some 48 else if code = 0x3002 ∨ code = 0x3011 then some 64
  else if code = 0x3012 then at_ 40 4 48
  else if code = 0x3021 then at_ 52 2 56
  else if code = 0x3022 then at_ 72 2 80
  else if code = 0x3031 ∨ code = 0x3032 then at_ 12 4 32
  else if code = 0x3041 ∨ code = 0x3042 then some 80
  else if code = 0x3051 ∨ code = 0x3052 then at_ 16 4 24
  else if code = 0x2001 then at_ 16 4 20
  else some 24

/-! ### Step 2: fields within their encodings -/

/-- The parts of a PAN field at o; `bound` when the command binds the PAN (R166). -/
def panChecks (b : Bytes) (o : Nat) (bound : Bool) : List (Nat × Bool) :=
  let n := field b o 1
  let d := Pin.nibbles (slice b (o + 2) 10)
  [(o, (n == 0 && !bound) || (12 ≤ n && n ≤ 19)), (o + 1, byteAt b (o + 1) == 0),
   (o + 2, (d.take n).all (· ≤ 9) && (d.drop n).all (· == 15))]

def binds (fmt : Nat) : Bool := fmt != 1

/-- A PIN block field at o (R166). -/
def blockCheck (b : Bytes) (o fmt : Nat) : Nat × Bool := (o, fmt == 4 || allZero (slice b (o + 8) 8))

def zeroAt (b : Bytes) (o n : Nat) : Nat × Bool := (o, allZero (slice b o n))

def ranged (b : Bytes) (o n lo hi : Nat) : Nat × Bool := let v := field b o n; (o, lo ≤ v && v ≤ hi)

/-- A field of n bytes at o that is zero beyond its first k. -/
def paddedAt (b : Bytes) (o n k : Nat) : Nat × Bool := (o, allZero (slice b (o + k) (n - k)))

def isBcd (x : Byte) : Bool := x.toNat / 16 ≤ 9 && x.toNat % 16 ≤ 9

def tuFields (code : Nat) (b : Bytes) : List (Nat × Bool) :=
  let v := fun (o : Nat) => field b o 1
  let fmt := fun (o : Nat) => (o, Pin.formats.contains (v o))
  let flags := fun (o limit : Nat) => (o, decide (v o < limit))
  if code = 0x3001 then
    [fmt 16, fmt 17, zeroAt b 18 2] ++ panChecks b 20 (binds (v 16) || binds (v 17)) ++ [blockCheck b 32 (v 16)]
  else if code = 0x3002 then
    [fmt 16, (17, v 17 == 0 || v 17 == 3 || v 17 == 4), zeroAt b 18 2] ++ panChecks b 20 true ++ [blockCheck b 32 (v 16), blockCheck b 48 (v 17)]
  else if code = 0x3011 then
    [ranged b 16 1 1 4, (17, if v 16 ≤ 2 then 1 ≤ v 17 && v 17 ≤ 5 else v 17 == 0), fmt 18, fmt 19, (20, v 16 ≤ 2 || allZero (slice b 30 2))] ++
      panChecks b 32 (binds (v 18) || binds (v 19)) ++ [zeroAt b 44 4, blockCheck b 48 (v 18)]
  else if code = 0x3012 then
    [ranged b 8 1 1 4, (9, if v 8 ≤ 2 then 1 ≤ v 9 && v 9 ≤ 3 else v 9 == 0), ranged b 10 1 1 2, ranged b 11 1 4 (if v 8 ≤ 2 then 16 else 8),
     (12, v 8 ≤ 2 || allZero (slice b 22 2)), paddedAt b 24 16 (if v 10 = 2 then 0 else v 11), ranged b 40 4 1 4096, zeroAt b 44 4]
  else if code = 0x3021 then
    let arpc := (byteAt b 8).getLsbD 1
    let m2 := arpc && v 9 == 2
    [flags 8 4, (9, if arpc then v 9 == 1 || v 9 == 2 else v 9 == 0), (10, isBcd (byteAt b 10)), zeroAt b 11 1] ++ panChecks b 12 true ++
      [(26, (arpc && v 9 == 1) || allZero (slice b 26 2)), (28, m2 || allZero (slice b 28 4)), (40, if m2 then v 40 ≤ 8 else v 40 == 0),
       zeroAt b 41 3, paddedAt b 44 8 (if m2 then v 40 else 0), ranged b 52 2 1 256, zeroAt b 54 2]
  else if code = 0x3022 then
    let f := byteAt b 24
    let enc := f.getLsbD 1
    let chg := f.getLsbD 2
    [(8, enc || allZero (slice b 8 8)), (16, chg || allZero (slice b 16 8)), (24, v 24 < 8 && (!chg || enc)),
     (25, if chg then Pin.formats.contains (v 25) else v 25 == 0), (26, isBcd (byteAt b 26)), ranged b 27 1 4 8] ++
      panChecks b 28 (chg && binds (v 25)) ++
      [zeroAt b 42 2, (56, if chg then (blockCheck b 56 (v 25)).2 else allZero (slice b 56 16)), (72, if chg then field b 72 2 == 0 else field b 72 2 ≤ 224),
       zeroAt b 74 6]
  else if code = 0x3031 ∨ code = 0x3032 then
    [(8, v 8 == 1 || v 8 == 3 || v 8 == 5), (9, if v 8 = 5 then v 9 == 0 else v 9 == 1 || v 9 == 2), ranged b 10 1 4 (if v 8 = 5 then 16 else 8),
     zeroAt b 11 1, ranged b 12 4 1 4096, paddedAt b 16 16 (if code = 0x3031 then 0 else v 10)]
  else if code = 0x3041 ∨ code = 0x3042 then
    let digits := slice b 12 (v 8)
    [ranged b 8 1 6 32, ranged b 9 1 0 32, zeroAt b 10 2, (12, digits.all (fun x => 48 ≤ x.toNat && x.toNat ≤ 57) && allZero (slice b (12 + v 8) (32 - v 8))),
     paddedAt b 44 32 (v 9), zeroAt b 76 4]
  else if code = 0x3051 ∨ code = 0x3052 then
    [(16, 8 ≤ field b 16 4 && field b 16 4 ≤ 4096 && field b 16 4 % 8 == 0), zeroAt b 20 4]
  else if code = 0x2001 then [(0, field b 0 4 < 8388608), ranged b 12 1 1 2, zeroAt b 13 3]
  else if code = 0x2002 then [ranged b 16 1 1 2, zeroAt b 17 7]
  else [(4, field b 4 4 < 8388608), (8, (1 ≤ v 8 && v 8 ≤ 5) || (admitted (v 8)).isNone), zeroAt b 9 1, flags 12 2, zeroAt b 16 8]

/-! ### Step 3: the handles of a program, with the types and the usage each needs -/

def tuHandles (code : Nat) (b : Bytes) : List (Nat × List Nat × Nat) :=
  let f := byteAt b 24
  let scheme := field b (if code = 0x3011 then 16 else 8) 1
  let dk := if scheme ≤ 2 then aesTypes else [4]
  if code = 0x3001 ∨ code = 0x3002 then [(0, symTypes, uPin), (8, symTypes, uPin)]
  else if code = 0x3011 then [(0, dk, uDerive), (8, symTypes, uPin)]
  else if code = 0x3012 then [(0, dk, uDerive)]
  else if code = 0x3021 then [(0, [1, 2, 3, 4], uDerive)]
  else if code = 0x3022 then
    [(0, [1, 2, 3, 4], uDerive)] ++ (if f.getLsbD 1 then [(8, [1, 2, 3, 4], uDerive)] else []) ++ (if f.getLsbD 2 then [(16, symTypes, uPin)] else [])
  else if code = 0x3031 then [(0, symTypes, uMacGen)]
  else if code = 0x3032 then [(0, symTypes, uMacVer)]
  else if code = 0x3041 ∨ code = 0x3042 then [(0, aesTypes, uData)]
  else if code = 0x3051 ∨ code = 0x3052 then [(0, tdeaTypes, uData)]
  else if code = 0x2001 then [(4, symTypes, uWrap)]
  else if code = 0x2002 then [(0, [], uNone), (8, symTypes, uWrap)]
  else []

/-! ### Step 4, counts and uses -/

/-- EMV_SCRIPT: bytes of D after padding and encipherment (R178). -/
def scriptLen (b : Bytes) (tdea : Bool) : Nat :=
  let f := byteAt b 24
  let n := if f.getLsbD 2 then 8 else field b 72 2
  let w := if tdea then 8 else 16
  if f.getLsbD 1 then (n / w + 1) * w else n

/-- Family rules, family-dependent ranges, the translation rule and the DUKPT counter, in that order; `t` gives the types of the keys in offset
order. -/
def tuStep4 (code : Nat) (b : Bytes) (t : List Nat) : Option (BitVec 16 × Bytes) :=
  let t0 := t.getD 0 0
  let t1 := t.getD 1 0
  let v := fun (o : Nat) => field b o 1
  let denied : Option (BitVec 16 × Bytes) := some (Status.keyUsageDenied, [])
  let param := fun (o : Nat) => some (TuStatus.paramInvalid, toBE 2 o)
  if code = 0x3001 then
    if Pin.family (v 16) t0 = false ∨ Pin.family (v 17) t1 = false then denied
    else if Pin.permitted (v 16) (v 17) then none else some (TuStatus.pinTranslationDenied, [])
  else if code = 0x3002 then if Pin.family (v 16) t0 = false ∨ Pin.family (v 17) t1 = false then denied else none
  else if code = 0x3011 then
    let wk := Dukpt.workType (v 16) (v 17)
    if Dukpt.longer (v 16) t0 wk = true ∨ Pin.family (v 18) wk = false ∨ Pin.family (v 19) t1 = false then denied
    else if Pin.permitted (v 18) (v 19) = false then some (TuStatus.pinTranslationDenied, [])
    else if Dukpt.valid (v 16) (slice b 20 12) then none else some (TuStatus.dukptCounterInvalid, [])
  else if code = 0x3012 then
    if Dukpt.longer (v 8) t0 (Dukpt.workType (v 8) (v 9)) then denied
    else if Dukpt.valid (v 8) (slice b 12 12) then none else some (TuStatus.dukptCounterInvalid, [])
  else if code = 0x3021 then
    if isTdea t0 = true ∧ v 8 % 2 = 1 ∧ 16 < v 12 then param 12 else none
  else if code = 0x3022 then
    let f := byteAt b 24
    if f.getLsbD 1 = true ∧ isTdea t0 ≠ isTdea t1 then denied
    else if f.getLsbD 2 = true ∧ (Pin.family (v 25) (t.getD 2 0) = false ∨ isTdea (t.getD 2 0) ≠ isTdea t0) then denied
    else if isTdea t0 = true ∧ f.getLsbD 0 = true ∧ 16 < v 28 then param 28 else none
  else if code = 0x3031 ∨ code = 0x3032 then
    if (v 8 = 1 ∧ isTdea t0 = false) ∨ (v 8 = 3 ∧ t0 ≠ 4) then denied
    else if v 8 = 5 ∧ isTdea t0 = true ∧ 8 < v 10 then param 10 else none
  else none

/-- The count of a program (R157, R170 to R182); `t` as above. -/
def tuCount (code : Nat) (b : Bytes) (t : List Nat) : Nat :=
  let B := 2400
  let t0 := t.getD 0 0
  let v := fun (o : Nat) => field b o 1
  let f := byteAt b 24
  if code = 0x3001 then B + Pin.phase (v 16) + Pin.phase (v 17)
  else if code = 0x3002 then B + Pin.phase (v 16) + Pin.phase (v 17) + 300
  else if code = 0x3011 then B + Dukpt.cost (v 16) t0 (Dukpt.workType (v 16) (v 17)) + Pin.phase (v 18) + Pin.phase (v 19)
  else if code = 0x3012 then
    B + Dukpt.cost (v 8) t0 (Dukpt.workType (v 8) (v 9)) + (if v 8 ≤ 2 then Mac.phase 5 0 1 (field b 40 4) else Mac.phase 3 1 4 (field b 40 4))
  else if code = 0x3021 then
    B + (if v 8 % 2 = 1 then 2400 else 0) + 1800 + Emv.phase t0 (field b 52 2) +
      (if (byteAt b 8).getLsbD 1 then (if v 9 = 1 then 633 else Emv.phase t0 (12 + v 40)) else 0)
  else if code = 0x3022 then
    let tdea := isTdea t0
    let keys := if f.getLsbD 1 then 2 else 1
    let d := scriptLen b tdea
    B + (if f.getLsbD 0 then 2400 * keys else 0) + 1800 * keys + (if tdea then Mac.phase 3 2 4 (15 + d) else Mac.phase 5 0 1 ((15 + d) / 16 * 16 + 16)) +
      (if f.getLsbD 1 then (if tdea then 300 + 450 * (d / 8) else 300 + 240 * (d / 16)) else 0) + (if f.getLsbD 2 then Pin.phase (v 25) else 0)
  else if code = 0x3031 ∨ code = 0x3032 then B + Mac.phase (v 8) (v 9) t0 (field b 12 4)
  else if code = 0x3041 ∨ code = 0x3042 then
    let n := v 8
    let q := (v 9 + ff1Bytes (n - n / 2) + 1 + 15) / 16
    B + 300 + 240 + 10 * (240 * q + 30 + 36 * n)
  else if code = 0x3051 ∨ code = 0x3052 then B + 300 + 450 * (field b 16 4 / 8)
  else 0

/-- TDEA blocks under each vault key, in the order of the handles (R163). A TDEA DUKPT derivation enciphers one block under its BDK, or under its
IPEK in the first step; every later key is derived (log 12). -/
def tuBlocks (code : Nat) (b : Bytes) (t : List Nat) : List Nat :=
  let v := fun (o : Nat) => field b o 1
  let one := fun (i : Nat) => if isTdea (t.getD i 0) then 1 else 0
  let f := byteAt b 24
  if code = 0x3001 ∨ code = 0x3002 then [one 0, one 1]
  else if code = 0x3011 then [if 3 ≤ v 16 then 1 else 0, one 1]
  else if code = 0x3012 then [if 3 ≤ v 8 then 1 else 0]
  else if code = 0x3021 then [2 * one 0]
  else if code = 0x3022 then [2 * one 0] ++ (if f.getLsbD 1 then [2 * one 1] else []) ++ (if f.getLsbD 2 then [one 2] else [])
  else if code = 0x3031 ∨ code = 0x3032 then [Mac.tdeaBlocks (v 8) (v 9) (t.getD 0 0) (field b 12 4)]
  else if code = 0x3051 ∨ code = 0x3052 then [field b 16 4 / 8]
  else t.map (fun _ => 0)

namespace Part

/-! ### The checks of a trick (R159) -/

/-- Checks every handle in offset order: the keys, or the first status. -/
def checkKeys (p : Part) (seat : Nat) (c : Cmd) : List (Nat × List Nat × Nat) → Except (BitVec 16) (List Slot)
  | [] => .ok []
  | (o, types, usage) :: r => match p.checkKey seat c (slice c.params o 8) types usage with
    | .error st => .error st
    | .ok s => match p.checkKeys seat c r with
      | .error st => .error st
      | .ok l => .ok (s :: l)

/-- The uses of a list of keys with their TDEA blocks. -/
def usesOf (keys : List Slot) (offs : List Nat) (b : Bytes) (blocks : List Nat) : List KeyUse :=
  mergeUses ((keys.zip (offs.zip blocks)).map (fun e =>
    { slot := (handleOf (slice b e.2.1 8)).slot, gen := e.1.gen, ktype := e.1.ktype, uses := 1, blocks := e.2.2 }))

/-- Blocks under a TDEA wrapping key: the derivation of its two block keys (log 12). -/
def wrapBlocks (s : Slot) : Nat := if isTdea s.ktype then 1 + 2 * (s.material.length / 8) else 0

/-- Cipher blocks of the key field an export makes (R182). -/
def exportBlocks (tdea : Bool) (key : Slot) : Nat := (2 + key.material.length + KB.blockOf tdea - 1) / KB.blockOf tdea

/-- The ceremony authorisation a component key needs (15 R398, R400). -/
def componentAuth (p : Part) (c : Cmd) : Option (Nat × Auth) :=
  match (c.session?).bind (p.authOf 4) with
  | some (port, a) => if a.cer.id.toNat = field c.params 0 4 then some (port, a) else none
  | none => none

/-- Why a key write is refused before it runs: no room in the journal, the policy, the range (05 R125, R127, R128, R146). -/
def writeRefusal (p : Part) (c : Cmd) (head t : Nat) (allowed : Policy → Bool) (u : Option (BitVec 16)) : Option (BitVec 16 × Bytes) :=
  if p.slotInHand c.epoch c.hand head = false then some (Status.accessFault, [])
  else match p.journalRefusal with
    | some n => some (VStatus.journalUnavailable, reason n)
    | none => match u with
      | none => none
      | some u =>
        let pol := policyOf (p.dealOf c.epoch) c.hand t
        if usagesOk t u = false then some (Status.keyUsageDenied, [])
        else match pol with
          | none => some (Status.keyUsageDenied, [])
          | some q => if allowed q = true ∧ (u &&& q.usages) = u then none else some (Status.keyUsageDenied, [])

/-- Steps 1 to 4 for the key-block and component programs. -/
def keyProgram (p : Part) (c : Cmd) (keys : List Slot) : Verdict :=
  let b := c.params
  if c.code = 0x2001 then
    match p.writeRefusal c (field b 0 4) 0 (fun _ => true) none, keys with
    | some (st, pl), _ => .refuse st pl
    | none, k :: _ =>
      if field b 12 1 = 2 ∧ isTdea k.ktype = true then .refuse Status.keyUsageDenied []
      else
        let n := KB.cipherBlocks (isTdea k.ktype) (b.drop 20)
        .go (4200 + (if isTdea k.ktype then 900 else 480) * n) (usesOf keys [4] b [wrapBlocks k])
    | none, [] => .refuse Status.keyEmpty []
  else if c.code = 0x2002 then
    match keys with
    | x :: k :: _ =>
      let pol := policyOf (p.dealOf c.epoch) c.hand x.ktype
      let handOk := ((p.handEntry c.epoch c.hand).map (fun e => e.flags.getLsbD 1)).getD false
      let strong := isAes k.ktype || (isTdea x.ktype && x.ktype ≤ k.ktype)
      if (pol.map (·.exportOk)).getD false = false ∨ handOk = false ∨ x.flags.getLsbD 0 = false ∨ strong = false ∨
          (field b 16 1 = 2 ∧ isTdea k.ktype = true) then .refuse Status.keyUsageDenied []
      else .go (4200 + (if isTdea k.ktype then 900 else 480) * exportBlocks (isTdea k.ktype) x) (usesOf keys [0, 8] b [0, wrapBlocks k])
    | _ => .refuse Status.keyEmpty []
  else
    match p.componentAuth c with
    | none => .refuse CerStatus.quorumNotMet []
    | some (_, a) => match p.writeRefusal c (field b 4 4) (field b 8 1) (·.componentsOk) (some (BitVec.ofNat 16 (field b 10 2))) with
      | some (st, pl) => .refuse st pl
      | none =>
        if field b 10 2 / 256 % 2 = 1 then .refuse Status.keyUsageDenied []
        else .go (3000 + 300 * a.cer.parts.length) []

/-- Steps 1 to 4 of a trick. -/
def tuCheck (p : Part) (seat : Nat) (c : Cmd) : Verdict :=
  let b := c.params
  if tuLength c.code b ≠ some b.length then .refuse Status.lengthMismatch []
  else match firstBad (tuFields c.code b) with
    | some o => badField TuStatus.paramInvalid o
    | none => match p.checkKeys seat c (tuHandles c.code b) with
      | .error st => .refuse st []
      | .ok keys =>
        if c.code / 4096 = 2 then p.keyProgram c keys
        else
          let t := keys.map (·.ktype)
          match tuStep4 c.code b t with
          | some (st, pl) => .refuse st pl
          | none => .go (tuCount c.code b t) (usesOf keys ((tuHandles c.code b).map (·.1)) b (tuBlocks c.code b t))

/-- The fixed time of a trick as the dispatcher predicts it. -/
def tuFixed (p : Part) (c : Cmd) : Nat :=
  match p.tuCheck c.seat c with
  | .go n _ => n
  | .refuse .. => 400

/-! ### The programs (step 5) -/

/-- The keys a running trick uses, as its Seat holds them. -/
def trickKeys (p : Part) (seat : Nat) (c : Cmd) : List Bytes :=
  (tuHandles c.code c.params).map (fun h => match p.keyOf seat c (slice c.params h.1 8) with
    | .ok s => s.material
    | .error _ => [])

def trickTypes (p : Part) (seat : Nat) (c : Cmd) : List Nat :=
  (tuHandles c.code c.params).map (fun h => match p.keyOf seat c (slice c.params h.1 8) with
    | .ok s => s.ktype
    | .error _ => 0)

def doneWith (b : Bytes) : Outcome := { status := Status.done, payload := b }
def endsAs (st : BitVec 16) : Outcome := { status := st, payload := [] }

/-- PIN_TRANSLATE (R167 to R170). -/
def translate (in_ out : Nat) (kin kout pan block rand : Bytes) : Outcome :=
  match Pin.readField in_ (Pin.decipher in_ kin pan block) with
  | none => endsAs TuStatus.pinFormatInvalid
  | some pin => doneWith (Pin.encipher out kout pan (Pin.clearField out pin rand))

/-- PIN_VERIFY (R171). -/
def verifyPin (f1 f2 : Nat) (k1 k2 pan b1 b2 : Bytes) : Outcome :=
  match Pin.readField f1 (Pin.decipher f1 k1 pan b1), Pin.readField f2 (Pin.decipher f2 k2 pan b2) with
  | some x, some y => if x = y then doneWith [] else endsAs TuStatus.pinMismatch
  | _, _ => endsAs TuStatus.pinFormatInvalid

/-- A MAC of a requested length against an expected one, or returned (R175, R179). -/
def macOutcome (gen : Bool) (len : Nat) (mac expected : Bytes) : Outcome :=
  if gen then doneWith (padTo 16 (mac.take len)) else if mac.take len = expected.take len then doneWith [] else endsAs TuStatus.macMismatch

/-- DUKPT working key for a use: 0 PIN encryption, 1 request MAC, 2 response MAC. -/
def workingKey (scheme wk use_ : Nat) (key ksn : Bytes) : Bytes :=
  if scheme ≤ 2 then Dukpt.aesWorking (scheme = 1) key ksn (if use_ = 0 then 0x1000 else if use_ = 1 then 0x2000 else 0x2001) wk
  else Dukpt.tdeaWorking (scheme = 3) key ksn (if use_ = 0 then 7 else if use_ = 1 then 6 else 4)

/-- EMV_ARQC (R177). -/
def arqc (b key : Bytes) (t : Nat) : Outcome :=
  let card := if field b 8 1 % 2 = 1 then Emv.card t key (slice b 12 12) (field b 10 1) else key
  let sk := Emv.session t card (slice b 24 2)
  let want := slice b 32 8
  if Emv.cryptogram t sk (slice b 56 (field b 52 2)) ≠ want then endsAs TuStatus.cryptogramMismatch
  else if (byteAt b 8).getLsbD 1 = false then doneWith []
  else if field b 9 1 = 1 then
    let x := xorBytes want (slice b 26 2 ++ zeros 6)
    doneWith (if isTdea t then tdeaEnc sk x else (aesEnc sk (x ++ zeros 8)).take 8)
  else doneWith ((Emv.cryptogram t sk (want ++ slice b 28 4 ++ slice b 44 (field b 40 1))).take 4 ++ zeros 4)

/-- EMV_SCRIPT (R178). -/
def script (b : Bytes) (keys : List Bytes) (types : List Nat) : Outcome :=
  let f := byteAt b 24
  let enc := f.getLsbD 1
  let chg := f.getLsbD 2
  let t := types.getD 0 0
  let pan := slice b 28 12
  let master := fun (i : Nat) =>
    let k := keys.getD i []
    Emv.session t (if f.getLsbD 0 then Emv.card t k pan (field b 26 1) else k) (slice b 40 2)
  let fmt := field b 25 1
  let pin := Pin.readField fmt (Pin.decipher fmt (keys.getD 2 []) pan (slice b 56 16))
  if chg = true ∧ pin.isNone = true then endsAs TuStatus.pinFormatInvalid
  else
    let d0 := if chg then Pin.clearField 2 (pin.getD []) [] else slice b 80 (field b 72 2)
    let w := if isTdea t then 8 else 16
    let d := if enc then
        (if isTdea t then cbcEnc 8 (tdeaEnc (master 1)) (zeros 8) (Mac.pad2 8 d0) else cbcEnc 16 (aesEnc (master 1)) (zeros 16) (Mac.pad2 w d0))
      else d0
    let n := field b 27 1
    let lc := d.length + n
    let m := slice b 52 4 ++ toBE 1 lc ++ slice b 40 2 ++ slice b 44 8 ++ d
    let mac := if isTdea t then Mac.alg3 (master 0) (Mac.pad2 8 m) else cmac 16 (aesEnc (master 0)) (Mac.pad2 16 m)
    doneWith (toBE 1 lc ++ toBE 1 n ++ zeros 2 ++ d ++ mac.take n)

/-- FF1 (R180). -/
def ff1 (enc : Bool) (b key : Bytes) : Outcome :=
  let n := field b 8 1
  let d := (slice b 12 n).map (fun x => x.toNat - 48)
  let tweak := slice b 44 (field b 9 1)
  let r := if enc then ff1Enc (aesEnc key) tweak d else ff1Dec (aesEnc key) tweak d
  doneWith (padTo 32 (r.map (fun x => BitVec.ofNat 8 (48 + x))))

/-- Bounded TDEA-CBC (R181). -/
def tdeaCbc (enc : Bool) (b key : Bytes) : Outcome :=
  let m := b.drop 24
  doneWith (if enc then cbcEnc 8 (tdeaEnc key) (slice b 8 8) m else cbcDec 8 (tdeaDec key) (slice b 8 8) m)

/-- A key as it will be written, its check value computed (05 R122). -/
def newKey (hand t size : Nat) (flags : Byte) (u version : BitVec 16) (m : Bytes) : Slot :=
  { st := .head, hand := hand, ktype := t, run := runLength t size, flags := flags, usages := u, version := version
    kcv := BitVec.ofNat 24 (be (checkValue t m)), size := size, material := m }

/-- A write's outcome: the target checked (05 R128), the mutation left to the Dealer. -/
def writeOutcome (p : Part) (c : Cmd) (head : Nat) (k : Slot) (pub : Bytes) : Outcome :=
  match p.targetFault c.epoch c.hand head k.run with
  | some (st, pl) => { status := st, payload := pl }
  | none => { status := Status.done, payload := [], effect := .writeKey head k pub }

/-- KEY_IMPORT, program 0x81 (05 R124, R129). -/
def importKey (p : Part) (c : Cmd) (wk : Bytes) (wt : Nat) : Outcome :=
  let b := c.params
  match KB.openBlock (isTdea wt) (field b 12 1 == 2) wk (b.drop 20) with
  | none => endsAs VStatus.keyBlockInvalid
  | some (x, opts) =>
    match KB.usageBits x.usage x.mode with
    | none => endsAs VStatus.keyBlockInvalid
    | some u =>
      match KB.typeOf x.alg u x.key.length with
      | none => endsAs VStatus.keyBlockInvalid
      | some (t, size) =>
        let bad := opts.any (fun o => (o.1 == ascii "KC" && !(KB.kcvAgrees o.2 (checkValue t x.key))) ||
          (o.1 == ascii "KP" && !(KB.kcvAgrees o.2 (checkValue wt wk))))
        let expOk := x.export_ == KB.chr 'E' || x.export_ == KB.chr 'N' || x.export_ == KB.chr 'S'
        if bad = true ∨ expOk = false ∨ KB.publicOk t x.key = false then endsAs VStatus.keyBlockInvalid
        else match p.writeRefusal c (field b 0 4) t (·.importOk) (some u) with
          | some (st, pl) => { status := st, payload := pl }
          | none => p.writeOutcome c (field b 0 4)
              (newKey c.hand t size (if x.export_ = KB.chr 'E' then 1 else 0) u x.version x.key) []

/-- KEY_EXPORT, program 0x82 (05 R130). -/
def exportKey (p : Part) (seat : Nat) (c : Cmd) (wk : Bytes) (wt : Nat) (rand : Bytes) : Outcome :=
  match p.keyOf seat c (slice c.params 0 8) with
  | .error st => endsAs st
  | .ok x =>
    let (alg, us, m) := KB.headerFor x.ktype x.usages
    let content : KB.Content := { usage := us, alg := alg, mode := m, version := x.version, export_ := KB.chr 'E', key := x.material }
    let block := KB.makeBlock (isTdea wt) (field c.params 16 1 == 2) wk content rand
    doneWith (toBE 4 block.length ++ block)

/-- A component as the card wrapped it: unwrapped and checked (15 R400); a part is secret, card key, wrapped component, check value. -/
def component (challenge part_ : Bytes) (t : Nat) : Option Bytes :=
  let shared := C25519.x25519 (slice part_ 0 32) (slice part_ 32 32)
  let kek := hkdfExpand384 (hkdfExtract384 challenge shared) (ascii "XF24 comp") 32
  match kwpUnwrap kek (slice part_ 64 40) with
  | some m => if m.length = contentLen t 0 ∧ checkValue t m = slice part_ 104 3 then some m else none
  | none => none

/-- KEY_COMPONENT, program 0x84 (15 R400). -/
def combine (p : Part) (c : Cmd) (cer : Ceremony) : Outcome :=
  let b := c.params
  let t := field b 8 1
  let l := cer.parts.map (fun x => component cer.challenge x t)
  if l.any (·.isNone) then endsAs VStatus.keyBlockInvalid
  else
    let x := (l.filterMap id).foldl (fun a m => if a = [] then m else xorBytes a m) []
    let m := if isTdea t then Emv.parity x else x
    if checkValue t m ≠ slice b 13 3 then endsAs VStatus.keyBlockInvalid
    else p.writeOutcome c (field b 4 4) (newKey c.hand t 0 (byteAt b 12 ||| 4) (BitVec.ofNat 16 (field b 10 2)) 0x3030 m) []

/-- What a program computes. -/
def trickOutcome (p : Part) (seat : Nat) (c : Cmd) : Outcome :=
  let b := c.params
  let keys := p.trickKeys seat c
  let types := p.trickTypes seat c
  let k0 := keys.getD 0 []
  let k1 := keys.getD 1 []
  let t0 := types.getD 0 0
  let v := fun (o : Nat) => field b o 1
  let rand := p.drawn 24
  if c.code = 0x3001 then translate (v 16) (v 17) k0 k1 (slice b 20 12) (slice b 32 16) rand
  else if c.code = 0x3002 then verifyPin (v 16) (v 17) k0 k1 (slice b 20 12) (slice b 32 16) (slice b 48 16)
  else if c.code = 0x3011 then
    translate (v 18) (v 19) (workingKey (v 16) (v 17) 0 k0 (slice b 20 12)) k1 (slice b 32 12) (slice b 48 16) rand
  else if c.code = 0x3012 then
    let wk := workingKey (v 8) (v 9) (v 10) k0 (slice b 12 12)
    let m := b.drop 48
    macOutcome (v 10 == 2) (v 11) (if v 8 ≤ 2 then cmac 16 (aesEnc wk) m else Mac.alg3 wk (Mac.pad1 8 m)) (slice b 24 16)
  else if c.code = 0x3021 then arqc b k0 t0
  else if c.code = 0x3022 then script b (if (byteAt b 24).getLsbD 1 then keys else [k0, [], []]) types
  else if c.code = 0x3031 ∨ c.code = 0x3032 then
    macOutcome (c.code == 0x3031) (v 10) (Mac.compute (v 8) (v 9) t0 k0 (b.drop 32)) (slice b 16 16)
  else if c.code = 0x3041 ∨ c.code = 0x3042 then ff1 (c.code == 0x3041) b k0
  else if c.code = 0x3051 ∨ c.code = 0x3052 then tdeaCbc (c.code == 0x3051) b k0
  else if c.code = 0x2001 then p.importKey c k0 t0
  else if c.code = 0x2002 then p.exportKey seat c k1 (types.getD 1 0) rand
  else match p.componentAuth c with
    | some (_, a) => p.combine c a.cer
    | none => endsAs CerStatus.quorumNotMet

/-! ### A unit's work -/

/-- A unit takes its next descriptor and checks it (R159); a refusal occupies it for 400 cycles. A trick's masks come from the Seat's DRBG (R164):
while that gives no output (11 R316) no trick starts. -/
def startTrick (p : Part) (seat unit : Nat) (ecc : Decoded) : Part :=
  let key := siteTile seat .tu unit
  if p.tileUp key = false ∨ (p.tu seat unit).isSome = true ∨ p.seatIn seat .inService = false ∨ p.drbgServes seat = false then p
  else match p.nextFor seat .tu (fun _ => true) with
    | none => p
    | some c =>
      let p := p.atTime (p.tile key).since
      let give := fun (p : Part) (st : BitVec 16) (pl : Bytes) =>
        (((p.bump (regAddr seat (swinTU + unit * 0x1000) 0x0108)).passTurn seat c.hand .tu).refuse seat c.uid st pl).tileFrom key (p.now + 400)
      let (p, on) := p.keyRead seat c ecc
      if on = false then p
      else match p.tuCheck seat c with
      | .refuse st pl => give p st pl
      | .go count uses => match p.chargeAll seat c uses with
        | .exhausted => give p Status.keyExhausted []
        | .wait p => p
        | .ok p => (p.takeEngine c seat .tu unit count).setTu seat unit (some { uid := c.uid, prog := progOf c.code, start := p.now, count := count })

/-- A program runs on the unit whose trick it is. -/
def runTrick (p : Part) (seat unit prog : Nat) : Part :=
  match p.tu seat unit with
  | none => p
  | some j =>
    if j.prog ≠ prog ∨ j.out.isSome = true then p
    else match p.findCmd j.uid with
      | none => p
      | some c => (p.setTu seat unit (some { j with out := some (p.trickOutcome seat c) })).drbgTakes seat 24

/-- A trick runs its full count (R156 to R161). -/
def endTrick (p : Part) (seat unit : Nat) (faultOk : Bool) (ecc : Decoded) : Part :=
  match p.tu seat unit with
  | none => p
  | some j => match j.out with
    | none => p
    | some o =>
      let key := siteTile seat .tu unit
      let win := swinTU + unit * 0x1000
      (p.atTime (j.start + j.count)).operandRead seat unit j.uid ecc fun p =>
      let p := p.bump (regAddr seat win 0x0100)
      let auth := if j.prog = 0x84 then (p.findCmd j.uid).bind p.componentAuth else none
      let p := match auth with
        | some (port, _) => p.useAuth port
        | none => p
      if faultOk then (((p.setTu seat unit none).tileFrom key (p.now + 600)).release seat j.uid o).sweepDraining seat
      else (p.bump (regAddr seat win 0x0110)).engineFault seat .tu unit j.uid

end Part

/-! ### Rows -/

/-- The row of a program: it runs on the named unit. -/
def runOn (prog seat unit : Nat) (s : State) : Result := onUnit (s.hasSeat seat && unit < 16) s (fun p => p.runTrick seat unit prog)

/-- TRICK_START (R159). -/
def execTrickStart (seat unit : Nat) (ecc : Decoded) (s : State) : Result :=
  onUnit (s.hasSeat seat && unit < 16) s (fun p => p.startTrick seat unit ecc)

/-- TRICK_COMPLETE (R156 to R162). -/
def execTrickComplete (seat unit : Nat) (faultOk : Bool) (ecc : Decoded) (s : State) : Result :=
  onUnit (s.hasSeat seat && unit < 16) s (fun p => p.endTrick seat unit faultOk ecc)

/-- PIN_TRANSLATE (R170). -/
def execPinTranslate (seat unit : Nat) (s : State) : Result := runOn 0x01 seat unit s

/-- PIN_VERIFY (R171). -/
def execPinVerify (seat unit : Nat) (s : State) : Result := runOn 0x02 seat unit s

/-- DUKPT_PIN_TRANSLATE (R174). -/
def execDukptPinTranslate (seat unit : Nat) (s : State) : Result := runOn 0x11 seat unit s

/-- DUKPT_MAC (R175). -/
def execDukptMac (seat unit : Nat) (s : State) : Result := runOn 0x12 seat unit s

/-- EMV_ARQC (R177). -/
def execEmvArqc (seat unit : Nat) (s : State) : Result := runOn 0x21 seat unit s

/-- EMV_SCRIPT (R178). -/
def execEmvScript (seat unit : Nat) (s : State) : Result := runOn 0x22 seat unit s

/-- MAC_GENERATE (R179). -/
def execMacGenerate (seat unit : Nat) (s : State) : Result := runOn 0x31 seat unit s

/-- MAC_VERIFY (R179). -/
def execMacVerify (seat unit : Nat) (s : State) : Result := runOn 0x32 seat unit s

/-- FF1_ENCRYPT (R180). -/
def execFf1Encrypt (seat unit : Nat) (s : State) : Result := runOn 0x41 seat unit s

/-- FF1_DECRYPT (R180). -/
def execFf1Decrypt (seat unit : Nat) (s : State) : Result := runOn 0x42 seat unit s

/-- TDEA_CBC_ENCRYPT (R181). -/
def execTdeaCbcEncrypt (seat unit : Nat) (s : State) : Result := runOn 0x51 seat unit s

/-- TDEA_CBC_DECRYPT (R181). -/
def execTdeaCbcDecrypt (seat unit : Nat) (s : State) : Result := runOn 0x52 seat unit s

/-- KEY_IMPORT (05 R129, R182). -/
def execKeyImport (seat unit : Nat) (s : State) : Result := runOn 0x81 seat unit s

/-- KEY_EXPORT (05 R130, R182). -/
def execKeyExport (seat unit : Nat) (s : State) : Result := runOn 0x82 seat unit s

/-- KEY_COMPONENT (15 R400, R182). -/
def execKeyComponent (seat unit : Nat) (s : State) : Result := runOn 0x84 seat unit s

end Sys2Proof.Machine
end

