-- ==== Sys2Proof/Machine/Contexts.lean ====
section
/-! DEFINITION. The context store and its tickets (07 R210 to R216, 09 R263 to R265). -/

namespace Sys2Proof.Machine

structure Ticket where
  hand : Nat
  gen : Nat
  inc : Nat
  index : Nat
deriving DecidableEq, Repr

/-- The ticket eight bytes spell (R210). -/
def ticketOf (b : Bytes) : Ticket := { hand := field b 0 1, gen := field b 1 3, inc := field b 4 2, index := field b 6 2 }

def Ticket.bytes (t : Ticket) : Bytes := toBE 1 t.hand ++ toBE 3 t.gen ++ toBE 2 t.inc ++ toBE 2 t.index

namespace CtxStatus
def laneParamInvalid : BitVec 16 := 0x0320
def storeFull : BitVec 16 := 0x0321
def notExportable : BitVec 16 := 0x0322
end CtxStatus

namespace Part

def ctxKey (hand index : Nat) : Nat := hand * 65536 + index

def ctx (p : Part) (k : Nat) : Ctx := Sparse.get {} p.vault.ctxs k

def setCtx (p : Part) (k : Nat) (c : Ctx) : Part := p.setVault { p.vault with ctxs := Sparse.set {} p.vault.ctxs k c }

/-- A ticket of the hand that names a record in use, of this generation and incarnation, on lines that are not poisoned (R212). -/
def ticketFault (p : Part) (hand : Nat) (t : Ticket) : Option (BitVec 16) :=
  let c := p.ctx (ctxKey t.hand t.index)
  if t.hand ≠ hand then some Status.accessFault
  else if c.used = false ∨ c.gen ≠ t.gen ∨ t.inc ≠ p.vault.incarnation % 65536 ∨
      (List.range 4).any (fun i => p.linePoisoned (ctxLine t.hand t.index + i)) = true then some Status.contextInvalid
  else none

/-- A record is freed; its generation rises, and at the last one it stays retired until the next incarnation (R210, R212). -/
def freeCtx (p : Part) (t : Ticket) : Part :=
  p.setCtx (ctxKey t.hand t.index) { gen := min (t.gen + 1) 0xFFFFFF, used := false, data := [] }

/-- A ticket that is loaded is consumed, whatever step 5 then finds, if it names a record in use (R212, 09 R252). -/
def consume (p : Part) (t : Ticket) : Part :=
  let c := p.ctx (ctxKey t.hand t.index)
  if c.used = true ∧ c.gen = t.gen ∧ t.inc = p.vault.incarnation % 65536 then p.freeCtx t else p

/-- The lowest free record of a hand; none when its 65,536 records are in use or retired. -/
def freeRecord (p : Part) (hand : Nat) : Option Nat :=
  (List.range 65536).find? (fun i => let c := p.ctx (ctxKey hand i); !c.used && decide (c.gen < 0xFFFFFF))

/-- Saves a context: the ticket, or none when the store is full (R210). -/
def saveCtx (p : Part) (hand : Nat) (data : Bytes) : Part × Option Ticket :=
  match p.freeRecord hand with
  | none => (p, none)
  | some i =>
    let k := ctxKey hand i
    let g := (p.ctx k).gen + 1
    ((p.setCtx k { gen := g, used := true, data := data }).writeLines (ctxLine hand i) 4,
      some { hand := hand, gen := g, inc := p.vault.incarnation % 65536, index := i })

/-- A context key: an AES-256 key of the hand with usage [8] (R214). -/
def contextKey (p : Part) (seat : Nat) (c : Cmd) (b : Bytes) : Except (BitVec 16) Slot := p.checkKey seat c b [3] uContext

/-- A wrapped record: its first 32 bytes in the clear, then the whole record under KWP (R214). -/
def wrapCtx (key data : Bytes) : Bytes := data.take 32 ++ kwpWrap key data

/-- The record a wrapped form carries, none when the unwrap fails or the clear part differs (R215). -/
def unwrapCtx (key b : Bytes) : Option Bytes :=
  match kwpUnwrap key (b.drop 32) with
  | some d => if d.length = 128 ∧ d.take 32 = b.take 32 then some d else none
  | none => none

/-- An exported record as a response carries it (R214). -/
def ctxResponse (form : Nat) (b : Bytes) : Bytes := toBE 1 form ++ zeros 3 ++ toBE 4 b.length ++ b

end Part

end Sys2Proof.Machine
end

