-- ==== Sys2Proof/Machine/LaneModes.lean ====
section
/-! DEFINITION. The cipher lanes' modes, parameter checks and times (07 R186 to R203, R211, R213). -/

namespace Sys2Proof.Machine

namespace Lane

/-- Mode of a command code (R186, R187); 0 for the context commands. -/
def modeOf (code : Nat) : Nat := if 0x4001 ≤ code ∧ code ≤ 0x4006 then code - 0x4000 else 0

/-- The fields of the common block (R188). -/
structure Req where
  mode : Nat
  op : Nat
  resume : Bool
  save : Bool
  provisional : Bool
  inId : Nat
  outId : Nat
  len : Nat
  ticket : Ticket
  aad : Nat
deriving DecidableEq, Repr

def req (code : Nat) (b : Bytes) : Req :=
  let f := byteAt b 17
  { mode := modeOf code, op := field b 16 1, resume := f.getLsbD 0, save := f.getLsbD 1, provisional := f.getLsbD 2
    inId := field b 20 4, outId := field b 24 4, len := field b 32 8, ticket := ticketOf (slice b 40 8)
    aad := if modeOf code = 4 then field b 56 8 else 0 }

/-- GCM decryption that is held until its tag verifies (R197). -/
def Req.held (r : Req) : Bool := r.mode == 4 && r.op == 2 && !r.resume && !r.save && r.len ≤ 1048576

/-- Data units of an XTS command. -/
def units (len unit : Nat) : Nat := if unit = 0 then 0 else (len + unit - 1) / unit

/-- T of R203. -/
def cycles (r : Req) (unit : Nat) : Nat :=
  let n := (r.len + 15) / 16
  let base := if r.mode = 1 ∨ r.mode = 3 ∨ (r.mode = 2 ∧ r.op = 2) then 300 + n + 12
    else if r.mode = 2 then 300 + 12 * n
    else if r.mode = 4 then 300 + (r.aad + 15) / 16 + n + 15
    else if r.mode = 5 then
      let odd := if unit = 0 then 0 else (if unit % 16 = 0 then 0 else r.len / unit) + (if r.len % unit % 16 = 0 then 0 else 1)
      300 + n + units r.len unit + 12 * (1 + odd)
    else 300 + 12 * n + 12
  base + (if r.save then 100 else 0)

/-- Steps 1 and 2 of R193 look at the record a ticket names: its chaining value, unit length, offset (zero for a first fragment). -/
structure Peek where
  chain : Bytes
  unit : Nat
  offset : Nat
  width : Nat
deriving DecidableEq, Repr

def peek (r : Req) (b rec : Bytes) : Peek :=
  if r.resume then { chain := slice rec 56 16, unit := field rec 100 4, offset := field rec 24 8, width := field rec 6 1 }
  else { chain := slice b 48 16, unit := if r.mode = 5 then field b 64 4 else 0, offset := 0, width := field b 64 1 }

/-- An increment width of R189. -/
def widthOk (w : Nat) : Bool := w == 4 || w == 8 || w == 16

/-- The length limits of R186, the CTR rule of R189 where the width is one, and the non-final rule of R211. -/
def lenOk (r : Req) (k : Peek) : Bool :=
  let n := r.len
  let m := k.offset + n
  let base := if r.mode = 1 then 16 ≤ n && n ≤ 2 ^ 40 && n % 16 == 0
    else if r.mode = 2 then 16 ≤ n && n ≤ 2 ^ 40 && n % 16 == 0 && m ≤ 2 ^ 48
    else if r.mode = 3 then 1 ≤ n && n ≤ 2 ^ 40 && (!(widthOk k.width) ||
      decide (be (k.chain.drop (16 - k.width)) + (n + 15) / 16 ≤ 2 ^ (8 * k.width)))
    else if r.mode = 4 then m ≤ 2 ^ 36 - 32
    else if r.mode = 5 then 16 ≤ n && n ≤ 2 ^ 40 && m ≤ 2 ^ 48 && (k.unit == 0 || n % k.unit == 0 || 16 ≤ n % k.unit)
    else n ≤ 2 ^ 40 && m ≤ 2 ^ 48
  let inline_ := (r.inId != 0 || r.aad + n ≤ 8192) && (r.outId != 0 || r.mode == 6 || n ≤ 8192)
  base && inline_ && (!r.save || (n % 16 == 0 && (r.mode != 5 || k.unit == 0 || n % k.unit == 0)))

/-- The mode fields at offset 48 (R189). -/
def modeFields (r : Req) (b rec : Bytes) : List (Nat × Bool) :=
  let v := fun (o n : Nat) => field b o n
  let first := !r.resume
  if r.mode = 1 then [zeroAt b 48 32]
  else if r.mode = 2 then [(48, first || allZero (slice b 48 16)), zeroAt b 64 16]
  else if r.mode = 3 then
    [(48, first || allZero (slice b 48 16)), (64, if first then widthOk (v 64 1) else v 64 1 == 0), zeroAt b 65 15]
  else if r.mode = 4 then
    let encFirst := first && r.op == 1
    [(48, encFirst || v 48 4 == 0), (52, if encFirst then v 52 2 < 4096 else v 52 2 == 0), (54, if first then 12 ≤ v 54 1 && v 54 1 ≤ 16 else v 54 1 == 0),
     zeroAt b 55 1, (56, if first then v 56 8 < 2 ^ 32 else v 56 8 == 0), (64, (first && r.op == 2) || allZero (slice b 64 12)), zeroAt b 76 4]
  else if r.mode = 5 then
    [(48, first || allZero (slice b 48 16)), (64, if first then 16 ≤ v 64 4 && v 64 4 ≤ 1048576 else v 64 4 == 0), zeroAt b 68 12]
  else
    let n := v 48 1
    let macLen := if first then n else if field rec 1 1 = 6 then field rec 5 1 else 16
    let verifyLast := r.op == 2 && !r.save
    [(48, if first then 4 ≤ n && n ≤ 16 else n == 0), zeroAt b 49 15,
     (64, if verifyLast then allZero (slice b (64 + macLen) (16 - macLen)) else allZero (slice b 64 16))]

/-- Step 2 of R193: every field in offset order. -/
def fields (r : Req) (isCall : Bool) (b rec : Bytes) : List (Nat × Bool) :=
  let flags := field b 17 1 < 8 && (r.mode != 1 || (!r.resume && !r.save)) && (!r.provisional || (r.mode == 4 && r.op == 2)) &&
    (!(r.mode == 4 && r.op == 2) || r.held || r.provisional)
  [(8, r.mode == 5 || allZero (slice b 8 8)), (16, r.op == 1 || r.op == 2), (17, flags), zeroAt b 18 2, (20, !(isCall && r.inId != 0)),
   (24, (r.mode != 6 || r.outId == 0) && !(isCall && r.outId != 0)), zeroAt b 28 4, (32, lenOk r (peek r b rec)),
   (40, r.resume || allZero (slice b 40 8))] ++ modeFields r b rec

/-- Length of the parameter block (R188). -/
def blockLen (r : Req) : Nat := 80 + (if r.inId = 0 then r.aad + r.len else 0)

/-! ### The modes -/

/-- Chaining value of a first fragment (R213). -/
def chain0 (r : Req) (b iv : Bytes) : Bytes := if r.mode = 4 then ctrBlock 32 (iv ++ [0, 0, 0, 1]) 1 else if r.mode = 6 then zeros 16 else slice b 48 16

/-- An XTS tweak: the unit number in IEEE 1619's byte order, enciphered (R189). -/
def tweak (k2 : Bytes) (number : Nat) : Bytes := aesEnc k2 (toBE 16 (number % 2 ^ 128)).reverse

/-- The output of processing text from a chaining value. -/
def run (r : Req) (key k2 chain : Bytes) (unit width : Nat) (text : Bytes) : Bytes :=
  let f := Aes.encryptWith (Aes.roundKeys key)
  let g := Aes.decryptWith (Aes.roundKeys key)
  let enc := r.op == 1
  if r.mode = 1 then ecb 16 (if enc then f else g) text
  else if r.mode = 2 then (if enc then cbcEnc 16 f chain text else cbcDec 16 g chain text)
  else if r.mode = 3 then ctrCrypt f (8 * width) chain text
  else if r.mode = 4 then ctrCrypt f 32 chain text
  else if r.mode = 5 then ((chunks unit text).zipIdx).flatMap (fun e => xtsUnit (if enc then f else g) enc (tweak k2 (be chain + e.2)) e.1)
  else []

/-- CMAC from a running value and the bytes not yet absorbed. -/
def cmacFrom (f : Bytes → Bytes) (y m : Bytes) : Bytes :=
  let k1 := cmacDouble 16 (f (zeros 16))
  let k2 := cmacDouble 16 k1
  let bs := chunks 16 m
  let last := bs.getLastD []
  let fin := if last.length = 16 then xorBytes last k1 else xorBytes (padTo 16 (last ++ [0x80])) k2
  f (xorBytes (bs.dropLast.foldl (fun c b => f (xorBytes c b)) y) fin)

/-- The running value after all but the last block of m. -/
def cmacRun (f : Bytes → Bytes) (y m : Bytes) : Bytes := ((chunks 16 m).dropLast).foldl (fun c b => f (xorBytes c b)) y

/-- The chaining value after text (R213). -/
def nextChain (r : Req) (chain : Bytes) (unit width : Nat) (text out : Bytes) : Bytes :=
  let lastOf := fun (b : Bytes) => b.drop (b.length - 16)
  if text = [] then chain
  else if r.mode = 2 then (if r.op = 1 then lastOf out else lastOf text)
  else if r.mode = 3 then ctrBlock (8 * width) chain ((text.length + 15) / 16)
  else if r.mode = 4 then ctrBlock 32 chain ((text.length + 15) / 16)
  else if r.mode = 5 then toBE 16 ((be chain + units text.length unit) % 2 ^ 128)
  else chain

/-- The GHASH state after ciphertext, from a state or from the AAD (R213). -/
def hashOf (key aad : Bytes) (acc : Option Bytes) (ct : Bytes) : Nat :=
  let h := be (aesEnc key (zeros 16))
  let y := match acc with
    | some a => be a
    | none => ghash h 0 aad
  ghash h y ct

/-- The GCM tag from the GHASH state and the lengths. -/
def tagOf (key iv : Bytes) (aadLen textLen y : Nat) : Bytes :=
  let h := be (aesEnc key (zeros 16))
  xorBytes (aesEnc key (iv ++ [0, 0, 0, 1])) (toBE 16 (ghash h y (toBE 8 (8 * aadLen) ++ toBE 8 (8 * textLen))))

/-- A context record (R213). -/
def record (r : Req) (hand : Nat) (b : Bytes) (prov : Bool) (length width offset aadLen : Nat) (session : BitVec 32) (request : BitVec 64)
    (chain acc iv : Bytes) (unit : Nat) : Bytes :=
  [1, BitVec.ofNat 8 r.mode, BitVec.ofNat 8 r.op, if prov then 1 else 0] ++ toBE 1 hand ++ toBE 1 length ++ toBE 1 width ++ [0] ++
  slice b 0 16 ++ toBE 8 offset ++ toBE 8 aadLen ++ toBE 4 session.toNat ++ zeros 4 ++ toBE 8 request.toNat ++ padTo 16 chain ++ padTo 16 acc ++
  padTo 12 iv ++ toBE 4 unit ++ zeros 24

/-- The common response (R190). -/
def response (processed : Nat) (ticket tag iv output : Bytes) : Bytes :=
  toBE 8 processed ++ padTo 8 ticket ++ padTo 16 tag ++ padTo 12 iv ++ zeros 4 ++ output

end Lane

end Sys2Proof.Machine
end

