-- ==== Sys2Proof/Machine/Lanes.lean ====
section
/-! DEFINITION. Cipher lanes (07): checks, residency, release and retraction, saved contexts, the mask generator. -/

namespace Sys2Proof.Machine

/-- The window of a lane. -/
def laneWin (lane : Nat) : Nat := if lane = 0 then swinLANEA else swinLANEB

namespace Part

/-- Hold-buffer bytes reserved on a Seat: by residents, by streamed output not yet acknowledged, and by inline output whose response is not yet
sent, which nothing acknowledges (R198). -/
def holdUsed (p : Part) (seat : Nat) : Nat :=
  let res := (([0, 1].flatMap (fun k => (p.lane seat k).slots)).map (fun e => e.2.holdBytes)).foldl (· + ·) 0
  res + ((p.xct.streams.filter (fun x => x.holdSeat = seat)).map (·.hold)).foldl (· + ·) 0 +
    ((p.xct.cmds.filter (fun c => c.seat = seat)).map (·.hold)).foldl (· + ·) 0

/-- A lane command the Seat queue may feed now: a held one only with room in the hold buffer (R198), none that waits for a grant, one that a saved
context comes to or goes from only while the link is up (01 R7). -/
def laneFit (p : Part) (seat : Nat) (c : Cmd) : Bool :=
  let r := Lane.req c.code c.params
  ((r.mode != 0 && !r.resume) || p.linkUp seat) && !(r.mode != 0 && r.held && decide (8388608 < p.holdUsed seat + r.len)) && p.vault.leaseWaits.all (fun w => !(w.2 == c.uid))

/-- The record a resumed command's ticket names, empty when it names none. -/
def ticketRec (p : Part) (hand : Nat) (r : Lane.Req) : Bytes :=
  if r.resume && (p.ticketFault hand r.ticket).isNone then (p.ctx (ctxKey r.ticket.hand r.ticket.index)).data else []

/-- The invocation value of a GCM encryption (R195). -/
inductive Drawn where
  | value (p : Part) (n : Nat)
  | refuse (status : BitVec 16) (payload : Bytes)
  | wait (p : Part)

/-- Draws a counter value for a first GCM encryption fragment, as CTR_NEXT issues it (R195). -/
def drawIv (p : Part) (c : Cmd) (i : Nat) : Drawn :=
  if p.ctrInHand c.epoch c.hand i = false then .refuse Status.accessFault []
  else if (p.ctrSeen c.epoch i).st = .uninit then .refuse Status.counterLeaseEmpty (reason 2)
  else if 1 ≤ p.heldValues i ∧ p.hasWaiter i = false then
    let (p, l) := p.issueValues i 1
    .value p (l.headD 0)
  else if (p.ctr i).st = .exhausted then .refuse Status.counterLeaseEmpty (reason 1)
  else if (p.solo = true ∧ p.part.lead = false) ∨ p.soloLimit i = true then .refuse Status.partnerUnreachable (reason 1)
  else .wait (p.setVault { p.vault with leaseWaits := p.vault.leaseWaits ++ [(i, c.uid)] })

/-- Steps 1 to 4 of R193, the counter apart: the keys, or the refusal. -/
def laneCheck (p : Part) (seat : Nat) (c : Cmd) : Except (BitVec 16 × Bytes) (List Slot) :=
  let b := c.params
  let r := Lane.req c.code b
  let lost := fun (id : Nat) => id != 0 && match c.session? with
    | some x => !((p.findStream x (BitVec.ofNat 32 id)).any (fun y => y.uid == c.uid))
    | none => false
  if b.length < 80 ∨ b.length ≠ Lane.blockLen r then .error (Status.lengthMismatch, [])
  else match firstBad (Lane.fields r c.isCall b (p.ticketRec c.hand r)) with
    | some o => .error (CtxStatus.laneParamInvalid, toBE 2 o)
    | none =>
      if lost r.inId then .error (CtxStatus.laneParamInvalid, toBE 2 20)
      else if lost r.outId then .error (CtxStatus.laneParamInvalid, toBE 2 24)
      else
        let usage := if r.mode = 6 then (if r.op = 1 then uMacGen else uMacVer) else uData
        let types := if r.mode = 5 then [1, 3] else aesTypes
        match p.checkKeys seat c ([(0, types, usage)] ++ (if r.mode = 5 then [(8, types, usage)] else [])) with
        | .error st => .error (st, [])
        | .ok keys =>
          let denied := (r.mode == 5 && (slice b 0 8 == slice b 8 8 || (keys.map (·.ktype)).dedup.length != 1)) ||
            (r.mode == 4 && r.op == 2 && !r.held && !((keys.head?.bind (fun k => policyOf (p.dealOf c.epoch) c.hand k.ktype)).any (·.provisional)))
          if denied then .error (Status.keyUsageDenied, []) else .ok keys

/-- A record that a command resumes must be its own mode, operation and keys (R212). -/
def recordFits (r : Lane.Req) (b rec : Bytes) : Bool :=
  field rec 0 1 == 1 && field rec 1 1 == r.mode && field rec 2 1 == r.op && slice rec 8 16 == slice b 0 16

/-- The lowest free resident slot of a lane. -/
def freeSlot (l : Lane) : Option Nat := (List.range 12).find? (fun i => l.slots.all (fun e => !(e.1 == i)))

/-- What a resident's release so far would retract (R199, R200). -/
def retractFrom (seat lane : Nat) (r : Lane.Req) (j : LaneJob) (released : Nat) : Retract :=
  { seat := seat, lane := lane, session := j.firstSession, stream := BitVec.ofNat 32 r.outId, request := j.firstRequest
    first := if j.provisional then 0 else j.msgStart, last := j.msgStart + released }

/-- A checked command becomes resident (R202): its keys charged, its counter value drawn, its ticket consumed. -/
def makeResident (p : Part) (seat lane slot : Nat) (c : Cmd) (keys : List Slot) : Part :=
  let b := c.params
  let r := Lane.req c.code b
  let win := laneWin lane
  let needIv := r.mode == 4 && r.op == 1 && !r.resume
  let no := fun (p : Part) (st : BitVec 16) (pl : Bytes) => p.refuse seat c.uid st pl
  match p.chargeAll seat c (usesOf keys [0, 8] b [0, 0]) with
  | .exhausted => no p Status.keyExhausted []
  | .wait p => p
  | .ok charged =>
    match (if needIv then p.drawIv c (field b 48 4) else .value p 0) with
    | .refuse st pl => no p st pl
    | .wait p => p
    | .value drawn n =>
      match (if r.resume then drawn.ticketFault c.hand r.ticket else none) with
      | some st => no (drawn.consume r.ticket) st []
      | none =>
        let rec_ := drawn.ticketRec c.hand r
        let p := if r.resume then drawn.freeCtx r.ticket else drawn
        if r.resume = true ∧ recordFits r b rec_ = false then no p Status.contextInvalid []
        else
          let p := match p.chargeAll seat c (usesOf keys [0, 8] b [0, 0]) with
            | .ok p => p
            | _ => charged
          let prov := r.mode == 4 && r.op == 2 && !r.held
          let iv := if r.resume then slice rec_ 88 12 else if needIv then toBE 4 (field b 52 2 * 2 ^ 20 + field b 48 4) ++ toBE 8 n
            else if r.mode = 4 then slice b 64 12 else []
          let unit := (Lane.peek r b rec_).unit
          let j : LaneJob :=
            { uid := c.uid, mode := r.mode, chained := r.mode == 6 || (r.mode == 2 && r.op == 1), start := p.now, count := Lane.cycles r unit
              resumed := if r.resume then some rec_ else none, msgStart := if r.resume then field rec_ 24 8 else 0
              firstSession := if r.resume then BitVec.ofNat 32 (field rec_ 40 4) else (c.session?).getD 0
              firstRequest := if r.resume then BitVec.ofNat 64 (field rec_ 48 8) else c.request
              provisional := prov, holdBytes := if r.held then r.len else 0, iv := iv }
          let p := (p.takeEngine c seat .lane lane j.count).bump (regAddr seat win 0x0100)
          let p := p.updLane seat lane (fun l => { l with slots := Sparse.put l.slots slot j })
          if r.resume ∧ prov then p.updCmd c.uid (fun c => { c with retract := some (retractFrom seat lane r j 0) }) else p

/-! ### Context commands (R214 to R216) -/

def ctxRefuse (p : Part) (seat uid : Nat) (st : BitVec 16) : Part := p.refuse seat uid st

/-- LANE_CTX_EXPORT. -/
def laneExport (p : Part) (seat : Nat) (c : Cmd) : Part :=
  let t := ticketOf (c.params.take 8)
  let rec_ := (p.ctx (ctxKey t.hand t.index)).data
  let mode := field rec_ 1 1
  let noKey := allZero (slice c.params 8 8)
  let ok := fun (p : Part) (pl : Bytes) => (p.markStart c.uid).seatAnswer seat c.uid Status.done pl
  if c.params.length ≠ 16 then p.ctxRefuse seat c.uid Status.lengthMismatch
  else
    let key := if noKey then Except.error 0 else p.contextKey seat c (slice c.params 8 8)
    match noKey, key with
    | false, .error st => p.ctxRefuse seat c.uid st
    | _, _ =>
      match p.ticketFault c.hand t with
      | some st => (p.consume t).ctxRefuse seat c.uid st
      | none =>
        if field rec_ 0 1 ≠ 1 then (p.freeCtx t).ctxRefuse seat c.uid Status.contextInvalid
        else if mode = 4 ∧ field rec_ 2 1 = 1 then p.ctxRefuse seat c.uid CtxStatus.notExportable
        else if noKey ≠ (mode == 2 || mode == 3) then p.ctxRefuse seat c.uid Status.keyUsageDenied
        else match key with
          | .ok k => (match p.chargeAll seat c (usesOf [k] [8] c.params [0]) with
            | .ok p => ok (p.freeCtx t) (ctxResponse 2 (wrapCtx k.material rec_))
            | .exhausted => p.ctxRefuse seat c.uid Status.keyExhausted
            | .wait p => p)
          | .error _ => ok (p.freeCtx t) (ctxResponse 1 rec_)

/-- The fields of a record a LANE_CTX_IMPORT stores (R213, R215). -/
def laneRecordOk (d : Bytes) : Bool :=
  let m := field d 1 1
  d.length == 128 && field d 0 1 == 1 && 2 ≤ m && m ≤ 6 && (field d 2 1 == 1 || field d 2 1 == 2) && field d 3 1 < 2 && byteAt d 7 == 0 &&
    allZero (slice d 44 4) && allZero (slice d 104 24) && !(m == 4 && field d 2 1 == 1)

/-- LANE_CTX_IMPORT. -/
def laneImport (p : Part) (seat : Nat) (c : Cmd) : Part :=
  let b := c.params
  let form := field b 8 1
  let len := field b 12 4
  let noKey := allZero (slice b 0 8)
  if b.length < 16 ∨ b.length ≠ 16 + len then p.ctxRefuse seat c.uid Status.lengthMismatch
  else if (form ≠ 1 ∧ form ≠ 2) then p.refuse seat c.uid CtxStatus.laneParamInvalid (toBE 2 8)
  else if allZero (slice b 9 3) = false then p.refuse seat c.uid CtxStatus.laneParamInvalid (toBE 2 9)
  else if len ≠ (if form = 1 then 128 else 168) then p.refuse seat c.uid CtxStatus.laneParamInvalid (toBE 2 12)
  else
    let store := fun (p : Part) (d : Option Bytes) => match d with
      | none => p.ctxRefuse seat c.uid Status.contextInvalid
      | some d =>
        let clear := field d 1 1 == 2 || field d 1 1 == 3
        if laneRecordOk d = false ∨ clear ≠ (form == 1) then p.ctxRefuse seat c.uid Status.contextInvalid
        else if field d 4 1 ≠ c.hand then p.ctxRefuse seat c.uid Status.accessFault
        else match p.saveCtx c.hand d with
          | (p, some t) => (p.markStart c.uid).seatAnswer seat c.uid Status.done t.bytes
          | (p, none) => p.ctxRefuse seat c.uid CtxStatus.storeFull
    if form = 1 then (if noKey then store p (some (b.drop 16)) else p.ctxRefuse seat c.uid Status.keyUsageDenied)
    else match p.contextKey seat c (slice b 0 8) with
      | .error st => p.ctxRefuse seat c.uid st
      | .ok k => match p.chargeAll seat c (usesOf [k] [0] b [0]) with
        | .ok p => store p (unwrapCtx k.material (b.drop 16))
        | .exhausted => p.ctxRefuse seat c.uid Status.keyExhausted
        | .wait p => p

/-- LANE_CTX_DISCARD. -/
def laneDiscard (p : Part) (seat : Nat) (c : Cmd) : Part :=
  let t := ticketOf c.params
  if c.params.length ≠ 8 then p.ctxRefuse seat c.uid Status.lengthMismatch
  else match p.ticketFault c.hand t with
    | some st => (p.consume t).ctxRefuse seat c.uid st
    | none =>
      let own := field (p.ctx (ctxKey t.hand t.index)).data 0 1 == 1
      ((p.freeCtx t).markStart c.uid).seatAnswer seat c.uid (if own then Status.done else Status.contextInvalid)

/-! ### A lane's work -/

/-- The Seat queue feeds a resident slot (R202), once the key's words are read. A context command takes a slot too; it holds no blocks. -/
def feedLane (p : Part) (seat lane : Nat) (ecc : Decoded) : Part :=
  let l := p.lane seat lane
  if p.tileUp (siteTile seat .lane lane) = false ∨ p.seatIn seat .inService = false then p
  else match freeSlot l, p.nextFor seat .lane (p.laneFit seat) with
    | some slot, some c =>
      let p := p.passTurn seat c.hand .lane
      if Lane.modeOf c.code = 0 then
        let j : LaneJob := { uid := c.uid, mode := 0, chained := false, start := p.now }
        ((p.takeEngine c seat .lane lane 0).bump (regAddr seat (laneWin lane) 0x0100)).updLane seat lane (fun l => { l with slots := Sparse.put l.slots slot j })
      else match p.laneCheck seat c with
        | .error (st, pl) => p.refuse seat c.uid st pl
        | .ok keys => match p.keyRead seat c ecc with
          | (p, true) => p.makeResident seat lane slot c keys
          | (p, false) => p
    | _, _ => p

/-- Input bytes of a command that have arrived, and whether every declared byte has (R192). -/
def laneInput (p : Part) (c : Cmd) (r : Lane.Req) : Bytes × Bool :=
  let all := if r.inId = 0 then c.params.drop 80
    else match (c.session?).bind (fun x => p.findStream x (BitVec.ofNat 32 r.inId)) with
      | some y => y.data
      | none => []
  (all, r.aad + r.len ≤ all.length)

/-- A fragment's end: its record, saved at completion (R211, R213). -/
def laneRecord (c : Cmd) (r : Lane.Req) (j : LaneJob) (key : Bytes) (k : Lane.Peek) (chain aad text out : Bytes) : Bytes :=
  let rec_ := j.resumed.getD []
  let width := if r.resume then field rec_ 6 1 else if r.mode = 3 then field c.params 64 1 else 0
  let length := if r.resume then field rec_ 5 1 else if r.mode = 4 then field c.params 54 1 else if r.mode = 6 then field c.params 48 1 else 0
  let aadLen := if r.resume then field rec_ 32 8 else r.aad
  let f := aesEnc key
  let prev := if r.resume ∧ 0 < j.msgStart then slice rec_ 72 16 else []
  let m := prev ++ text
  let (chain, acc) := if r.mode = 6 then (Lane.cmacRun f chain m, (chunks 16 m).getLastD [])
    else if r.mode = 4 then
      (Lane.nextChain r chain k.unit width text out,
        toBE 16 (Lane.hashOf key aad (if r.resume then some (slice rec_ 72 16) else none) (if r.op = 1 then out else text)))
    else (Lane.nextChain r chain k.unit width text out, [])
  let unit := if r.mode = 5 then k.unit else 0
  Lane.record r c.hand c.params (j.provisional || field rec_ 3 1 == 1) length width (j.msgStart + r.len) aadLen j.firstSession j.firstRequest
    chain acc j.iv unit

/-- The outcome of a command whose input has all arrived (R190, R193 step 6). `given` stands for the received tag of a GCM decryption, which
no field of R188 or R189 carries (log 13). -/
def laneOutcome (c : Cmd) (r : Lane.Req) (j : LaneJob) (key : Bytes) (k : Lane.Peek) (chain aad text out given : Bytes) : Outcome :=
  let rec_ := j.resumed.getD []
  let body := if r.outId = 0 ∧ r.mode ≠ 6 then out else []
  let ivOut := if r.mode = 4 ∧ r.op = 1 ∧ r.resume = false then j.iv else []
  if r.save then
    { status := if r.mode = 4 ∧ r.op = 2 then Status.doneProvisional else Status.done
      payload := Lane.response r.len [] [] ivOut body, effect := .saveCtx (laneRecord c r j key k chain aad text out) }
  else if r.mode = 4 then
    let n := if r.resume then field rec_ 5 1 else field c.params 54 1
    let aadLen := if r.resume then field rec_ 32 8 else r.aad
    let y := Lane.hashOf key aad (if r.resume then some (slice rec_ 72 16) else none) (if r.op = 1 then out else text)
    let tag := (Lane.tagOf key j.iv aadLen (j.msgStart + r.len) y).take n
    if r.op = 1 then doneWith (Lane.response r.len [] tag ivOut body)
    else if tag = given.take n then doneWith (Lane.response r.len [] [] [] body) else endsAs Status.tagFail
  else if r.mode = 6 then
    let n := if r.resume then field rec_ 5 1 else field c.params 48 1
    let prev := if r.resume ∧ 0 < j.msgStart then slice rec_ 72 16 else []
    let mac := (Lane.cmacFrom (aesEnc key) chain (prev ++ text)).take n
    if r.op = 1 then doneWith (Lane.response r.len [] mac [] [])
    else if mac = slice c.params 64 n then doneWith (Lane.response r.len [] [] [] []) else endsAs TuStatus.macMismatch
  else doneWith (Lane.response r.len [] [] [] body)

/-- The time up to which a lane's clock has run: an Idle or Gated tile's stands still (01 R13). -/
def laneClock (p : Part) (seat lane : Nat) : Nat :=
  let t := p.tile (siteTile seat .lane lane)
  match t.st with
  | .running => p.now
  | .scrubbing => p.now
  | .idle => t.since
  | .poweringDown => t.since
  | .gated => 0

/-- The mask generator holds an unexpired seed (R205, R206). -/
def maskFresh (p : Part) (seat lane : Nat) : Bool := (p.lane seat lane).seeded && decide (p.laneClock seat lane < (p.lane seat lane).seedDue)

/-- Cycles the lane has stalled so far for a seed that is due (R206). -/
def stalled (p : Part) (seat lane : Nat) : Nat := p.laneClock seat lane - (p.lane seat lane).seedDue

/-- A resident command works on the input that has arrived and releases what it may (R197, R202, R207). -/
def runLane (p : Part) (seat lane slot mode : Nat) : Part :=
  match Sparse.get? (p.lane seat lane).slots slot with
  | none => p
  | some j => match p.findCmd j.uid with
    | none => p
    | some c =>
      if j.mode ≠ mode ∨ mode = 0 ∨ j.out.isSome = true ∨ p.maskFresh seat lane = false then p
      else
        let b := c.params
        let r := Lane.req c.code b
        let rec_ := j.resumed.getD []
        let key := match p.keyOf seat c (slice b 0 8) with
          | .ok s => s.material
          | .error _ => []
        let k2 := match p.keyOf seat c (slice b 8 8) with
          | .ok s => s.material
          | .error _ => []
        let (all, whole) := p.laneInput c r
        let k := Lane.peek r b rec_
        let chain := if r.resume then slice rec_ 56 16 else Lane.chain0 r b j.iv
        let width := if r.resume then field rec_ 6 1 else field b 64 1
        let aad := all.take r.aad
        let arrived := (all.drop r.aad).take r.len
        let grain := if r.mode = 5 then max 1 k.unit else 16
        let text := if whole then arrived else arrived.take (arrived.length / grain * grain)
        if mode = 5 ∧ key = k2 then
          p.updLane seat lane (fun l => { l with slots := Sparse.put l.slots slot { j with out := some (endsAs Status.keyUsageDenied) } })
        else
          let out := Lane.run r key k2 chain k.unit width text
          let out_ := if whole then some (laneOutcome c r j key k chain aad text out (p.drawn 16)) else none
          let streamed := r.outId != 0 && mode != 6 && j.holdBytes == 0
          let issued := (text.length + 15) / 16 + (if mode = 5 then Lane.units text.length k.unit else 0)
          let j' := { j with output := out, released := if streamed then out.length else j.released, out := out_, issued := max j.issued issued }
          let p := (p.updLane seat lane (fun l => { l with slots := Sparse.put l.slots slot j' })).draw (if whole then 16 else 0)
          let p := p.bump (regAddr seat (laneWin lane) 0x0108) (issued - j.issued)
          if streamed then
            let p := match c.session? with
              | some x => p.produce x (BitVec.ofNat 32 r.outId) (out.drop j.released) whole
              | none => p
            p.updCmd c.uid (fun c => { c with retract := some (retractFrom seat lane r j' out.length) })
          else p

/-- A resident leaves its slot. -/
def leaveLane (p : Part) (seat lane slot : Nat) : Part := p.updLane seat lane (fun l => { l with slots := Sparse.erase l.slots slot })

/-- A lane command ends (R193, R197, R198, R203): its time passes, its context is saved, held plaintext is released. -/
def endLane (p : Part) (seat lane slot : Nat) : Part :=
  match Sparse.get? (p.lane seat lane).slots slot with
  | none => p
  | some j => match j.out, p.findCmd j.uid with
    | some o, some c =>
      let r := Lane.req c.code c.params
      let win := laneWin lane
      let p := (p.atTime (j.start + j.count)).leaveLane seat lane slot
      let p := p.updTile (siteTile seat .lane lane) (fun t => { t with since := p.now })
      let p := if o.status = Status.tagFail ∨ o.status = TuStatus.macMismatch then p.bump (regAddr seat win 0x0118) else p
      let p := match o.effect with
        | .saveCtx d => match p.saveCtx c.hand d with
          | (p, some t) => (p.bump (regAddr seat win 0x0138)).seatAnswer seat c.uid o.status (o.payload.take 8 ++ t.bytes ++ o.payload.drop 16)
          | (p, none) => p.seatAnswer seat c.uid CtxStatus.storeFull
        | _ =>
          let kept := o.status = Status.done ∧ 0 < j.holdBytes
          let held := kept ∧ r.outId ≠ 0
          let p := if kept ∧ r.outId = 0 then p.updCmd c.uid (fun c => { c with hold := j.holdBytes, seat := seat }) else p
          let p := match c.session? with
            | some x =>
              if held then
                (p.updStream x (BitVec.ofNat 32 r.outId) (fun y => { y with hold := j.holdBytes, holdSeat := seat })).produce x (BitVec.ofNat 32 r.outId) j.output true
              else p
            | none => p
          p.seatAnswer seat c.uid o.status o.payload
      p.sweepDraining seat
    | _, _ => p

/-- The end of a lane command reads the lane's and the hold buffer's memory (R209, 01 R19). One whose context is saved waits for the link (01 R7). -/
def endLaneRead (p : Part) (seat lane slot : Nat) (ecc : Decoded) : Part :=
  match Sparse.get? (p.lane seat lane).slots slot with
  | none => p
  | some j => match j.out with
    | none => p
    | some o =>
      let saves := match o.effect with
        | .saveCtx _ => true
        | _ => false
      if saves && !(p.linkUp seat) then p else p.operandRead seat lane j.uid ecc (fun p => p.endLane seat lane slot)

/-- A context command on a resident slot: its record crosses the Seat's link (01 R7). It keeps the slot while it waits for an allowance of its key. -/
def runCtx (p : Part) (seat lane slot code : Nat) (f : Part → Cmd → Part) : Part :=
  match Sparse.get? (p.lane seat lane).slots slot with
  | none => p
  | some j => match p.findCmd j.uid with
    | none => p
    | some c =>
      if c.code ≠ code ∨ p.linkUp seat = false then p
      else
        let q := f p c
        if (q.findCmd c.uid).any (fun x => x.place == .engine seat .lane lane) then q
        else (q.leaveLane seat lane slot).updTile (siteTile seat .lane lane) (fun t => { t with since := q.now })

/-- A compare of the duplicated pipelines fails (R208). -/
def compareFail (p : Part) (seat lane : Nat) : Part :=
  let l := (p.lane seat lane).slots
  if l = [] then p
  else
    let p := l.foldl (fun p e => p.stopWork e.2.uid (some Status.faultDetected)) (p.bump (regAddr seat (laneWin lane) 0x0110))
    (p.startScrub (siteTile seat .lane lane)).latWitness seat 13 lane (512 + lane)

/-! ### The mask generator (R205, R206) -/

def requestReseed (p : Part) (seat lane : Nat) : Part :=
  let l := p.lane seat lane
  if p.tileUp (siteTile seat .lane lane) = false then p
  else (p.atTime (l.seedDue - 8192)).setLane seat lane { l with requested := true }

/-- The seed falls due: a new one if it has come, else the lane stalls until it comes. -/
def maskReseed (p : Part) (seat lane : Nat) : Part :=
  let l := p.lane seat lane
  if p.tileUp (siteTile seat .lane lane) = false then p
  else
    let p := p.atTime l.seedDue
    if l.requested = true ∧ p.drbgServes seat = true then
      let late := p.stalled seat lane
      let p := ((p.drbgTakes seat 64).bump (regAddr seat (laneWin lane) 0x0128)).bump (regAddr seat (laneWin lane) 0x0130) late
      p.setLane seat lane { l with seeded := true, requested := false, seedDue := p.now + 65536, starved := l.starved || 0 < late }
    else p.setLane seat lane { l with seeded := false, starved := true }

end Part

/-! ### Rows -/

def onLane (seat lane : Nat) (s : State) (f : Part → Part) : Result := onUnit (s.hasSeat seat && lane < 2) s f

def onSlot (seat lane slot : Nat) (s : State) (f : Part → Part) : Result := onUnit (s.hasSeat seat && lane < 2 && slot < 12) s f

/-- LANE_ECB (R186 to R203). -/
def execLaneEcb (seat lane slot : Nat) (s : State) : Result := onSlot seat lane slot s (fun p => p.runLane seat lane slot 1)

/-- LANE_CBC (R186 to R203, R211). -/
def execLaneCbc (seat lane slot : Nat) (s : State) : Result := onSlot seat lane slot s (fun p => p.runLane seat lane slot 2)

/-- LANE_CTR (R186 to R203, R211). -/
def execLaneCtr (seat lane slot : Nat) (s : State) : Result := onSlot seat lane slot s (fun p => p.runLane seat lane slot 3)

/-- LANE_GCM (R186 to R203, R211). -/
def execLaneGcm (seat lane slot : Nat) (s : State) : Result := onSlot seat lane slot s (fun p => p.runLane seat lane slot 4)

/-- LANE_XTS (R186 to R203, R211). -/
def execLaneXts (seat lane slot : Nat) (s : State) : Result := onSlot seat lane slot s (fun p => p.runLane seat lane slot 5)

/-- LANE_CMAC (R186 to R203, R211). -/
def execLaneCmac (seat lane slot : Nat) (s : State) : Result := onSlot seat lane slot s (fun p => p.runLane seat lane slot 6)

/-- LANE_CTX_EXPORT (R214). -/
def execLaneCtxExport (seat lane slot : Nat) (s : State) : Result :=
  onSlot seat lane slot s (fun p => p.runCtx seat lane slot 0x4101 (fun p c => p.laneExport seat c))

/-- LANE_CTX_IMPORT (R215). -/
def execLaneCtxImport (seat lane slot : Nat) (s : State) : Result :=
  onSlot seat lane slot s (fun p => p.runCtx seat lane slot 0x4102 (fun p c => p.laneImport seat c))

/-- LANE_CTX_DISCARD (R216). -/
def execLaneCtxDiscard (seat lane slot : Nat) (s : State) : Result :=
  onSlot seat lane slot s (fun p => p.runCtx seat lane slot 0x4103 (fun p c => p.laneDiscard seat c))

/-- LANE_COMMAND_RESIDENT (R193, R202). -/
def execLaneCommandResident (seat lane : Nat) (ecc : Decoded) (s : State) : Result := onLane seat lane s (fun p => p.feedLane seat lane ecc)

/-- LANE_COMMAND_COMPLETE (R190, R193, R197, R203, R210). -/
def execLaneCommandComplete (seat lane slot : Nat) (ecc : Decoded) (s : State) : Result :=
  onSlot seat lane slot s (fun p => p.endLaneRead seat lane slot ecc)

/-- LANE_COMPARE_FAIL (R208). -/
def execLaneCompareFail (seat lane : Nat) (s : State) : Result := onLane seat lane s (fun p => p.compareFail seat lane)

/-- LANE_RESEED_REQUEST (R206). -/
def execLaneReseedRequest (seat lane : Nat) (s : State) : Result := onLane seat lane s (fun p => p.requestReseed seat lane)

/-- LANE_MASK_RESEED (R205, R206). -/
def execLaneMaskReseed (seat lane : Nat) (s : State) : Result := onLane seat lane s (fun p => p.maskReseed seat lane)

end Sys2Proof.Machine
end

