-- ==== Sys2Proof/Machine/PkeOps.lean ====
section
/-! DEFINITION. What the public-key operations compute (08 R226 to R234, R237, R242, R243): signatures, agreements, RSA encodings, key
generation, with the edge statuses in the order of R237. -/

namespace Sys2Proof.Machine

namespace PkStatus
def signatureInvalid : BitVec 16 := 0x0405
def unwrapFailed : BitVec 16 := 0x0406
def paramInvalid : BitVec 16 := 0x0410
end PkStatus

/-- Curve of a key type or, with 0x0F added, of a curve code (R226, 'Curve codes'). -/
def curveOf (t : Nat) : Curve := if t % 8 = 0 then p256 else if t % 8 = 1 then p384 else p521

namespace Pk

/-- An outcome of an operation: a result, a key to write with what follows its handle, or an edge with its zero result (R237). -/
inductive Result where
  | data (b : Bytes)
  | key (m : Bytes) (pub : Bytes)
  | edge (status : BitVec 16) (width : Nat)
deriving DecidableEq, Repr

/-! ### Elliptic curves -/

/-- A nonce or a scalar: bitlen(n) + 64 random bits mod (n − 1), plus 1 (R238). -/
def scalar (c : Curve) (rand : Bytes) : Nat :=
  let bits := c.n.log2 + 1 + 64
  be (rand.take ((bits + 7) / 8)) % 2 ^ bits % (c.n - 1) + 1

/-- The random bytes an operation draws before its blinding values: nonce, scalar, seeds or salt. -/
def drawBytes : Nat := 160

/-- A scalar d replaced by d + r · n, with r of 64 random bits (R238). -/
def blinded (c : Curve) (d : Nat) (rand : Bytes) : Nat := d + be (slice rand drawBytes 8) * c.n

/-- PKE_ECDSA_SIGN (R226). -/
def ecdsaSign (t : Nat) (key b rand : Bytes) : Result :=
  let c := curveOf t
  match c.sign (blinded c (be (key.take c.len)) rand) (scalar c rand) (slice b 16 (field b 8 1)) with
  | some (r, s) => .data (toBE c.len r ++ toBE c.len s)
  | none => .edge Status.pkeZeroInput (2 * c.len)

/-- PKE_ECDSA_VERIFY (R227, R237): `stored` the public key of a handle. -/
def ecdsaVerify (c : Curve) (stored : Option Bytes) (b : Bytes) : Result :=
  let r := field b 80 66
  let s := field b 146 66
  let (x, y) := match stored with
    | some k => (be (k.take c.len), be (k.drop c.len))
    | none => (field b 212 66, field b 278 66)
  if r = 0 ∨ s = 0 then .edge Status.pkeZeroInput 0
  else if c.n ≤ r ∨ c.n ≤ s then .edge Status.pkeRange 0
  else if stored.isNone = true ∧ (c.p ≤ x ∨ c.p ≤ y) then .edge Status.pkeRange 0
  else if stored.isNone = true ∧ c.onCurve x y = false then .edge Status.pkeNotOnCurve 0
  else
    let w := invMod s c.n
    match c.add (c.mul (c.truncate (slice b 16 (field b 9 1)) * w % c.n) c.g) (c.mul (r * w % c.n) (some (x, y))) with
    | none => .edge Status.pkeResultInfinity 0
    | some (u, _) => if u % c.n = r then .data [] else .edge PkStatus.signatureInvalid 0

/-- PKE_ED25519_VERIFY (R228, R237). -/
def edVerify (pub b : Bytes) : Result :=
  let sig := slice b 48 64
  let r := sig.take 32
  let y := fun (x : Bytes) => C25519.le x % 2 ^ 255
  if C25519.order ≤ C25519.le (sig.drop 32) then .edge Status.pkeRange 0
  else if C25519.p ≤ y r ∨ C25519.p ≤ y pub then .edge Status.pkeRange 0
  else if (C25519.decode r).isNone = true ∨ (C25519.decode pub).isNone = true then .edge Status.pkeNotOnCurve 0
  else if C25519.edVerify pub (b.drop 112) sig then .data [] else .edge PkStatus.signatureInvalid 0

/-! ### Agreement (R229) -/

/-- The classical shared secret, or the edge status. -/
def classical (t : Nat) (key b rand : Bytes) : Except (BitVec 16) Bytes :=
  if t = 0x14 then
    let z := C25519.x25519 (key.take 32) (slice b 66 32)
    if allZero z then .error Status.pkeResultInfinity else .ok z
  else
    let c := curveOf t
    let x := field b 32 66
    let y := field b 98 66
    if c.p ≤ x ∨ c.p ≤ y then .error Status.pkeRange
    else if c.onCurve x y = false then .error Status.pkeNotOnCurve
    else match c.mul (blinded c (be (key.take c.len)) rand) (some (x, y)) with
      | none => .error Status.pkeResultInfinity
      | some (u, _) => .ok (toBE c.len u)

/-- The modulus check of an ML-KEM encapsulation key (FIPS 203): every 12-bit coefficient is below 3,329. -/
def kemKeyOk (ek : Bytes) : Bool :=
  (chunks 3 (ek.take 1536)).all (fun t =>
    let v := be t.reverse
    v % 4096 < 3329 && v / 4096 < 3329)

/-- The KEM shared secret with the ciphertext to return, or the edge status. -/
def kem (mode : Nat) (dk b rand : Bytes) : Except (BitVec 16) (Bytes × Bytes) :=
  let input := slice b 164 1568
  if mode = 0 then .ok ([], [])
  else if mode = 2 then .ok (Kem.decaps dk input, [])
  else if kemKeyOk input then (let (ct, ss) := Kem.encaps input (rand.take 32); .ok (ss, ct)) else .error Status.pkeRange

/-- PKE_AGREE: `ck` the classical key and its type, if there is a classical part; `dk` the decapsulation key. -/
def agree (ck : Option (Nat × Bytes)) (dk b rand : Bytes) : Result :=
  let mode := field b 26 1
  let width := 16 + (if mode = 1 then 1568 else 0)
  let z := match ck with
    | some (t, k) => classical t k b rand
    | none => .ok []
  match z, kem mode dk b rand with
  | .error st, _ => .edge st width
  | .ok _, .error st => .edge st width
  | .ok z, .ok (ss, ct) =>
    let prk := hkdfExtract384 (slice b 1732 (field b 27 1)) (z ++ ss)
    .key (hkdfExpand384 prk (b.drop 1796) (contentLen (field b 20 1) (field b 21 1))) ct

/-! ### RSA -/

/-- Hash, its length and its DigestInfo prefix, by the code of R230. -/
def hashOf (h : Nat) : Bytes → Bytes := if h = 1 then sha256 else if h = 2 then sha384 else sha512
def hashLen (h : Nat) : Nat := if h = 1 then 32 else if h = 2 then 48 else 64

def digestInfo (h : Nat) : Bytes :=
  [0x30, BitVec.ofNat 8 (17 + hashLen h), 0x30, 0x0d, 0x06, 0x09, 0x60, 0x86, 0x48, 0x01, 0x65, 0x03, 0x04, 0x02, BitVec.ofNat 8 h, 0x05, 0x00,
   0x04, BitVec.ofNat 8 (hashLen h)]

/-- EMSA-PKCS1-v1_5 in k bytes. -/
def pkcs1 (h k : Nat) (digest : Bytes) : Bytes :=
  let t := digestInfo h ++ digest
  [0x00, 0x01] ++ List.replicate (k - t.length - 3) 0xFF ++ [0x00] ++ t

/-- EMSA-PSS in k bytes, for a modulus of 8k bits. -/
def pss (h k : Nat) (digest salt : Bytes) : Bytes :=
  let hl := hashLen h
  let hash := hashOf h (zeros 8 ++ digest ++ salt)
  let db := zeros (k - salt.length - hl - 2) ++ [0x01] ++ salt
  let masked := xorBytes db (mgf1 (hashOf h) hl hash (k - hl - 1))
  (match masked with
    | [] => []
    | x :: r => (x &&& 0x7F) :: r) ++ hash ++ [0xBC]

/-- n and e of a stored public key (05 R123). -/
def pubKey (key : Bytes) (k : Nat) : Nat × Nat := (field key 0 k, field key k 8)

/-- The parts of a stored private key of a k-byte modulus (05 R123). -/
structure Priv where
  n : Nat
  e : Nat
  p : Nat
  q : Nat
  dp : Nat
  dq : Nat
  qinv : Nat

def privKey (key : Bytes) (k : Nat) : Priv :=
  let h := k / 2
  let half := fun (i : Nat) => field key (2 * k + 8 + i * h) h
  { n := field key 0 k, e := field key k 8, p := half 0, q := half 1, dp := half 2, dq := half 3, qinv := half 4 }

/-- x^d mod n by the Chinese remainder, the message blinded with a random unit and each exponent with 64 random bits (R238); and whether the
result raised to e gives the blinded input back (R239). -/
def rsaPrivate (v : Priv) (k x : Nat) (rand : Bytes) : Nat × Bool :=
  if v.p = 0 ∨ v.q = 0 ∨ v.n = 0 then (0, false)
  else
    let z := rand.drop drawBytes
    let w := be (z.take k) % v.n
    let u := if Nat.gcd w v.n = 1 then w else 1
    let input := x * powMod u v.e v.n % v.n
    let a := powMod input (v.dp + be (slice z k 8) * (v.p - 1)) v.p
    let b := powMod input (v.dq + be (slice z (k + 8) 8) * (v.q - 1)) v.q
    let s := b + v.q * (subMod a b v.p * v.qinv % v.p)
    (s * invAny u v.n % v.n, powMod s v.e v.n == input)

/-- The edge of an RSA input (R237). -/
def rsaEdge (n x width : Nat) : Option Result :=
  if x = 0 then some (.edge Status.pkeZeroInput width) else if n ≤ x then some (.edge Status.pkeRange width) else none

/-- PKE_RSA_SIGN (R230), and whether its fault check holds. -/
def rsaSign (key : Bytes) (k : Nat) (b rand : Bytes) : Result × Bool :=
  let v := privKey key k
  let input := b.drop 16
  let enc := field b 8 1
  let h := field b 9 1
  let em := if enc = 0 then be input else be (if enc = 1 then pkcs1 h k input else pss h k input (rand.take (field b 10 1)))
  match (if enc = 0 then rsaEdge v.n em k else none) with
  | some e => (e, true)
  | none => let (s, ok) := rsaPrivate v k em rand
            (.data (toBE k s), ok)

/-- PKE_RSA_PUBLIC (R231): n, e, modulus bytes, input. -/
def rsaPublic (n e k : Nat) (input : Bytes) : Result :=
  match rsaEdge n (be input) k with
  | some edge => edge
  | none => .data (toBE k (powMod (be input) e n))

/-- The message an OAEP block carries, if it decodes (R232, R233). -/
def oaep (h : Nat) (em label : Bytes) : Option Bytes :=
  let hl := hashLen h
  let k := em.length
  let seed := xorBytes (slice em 1 hl) (mgf1 (hashOf h) hl (em.drop (1 + hl)) hl)
  let db := xorBytes (em.drop (1 + hl)) (mgf1 (hashOf h) hl seed (k - hl - 1))
  let rest := (db.drop hl).dropWhile (· == 0)
  if byteAt em 0 = 0 ∧ db.take hl = hashOf h label then (match rest with
    | x :: m => if x = 1 then some m else none
    | [] => none)
  else none

/-- PKE_RSA_UNWRAP (R232, R233), and whether its fault check holds; `len` the target's key length. -/
def rsaUnwrap (key : Bytes) (k len : Nat) (b rand : Bytes) : Result × Bool :=
  let v := privKey key k
  match rsaEdge v.n (field b 24 k) 16 with
  | some e => (e, true)
  | none =>
    let (s, ok) := rsaPrivate v k (field b 24 k) rand
    let r : Result := match oaep (field b 17 1) (toBE k s) (b.drop (24 + k)) with
      | some m => if m.length = len then .key m [] else .edge PkStatus.unwrapFailed 16
      | none => .edge PkStatus.unwrapFailed 16
    (r, ok)

/-- PKE_MLDSA_VERIFY (R234). -/
def mldsa (pub b : Bytes) : Result :=
  let c := field b 8 1
  let sig := slice b 16 4627
  let m := b.drop (4643 + c)
  let ok := if (byteAt b 9).getLsbD 0 then Dsa.verifyMu pub m sig else Dsa.verify pub m (slice b 4643 c) sig
  if ok then .data [] else .edge PkStatus.signatureInvalid 0

/-! ### Key generation (R242, R243) -/

/-- A generated key and the public key it returns; an RSA key comes of its two primes. -/
def generate (t size : Nat) (rand : Bytes) : Bytes × Bytes :=
  if isAes t then (rand.take (contentLen t 0), [])
  else if isTdea t then (Emv.parity (rand.take (contentLen t 0)), [])
  else if t = 0x06 then (rand.take size, [])
  else if t = 0x13 then
    let seed := rand.take 32
    let pub := C25519.edPublic seed
    (seed ++ pub, pub)
  else if t = 0x14 then
    let k := rand.take 32
    let clamped := C25519.toLE 32 (((C25519.le k ||| 7) ^^^ 7) % 2 ^ 254 + 2 ^ 254)
    let pub := C25519.x25519Base clamped
    (clamped ++ pub, pub)
  else if t = 0x30 then Kem.keyGen (rand.take 64)
  else
    let c := curveOf t
    let d := scalar c rand
    match c.mul (blinded c d rand) c.g with
    | some (x, y) => (toBE c.len d ++ toBE c.len x ++ toBE c.len y, toBE c.len x ++ toBE c.len y)
    | none => ([], [])

/-- The check of a generated key (R242): an ML-KEM key must decapsulate what is encapsulated to it. -/
def pairwise (t : Nat) (key pub rand : Bytes) : Bool :=
  if t = 0x30 then
    let (ct, ss) := Kem.encaps pub (slice rand drawBytes 32)
    Kem.decaps key ct == ss
  else true

/-- The primes below 1,000. -/
def smallPrimes : List Nat := (List.range 1000).filter (fun n => 2 ≤ n && (List.range 32).all (fun d => d < 2 || n ≤ d || n % d != 0))

/-- A candidate of 4k bits, k the modulus bytes: its top two bits and low bit set, coprime to every prime below 1,000 (R243 step 1). The manual
gives no construction: from the random value on, the first such number is taken, and as the random value is free, so is the candidate (log 5). -/
def candidate (k : Nat) (rand : Bytes) : Nat :=
  let bits := 4 * k
  let r := be (rand.take (k / 2)) % 2 ^ (bits - 2)
  let form := fun (i : Nat) => 3 * 2 ^ (bits - 2) + ((r ||| 1) + 2 * i) % 2 ^ (bits - 2)
  form (((List.range 16384).find? (fun i => smallPrimes.all (fun s => form i % s != 0))).getD 0)

/-- The power of two in n, by at most f halvings, and the odd part. -/
def oddPart : Nat → Nat → Nat × Nat
  | 0, n => (0, n)
  | f + 1, n => if n % 2 = 0 then (let (s, d) := oddPart f (n / 2); (s + 1, d)) else (0, n)

/-- Some of x, x², … over s squarings is n - 1. -/
def reaches (n : Nat) : Nat → Nat → Bool
  | 0, _ => false
  | s + 1, x => x == n - 1 || reaches n s (x * x % n)

/-- A Miller–Rabin round of n with a random base. -/
def millerRabin (n : Nat) (rand : Bytes) : Bool :=
  let a := be rand % (n - 3) + 2
  let (s, d) := oddPart (n.log2 + 1) (n - 1)
  let x := powMod a d n
  x == 1 || reaches n s x

/-- The tests of a candidate step (R243 step 1); `primes` those found before, k the modulus bytes. -/
def keepCandidate (k c : Nat) (primes : List Nat) (rand : Bytes) : Bool :=
  Nat.gcd 65537 (c - 1) == 1 && millerRabin c rand && primes.all (fun p => 2 ^ (4 * k - 100) < max p c - min p c)

/-- The four confirmation rounds (R243 step 2). -/
def confirmed (k c : Nat) (rand : Bytes) : Bool := (List.range 4).all (fun i => millerRabin c (slice rand (i * (k / 2)) (k / 2)))

/-- The CRT key of two primes with e = 65537, and its public key; k in bytes. -/
def rsaKey (k p q : Nat) : Bytes × Bytes :=
  let n := p * q
  let e := 65537
  let l := (p - 1) * (q - 1) / Nat.gcd (p - 1) (q - 1)
  let d := invAny e l
  let pub := toBE k n ++ toBE 8 e
  (pub ++ toBE k d ++ toBE (k / 2) p ++ toBE (k / 2) q ++ toBE (k / 2) (d % (p - 1)) ++ toBE (k / 2) (d % (q - 1)) ++ toBE (k / 2) (invAny q p), pub)

/-- The finishing step signs and verifies one random representative (R243 step 3). -/
def signsAndVerifies (k : Nat) (key rand : Bytes) : Bool :=
  let v := privKey key k
  if v.n = 0 then false
  else
    let x := be (rand.take k) % v.n
    let (s, ok) := rsaPrivate v k x rand
    ok && powMod s v.e v.n == x

end Pk

/-! ### Counts (R235, R242, R243) -/

namespace PkCount

def priv (m : Nat) : Nat := 4125 * m ^ 3 + 4250 * m ^ 2 + 16000

/-- Bit length and Hamming weight of an exponent. -/
def bitLen (e : Nat) : Nat := if e = 0 then 0 else e.log2 + 1
def weight (e : Nat) : Nat := ((List.range (bitLen e)).filter (fun i => e.testBit i)).length

def pub (m e : Nat) : Nat := 2848 + 47 * m ^ 2 * (bitLen e + weight e)

def sign (t : Nat) : Nat := if t % 8 = 0 then 96000 else if t % 8 = 1 then 288000 else 648000

/-- The steps of RSA key generation: a candidate step, the four confirmation rounds, the finishing step. -/
def mr (m : Nat) : Nat := priv m / 2
def cand (m : Nat) : Nat := mr m + 60000
def fin (m : Nat) : Nat := priv m + pub m 65537 + 10000 * m ^ 2

/-- Key generation; RSA with no candidate rejected. -/
def gen (t m : Nat) : Nat :=
  if t ≤ 6 then 6000
  else if t = 0x10 then 102000 else if t = 0x11 then 294000 else if t = 0x12 then 654000
  else if t = 0x13 then 78000 else if t = 0x14 then 86000
  else if t = 0x30 then 51000
  else 2 * cand m + 8 * mr m + fin m

/-- Modular multiplications of an RSA private operation (R240); m = k / 256. -/
def mults (m : Nat) : Nat := 320 * m + 327

/-- The cycle offsets of the yield points in work of n multiplications and a count (R240). -/
def yields (n count : Nat) : List Nat := (List.range ((n - 1) / 4096)).map (fun j => count * 4096 * (j + 1) / n)

/-- Cycles and modular multiplications of a key-generation step (R243); a Miller–Rabin round is half a private operation in both, and the
finishing step's are a private and a public operation's (log 14). -/
def stepCycles (m stage : Nat) : Nat := if stage = 1 then cand m else if stage = 2 then 4 * mr m else fin m
def stepMults (m stage : Nat) : Nat := if stage = 1 then mults m / 2 else if stage = 2 then 4 * (mults m / 2) else mults m + bitLen 65537 + weight 65537

end PkCount

end Sys2Proof.Machine
end

