-- ==== Sys2Proof/Machine/Pke.lean ====
section
/-! DEFINITION. Public-key engine (08): the checks of a job, its count, the two banks of a core, yields, RSA key generation. -/

namespace Sys2Proof.Machine

/-- The operation ID of a command (R222). -/
def opOf (code : Nat) : Nat := if code = 0x2003 then 0x40 else code % 256

namespace Part

/-! ### Steps 1 to 4 (R223) -/

/-- The key a field names, if it can be read: some fields are checked against it (log 14). -/
def peek (p : Part) (seat : Nat) (c : Cmd) (off : Nat) : Option Slot := (p.keyOf seat c (slice c.params off 8)).toOption

/-- Modulus bytes of the RSA key of a command. -/
def rsaBytes (p : Part) (seat : Nat) (c : Cmd) : Option Nat :=
  (p.peek seat c 0).bind (fun s => if s.ktype = 0x20 ∨ s.ktype = 0x21 then some (32 * s.size) else none)

/-- Step 1: the length a block's own fields declare. -/
def pkeLength (p : Part) (seat : Nat) (c : Cmd) : Option Nat :=
  let b := c.params
  let at_ := fun (off n base : Nat) => if off + n ≤ b.length then some (base + field b off n) else none
  let code := c.code
  if code = 0x5001 then some 80 else if code = 0x5002 then some 344
  else if code = 0x5003 then at_ 8 4 16 else if code = 0x5004 then at_ 8 4 112
  else if code = 0x5011 then at_ 28 2 1796
  else if code = 0x5021 then at_ 12 4 16
  else if code = 0x5022 then (at_ 12 4 24).map (fun n => n + (if allZero (slice b 0 8) then field b 8 2 / 8 else 0))
  else if code = 0x5023 then
    if b.length < 24 then none else some (match p.rsaBytes seat c with
      | some k => 24 + k + field b 18 2
      | none => max b.length (24 + field b 18 2))
  else if code = 0x5031 then (at_ 12 4 4643).map (fun n => n + field b 8 1)
  else some 16

/-- Step 2: the fields, in offset order. -/
def pkeFields (p : Part) (seat : Nat) (c : Cmd) : List (Nat × Bool) :=
  let b := c.params
  let v := fun (o : Nat) => field b o 1
  let code := c.code
  let inline_ := allZero (slice b 0 8)
  let dl := fun (o : Nat) => (o, v o == 32 || v o == 48 || v o == 64)
  let less := fun (o limit : Nat) => (o, decide (v o < limit))
  let slotAt := fun (o : Nat) => (o, decide (field b o 4 < 8388608))
  let given := fun (o n : Nat) (on : Bool) => (o, on || allZero (slice b o n))
  if code = 0x5001 then [dl 8, zeroAt b 9 7, paddedAt b 16 64 (v 8)]
  else if code = 0x5002 then
    [(8, if inline_ then 1 ≤ v 8 && v 8 ≤ 3 else v 8 == 0), dl 9, zeroAt b 10 6, paddedAt b 16 64 (v 9), given 212 66 inline_, given 278 66 inline_]
  else if code = 0x5003 then [ranged b 8 4 0 4096, zeroAt b 12 4]
  else if code = 0x5004 then [ranged b 8 4 0 4096, zeroAt b 12 4, given 16 32 inline_]
  else if code = 0x5011 then
    let cl := v 25 == 1
    let x := cl && ((p.peek seat c 0).map (fun s => s.ktype == 0x14)).getD false
    [given 0 8 cl, given 8 8 (v 26 == 2), slotAt 16, (20, [1, 2, 3, 6].contains (v 20) || (admitted (v 20)).isNone),
     (21, if v 20 = 6 then v 21 == 32 || v 21 == 48 else (admitted (v 20)).isNone || v 21 == 0), less 24 2,
     (25, v 25 ≤ 1 && (cl || v 26 != 0)), less 26 3, less 27 65, ranged b 28 2 0 256, zeroAt b 30 2,
     (32, if x then allZero (slice b 32 34) else cl || allZero (slice b 32 66)), given 98 66 (cl && !x), given 164 1568 (v 26 != 0),
     paddedAt b 1732 64 (v 27)]
  else if code = 0x5021 then
    let raw := v 8 == 0
    [less 8 3, (9, if raw then v 9 == 0 else 1 ≤ v 9 && v 9 ≤ 3), (10, if v 8 = 2 then v 10 ≤ 64 else v 10 == 0), zeroAt b 11 1,
     (12, if raw then ((p.rsaBytes seat c).map (fun k => field b 12 4 == k)).getD true else field b 12 4 == Pk.hashLen (v 9))]
  else if code = 0x5022 then
    let bits := field b 8 2
    let e := field b 16 8
    [(8, if inline_ then 2048 ≤ bits && bits ≤ 8192 && bits % 256 == 0 else bits == 0), zeroAt b 10 2,
     (12, if inline_ then field b 12 4 == bits / 8 else ((p.rsaBytes seat c).map (fun k => field b 12 4 == k)).getD true),
     (16, if inline_ then 3 ≤ e && e % 2 == 1 else e == 0),
     (24, !inline_ || ((byteAt b 24).getLsbD 7 && (byteAt b (23 + bits / 8)).getLsbD 0))]
  else if code = 0x5023 then
    [slotAt 8, (12, (1 ≤ v 12 && v 12 ≤ 6) || (admitted (v 12)).isNone),
     (13, if v 12 = 6 then 16 ≤ v 13 && v 13 ≤ 128 else (admitted (v 12)).isNone || v 13 == 0), less 16 2, ranged b 17 1 1 2,
     ranged b 18 2 0 256, zeroAt b 20 4]
  else if code = 0x5031 then
    let mu := (byteAt b 9).getLsbD 0
    [(8, !mu || v 8 == 0), less 9 2, zeroAt b 10 2, (12, if mu then field b 12 4 == 64 else field b 12 4 ≤ 4000)]
  else [slotAt 0, less 8 2, zeroAt b 9 7]

/-- Step 3: the handles, with the types and the usage each needs. -/
def pkeHandles (code : Nat) (b : Bytes) : List (Nat × List Nat × Nat) :=
  let stored := !(allZero (slice b 0 8))
  if code = 0x5001 then [(0, [0x10, 0x11, 0x12], uSign)]
  else if code = 0x5002 then (if stored then [(0, [0x18, 0x19, 0x1A], uVerify)] else [])
  else if code = 0x5003 then [(0, [0x13], uSign)]
  else if code = 0x5004 then (if stored then [(0, [0x1B], uVerify)] else [])
  else if code = 0x5011 then
    (if field b 25 1 = 1 then [(0, [0x10, 0x11, 0x12, 0x14], uDerive)] else []) ++ (if field b 26 1 = 2 then [(8, [0x30], uWrap)] else [])
  else if code = 0x5021 then [(0, [0x20], uSign)]
  else if code = 0x5022 then (if stored then [(0, [0x21], uVerify)] else [])
  else if code = 0x5023 then [(0, [0x20], uWrap)]
  else if code = 0x5031 then [(0, [0x31], uVerify)]
  else []

/-- The key a slot-writing command asks for: head, type, size, usages, exportable (R229, R232, 05 R127). -/
structure Target where
  head : Nat
  ktype : Nat
  size : Nat
  usages : BitVec 16
  flags : Byte

def targetOf (code : Nat) (b : Bytes) : Option Target :=
  let u := fun (o : Nat) => BitVec.ofNat 16 (field b o 2)
  if code = 0x5011 then some { head := field b 16 4, ktype := field b 20 1, size := field b 21 1, usages := u 22, flags := byteAt b 24 }
  else if code = 0x5023 then some { head := field b 8 4, ktype := field b 12 1, size := field b 13 1, usages := u 14, flags := byteAt b 16 }
  else if code = 0x2003 then
    some { head := field b 0 4, ktype := field b 4 1, size := field b 5 1, usages := u 6, flags := byteAt b 8 ||| 2 }
  else none

/-- A type and size a key can be generated with (R242, R243, 05 R122). -/
def generable (t size : Nat) : Bool :=
  if t = 0x06 then 16 ≤ size && size ≤ 128
  else if t = 0x20 then 8 ≤ size && size ≤ 32
  else size == 0 && ([1, 2, 3, 4, 5, 0x10, 0x11, 0x12, 0x13, 0x14, 0x30].contains t)

/-- Step 4 for a command that writes a slot: the target, its type and usages, the policy, the journal. -/
def pkeTarget (p : Part) (c : Cmd) (t : Target) : Option (BitVec 16 × Bytes) :=
  let made := c.code == 0x2003
  let allowed := ((policyOf (p.dealOf c.epoch) c.hand t.ktype).map (fun q =>
    (if made then q.generateOk else q.importOk) && (t.usages &&& q.usages) == t.usages)).getD false
  if p.slotInHand c.epoch c.hand t.head = false then some (Status.accessFault, [])
  else if made = true ∧ generable t.ktype t.size = false then some (Status.keyUsageDenied, [])
  else match p.targetFault c.epoch c.hand t.head (runLength t.ktype t.size) with
    | some e => some e
    | none =>
      if usagesOk t.ktype t.usages = false ∨ (made = false ∧ t.usages.getLsbD uContext = true) ∨ allowed = false then some (Status.keyUsageDenied, [])
      else (p.journalRefusal).map (fun n => (VStatus.journalUnavailable, reason n))

/-- The count of a command (R235, R242); `keys` its stored keys in offset order. -/
def pkeCount (c : Cmd) (keys : List Slot) : Nat :=
  let b := c.params
  let v := fun (o : Nat) => field b o 1
  let t0 := (keys.head?.map (·.ktype)).getD (v 8 + 0x0F)
  let m := (keys.head?.map (·.size)).getD (field b 8 2 / 256)
  let up := fun (n d : Nat) => (n + d - 1) / d
  if c.code = 0x5001 then PkCount.sign t0
  else if c.code = 0x5002 then 2 * PkCount.sign t0
  else if c.code = 0x5003 then let n := field b 8 4; 72000 + 600 * (up (n + 49) 128 + up (n + 81) 128)
  else if c.code = 0x5004 then 150000 + 600 * up (field b 8 4 + 81) 128
  else if c.code = 0x5011 then
    (if v 25 = 1 then (if t0 = 0x14 then 80000 else PkCount.sign t0) else 0) + (if v 26 = 1 then 50000 else if v 26 = 2 then 65000 else 0) + 18000
  else if c.code = 0x5021 then PkCount.priv m + (if v 8 = 0 then 0 else if v 8 = 1 then 2000 else 2000 + 160 * m)
  else if c.code = 0x5022 then
    PkCount.pub m (match keys.head? with
      | some k => (Pk.pubKey k.material (32 * k.size)).2
      | none => field b 16 8)
  else if c.code = 0x5023 then PkCount.priv m + 8000 + 160 * m
  else if c.code = 0x5031 then (if v 9 = 1 then 140000 else 140000 + 400 * up (66 + v 8 + field b 12 4) 136)
  else PkCount.gen (v 4) (v 5)

/-- Steps 1 to 4 of a PKE command; one that passes counts a use of each stored key (R224). -/
def pkeCheck (p : Part) (seat : Nat) (c : Cmd) : Verdict :=
  let b := c.params
  if p.pkeLength seat c ≠ some b.length then .refuse Status.lengthMismatch []
  else match firstBad (p.pkeFields seat c) with
    | some o => badField PkStatus.paramInvalid o
    | none => match p.checkKeys seat c (pkeHandles c.code b) with
      | .error st => .refuse st []
      | .ok keys =>
        let offs := (pkeHandles c.code b).map (·.1)
        let go := Verdict.go (pkeCount c keys) (usesOf keys offs b (keys.map (fun _ => 0)))
        match targetOf c.code b with
        | none => go
        | some t => match p.pkeTarget c t with
          | some (st, pl) => .refuse st pl
          | none => go

/-- The fixed time of a job as the dispatcher predicts it. -/
def pkeFixed (p : Part) (c : Cmd) : Nat :=
  match p.pkeCheck c.seat c with
  | .go n _ => n
  | .refuse .. => 400

/-! ### The operations (step 5) -/

/-- True when an operation draws random values: every operation on a private operand, an encapsulation, a key generation (R238). -/
def drawsRandom (c : Cmd) : Bool := !([0x5002, 0x5004, 0x5022, 0x5031].contains c.code)

/-- Bytes an operation draws: nonces, seeds and salts, then the blinding values of R238, up to a unit and two exponent masks for RSA. -/
def drawCount (c : Cmd) : Nat := if drawsRandom c then Pk.drawBytes + 1040 else 0

/-- What an operation computes, and whether the core's check of it holds (R239, R242). -/
def pkeResult (p : Part) (seat : Nat) (c : Cmd) : Pk.Result × Bool :=
  let b := c.params
  let rand := p.drawn (drawCount c)
  let plain := fun (r : Pk.Result) => (r, true)
  let stored := (pkeHandles c.code b).filterMap (fun h => (p.peek seat c h.1))
  let k0 := (stored.head?.map (·.material)).getD []
  let t0 := (stored.head?.map (·.ktype)).getD 0
  let k := (stored.head?.map (fun s => 32 * s.size)).getD 0
  if c.code = 0x5001 then plain (Pk.ecdsaSign t0 k0 b rand)
  else if c.code = 0x5002 then
    match stored with
    | s :: _ => plain (Pk.ecdsaVerify (curveOf s.ktype) (some s.material) b)
    | [] => plain (Pk.ecdsaVerify (curveOf (field b 8 1 + 0x0F)) none b)
  else if c.code = 0x5003 then plain (.data (C25519.edSign (k0.take 32) (b.drop 16)))
  else if c.code = 0x5004 then
    match stored with
    | s :: _ => plain (Pk.edVerify s.material b)
    | [] => plain (Pk.edVerify (slice b 16 32) b)
  else if c.code = 0x5011 then
    let dk := ((stored.find? (fun s => s.ktype = 0x30)).map (·.material)).getD []
    plain (Pk.agree (if field b 25 1 = 1 then some (t0, k0) else none) dk b rand)
  else if c.code = 0x5021 then Pk.rsaSign k0 k b rand
  else if c.code = 0x5022 then
    match stored with
    | s :: _ => let n := 32 * s.size; plain (Pk.rsaPublic (Pk.pubKey s.material n).1 (Pk.pubKey s.material n).2 n (b.drop 24))
    | [] => let n := field b 8 2 / 8; plain (Pk.rsaPublic (field b 24 n) (field b 16 8) n (b.drop (24 + n)))
  else if c.code = 0x5023 then Pk.rsaUnwrap k0 k (contentLen (field b 12 1) (field b 13 1)) b rand
  else if c.code = 0x5031 then plain (Pk.mldsa k0 b)
  else
    let (m, pub) := Pk.generate (field b 4 1) (field b 5 1) rand
    (.key m pub, Pk.pairwise (field b 4 1) m pub rand)

/-- The outcome of a result: an answer, a key write, or an edge with its zero result (R225, R237). -/
def pkeOutcome (c : Cmd) (r : Pk.Result) : Outcome :=
  match r with
  | .data b => doneWith b
  | .edge st n => { status := st, payload := zeros n }
  | .key m pub => match targetOf c.code c.params with
    | some t => { status := Status.done, payload := []
                  effect := .writeKey t.head (newKey c.hand t.ktype t.size t.flags t.usages 0x3030 m) pub }
    | none => doneWith []

/-- Edge outcomes, PKE_SIGNATURE_INVALID and PKE_UNWRAP_FAILED among them (R237, R245). -/
def isEdge (st : BitVec 16) : Bool := 0x0401 ≤ st.toNat && st.toNat ≤ 0x0406

/-! ### The banks of a core -/

/-- A bank: 0 holds Trump jobs, 1 Long jobs. -/
def bank (c : PkeCore) (b : Nat) : Option Job := if b = 0 then c.bank0 else c.bank1

def setBank (p : Part) (seat core b : Nat) (j : Option Job) : Part :=
  p.updPke seat core (fun c => if b = 0 then { c with bank0 := j } else { c with bank1 := j })

/-- The bank whose job the core runs. -/
def runningBank (c : PkeCore) : Option Nat := if c.bank0.isSome then some 0 else if c.bank1.isSome ∧ c.parked = false then some 1 else none

def pkeWin (core : Nat) : Nat := swinPKE + core * 0x2000

/-- Cores of a Seat that hold a Long job (R103). -/
def longCores (p : Part) (seat : Nat) : Nat := ((List.range 8).filter (fun k => (p.pke seat k).bank1.isSome)).length

/-- A core without a job that is not being scrubbed. -/
def idleCore (p : Part) (seat k : Nat) : Bool := !(p.engineBusy seat .pke k) && (p.tile (siteTile seat .pke k)).st != .scrubbing

/-- A command takes the core: its checks, its key's words, then its bank (R223); with no use of a key to spend it waits. -/
def giveJob (p : Part) (seat core : Nat) (c : Cmd) (ecc : Decoded) : Part × Bool :=
  let key := siteTile seat .pke core
  let refused := fun (p : Part) (st : BitVec 16) (pl : Bytes) =>
    (((p.bump (regAddr seat (pkeWin core) 0x0108)).passTurn seat c.hand .pke).refuse seat c.uid st pl).tileFrom key (p.now + 400)
  match p.pkeCheck seat c with
  | .refuse st pl => (refused p st pl, true)
  | .go count uses => match p.keyRead seat c ecc with
    | (p, false) => (p, false)
    | (p, true) => match p.chargeAll seat c uses with
    | .exhausted => (refused p Status.keyExhausted [], true)
    | .wait p => (p, false)
    | .ok p =>
      let j : Job := { uid := c.uid, prog := opOf c.code, start := p.now, count := count }
      let p := p.updCmd c.uid (fun c => { c with target := (targetOf c.code c.params).map (fun t => (p.slot t.head).gen) })
      (((p.takeEngine c seat .pke core count).setBank seat core (if c.cls = .long then 1 else 0) (some j)).bump (regAddr seat (pkeWin core) 0x0100), true)

/-- An idle core takes a job; Long jobs hold at most CAP cores of the Seat (R103). -/
def startPke (p : Part) (seat core : Nat) (ecc : Decoded) : Part :=
  let key := siteTile seat .pke core
  if p.tileUp key = false ∨ p.engineBusy seat .pke core = true ∨ p.seatIn seat .inService = false then p
  else match p.nextFor seat .pke (fun c => c.cls != .long || p.longCores seat < p.disp.longCap.toNat) with
    | none => p
    | some c => ((p.atTime (p.tile key).since).giveJob seat core c ecc).1

/-- An operation runs on the core whose job it is; RSA key generation draws its first candidate. One that needs random values stalls while the
Seat's DRBG gives none (R238). -/
def runPke (p : Part) (seat core op : Nat) : Part :=
  let k := p.pke seat core
  match runningBank k with
  | none => p
  | some b => match bank k b with
    | none => p
    | some j =>
      if j.prog ≠ op ∨ j.out.isSome = true then p
      else match p.findCmd j.uid with
        | none => p
        | some c =>
          if drawsRandom c = true ∧ p.drbgServes seat = false then p.setPke seat core { k with starved := true }
          else if op = 0x40 ∧ field c.params 4 1 = 0x20 then
            if k.keygen.stage ≠ 0 then p
            else (p.setPke seat core { k with keygen := { stage := 1, candidate := Pk.candidate (32 * field c.params 5 1) (p.drawn 512) } }).drbgTakes seat 512
          else
            let r := p.pkeResult seat c
            (p.setBank seat core b (some { j with out := some (pkeOutcome c r.1), sound := r.2 })).drbgTakes seat (drawCount c)

/-! ### RSA key generation (R243) -/

/-- A step ends. A candidate rejected at step 1 or 2 is replaced, one kept goes on; with two primes the finishing step follows. A step that needs
random values stalls while the DRBG gives none (R238). -/
def keygenStep (p : Part) (seat core : Nat) : Part :=
  let k := p.pke seat core
  match k.bank1 with
  | none => p
  | some j => match p.findCmd j.uid with
    | none => p
    | some c =>
      let g := k.keygen
      let m := field c.params 5 1
      if k.parked = true ∨ (g.stage ≠ 1 ∧ g.stage ≠ 2) then p
      else if p.drbgServes seat = false then p.setPke seat core { k with starved := true }
      else
        let cost := PkCount.stepCycles m g.stage
        let rand := p.drawn 2048
        let kept := if g.stage = 1 then Pk.keepCandidate (32 * m) g.candidate g.primes rand else Pk.confirmed (32 * m) g.candidate rand
        let p := (p.atTime (j.start + j.elapsed + g.cycles + cost)).drbgTakes seat 2048
        let g := { g with cycles := g.cycles + cost }
        let next := fun (p : Part) (g : KeyGen) =>
          (p.setPke seat core { k with keygen := g }).bump (regAddr seat (pkeWin core) 0x0100)
        let again := fun (p : Part) (g : KeyGen) =>
          (next p { g with stage := 1, candidate := Pk.candidate (32 * m) (p.drawn 512) }).drbgTakes seat 512
        if kept = false then
          again (p.bump (regAddr seat (pkeWin core) 0x0130)) (if g.stage = 1 then { g with rejected := g.rejected + 1 } else g)
        else if g.stage = 1 then next p { g with stage := 2 }
        else
          let g := { g with primes := g.primes ++ [g.candidate] }
          match g.primes with
          | a :: b :: _ =>
            let (mat, pub) := Pk.rsaKey (32 * m) a b
            let sound := Pk.signsAndVerifies (32 * m) mat (p.drawn 1200)
            let j' := { j with count := g.cycles + PkCount.fin m, out := some (pkeOutcome c (.key mat pub)), sound := sound }
            ((next p { g with stage := 3 }).setBank seat core 1 (some j')).drbgTakes seat 1200
          | _ => again p g

/-! ### The end of a job (R235, R237, R239) -/

/-- The running job ends its count: its result leaves, or its fault check fails, as computed or through a fault of the core (`faultOk` false), and both
banks are scrubbed. A core that waits for random
values stalls (R238). -/
def endPke (p : Part) (seat core : Nat) (faultOk : Bool) : Part :=
  let k := p.pke seat core
  match runningBank k with
  | none => p
  | some b => match bank k b with
    | none => p
    | some j => match j.out, p.findCmd j.uid with
      | some o, some c =>
        if drawsRandom c = true ∧ p.drbgServes seat = false then p.setPke seat core { k with starved := true }
        else
          let p := p.atTime (j.start + j.elapsed + j.count)
          if faultOk && j.sound then
            let p := p.updPke seat core (fun k => if b = 1 then { k with bank1 := none, keygen := {} } else { k with bank0 := none })
            let p := if isEdge o.status then p.bump (regAddr seat (pkeWin core) 0x0110) else p
            (((p.tileFrom (siteTile seat .pke core) p.now).release seat j.uid o).sweepDraining seat)
          else
            let other := if b = 0 then k.bank1 else none
            let p := match other with
              | some l => (p.bump (regAddr seat (pkeWin core) 0x0118)).stopWork l.uid (some Status.faultDetected)
              | none => p
            ((p.bump (regAddr seat (pkeWin core) 0x0118)).countScrub seat .pke core).engineFault seat .pke core j.uid
      | _, _ => p

/-- The end of a job reads its bank's memory (R244, 01 R19). -/
def endPkeRead (p : Part) (seat core : Nat) (faultOk : Bool) (ecc : Decoded) : Part :=
  let k := p.pke seat core
  match (runningBank k).bind (bank k) with
  | some j => if j.out.isSome then p.operandRead seat core j.uid ecc (fun p => p.endPke seat core faultOk) else p
  | none => p

/-! ### Yields (R240, R241) -/

/-- The waiting Trump job with the earliest arrival stamp. -/
def firstTrump (p : Part) (seat : Nat) : Option Cmd :=
  (p.xct.cmds.filter (fun c => siteOf c.code == some .pke && c.place == .seatQ seat && c.cls == .trump && (p.missing seat c).isEmpty)).foldl
    (fun (b : Option Cmd) c => match b with
      | none => some c
      | some x => if c.stamp < x.stamp then some c else b) none

/-- The cycle offsets of a Long job's yield points, as far as they are known (R240): in an RSA private operation, or at the start of a key
generation's step, where the one before ended, and within it. -/
def yieldPoints (p : Part) (c : Cmd) (j : Job) (g : KeyGen) : List Nat :=
  if c.code = 0x2003 then
    let m := field c.params 5 1
    if field c.params 4 1 = 0x20 ∧ g.stage ≠ 0 then
      g.cycles :: (PkCount.yields (PkCount.stepMults m g.stage) (PkCount.stepCycles m g.stage)).map (g.cycles + ·)
    else []
  else if c.code = 0x5021 ∨ c.code = 0x5023 then PkCount.yields (PkCount.mults (p.modulusBits c.code c.params / 256)) j.count
  else []

/-- The cycle offset of the Long job's next yield point from now on. -/
def nextYield (p : Part) (c : Cmd) (j : Job) (g : KeyGen) : Option Nat :=
  (p.yieldPoints c j g).find? (fun o => j.offset < o && p.now - (j.start + j.elapsed) ≤ o)

/-- The time at which a core's Long job may next yield. -/
def yieldTime (p : Part) (seat core : Nat) : Option Nat :=
  let k := p.pke seat core
  match k.bank1 with
  | some j => if k.parked || k.bank0.isSome then none
    else (p.findCmd j.uid).bind (fun c => (p.nextYield c j k.keygen).map (fun o => j.start + j.elapsed + o))
  | none => none

/-- A Long job at a yield point parks for the waiting Trump job when no core is idle; of two in the same cycle the lower-numbered core does. The
Trump job starts after 256 cycles. -/
def yieldPke (p : Part) (seat core : Nat) : Part :=
  let k := p.pke seat core
  match k.bank1 with
  | none => p
  | some j =>
    if k.parked = true ∨ k.bank0.isSome = true ∨ (List.range 8).any (fun i => p.idleCore seat i) = true ∨ p.seatIn seat .inService = false ∨
        (List.range core).any (fun i => p.yieldTime seat i == p.yieldTime seat core) = true then p
    else match p.findCmd j.uid, p.firstTrump seat with
      | some c, some t => match p.nextYield c j k.keygen with
        | none => p
        | some o =>
          let p' := (p.atTime (j.start + j.elapsed + o)).wait 256
          let p' := (p'.setPke seat core { k with parked := true, bank1 := some { j with offset := o } }).bump (regAddr seat (pkeWin core) 0x0120)
          let (q, taken) := p'.giveJob seat core t .clean
          if taken then q else p
      | _, _ => p

/-- The parked Long job resumes 256 cycles after the Trump job. -/
def resumePke (p : Part) (seat core : Nat) : Part :=
  let k := p.pke seat core
  match k.bank1 with
  | none => p
  | some j =>
    if k.parked = false ∨ k.bank0.isSome = true ∨ (p.tile (siteTile seat .pke core)).st = .scrubbing then p
    else
      let p := (p.atTime (p.tile (siteTile seat .pke core)).since).wait 256
      p.setPke seat core { k with parked := false, bank1 := some { j with elapsed := p.now - j.start - j.offset } }

end Part

/-! ### Rows -/

/-- A row that names a core. -/
def onPke (seat core : Nat) (s : State) (f : Part → Part) : Result := onUnit (s.hasSeat seat && core < 8) s f

/-- PKE_JOB_START (R223, R224). -/
def execPkeJobStart (seat core : Nat) (ecc : Decoded) (s : State) : Result := onPke seat core s (fun p => p.startPke seat core ecc)

/-- PKE_JOB_COMPLETE (R235, R237, R239). -/
def execPkeJobComplete (seat core : Nat) (faultOk : Bool) (ecc : Decoded) (s : State) : Result :=
  onPke seat core s (fun p => p.endPkeRead seat core faultOk ecc)

/-- PKE_YIELD_POINT (R240, R241). -/
def execPkeYieldPoint (seat core : Nat) (s : State) : Result := onPke seat core s (fun p => p.yieldPke seat core)

/-- PKE_LONG_RESUME (R241). -/
def execPkeLongResume (seat core : Nat) (s : State) : Result := onPke seat core s (fun p => p.resumePke seat core)

/-- KEYGEN_STEP_COMPLETE (R243). -/
def execKeygenStepComplete (seat core : Nat) (s : State) : Result := onPke seat core s (fun p => p.keygenStep seat core)

/-- KEY_GENERATE (R242, R243). -/
def execKeyGenerate (seat core : Nat) (s : State) : Result := onPke seat core s (fun p => p.runPke seat core 0x40)

/-- PKE_ECDSA_SIGN (R226). -/
def execPkeEcdsaSign (seat core : Nat) (s : State) : Result := onPke seat core s (fun p => p.runPke seat core 0x01)

/-- PKE_ECDSA_VERIFY (R227). -/
def execPkeEcdsaVerify (seat core : Nat) (s : State) : Result := onPke seat core s (fun p => p.runPke seat core 0x02)

/-- PKE_ED25519_SIGN (R228). -/
def execPkeEd25519Sign (seat core : Nat) (s : State) : Result := onPke seat core s (fun p => p.runPke seat core 0x03)

/-- PKE_ED25519_VERIFY (R228). -/
def execPkeEd25519Verify (seat core : Nat) (s : State) : Result := onPke seat core s (fun p => p.runPke seat core 0x04)

/-- PKE_AGREE (R229). -/
def execPkeAgree (seat core : Nat) (s : State) : Result := onPke seat core s (fun p => p.runPke seat core 0x11)

/-- PKE_RSA_SIGN (R230). -/
def execPkeRsaSign (seat core : Nat) (s : State) : Result := onPke seat core s (fun p => p.runPke seat core 0x21)

/-- PKE_RSA_PUBLIC (R231). -/
def execPkeRsaPublic (seat core : Nat) (s : State) : Result := onPke seat core s (fun p => p.runPke seat core 0x22)

/-- PKE_RSA_UNWRAP (R232, R233). -/
def execPkeRsaUnwrap (seat core : Nat) (s : State) : Result := onPke seat core s (fun p => p.runPke seat core 0x23)

/-- PKE_MLDSA_VERIFY (R234). -/
def execPkeMldsaVerify (seat core : Nat) (s : State) : Result := onPke seat core s (fun p => p.runPke seat core 0x31)

end Sys2Proof.Machine
end

