-- ==== Sys2Proof/Machine/SlotGuard.lean ====
section
/-! DEFINITION. The Slot Guard (10 R281 to R288): what an access may reach, and what a violation does. The check of single bytes and of overlapping
windows is in Answer. -/

namespace Sys2Proof.Machine

/-- A register of engine B's feed (10 R282, 09 R259 to R262). -/
def feedRegister (off : Nat) : Bool :=
  off % 4 == 0 && ((0x00 ≤ off && off ≤ 0x28) || (0x40 ≤ off && off < 0xC0))

namespace Part

/-- The grants of an image's core entry: [0] register feed, [1] TRNG output, [2] notice raise (10 R281). -/
def grantsOf (p : Part) (c : Core) : Byte := ((p.mapOf c 0).map (·.grants)).getD 0

/-- A register a core's fixed slots let it reach, by offset in the Seat's register space (10 R282). -/
def fixedSlot (p : Part) (seat core : Nat) (k : Access) (off : Nat) : Bool :=
  let g := p.grantsOf (p.core seat core)
  let own := swinCORE + core * 0x1000
  if k = .fetch then false
  else if own ≤ off ∧ off < own + 0x1000 then true
  else if swinDGSTB ≤ off ∧ off < swinDGSTB + 0x10000 then g.getLsbD 0 && feedRegister (off - swinDGSTB)
  else if off = swinTRNG + 0x10 then k == .read && g.getLsbD 1
  else if off = swinNTC then k == .write && g.getLsbD 2
  else false

/-- The windows a Slot Guard master checks an access against: masters 0 to 3 the cores, 4 the call DMA, 5 and 6 the fragment readers. -/
def masterWindows (p : Part) (seat master core : Nat) : List GuardWindow :=
  p.windowsOf (p.core seat core) (if master < 4 then 0 else if master = 4 then 1 else 2)

/-- True when every byte of an access is allowed. -/
def accessOk (p : Part) (seat master core : Nat) (k : Access) (addr len : Nat) : Bool :=
  if master < 4 ∧ 0x40000000 ≤ addr ∧ addr < 0x41000000 then
    (List.range len).all (fun i => p.fixedSlot seat core k ((addr + i - 0x40000000) / 4 * 4))
  else
    let ws := p.masterWindows seat master core
    guardAllowsAll ws k addr len && !(guardConflict ws addr len)

/-- How a violation is met (R286, R287). -/
inductive Violation where
  | precise | imprecise | dma
deriving DecidableEq, Repr

def Violation.code : Violation → BitVec 16
  | .precise => 0x0610
  | .imprecise => 0x0611
  | .dma => 0x0612

def Violation.count : Violation → Nat
  | .precise => 0x0100
  | .imprecise => 0x0108
  | .dma => 0x0110

/-- The record and counts of a violation, and for an imprecise one the notice to the invoking session (R284, R286, R288). -/
def revoke (p : Part) (seat master core : Nat) (v : Violation) (addr len pc : Nat) : Part :=
  let c := p.core seat core
  let p1 := BitVec.ofNat 32 (master * 2 ^ 24 + c.hand.toNat * 2 ^ 16 + c.image % 65536)
  let p3 := BitVec.ofNat 32 (match v with
    | .precise => pc
    | _ => 0xFFFFFFFF)
  let p := { p with seats := { p.seats with sgrdLast := Sparse.set 0 p.seats.sgrdLast (seat * 8 + master) (BitVec.ofNat 32 addr) } }
  let p := if guardConflict (p.masterWindows seat master core) addr len then
      ((p.bump (regAddr seat swinSGRD 0x0118)).record 0x0613 3 seat p1 (BitVec.ofNat 32 addr) p3).latWitness seat 15 master master
    else (p.bump (regAddr seat swinSGRD v.count)).record v.code 2 seat p1 (BitVec.ofNat 32 addr) p3
  match v with
  | .imprecise =>
    let to_ := match (c.uid.bind p.findCmd).map (·.origin) with
      | some (.host x _) => [x]
      | _ => []
    p.notice (seatSource seat 52) 0x0611 2 c.hand.toNat (toBE 8 addr ++ toBE 4 c.image ++ toBE 1 core ++ zeros 3) to_
  | _ => p

/-- A violation: recorded, and the instance ends with ACCESS_FAULT (R277, R286, R287). -/
def violate (p : Part) (seat master core : Nat) (v : Violation) (addr len pc : Nat) : Part :=
  (p.revoke seat master core v addr len pc).endInstance seat core (some Status.accessFault)

/-- A running instance's access to a register of its Seat: a precise violation where its fixed slots refuse it (R282, R286). The
address of the instruction is the applet's own: a free value (DESIGN CHOICE, log 15). -/
def coreRegister (p : Part) (seat core : Nat) (k : Access) (off : Nat) (f : Part → Part) : Part :=
  let c := p.core seat core
  if c.run ≠ .running ∨ c.stalledAt.isSome then p
  else if p.fixedSlot seat core k off then f p
  else (p.draw 4).violate seat core core .precise (0x40000000 + off) 4 (be (p.drawn 4))

end Part

/-! ### Rows -/

/-- SLOT_GUARD_VIOLATION (R284 to R288): an access the guard refuses. One it allows is no violation. -/
def execSlotGuardViolation (seat master core : Nat) (access : Access) (addr : BitVec 32) (len : Nat) (pc : BitVec 32) (s : State) : Result :=
  onUnit (s.hasSeat seat && master < 7 && core < 4) s (fun p =>
    let k := if master < 4 then master else core
    let run := (p.core seat k).run == .running || (p.core seat k).run == .ending
    if run = false ∨ p.accessOk seat master k access addr.toNat len = true then p
    else p.violate seat master k (if master < 4 then .precise else .dma) addr.toNat len pc.toNat)

/-- SLOT_GUARD_STORE_DRAIN (R284 to R286, R288): a store leaves the buffer; its allowed bytes are written. -/
def execSlotGuardStoreDrain (seat core : Nat) (addr : BitVec 32) (data : Bytes) (s : State) : Result :=
  onUnit (s.hasSeat seat && core < 4) s (fun p =>
    let a := addr.toNat
    let ws := p.masterWindows seat core core
    if (p.core seat core).run ≠ .running ∨ data = [] then p
    else if guardConflict ws a data.length then p.violate seat core core .imprecise a data.length 0
    else
      let q := (p.guardedWrite ws seat core a data).touch seat core a data.length
      if guardAllowsAll ws .write a data.length then q else q.violate seat core core .imprecise a data.length 0)

end Sys2Proof.Machine
end

