-- ==== Sys2Proof/Machine/DigestAlg.lean ====
section
/-! DEFINITION. The digest engine's algorithms on a chaining state held as bytes, the counts, and the fields of its commands (09 R247 to R251,
R263). -/

namespace Sys2Proof.Machine

namespace DgStatus
def mismatch : BitVec 16 := 0x0502
def paramInvalid : BitVec 16 := 0x0503
end DgStatus

namespace Dg

/-! ### Algorithms (R247) -/

def isSha3 (a : Nat) : Bool := 5 ≤ a && a ≤ 8
def isShake (a : Nat) : Bool := a == 7 || a == 8

/-- Block bytes, or the rate. -/
def block (a : Nat) : Nat :=
  if a = 1 ∨ a = 2 then 64 else if a = 3 ∨ a = 4 then 128 else if a = 5 ∨ a = 8 then 136 else if a = 6 then 72 else 168

def cycles (a : Nat) : Nat := if a = 1 ∨ a = 2 then 128 else if a = 3 ∨ a = 4 then 171 else 136

/-- Output bytes; `n` the requested length of SHAKE. -/
def outLen (a n : Nat) : Nat :=
  if a = 1 then 28 else if a = 2 ∨ a = 5 then 32 else if a = 3 then 48 else if a = 4 ∨ a = 6 then 64 else n

/-- Compressions or permutations of a padded message of x bytes. -/
def nb (a x : Nat) : Nat :=
  if a = 1 ∨ a = 2 then (x + 9 + 63) / 64 else if a = 3 ∨ a = 4 then (x + 17 + 127) / 128 else x / block a + 1

/-! ### Chaining state (R263): SHA-2 words big-endian, Keccak lanes in FIPS 202 byte order -/

def sha2 (a : Nat) : Sha2 := if a ≤ 2 then sha2Narrow else sha2Wide
def iv (a : Nat) : List Nat := if a = 1 then sha224iv else if a = 2 then sha256iv else if a = 3 then sha384iv else sha512iv

/-- Bytes of the state in a record. -/
def stateLen (a : Nat) : Nat := if isSha3 a then 200 else if a ≤ 2 then 32 else 64

def words (a : Nat) (st : Bytes) : List Nat :=
  if isSha3 a then (chunks 8 st).map Keccak.leNat else (chunks ((sha2 a).w / 8) st).map be

def unwords (a : Nat) (v : List Nat) : Bytes := if isSha3 a then Keccak.toBytes v else v.flatMap (toBE ((sha2 a).w / 8))

def start (a : Nat) : Bytes := if isSha3 a then zeros 200 else unwords a (iv a)

/-- Absorbs whole blocks. -/
def absorb (a : Nat) (st m : Bytes) : Bytes :=
  unwords a ((chunks (block a) m).foldl (if isSha3 a then Keccak.absorb else (sha2 a).compress) (words a st))

/-- Pads and finishes a message of `total` bytes whose last bytes are m. -/
def finish (a : Nat) (st m : Bytes) (total len : Nat) : Bytes :=
  if isSha3 a then
    let rate := block a
    let q := rate - m.length % rate
    let suffix : Byte := if isShake a then 0x1F else 0x06
    let pad := if q = 1 then [suffix ^^^ 0x80] else suffix :: zeros (q - 2) ++ [0x80]
    (absorb a st (m ++ pad)).take len
  else (absorb a st (m ++ (sha2 a).pad total)).take len

/-- K0 ⊕ pad, the injected block (R253): 1 ipad, 2 opad. -/
def injected (a inject : Nat) (key : Bytes) : Bytes :=
  if inject = 0 then []
  else
    let k := if block a < key.length then finish a (start a) key key.length (outLen a 0) else key
    (padTo (block a) k).map (· ^^^ (if inject = 1 then 0x36 else 0x5c))

/-! ### The command block (R250) -/

structure Req where
  alg : Nat
  resume : Bool
  save : Bool
  compare : Bool
  inject : Nat
  outLen : Nat
  cmpLen : Nat
  inId : Nat
  len : Option Nat            -- none: unknown
  ticket : Ticket
deriving DecidableEq, Repr

def unknownLen : Nat := 0xFFFFFFFFFFFFFFFF

def req (b : Bytes) : Req :=
  let f := byteAt b 9
  let l := field b 24 8
  { alg := field b 8 1, resume := f.getLsbD 0, save := f.getLsbD 1, compare := f.getLsbD 2, inject := field b 10 1
    outLen := outLen (field b 8 1) (field b 11 1), cmpLen := field b 12 1, inId := field b 16 4
    len := if l = unknownLen then none else some l, ticket := ticketOf (slice b 32 8) }

/-- Cycles of a command (R248): `l` data bytes, `p` bytes absorbed before, `keyLen` the injected key's length. -/
def count (r : Req) (l p keyLen : Nat) : Nat :=
  let b := block r.alg
  let j := if r.inject = 0 then 0 else b
  let h := if r.inject ≠ 0 ∧ b < keyLen then nb r.alg keyLen else 0
  let blocks := if r.resume then (if r.save then l / b else nb r.alg (p + l) - p / b)
    else h + (if r.save then (j + l) / b else nb r.alg (j + l))
  200 + (if r.inject = 0 then 0 else 300) + cycles r.alg * blocks + 100 + (if r.compare then 32 else 0)

/-- Length of a parameter block (R250, R258). -/
def blockLen (r : Req) (frag : Bool) : Nat := if frag then 120 else if r.inId = 0 then 112 + r.len.getD unknownLen else 112

/-- The fields (step 2); `absorbed` what the ticket's record has absorbed. -/
def fields (r : Req) (isCall frag : Bool) (b : Bytes) (absorbed : Nat) : List (Nat × Bool) :=
  let v := fun (o : Nat) => field b o 1
  let known := 1 ≤ r.alg && r.alg ≤ 8
  let lenOk := match r.len with
    | none => r.inId != 0 && !r.save
    | some l => l ≤ 2 ^ 48 && (!r.save || !known || l % block r.alg == 0) && (r.inId != 0 || frag || l ≤ 8192) && absorbed + l ≤ 2 ^ 56
  [(0, r.inject != 0 || r.resume || allZero (slice b 0 8)), (8, known), (9, v 9 < 8 && !(r.save && r.compare)),
   (10, r.inject ≤ 2 && (!r.resume || r.inject == 0) && !(isShake r.alg && r.inject != 0)),
   (11, if isShake r.alg && !r.save then 1 ≤ v 11 && v 11 ≤ 64 else v 11 == 0),
   (12, if r.compare then 4 ≤ r.cmpLen && r.cmpLen ≤ r.outLen else r.cmpLen == 0), zeroAt b 13 3, (16, !(isCall || frag) || r.inId == 0),
   zeroAt b 20 4, (24, lenOk), (32, r.resume || allZero (slice b 32 8)),
   (40, allZero (slice b (40 + (if r.compare then r.outLen else 0)) (64 - (if r.compare then r.outLen else 0)))), zeroAt b 104 8]

/-- DGST_HASH's response (R251). -/
def response (n : Nat) (ticket out : Bytes) : Bytes :=
  toBE 8 n ++ padTo 8 ticket ++ toBE 1 out.length ++ zeros 7 ++ padTo 64 out

/-- A saved record (R263). -/
def record (hand : Nat) (alg inject : Nat) (key : Bytes) (absorbed : Nat) (session : BitVec 32) (request : BitVec 64) (st : Bytes) : Bytes :=
  [0x02, BitVec.ofNat 8 alg, BitVec.ofNat 8 inject, 0] ++ toBE 1 hand ++ zeros 3 ++ key ++ toBE 8 absorbed ++ toBE 4 session.toNat ++ zeros 4 ++
    toBE 8 request.toNat ++ zeros 8 ++ padTo 200 st ++ zeros 8

/-- The fields of a record that an import stores. -/
def recordOk (d : Bytes) : Bool :=
  let a := field d 1 1
  let j := field d 2 1
  d.length == 256 && field d 0 1 == 2 && 1 ≤ a && a ≤ 8 && j ≤ 2 && !(isShake a && j != 0) && byteAt d 3 == 0 && allZero (slice d 5 3) &&
    (allZero (slice d 8 8) == (j == 0)) && field d 16 8 % block a == 0 && field d 16 8 ≤ 2 ^ 56 && allZero (slice d 28 4) &&
    allZero (slice d 40 8) && allZero (slice d (48 + stateLen a) (200 - stateLen a)) && allZero (slice d 248 8)

end Dg

end Sys2Proof.Machine
end

