-- ==== Sys2Proof/Machine/Digest.lean ====
section
/-! DEFINITION. Digest engines (09): checks, keys, fragment lists, poisoning, saved contexts, and engine B's register feed. -/

namespace Sys2Proof.Machine

/-- The window of a digest engine. -/
def dgstWin (engine : Nat) : Nat := if engine = 0 then swinDGSTA else swinDGSTB

namespace Part

/-! ### Checks (R252 to R255) -/

/-- The record of the ticket a command resumes, empty when there is none to see. -/
def digestRec (p : Part) (c : Cmd) (r : Dg.Req) : Bytes :=
  if r.resume ∧ p.ticketFault c.hand r.ticket = none then (p.ctx (ctxKey r.ticket.hand r.ticket.index)).data else []

/-- The injection of the message a command belongs to. -/
def messageInject (r : Dg.Req) (rec_ : Bytes) : Nat := if r.resume then field rec_ 2 1 else r.inject

/-- The usages of an HMAC key that the policy of the epoch leaves it. -/
def hmacUsages (p : Part) (c : Cmd) (s : Slot) : BitVec 16 :=
  match policyOf (p.dealOf c.epoch) c.hand s.ktype with
  | some q => s.usages &&& q.usages
  | none => 0

/-- Steps 3 and 4: the key, if the command names or `needed` one. `mayHide` when the output may be compared without being released. R255's denial
comes after every check of R121. -/
def hmacKey (p : Part) (seat : Nat) (c : Cmd) (b : Bytes) (needed tag mayHide : Bool) : Except (BitVec 16) (Option Slot) :=
  if needed = false ∧ allZero b = true then .ok none
  else match p.keyOf seat c b with
    | .error st => .error st
    | .ok s =>
      let u := p.hmacUsages c s
      if s.ktype ≠ 6 ∨ (u.getLsbD uMacGen = false ∧ u.getLsbD uMacVer = false) then .error Status.keyUsageDenied
      else match policyOf (p.dealOf c.epoch) c.hand s.ktype with
        | some q =>
          if p.exhausted seat (handleOf b).slot s q then .error Status.keyExhausted
          else if tag = true ∧ u.getLsbD uMacGen = false ∧ mayHide = false then .error Status.keyUsageDenied
          else .ok (some s)
        | none => .error Status.keyUsageDenied

/-- Steps 1 to 4 of DGST_HASH. -/
def dgstCheck (p : Part) (seat : Nat) (c : Cmd) : Except (BitVec 16 × Bytes) (Option Slot) :=
  let b := c.params
  let r := Dg.req b
  let rec_ := p.digestRec c r
  let lost := r.inId != 0 && match c.session? with
    | some x => !((p.findStream x (BitVec.ofNat 32 r.inId)).any (fun y => y.uid == c.uid))
    | none => false
  let inject := messageInject r rec_
  if b.length < 112 ∨ b.length ≠ Dg.blockLen r c.frag then .error (Status.lengthMismatch, [])
  else match firstBad (Dg.fields r c.isCall c.frag b (field rec_ 16 8) ++ [(112, !c.frag || field b 112 8 % 16 == 0)]) with
    | some o => .error (DgStatus.paramInvalid, toBE 2 o)
    | none =>
      if lost then .error (DgStatus.paramInvalid, toBE 2 16)
      else match p.hmacKey seat c (slice b 0 8) (r.inject != 0) (inject == 2 && !r.save) r.compare with
        | .error st => .error (st, [])
        | .ok k => .ok k

/-- A record a command resumes must be a digest's, of its algorithm and key (R263). -/
def digestFits (r : Dg.Req) (b rec_ : Bytes) : Bool :=
  field rec_ 0 1 == 2 && field rec_ 1 1 == r.alg && slice rec_ 8 8 == slice b 0 8

/-- The uses of a digest's key. -/
def digestUses (k : Option Slot) (b : Bytes) : List KeyUse :=
  match k with
  | some s => [{ slot := (handleOf (slice b 0 8)).slot, gen := s.gen, ktype := s.ktype, uses := 1, blocks := 0 }]
  | none => []

/-- Bytes of the key a digest names, by which R248 counts its hashing; 0 for no key. -/
def digestKeyLen (p : Part) (c : Cmd) : Nat :=
  if allZero (slice c.params 0 8) then 0 else (p.slotSeen c.epoch (handleOf (slice c.params 0 8)).slot).material.length

/-- The fixed time of a digest as the dispatcher predicts it (R248); an unknown length counts as none. -/
def digestFixed (p : Part) (c : Cmd) : Nat :=
  if c.code = 0x6001 then
    let r := Dg.req c.params
    Dg.count r (r.len.getD 0) (field (p.digestRec c r) 16 8) (p.digestKeyLen c)
  else 0

/-- A job an engine may take: A only Trump digests, B Plain ones, or a Trump one while A is busy (R104). One that a saved context comes to or goes
from starts only while the link is up (01 R7). -/
def dgstFit (p : Part) (seat engine : Nat) (c : Cmd) : Bool :=
  ((c.code == 0x6001 && !(Dg.req c.params).resume) || p.linkUp seat) &&
    (if engine = 0 then c.cls == .trump else c.cls == .plain || (c.cls == .trump && p.engineBusy seat .digest 0))

/-- An engine takes its next job (R252), once the key's words are read; it takes none while its feed is claimed (R259). -/
def startDigest (p : Part) (seat engine : Nat) (ecc : Decoded) : Part :=
  let key := siteTile seat .digest engine
  let d := p.dgst seat engine
  let win := dgstWin engine
  if p.tileUp key = false ∨ d.job.isSome = true ∨ d.reg.isSome = true ∨ d.claim.isSome = true ∨ d.wanted.isSome = true ∨ p.seatIn seat .inService = false then p
  else match p.nextFor seat .digest (p.dgstFit seat engine) with
    | none => p
    | some c =>
      let p := p.atTime (p.tile key).since
      let refused := fun (p : Part) (st : BitVec 16) (pl : Bytes) =>
        (((p.bump (regAddr seat win 0x0108)).passTurn seat c.hand .digest).refuse seat c.uid st pl).tileFrom key (p.now + 400)
      let take := fun (p : Part) (j : Job) =>
        (p.takeEngine c seat .digest engine j.count).updDgst seat engine (fun d =>
          { d with job := some j, hand := BitVec.ofNat 8 c.hand, res := [], output := [] })
      if c.code ≠ 0x6001 then take p { uid := c.uid, prog := c.code, start := p.now }
      else match p.dgstCheck seat c with
        | .error (st, pl) => refused p st pl
        | .ok k => match p.keyRead seat c ecc with
          | (p, false) => p
          | (p, true) =>
            let r := Dg.req c.params
            match p.chargeAll seat c (digestUses k c.params) with
            | .exhausted => refused p Status.keyExhausted []
            | .wait p => p
            | .ok charged =>
              let rec_ := p.digestRec c r
              match (if r.resume then p.ticketFault c.hand r.ticket else none) with
              | some st => refused (p.consume r.ticket) st []
              | none =>
                if r.resume = true ∧ digestFits r c.params rec_ = false then refused (p.freeCtx r.ticket) Status.contextInvalid []
                else
                  let p := if r.resume then charged.freeCtx r.ticket else charged
                  let n := Dg.count r (r.len.getD 0) (field rec_ 16 8) ((k.map (·.material.length)).getD 0)
                  (take p { uid := c.uid, prog := 0x6001, start := p.now, count := n, resumed := if r.resume then some rec_ else none }).bump
                    (regAddr seat win 0x0100)

/-! ### The data of a job (R257, R258) -/

/-- What a job's feed has come to: more to come, the whole data, a poisoning, or a refused read at an address. -/
inductive Feed where
  | more
  | whole (b : Bytes)
  | poison
  | refused (addr : Nat)
deriving DecidableEq, Repr

/-- Reads a fragment list entry by entry through a map's windows; n entries may follow, `sum` bytes were read. -/
def readFragments (p : Part) (ws : List GuardWindow) (seat core len : Nat) : Nat → Nat → Bytes → Feed
  | 0, _, _ => .poison
  | n + 1, a, got =>
    if guardAllowsAll ws .read a 16 = false then .refused a
    else
      let e := p.readSram seat core a 16
      let at_ := field e 0 8
      let l := field e 8 4
      if l = 0 ∨ 16777216 < l ∨ 2 ≤ field e 12 4 ∨ len < got.length + l then .poison
      else if guardAllowsAll ws .read at_ l = false then .refused at_
      else
        let got := got ++ p.readSram seat core at_ l
        if field e 12 4 = 1 then (if got.length = len then .whole got else .poison) else readFragments p ws seat core len n (a + 16) got

def digestFeed (p : Part) (c : Cmd) (r : Dg.Req) : Feed :=
  if c.frag then
    match c.origin with
    | .call seat core _ => p.readFragments (p.windowsOf (p.core seat core) 2) seat core (r.len.getD 0) 256 (field c.params 112 8) []
    | .host .. => .poison
  else if r.inId = 0 then .whole (c.params.drop 112)
  else match (c.session?).bind (fun x => p.findStream x (BitVec.ofNat 32 r.inId)) with
    | none => .more
    | some y => match r.len, y.ended with
      | some l, some e => if e ≠ l then .poison else if y.data.length = l then .whole y.data else .more
      | some l, none => if y.data.length = l then .whole y.data else .more
      | none, some e => if y.data.length = e then .whole y.data else .more
      | none, none => .more

/-! ### DGST_HASH (R250 to R256) -/

/-- The key a running job holds: the one its handle named when its use was charged, which stays pinned (R252). -/
def heldKey (p : Part) (seat : Nat) (c : Cmd) (b : Bytes) : Option Slot :=
  if allZero b then none
  else match p.keyOf seat c b with
    | .ok s => some s
    | .error _ => none

/-- What a digest of all its data comes to. -/
def digestOutcome (p : Part) (seat : Nat) (c : Cmd) (r : Dg.Req) (rec_ data : Bytes) : Outcome :=
  let b := c.params
  let key := p.heldKey seat c (slice b 0 8)
  let inject := messageInject r rec_
  let st := if r.resume then slice rec_ 48 (Dg.stateLen r.alg) else Dg.start r.alg
  let m := (if r.resume then [] else Dg.injected r.alg inject ((key.map (·.material)).getD [])) ++ data
  let total := field rec_ 16 8 + m.length
  if r.save then
    let session := if r.resume then BitVec.ofNat 32 (field rec_ 24 4) else (c.session?).getD 0
    let request := if r.resume then BitVec.ofNat 64 (field rec_ 32 8) else c.request
    { status := Status.done, payload := Dg.response data.length [] []
      effect := .saveCtx (Dg.record c.hand r.alg inject (slice b 0 8) total session request (Dg.absorb r.alg st m)) }
  else
    let out := Dg.finish r.alg st m total r.outLen
    let hidden := inject == 2 && !((key.map (fun s => (p.hmacUsages c s).getLsbD uMacGen)).getD false)
    { status := if r.compare = true ∧ out.take r.cmpLen ≠ slice b 40 r.cmpLen then DgStatus.mismatch else Status.done
      payload := Dg.response data.length [] (if hidden then [] else out) }

/-- The engine works on its job's data as it has come. -/
def runDigest (p : Part) (seat engine : Nat) : Part :=
  match (p.dgst seat engine).job with
  | none => p
  | some j => match p.findCmd j.uid with
    | none => p
    | some c =>
      if j.prog ≠ 0x6001 ∨ j.out.isSome = true then p
      else
        let r := Dg.req c.params
        let rec_ := j.resumed.getD []
        let done_ := fun (o : Outcome) (n : Nat) => p.updDgst seat engine (fun d => { d with job := some { j with out := some o, count := n } })
        match p.digestFeed c r with
        | .more => p
        | .poison => done_ (endsAs Status.digestContextPoisoned) 0
        | .refused a => done_ { status := Status.accessFault, payload := toBE 8 a } 0
        | .whole data =>
          let keyLen := ((p.heldKey seat c (slice c.params 0 8)).map (·.material.length)).getD 0
          done_ (p.digestOutcome seat c r rec_ data) (Dg.count r data.length (field rec_ 16 8) keyLen)

/-- A job is discarded: its engine scrubs, then its command answers (R257, R258). -/
def scrapDigest (p : Part) (seat engine uid : Nat) (status : BitVec 16) : Part :=
  (p.freeEngine seat .digest engine uid).updCmd uid (fun c => { c with place := .scrubbing seat .digest engine, status := status, payload := [] })

/-- A job ends (R248, R251, R255 to R258, R262, R263). A keyed one waits for masks while the DRBG is stopped (R266). -/
def endDigest (p : Part) (seat engine : Nat) : Part :=
  let d := p.dgst seat engine
  let win := dgstWin engine
  match d.job with
  | none => p
  | some j => match j.out, p.findCmd j.uid with
    | some o, some c =>
      let keyed := !(allZero (slice c.params 0 8))
      if keyed = true ∧ p.drbgServes seat = false then p.setDgst seat engine { d with starved := true }
      else
        let p := p.atTime (j.start + j.count)
        if o.status = Status.digestContextPoisoned then (p.bump (regAddr seat win 0x0110)).scrapDigest seat engine j.uid o.status
        else if o.status = Status.accessFault then
          let p := p.scrapDigest seat engine j.uid o.status
          match c.origin with
          | .call s k _ => p.violate s (5 + engine) k .dma (be o.payload) 1 0
          | .host .. => p
        else
          let key := siteTile seat .digest engine
          let out := slice o.payload 24 (field o.payload 16 1)
          let p := p.setDgst seat engine { d with job := none, res := out, output := out, resHand := c.hand
                                                  matched := if (Dg.req c.params).compare then o.status == Status.done else d.matched }
          let p := p.tileFrom key p.now
          let p := if o.status = DgStatus.mismatch then p.bump (regAddr seat win 0x0118) else p
          let p := match o.effect with
            | .saveCtx rec_ => match p.saveCtx c.hand rec_ with
              | (p, some t) => (p.bump (regAddr seat win 0x0130)).seatAnswer seat j.uid o.status (Dg.response (field o.payload 0 8) t.bytes [])
              | (p, none) => p.seatAnswer seat j.uid CtxStatus.storeFull
            | _ => p.seatAnswer seat j.uid o.status o.payload
          p.sweepDraining seat
    | _, _ => p

/-- The end of a job reads the engine's memory (R267, 01 R19). One whose context is saved waits for the link (01 R7). -/
def endDigestRead (p : Part) (seat engine : Nat) (ecc : Decoded) : Part :=
  match (p.dgst seat engine).job with
  | none => p
  | some j => match j.out with
    | none => p
    | some o =>
      let saves := match o.effect with
        | .saveCtx _ => true
        | _ => false
      if saves && !(p.linkUp seat) then p else p.operandRead seat engine j.uid ecc (fun p => p.endDigest seat engine)

/-- A round's parity does not match (R266). -/
def parityFault (p : Part) (seat engine : Nat) : Part :=
  let win := dgstWin engine
  let d := p.dgst seat engine
  let count := fun (p : Part) => (p.bump (regAddr seat win 0x0120)).bump (regAddr seat win 0x0110)
  match d.job with
  | some j => (count p).engineFault seat .digest engine j.uid
  | none =>
    if engine = 1 ∧ d.reg.isSome then ((count p).endRegJob seat Status.faultDetected).latWitness seat 13 engine (1024 + engine) else p

/-! ### Context commands (R264) -/

/-- A context command on the engine that took it: its record crosses the Seat's link (01 R7). It keeps the engine while it waits for an allowance of
its key. -/
def runDigestCtx (p : Part) (seat engine code : Nat) (f : Part → Cmd → Part) : Part :=
  match (p.dgst seat engine).job with
  | none => p
  | some j => match p.findCmd j.uid with
    | none => p
    | some c =>
      if c.code ≠ code ∨ p.linkUp seat = false then p
      else
        let q := f p c
        if (q.findCmd c.uid).any (fun x => x.place == .engine seat .digest engine) then q
        else (q.updDgst seat engine (fun d => { d with job := none })).tileFrom (siteTile seat .digest engine) q.now

/-- A context command refused at one of its checks counts as any digest command does (R252). -/
def dgstRefuse (p : Part) (seat engine uid : Nat) (status : BitVec 16) (payload : Bytes := []) : Part :=
  (p.bump (regAddr seat (dgstWin engine) 0x0108)).refuse seat uid status payload

/-- DGST_CTX_EXPORT. -/
def digestExport (p : Part) (seat engine : Nat) (c : Cmd) : Part :=
  let t := ticketOf (c.params.take 8)
  let rec_ := (p.ctx (ctxKey t.hand t.index)).data
  let noKey := allZero (slice c.params 8 8)
  let ok := fun (p : Part) (pl : Bytes) => (p.markStart c.uid).seatAnswer seat c.uid Status.done pl
  if c.params.length ≠ 16 then p.dgstRefuse seat engine c.uid Status.lengthMismatch
  else
    let key := if noKey then Except.error 0 else p.contextKey seat c (slice c.params 8 8)
    match noKey, key with
    | false, .error st => p.dgstRefuse seat engine c.uid st
    | _, _ =>
      match p.ticketFault c.hand t with
      | some st => (p.consume t).dgstRefuse seat engine c.uid st
      | none =>
        if field rec_ 0 1 ≠ 2 then (p.freeCtx t).dgstRefuse seat engine c.uid Status.contextInvalid
        else if noKey ≠ (field rec_ 2 1 == 0) then p.dgstRefuse seat engine c.uid Status.keyUsageDenied
        else match key with
          | .ok k => (match p.chargeAll seat c (usesOf [k] [8] c.params [0]) with
            | .ok p => ok (p.freeCtx t) (ctxResponse 2 (wrapCtx k.material rec_))
            | .exhausted => p.dgstRefuse seat engine c.uid Status.keyExhausted
            | .wait p => p)
          | .error _ => ok (p.freeCtx t) (ctxResponse 1 rec_)

/-- The digest record a wrapped form carries. -/
def unwrapDigest (key b : Bytes) : Option Bytes :=
  match kwpUnwrap key (b.drop 32) with
  | some d => if d.length = 256 ∧ d.take 32 = b.take 32 then some d else none
  | none => none

/-- DGST_CTX_IMPORT. -/
def digestImport (p : Part) (seat engine : Nat) (c : Cmd) : Part :=
  let b := c.params
  let form := field b 8 1
  let len := field b 12 4
  let noKey := allZero (slice b 0 8)
  let bad := fun (o : Nat) => p.dgstRefuse seat engine c.uid DgStatus.paramInvalid (toBE 2 o)
  if b.length < 16 ∨ b.length ≠ 16 + len then p.dgstRefuse seat engine c.uid Status.lengthMismatch
  else if form ≠ 1 ∧ form ≠ 2 then bad 8
  else if allZero (slice b 9 3) = false then bad 9
  else if len ≠ (if form = 1 then 256 else 296) then bad 12
  else
    let store := fun (p : Part) (d : Option Bytes) => match d with
      | none => p.dgstRefuse seat engine c.uid Status.contextInvalid
      | some d =>
        if Dg.recordOk d = false ∨ (field d 2 1 == 0) ≠ (form == 1) then p.dgstRefuse seat engine c.uid Status.contextInvalid
        else if field d 4 1 ≠ c.hand then p.dgstRefuse seat engine c.uid Status.accessFault
        else match p.saveCtx c.hand d with
          | (p, some t) => (p.markStart c.uid).seatAnswer seat c.uid Status.done t.bytes
          | (p, none) => p.refuse seat c.uid CtxStatus.storeFull
    if form = 1 then (if noKey then store p (some (b.drop 16)) else p.dgstRefuse seat engine c.uid Status.keyUsageDenied)
    else match p.contextKey seat c (slice b 0 8) with
      | .error st => p.dgstRefuse seat engine c.uid st
      | .ok k => match p.chargeAll seat c (usesOf [k] [0] b [0]) with
        | .ok p => store p (unwrapDigest k.material (b.drop 16))
        | .exhausted => p.dgstRefuse seat engine c.uid Status.keyExhausted
        | .wait p => p

/-- DGST_CTX_DISCARD. -/
def digestDiscard (p : Part) (seat engine : Nat) (c : Cmd) : Part :=
  let t := ticketOf c.params
  if c.params.length ≠ 8 then p.dgstRefuse seat engine c.uid Status.lengthMismatch
  else match p.ticketFault c.hand t with
    | some st => (p.consume t).dgstRefuse seat engine c.uid st
    | none =>
      if field (p.ctx (ctxKey t.hand t.index)).data 0 1 = 2 then ((p.freeCtx t).markStart c.uid).seatAnswer seat c.uid Status.done
      else (p.freeCtx t).dgstRefuse seat engine c.uid Status.contextInvalid

/-! ### The register feed (R259 to R262) -/

/-- A core's claim takes the feed: granted at once on an engine that is awake and free, else when its job ends or its tile has woken (01 R13, R16). -/
def claimTakes (p : Part) (seat core : Nat) : Part :=
  let d := { p.dgst seat 1 with claimAt := some p.now, claimBy := core, claim := none, wanted := none }
  if d.job.isNone ∧ p.tileUp (siteTile seat .digest 1) = true then p.setDgst seat 1 { d with claim := some core, lastAccess := p.now }
  else p.setDgst seat 1 { d with wanted := some core }

/-- A core claims the feed (R259). A claim held or wanted by another core stands, but one written in this same cycle loses to the core that the
rotating pointer reaches first; the pointer is the core after the last winner. -/
def claimFeed (p : Part) (seat core : Nat) : Part :=
  let d := p.dgst seat 1
  let rank := fun (k : Nat) => (k + 4 - d.claimPtr) % 4
  if d.claim = none ∧ d.wanted = none then
    let ptr := if d.claimAt.isSome then (d.claimBy + 1) % 4 else d.claimPtr
    (p.setDgst seat 1 { d with claimPtr := ptr }).claimTakes seat core
  else if d.claim = some core ∨ d.wanted = some core then p
  else if d.claimAt = some p.now ∧ d.reg = none ∧ rank core < rank d.claimBy then p.claimTakes seat core
  else p

/-- Engine B's job has ended and its tile is awake: the claim that waits is granted. -/
def grantClaim (p : Part) (seat : Nat) : Part :=
  let d := p.dgst seat 1
  if d.wanted.isSome ∧ d.job.isNone ∧ d.claim.isNone ∧ p.tileUp (siteTile seat .digest 1) = true then
    let p := p.atTime (p.tile (siteTile seat .digest 1)).scrubEnd
    p.setDgst seat 1 { d with claim := d.wanted, wanted := none, lastAccess := p.now }
  else p

/-- A core writes 0 to CLAIM. -/
def dropClaim (p : Part) (seat core : Nat) : Part :=
  let d := p.dgst seat 1
  if d.claim = some core then p.releaseClaim seat Status.abortedScrubbed
  else if d.wanted = some core then p.setDgst seat 1 { d with wanted := none }
  else p

/-- 10 µs without an access by the claiming core. -/
def claimTimeout (p : Part) (seat : Nat) : Part :=
  let d := p.dgst seat 1
  if d.claim.isSome then (p.atTime (d.lastAccess + usec 10)).releaseClaim seat Status.digestContextPoisoned else p

/-- A write to a feed register: the core must hold the claim, or takes ACCESS_FAULT (R259). DATA, LAST, CMP and EXP keep the claim alive, CTRL does
not (R261). -/
def feedWrite (p : Part) (seat core off : Nat) (f : Part → Part) : Part :=
  p.coreRegister seat core .write (swinDGSTB + off) (fun p =>
    if (p.dgst seat 1).claim = some core then
      f (if off = 0x08 then p else p.updDgst seat 1 (fun d => { d with lastAccess := p.now }))
    else p.endInstance seat core (some Status.accessFault))

/-- The fields a register job names, as those of a command block. -/
def regReq (j : RegJob) : Dg.Req :=
  { alg := j.alg, resume := false, save := false, compare := false, inject := j.inject, outLen := Dg.outLen j.alg j.outLen, cmpLen := 0
    inId := 0, len := some j.len, ticket := ticketOf [] }

/-- The instance's command, as a digest with a given key handle is checked under it. -/
def regCmd (p : Part) (seat core : Nat) (key : BitVec 64) : Option Cmd :=
  ((p.core seat core).uid.bind p.findCmd).map (fun c => { c with code := 0x6001, params := toBE 8 key.toNat })

/-- CTRL with GO: the fields and the key are checked, and the job starts (R260 step 2). A key not yet in the cache is fetched first. A scrub that
still runs on the engine ends first. -/
def feedGo (p : Part) (seat core : Nat) (ctrl : Word) (key len : BitVec 64) : Part :=
  let alg := ctrl.toNat % 16
  let inject := ctrl.toNat / 256 % 4
  let n := ctrl.toNat / 65536 % 64
  let j : RegJob := { alg := alg, inject := inject, outLen := n + 1, len := len.toNat, key := key, begun := p.now }
  let key1 := siteTile seat .digest 1
  let p := if (p.tile key1).st = .scrubbing then p.scrubEnds seat .digest 1 else p
  let d := p.dgst seat 1
  let p := p.setDgst seat 1 { d with ctrl := ctrl &&& 0x003F030F, key := key, len := len, reg := none, res := [], output := [], matched := false
                                     done := false, busy := false, status := 0, hand := (p.core seat core).hand }
  let fail := fun (p : Part) (st : BitVec 16) => p.updDgst seat 1 (fun d => { d with done := true, status := st })
  if alg = 0 ∨ 9 ≤ alg ∨ inject = 3 ∨ (Dg.isShake alg = true ∧ inject ≠ 0) ∨ (Dg.isShake alg = false ∧ n ≠ 0) ∨ 2 ^ 48 < len.toNat ∨
      (inject = 0 ∧ key ≠ 0) then fail p DgStatus.paramInvalid
  else match p.regCmd seat core key with
    | none => p
    | some c =>
      let begin_ := fun (p : Part) => (p.updDgst seat 1 (fun d => { d with reg := some j })).bump (regAddr seat swinDGSTB 0x0100)
      let b := toBE 8 key.toNat
      match p.hmacKey seat c b (inject != 0) (inject == 2) true with
      | .error st => fail p st
      | .ok none => begin_ p
      | .ok (some s) =>
        let slot := (handleOf b).slot
        let p := if (p.cacheEntry seat s.hand slot s.gen).isSome then p
          else
            let p := p.bump (regAddr seat swinKCACHE 0x0108)
            { p with seats := { p.seats with fetching := p.seats.fetching ++ [(seat, slot)] } }.fetched seat slot
        match p.chargeAll seat c (digestUses (some s) b) with
        | .ok p => begin_ p
        | .exhausted => fail p Status.keyExhausted
        | .wait _ => p

/-- The bytes a register job has absorbed, with its injected block. -/
def feedBusy (p : Part) (seat : Nat) (j : RegJob) (cycles : Nat) : Part :=
  p.updDgst seat 1 (fun d => { d with reg := some j, busy := true, due := p.now + cycles })

/-- A DATA write. -/
def feedData (p : Part) (seat : Nat) (value : Word) : Part :=
  let d := p.dgst seat 1
  match d.reg with
  | none => p
  | some j =>
    let fed := j.fed ++ toBE 4 value.toNat
    if d.busy = true ∨ j.lastSeen = true ∨ j.len < fed.length then p.endRegJob seat Status.digestContextPoisoned
    else if fed.length % Dg.block j.alg = 0 then p.feedBusy seat { j with fed := fed } (Dg.cycles j.alg)
    else p.updDgst seat 1 (fun d => { d with reg := some { j with fed := fed } })

/-- The LAST write. -/
def feedLast (p : Part) (seat : Nat) (value : Word) : Part :=
  let d := p.dgst seat 1
  match d.reg with
  | none => p
  | some j =>
    let n := value.toNat % 4
    let fed := j.fed ++ (toBE 4 value.toNat).take n
    if d.busy = true ∨ j.lastSeen = true ∨ value.toNat / 4 % 64 ≠ 0 ∨ fed.length ≠ j.len then p.endRegJob seat Status.digestContextPoisoned
    else
      let keyLen := match p.regCmd seat (d.claim.getD 0) j.key with
        | some c => p.digestKeyLen c
        | none => 0
      let whole := Dg.count (regReq j) j.len 0 keyLen - 200 - (if j.inject = 0 then 0 else 300)
      p.feedBusy seat { j with fed := fed, lastSeen := true } (whole - Dg.cycles j.alg * (j.fed.length / Dg.block j.alg))

/-- A block of the feed ends, that of a keyed job once masks have arrived (R266): BUSY clears; after the last one the output is ready (R260 step 5, R255, R262). A job whose key was erased meanwhile ends
without output (R267). -/
def feedBlock (p : Part) (seat : Nat) : Part :=
  let d := p.dgst seat 1
  match d.reg, d.claim with
  | some j, some core =>
    if d.busy = false then p
    else if j.key ≠ 0 ∧ p.drbgServes seat = false then p.setDgst seat 1 { d with starved := true }
    else
      let p := p.atTime d.due
      if j.lastSeen = false then p.setDgst seat 1 { d with busy := false }
      else
        let b := toBE 8 j.key.toNat
        let key := (p.regCmd seat core j.key).bind (fun c => p.heldKey seat c b)
        if allZero b = false ∧ key.isNone = true then (p.countScrub seat .digest 1).endRegJob seat Status.keyErasedInFlight
        else
          let material := (key.map (·.material)).getD []
          let released := match p.regCmd seat core j.key, key with
            | some c, some s => (p.hmacUsages c s).getLsbD uMacGen
            | _, _ => false
          let m := Dg.injected j.alg j.inject material ++ j.fed
          let out := Dg.finish j.alg (Dg.start j.alg) m m.length (Dg.outLen j.alg j.outLen)
          ((p.setDgst seat 1 { d with busy := false, done := true, status := Status.done, reg := none, output := out, resHand := d.hand.toNat
                                      res := if j.inject = 2 ∧ released = false then [] else out }).payFeed seat j).tileFrom
            (siteTile seat .digest 1) p.now
  | _, _ => p

/-- A CMP write with the expected value (R262). -/
def feedCompare (p : Part) (seat : Nat) (value : Word) (expected : Bytes) : Part :=
  let p := p.updDgst seat 1 (fun d => { d with exp := padTo 64 expected })
  let d := p.dgst seat 1
  let n := value.toNat % 128
  if d.done = false ∨ d.output = [] ∨ n < 4 ∨ d.output.length < n then p
  else (p.wait 32).setDgst seat 1 { d with matched := d.output.take n == d.exp.take n }

end Part

/-! ### Rows -/

def onDigest (seat engine : Nat) (s : State) (f : Part → Part) : Result := onUnit (s.hasSeat seat && engine < 2) s f

def onFeed (seat core : Nat) (s : State) (f : Part → Part) : Result := onUnit (s.hasSeat seat && core < 4) s f

/-- DGST_HASH (R250 to R258). -/
def execDgstHash (seat engine : Nat) (s : State) : Result := onDigest seat engine s (fun p => p.runDigest seat engine)

/-- DGST_CTX_EXPORT (R264). -/
def execDgstCtxExport (seat engine : Nat) (s : State) : Result :=
  onDigest seat engine s (fun p => p.runDigestCtx seat engine 0x6101 (fun p c => p.digestExport seat engine c))

/-- DGST_CTX_IMPORT (R264). -/
def execDgstCtxImport (seat engine : Nat) (s : State) : Result :=
  onDigest seat engine s (fun p => p.runDigestCtx seat engine 0x6102 (fun p c => p.digestImport seat engine c))

/-- DGST_CTX_DISCARD (R264). -/
def execDgstCtxDiscard (seat engine : Nat) (s : State) : Result :=
  onDigest seat engine s (fun p => p.runDigestCtx seat engine 0x6103 (fun p c => p.digestDiscard seat engine c))

/-- DIGEST_JOB_START (R252). -/
def execDigestJobStart (seat engine : Nat) (ecc : Decoded) (s : State) : Result := onDigest seat engine s (fun p => p.startDigest seat engine ecc)

/-- DIGEST_JOB_COMPLETE (R248, R251, R255 to R258, R263). -/
def execDigestJobComplete (seat engine : Nat) (ecc : Decoded) (s : State) : Result :=
  onDigest seat engine s (fun p => p.endDigestRead seat engine ecc)

/-- DIGEST_PARITY_FAULT (R266). -/
def execDigestParityFault (seat engine : Nat) (s : State) : Result := onDigest seat engine s (fun p => p.parityFault seat engine)

/-- DGSTB_CLAIM (R259). -/
def execDgstbClaim (seat core : Nat) (s : State) : Result :=
  onFeed seat core s (fun p => p.coreRegister seat core .write (swinDGSTB + 0x04) (fun p => p.claimFeed seat core))

/-- DGSTB_RELEASE (R261). -/
def execDgstbRelease (seat core : Nat) (s : State) : Result :=
  onFeed seat core s (fun p => p.coreRegister seat core .write (swinDGSTB + 0x04) (fun p => p.dropClaim seat core))

/-- DGSTB_CLAIM_GRANT (R259). -/
def execDgstbClaimGrant (seat : Nat) (s : State) : Result := onUnit (s.hasSeat seat) s (fun p => p.grantClaim seat)

/-- DGSTB_CLAIM_TIMEOUT (R261). -/
def execDgstbClaimTimeout (seat : Nat) (s : State) : Result := onUnit (s.hasSeat seat) s (fun p => p.claimTimeout seat)

/-- DGSTB_GO (R260). -/
def execDgstbGo (seat core : Nat) (ctrl : Word) (key len : BitVec 64) (s : State) : Result :=
  onFeed seat core s (fun p => p.feedWrite seat core 0x08 (fun p => p.feedGo seat core ctrl key len))

/-- DGSTB_DATA (R260). -/
def execDgstbData (seat core : Nat) (value : Word) (s : State) : Result :=
  onFeed seat core s (fun p => p.feedWrite seat core 0x1C (fun p => p.feedData seat value))

/-- DGSTB_LAST (R260). -/
def execDgstbLast (seat core : Nat) (value : Word) (s : State) : Result :=
  onFeed seat core s (fun p => p.feedWrite seat core 0x20 (fun p => p.feedLast seat value))

/-- DGSTB_BLOCK_DONE (R260). -/
def execDgstbBlockDone (seat : Nat) (s : State) : Result := onUnit (s.hasSeat seat) s (fun p => p.feedBlock seat)

/-- DGSTB_CMP (R262). -/
def execDgstbCmp (seat core : Nat) (value : Word) (expected : Bytes) (s : State) : Result :=
  onFeed seat core s (fun p => p.feedWrite seat core 0x24 (fun p => p.feedCompare seat value expected))

end Sys2Proof.Machine
end

