-- ==== Sys2Proof/Machine/Applets.lean ====
section
/-! DEFINITION. Applet instances on the cores (10 R272 to R280), their calls, notices and random reads. The instructions a core executes are the
applet's own; what they do outside the core comes as commands: ecalls, exceptions, stores, register accesses (log 15). -/

namespace Sys2Proof.Machine

namespace ApStatus
def unknown : BitVec 16 := 0x0602
def timeout : BitVec 16 := 0x0603
def trap : BitVec 16 := 0x0604
end ApStatus

/-! ### Layout (R271, R273) -/

def align64 (n : Nat) : Nat := (n + 63) / 64 * 64

def codeAt : Nat := 0x14000
def mailIn : Nat := 0x10000
def mailOut : Nat := 0x12000
def Image.dataAt (i : Image) : Nat := align64 (codeAt + i.code.length)
def Image.workAt (i : Image) : Nat := align64 (i.dataAt + i.data.length)

namespace Part

/-- An image of a hand in the Deal of an epoch. -/
def imageOf (p : Part) (epoch hand id : Nat) : Option Image :=
  (((p.dealOf epoch).map (·.images)).getD []).find? (fun i => i.id = id ∧ i.hand = hand)

/-- A debug session holds a core: a Seat session its Seats, a hand session core 3 of them (R293). -/
def debugHolds (p : Part) (seat core : Nat) : Bool :=
  p.joker.seats.getLsbD seat && (p.joker.scope.toNat == 3 || (p.joker.scope.toNat == 4 && core == 3))

/-- Under a hand session, core 3 of a masked Seat serves that hand alone (R293). -/
def coreServes (p : Part) (seat core hand : Nat) : Bool :=
  !(p.joker.scope.toNat == 4 && core == 3 && p.joker.seats.getLsbD seat) || hand == p.joker.hand.toNat

/-! ### Starting an instance (R275, R276) -/

/-- A core takes an invocation: its block and its image are checked (R275). -/
def invoke (p : Part) (seat core : Nat) : Part :=
  let k := p.core seat core
  if k.run ≠ .idle ∨ p.seatIn seat .inService = false then p
  else match p.nextFor seat .core (fun c => p.coreServes seat core c.hand) with
    | none => p
    | some c =>
      let b := c.params
      let no := fun (st : BitVec 16) => (p.passTurn seat c.hand .core).refuse seat c.uid st
      if b.length < 16 ∨ b.length ≠ 16 + field b 8 4 ∨ 8192 < field b 8 4 ∨ allZero (slice b 4 4) = false ∨ allZero (slice b 12 4) = false then
        no Status.lengthMismatch
      else match p.imageOf c.epoch c.hand (field b 0 4) with
        | none => no ApStatus.unknown
        | some _ =>
          (p.takeEngine c seat .core core c.fixed).updCore seat core (fun k =>
            { k with run := .loading, uid := some c.uid, hand := BitVec.ofNat 8 c.hand, started := p.now })

/-- Zeroizes the bytes of pages a start zeroes, but for the resident code and pristine data (R276 step 2). -/
def zeroPages (p : Part) (seat core : Nat) (keepFrom keepTo : Nat) (pages : List Nat) : Part :=
  let base := sramBase seat core
  p.setSram (p.seats.sram.filter (fun e =>
    !(base ≤ e.1 && e.1 < base + 0x200000 && pages.contains ((e.1 - base) / 4096) && !(keepFrom ≤ e.1 - base && e.1 - base < keepTo))))

/-- Notices a starting instance takes: up to 16 of its hand, as they stand in the output mailbox (14 R390). -/
def takeNotices (p : Part) (seat hand : Nat) : Part × List Notice :=
  let key := seat * 256 + hand
  let mine := (p.seats.appNotices.filter (fun e => e.1 == key)).take 16
  let p := mine.foldl (fun p _ => p.setAppNotices (p.seats.appNotices.eraseP (fun e => e.1 == key))) p
  (p, mine.map (·.2))

/-- The core loads the image over the Seat's link if it is not resident (R274, 01 R7), zeroes what the last instance wrote, copies data, input and notices, and enters the applet. -/
def startInstance (p : Part) (seat core : Nat) : Part :=
  let k := p.core seat core
  match k.uid.bind p.findCmd with
  | none => p
  | some c => match (if k.run = .loading then p.imageOf c.epoch c.hand (field c.params 0 4) else none) with
    | none => p
    | some i =>
      let serial := ((p.dealOf c.epoch).map (·.serial)).getD 0
      let load := decide (k.image ≠ i.id) || decide (k.serial ≠ serial)
      if load = true ∧ p.linkUp seat = false then p else
      let p := if load then
          ((p.wait (usec 1 + (i.code.length + i.data.length) / 50)).writeSram seat core codeAt (padTo (i.dataAt - codeAt) i.code ++ i.data)).bump
            (regAddr seat (swinCORE + core * 0x1000) 0x0118)
        else p
      let image := (codeAt, i.dataAt + i.data.length)
      let pages := if k.lastHand = c.hand then k.dirty
        else (List.range 496).map (· + 16) |>.filter (fun g => !(image.1 ≤ g * 4096 && g * 4096 + 4096 ≤ image.2))
      let p := (p.zeroPages seat core image.1 image.2 pages).wait (nsec (100 + 43 * pages.length) + i.data.length / 32)
      let input := c.params.drop 16
      let (p, notices) := p.takeNotices seat c.hand
      let note := notices.flatMap (Notice.bytes 0)
      let p := ((p.writeSram seat core i.workAt i.data).writeSram seat core mailIn input).writeSram seat core mailOut (note.take 8192)
      let p := p.updCore seat core (fun k =>
        { k with run := .running, image := i.id, serial := serial, started := p.now, dirty := [], calls := [], lastRaise := none, stalledAt := none
                 a0 := BitVec.ofNat 64 input.length, a1 := 0x10000, a2 := BitVec.ofNat 64 notices.length, pc := BitVec.ofNat 64 (codeAt + i.entry) })
      (((p.touch seat core mailIn input.length).touch seat core mailOut (min note.length 8192)).touch seat core i.workAt i.data.length).bump
        (regAddr seat (swinCORE + core * 0x1000) 0x0100)

/-! ### Its end (R277) -/

/-- An end by a trap or by the budget, counted in CORE_TRAP. -/
def trapEnd (p : Part) (seat core : Nat) (status : BitVec 16) (payload : Bytes) (cause : Nat) : Part :=
  ((p.bump (regAddr seat (swinCORE + core * 0x1000) 0x0110)).endInstance seat core (some status) payload cause).sweepDraining seat

/-- An ecall: a7 = 0 ends the instance with its output, anything else traps (cause 8, an ecall from user mode). Its address is the applet's own: a
free value (DESIGN CHOICE, log 15). -/
def ecall (p : Part) (seat core : Nat) (a7 a0 a1 : BitVec 64) : Part :=
  let k := p.core seat core
  if k.run ≠ .running ∨ k.stalledAt.isSome then p
  else if a7 ≠ 0 ∨ 8192 < a1.toNat then (p.draw 8).trapEnd seat core ApStatus.trap (toBE 8 8 ++ p.drawn 8) 8
  else
    let out := p.readSram seat core mailOut a1.toNat
    let payload := toBE 4 (a0.toNat % 2 ^ 32) ++ zeros 4 ++ toBE 4 a1.toNat ++ zeros 4 ++ out
    let p := if (p.dgst seat 1).claim = some core then p.releaseClaim seat Status.abortedScrubbed else p
    let p := p.updDgst seat 1 (fun d => if d.wanted = some core then { d with wanted := none } else d)
    let p := p.updCore seat core (fun k => { k with run := .ending, pendingEnd := some (doneWith payload), a0 := a0, a1 := a1 })
    (p.finishExit seat core).sweepDraining seat

/-- An exception: a trap, a halt at an ebreak while a debug session holds the core, or a hardware error in its SRAM (01 R19). -/
def coreException (p : Part) (seat core : Nat) (kind : CoreException) (cause pc : BitVec 64) : Part :=
  let k := p.core seat core
  if k.run ≠ .running then p
  else
    let p := p.updCore seat core (fun k => { k with pc := pc })
    match kind with
    | .hardwareError => ((p.ecc seat 3 4 (pc.toNat % 2 ^ 32)).endInstance seat core (some Status.abortedScrubbed)).sweepDraining seat
    | .breakpoint =>
      if p.debugHolds seat core then p.updCore seat core (fun k => { k with run := .halted, regs := [(32, pc)] })
      else p.trapEnd seat core ApStatus.trap (toBE 8 cause.toNat ++ toBE 8 pc.toNat) (cause.toNat % 2 ^ 32)
    | .illegalInstruction => p.trapEnd seat core ApStatus.trap (toBE 8 cause.toNat ++ toBE 8 pc.toNat) (cause.toNat % 2 ^ 32)

/-- The image's budget of core cycles is spent. -/
def budgetEnd (p : Part) (seat core : Nat) : Part :=
  let k := p.core seat core
  match k.uid.bind p.findCmd with
  | none => p
  | some c => match (if k.run = .running then p.imageOf c.epoch c.hand k.image else none) with
    | none => p
    | some i => (p.atTime (k.started + 2 * i.budget)).trapEnd seat core ApStatus.timeout [] 0

/-! ### Calls (R278, R279) -/

/-- A doorbell write: the call DMA fetches the descriptor and its parameters through its guard, and the call is placed. -/
def doorbell (p : Part) (seat core : Nat) (value : Word) : Part :=
  p.coreRegister seat core .write (swinCORE + core * 0x1000 + 0x0C) (fun p =>
    if value.toNat % 32 ≠ 0 then p.endInstance seat core (some Status.accessFault)
    else
      let ws := p.masterWindows seat 4 core
      let d := value.toNat
      let p := p.bump (regAddr seat (swinCORE + core * 0x1000) 0x0108)
      if guardAllowsAll ws .read d 32 = false then p.violate seat 4 core .dma d 32 0
      else
        let b := p.readSram seat core d 32
        let n := field b 4 4
        let at_ := field b 8 8
        if guardAllowsAll ws .read at_ n = false then p.violate seat 4 core .dma at_ n 0
        else
          let uid := p.xct.nextUid
          let code := field b 0 2
          let p := p.placeCall seat core value code (p.readSram seat core at_ n)
          let p := p.updCmd uid (fun c => { c with frag := code == 0x6001 && (byteAt b 30).getLsbD 1 })
          p.requestKeys seat uid)

/-! ### Applet data (R280) -/

/-- The first byte of a range of the hand's area, within the applet data region: within the area and within one 4 KiB block. -/
def appRange (p : Part) (c : Cmd) (off len : Nat) : Option Nat :=
  match p.handEntry c.epoch c.hand with
  | none => none
  | some e => if off + len ≤ e.appSize * 1048576 ∧ off / 4096 = (off + len - 1) / 4096 then some (e.appBase * 1048576 + off) else none

def appDataRow (code : Nat) (p : Part) (c : Cmd) : Part :=
  let b := c.params
  let off := field b 0 8
  let len := field b 8 4
  let whole := if code = 0x7101 then 16 else 16 + len
  if b.length < 16 ∨ b.length ≠ whole ∨ len = 0 ∨ 4096 < len ∨ allZero (slice b 12 4) = false then p.lengthFault c.uid
  else match p.appRange c off len with
    | none => p.answer c.uid Status.accessFault
    | some a => p.withVault c (fun p =>
      if p.unsettled (.app (a / 4096)) then p
      else if (List.range ((a % 64 + len + 63) / 64)).any (fun i => p.linePoisoned (appLine (a + 64 * i))) then p.answer c.uid Status.abortedScrubbed
      else if c.epoch = p.deal.epoch ∧ p.appTearing a = true then
        (if code = 0x7101 then p.answer c.uid Status.done (zeros len) else p.answer c.uid Status.busyDraining (p.tearPayload (fun e => e.holds (.app (a / 4096)))))
      else if code = 0x7101 then p.answer c.uid Status.done (Memory.readBytes p.vault.app a len)
      else match p.journalRefusal with
        | some n => p.answer c.uid VStatus.journalUnavailable (reason n)
        | none => (p.parkCmd c.uid).hostMutation (.appData off (b.drop 16)) c.hand c.uid [.app (a / 4096)])

/-! ### Notices and random values (14 R390, 11 R321) -/

/-- NTC_RAISE: at most one notice per 10 µs from a core. -/
def raiseNotice (p : Part) (seat core : Nat) (value : Word) : Part :=
  p.coreRegister seat core .write swinNTC (fun p =>
    let k := p.core seat core
    if k.lastRaise.any (fun t => p.now < t + usec 10) then p.bump (regAddr seat swinNTC 0x0108)
    else (p.updCore seat core (fun k => { k with lastRaise := some p.now })).notice (seatSource seat (48 + core)) 0x0F20 1 k.hand.toNat
      (toBE 4 k.image ++ toBE 4 value.toNat))

/-- TRNG_OUT: 32 fresh bits, or a stall while the DRBG gives none. -/
def readRandom (p : Part) (seat core : Nat) : Part :=
  p.coreRegister seat core .read (swinTRNG + 0x10) (fun p =>
    if p.drbgServes seat then (p.updCore seat core (fun k => { k with lastRandom := BitVec.ofNat 32 (be (p.drawn 4)) })).drbgTakes seat 4
    else p.updCore seat core (fun k => { k with stalledAt := some p.now }))

/-- 20 µs pass on a stopped DRBG: a hardware error (R321). -/
def randomTimeout (p : Part) (seat core : Nat) : Part :=
  match (p.core seat core).stalledAt with
  | none => p
  | some t =>
    if p.drbgServes seat then p
    else ((p.atTime (t + usec 20)).endInstance seat core (some Status.abortedScrubbed)).sweepDraining seat

end Part

/-! ### Rows -/

def onCore (seat core : Nat) (s : State) (f : Part → Part) : Result := onUnit (s.hasSeat seat && core < 4) s f

/-- APPLET_INVOKE (R275). -/
def execAppletInvoke (seat core : Nat) (s : State) : Result := onCore seat core s (fun p => p.invoke seat core)

/-- APPLET_INSTANCE_START (R276, 14 R390). -/
def execAppletInstanceStart (seat core : Nat) (s : State) : Result := onCore seat core s (fun p => p.startInstance seat core)

/-- APPLET_ECALL (R277). -/
def execAppletEcall (seat core : Nat) (a7 a0 a1 : BitVec 64) (s : State) : Result := onCore seat core s (fun p => p.ecall seat core a7 a0 a1)

/-- APPLET_EXCEPTION (R277, 01 R19). -/
def execAppletException (seat core : Nat) (kind : CoreException) (cause pc : BitVec 64) (s : State) : Result :=
  onCore seat core s (fun p => p.coreException seat core kind cause pc)

/-- APPLET_BUDGET_EXPIRED (R277). -/
def execAppletBudgetExpired (seat core : Nat) (s : State) : Result := onCore seat core s (fun p => p.budgetEnd seat core)

/-- CORE_DOORBELL (R278, R279, R287). -/
def execCoreDoorbell (seat core : Nat) (value : Word) (s : State) : Result := onCore seat core s (fun p => p.doorbell seat core value)

/-- APPDATA_READ (R280). -/
def execAppdataRead (o : Origin) (b : Bytes) (s : State) : Result := powered s (fun p => p.serve o 0x7101 b (Part.appDataRow 0x7101))

/-- APPDATA_WRITE (R280). -/
def execAppdataWrite (o : Origin) (b : Bytes) (s : State) : Result := powered s (fun p => p.serve o 0x7102 b (Part.appDataRow 0x7102))

/-- NTC_RAISE (14 R390). -/
def execNtcRaise (seat core : Nat) (value : Word) (s : State) : Result := onCore seat core s (fun p => p.raiseNotice seat core value)

/-- TRNG_OUT_READ (11 R321). -/
def execTrngOutRead (seat core : Nat) (s : State) : Result := onCore seat core s (fun p => p.readRandom seat core)

/-- TRNG_OUT_TIMEOUT (11 R321). -/
def execTrngOutTimeout (seat core : Nat) (s : State) : Result := onCore seat core s (fun p => p.randomTimeout seat core)

end Sys2Proof.Machine
end

