-- ==== Sys2Proof/Machine/Dealing.lean ====
section
/-! DEFINITION. The dispatcher's dealing (04 R94 to R103, R457), lane duty (04 R113), the tiles' clock gating (01 R13 to R16) and the Rihotu
links (01 R20, R21). -/

namespace Sys2Proof.Machine

/-- What the dispatcher makes of the head of a hand queue (R97, R100). -/
inductive Choice where
  | deal (seat : Nat) (tie : Bool)
  | wait
  | unserved
deriving DecidableEq, Repr

namespace Part

/-! ### Predictions (R98, R99, R101) -/

/-- A core of the Seat holds the invoked image (10 R274). -/
def imageResident (p : Part) (seat : Nat) (c : Cmd) : Bool :=
  (List.range 4).any (fun k => let x := p.core seat k
                               x.image == field c.params 0 4 && x.image != 0 && some x.serial == (p.dealOf c.epoch).map (·.serial))

/-- Load, if the image is not resident, and start of an instance: the fixed part of an invocation (10 R274, R276). -/
def appletFixed (p : Part) (seat : Nat) (c : Cmd) : Nat :=
  match p.imageOf c.epoch c.hand (field c.params 0 4) with
  | none => 0
  | some i => (if p.imageResident seat c then 0 else 3000 + (i.code.length + i.data.length) / 50) + 300 + i.data.length / 32

/-- The fixed time of a job by its own chapter, in engine cycles (R99). -/
def fixedOf (p : Part) (seat : Nat) (c : Cmd) : Nat :=
  let c := { c with seat := seat }
  match siteOf c.code with
  | some .tu => p.tuFixed c
  | some .lane =>
    let r := Lane.req c.code c.params
    if c.code < 0x4100 then Lane.cycles r (Lane.peek r c.params (p.ticketRec c.hand r)).unit else 0
  | some .pke => p.pkeFixed c
  | some .digest => p.digestFixed c
  | some .core => p.appletFixed seat c
  | none => 0

/-- The Seats the affinity directory names for a slot: newer first (R98). -/
def namedFor (p : Part) (slot : Nat) : List Nat :=
  match Sparse.get? p.disp.affinity (slot % 2 ^ 20) with
  | some e => if e.slot = slot then e.seats else []
  | none => []

/-- The affinity Seats of a command: by its first key handle, or by the image it invokes (R98, 10 R274). -/
def affinityOf (p : Part) (c : Cmd) : List Nat :=
  if siteOf c.code = some .core then p.seatNums.filter (fun n => p.imageResident n c)
  else match affinitySlot c.code c.params with
    | some s => p.namedFor s
    | none => []

/-- An engine of the class is Running or Idle on the Seat. -/
def anyAwake (p : Part) (seat : Nat) (site : Site) : Bool :=
  site == .core || (List.range site.count).any (fun i =>
    let t := (p.tile (siteTile seat site i)).st
    t == .running || t == .idle || t == .scrubbing)

/-- The predicted time of a job on a Seat (R99). -/
def predictOn (p : Part) (seat : Nat) (site : Site) (c : Cmd) : Nat :=
  p.fixedOf seat c + nsec (p.overhead seat site) +
  (match affinitySlot c.code c.params with
    | some s => if site = .core ∨ (p.namedFor s).contains seat then 0 else nsec 600
    | none => 0) +
  (if p.anyAwake seat site then 0 else nsec 160)

/-- When the job a command runs on its engine began; now where it runs on none. -/
def startedAt (p : Part) (c : Cmd) : Nat :=
  let of := fun (j : Option Job) => j.bind (fun j => if j.uid = c.uid then some j.start else none)
  match c.place with
  | .engine s .tu i => (of (p.tu s i)).getD p.now
  | .engine s .lane i => (((p.lane s i).slots.find? (fun e => e.2.uid == c.uid)).map (·.2.start)).getD p.now
  | .engine s .pke i => ((of (p.pke s i).bank0).orElse (fun _ => of (p.pke s i).bank1)).getD p.now
  | .engine s .digest i => (of (p.dgst s i).job).getD p.now
  | .engine s .core i => (p.core s i).started
  | _ => p.now

/-- Predicted remaining time of the jobs of a class queued or running on a Seat, in cycles: the sum of R99. A shed Seat has none (R116). -/
def loadOf (p : Part) (seat : Nat) (site : Site) : Nat :=
  if p.seatIn seat .shed then 0
  else
    (p.xct.cmds.filter (fun c => siteOf c.code == some site && c.onSeat seat)).foldl (fun n c =>
      let whole := if c.isCall then p.predictOn seat site c else c.predicted
      match c.place with
      | .link _ => n + whole
      | .seatQ _ => n + whole
      | .engine .. => n + (whole - (p.now - p.startedAt c))
      | _ => n) 0

/-- wait(s, c) in cycles (R99). -/
def waitOn (p : Part) (seat : Nat) (site : Site) : Nat := p.loadOf seat site / site.count

/-- A sender's replay buffer: the last 64 flits it has not seen acknowledged, here the descriptors on their way to a Seat, oldest first, or the
responses on their way back (R20). -/
def replayBuffer (p : Part) (seat : Nat) (toDealer : Bool) : List Cmd :=
  let l := p.xct.cmds.filter (fun c => c.place == (if toDealer then .up seat else .link seat))
  (l.mergeSort (fun a b => if toDealer then a.doneSeq ≤ b.doneSeq else a.dealSeq ≤ b.dealSeq)).take 64

/-! ### Choosing a Seat (R95, R97, R100, 02 R55) -/

/-- A Seat that becomes private to the command's hand takes none of its new-epoch work yet (02 R55). -/
def heldPrivate (p : Part) (c : Cmd) (seat : Nat) : Bool := (p.seat seat).privFor == some c.hand && c.epoch == p.deal.epoch

/-- The Seat runs the structure of the command's epoch: new-epoch work waits for the Seat's epoch flip (02 R47, R51). -/
def flipped (p : Part) (c : Cmd) (seat : Nat) : Bool := c.epoch ≤ (p.seat seat).epoch

/-- The Seat's local queue for the class has room (R95). -/
def hasRoom (p : Part) (seat : Nat) (site : Site) : Bool := (p.waitingOn seat site).length < site.depth

/-- Of the Seats with the least load, the first at or after the pointer; with whether there was a tie (R100). -/
def leastOf (p : Part) (site : Site) (l : List Nat) : Option (Nat × Bool) :=
  match l with
  | [] => none
  | a :: r =>
    let m := r.foldl (fun m s => min m (p.loadOf s site)) (p.loadOf a site)
    let tied := l.filter (fun s => p.loadOf s site = m)
    (turnOf tied p.disp.seatPtr).map (fun s => (s, decide (1 < tied.length)))

/-- `deal(cmd)` of R100, for the head of a hand queue. -/
def choose (p : Part) (c : Cmd) (site : Site) : Choice :=
  let perm := p.permitted c
  let usable := perm.filter (fun n => p.seatIn n .inService && !(p.heldPrivate c n) && p.flipped c n)
  if !(perm.any (fun n => p.seatIn n .inService || p.seatIn n .held || p.seatIn n .selfTest)) then .unserved
  else if (c.cls == .long && p.guard.dealerCap) || !(p.orderedTurn c) || usable.isEmpty then .wait
  else
    let room := usable.filter (fun n => p.hasRoom n site && p.linkUp n && (p.replayBuffer n false).length < 64)
    match p.leastOf site room with
    | none => .wait
    | some (best, tie) =>
      match (if p.disp.affEn then p.leastOf site (room.filter (fun n => (p.affinityOf c).contains n)) else none) with
      | some (a, tieA) => if p.loadOf a site ≤ p.loadOf best site + 30 * p.disp.slack.toNat * site.count then .deal a tieA else .deal best tie
      | none => .deal best tie

/-- Deals a command to a Seat (R96, R100): its descriptor goes out on the link. -/
def dealTo (p : Part) (c : Cmd) (site : Site) (seat : Nat) (tie : Bool) : Part :=
  let named := p.affinityOf c
  let predicted := p.predictOn seat site c
  let fixed := p.fixedOf seat c
  let d := p.disp
  let affinity := match (if site = .core then none else affinitySlot c.code c.params) with
    | some s => if (p.namedFor s).contains seat then d.affinity
      else Sparse.put d.affinity (s % 2 ^ 20) { slot := s, seats := seat :: (p.namedFor s).take 1 }
    | none => d.affinity
  let p := p.setDisp { d with affinity := affinity, dealSeq := d.dealSeq + 1
                              seatPtr := if tie then seat % p.seatCount + 1 else d.seatPtr
                              handPtr := (c.hand + 1) % 256 }
  let p := p.updCmd c.uid (fun c => { c with place := .link seat, seat := seat, dealSeq := d.dealSeq + 1, dealtAt := p.now, fixed := fixed
                                             predicted := predicted, missed := false, woke := false })
  let p := p.bump (regAddr 0 winDISP 0x0100)
  let p := p.arbServe (8 + seat) 7
  if named ≠ [] ∧ named.contains seat = false then p.bump (regAddr 0 winDISP 0x0108) else p

/-! ### Passes (R457) -/

/-- The queue of a hand and class (R94). -/
def handQueue (p : Part) (hand : Nat) (cls : Cls) : List Cmd := p.xct.cmds.filter (fun c => c.place == .queued && c.hand == hand && c.cls == cls)

/-- The first command of a queue whose ordered turn has come; one that only ordered commands of its own session hold back, it itself being
unordered, passes them (R106). `before` holds the commands passed. -/
def firstInTurn (p : Part) (before : List Cmd) : List Cmd → Option Cmd
  | [] => none
  | c :: r =>
    if p.orderedTurn c && before.all (fun d => d.sameSession c && !c.ordered) then some c else p.firstInTurn (c :: before) r

/-- The head of the queue of a hand and class. -/
def queueHead (p : Part) (hand : Nat) (cls : Cls) : Option Cmd :=
  let q := p.handQueue hand cls
  (p.firstInTurn [] q).orElse (fun _ => q.head?)

/-- The queues that hold work, in the order of a round: hands from the pointer on, Trump, Plain, Long. -/
def queuesInTurn (p : Part) : List (Nat × Cls) :=
  let hands := (List.range 256).map (fun i => (p.disp.handPtr + i) % 256)
  hands.flatMap (fun h => ([Cls.trump, .plain, .long].filter (fun k => (p.queueHead h k).isSome)).map (fun k => (h, k)))

/-- One queue's turn in a round: in the first round only the head of a hand below its guarantee is dealt. Where no permitted Seat is left, the whole
queue is answered (R97). Answers whether it was served. -/
def serveQueue (p : Part) (first : Bool) (q : Nat × Cls) : Part × Bool :=
  match p.queueHead q.1 q.2 with
  | none => (p, false)
  | some c => match siteOf c.code with
    | none => (p, false)
    | some site => match p.choose c site with
      | .deal s tie => if !first || p.belowShare s c.hand c.epoch site then (p.dealTo c site s tie, true) else (p, false)
      | .wait => (p, false)
      | .unserved =>
        if first then (p, false)
        else
          let lost := p.handQueue q.1 q.2
          (lost.foldl (fun p d => (p.answer d.uid Status.handNotServed).bump (regAddr 0 winDISP 0x0120)) p, true)

/-- One pass: at most one command of each queue, in two rounds. Both rounds take the queues from where the pointer stood when the pass began
(DESIGN CHOICE, log 22). -/
def dealPass (p : Part) : Part × Bool :=
  let queues := p.queuesInTurn
  let round := fun (first : Bool) (acc : Part × List (Nat × Cls)) =>
    queues.foldl (fun (acc : Part × List (Nat × Cls)) q =>
      if acc.2.contains q then acc
      else
        let (p, served) := acc.1.serveQueue first q
        (p, if served then q :: acc.2 else acc.2)) acc
  let (p, done) := round false (round true (p, []))
  (p, !done.isEmpty)

/-- Passes until no head can be dealt. -/
def dealPasses : Nat → Part → Part
  | 0, p => p
  | n + 1, p =>
    let (q, more) := p.dealPass
    if more then dealPasses n q else q

/-! ### Lane duty (R113) -/

/-- The duty a lane may reach: half while the Dealer's thermal report stands (12 R332). -/
def dutyCap (p : Part) : Nat := if p.guard.dealerCap then 2 else 4

/-- A lane with work rises by one quarter, at most once per 100 ns; its step is anted, 60 ns ahead of it (R110). -/
def raiseDuty (p : Part) (seat lane : Nat) : Part :=
  let l := p.lane seat lane
  if (p.tile (siteTile seat .lane lane)).st = .running ∧ l.slots ≠ [] ∧ l.duty.toNat < p.dutyCap ∧ l.dutyAt + nsec 100 ≤ p.now + nsec 60 ∧
      p.anted seat 1 lane = false then p.postAnte seat 1 lane
  else p

/-- Engine B of a Seat is woken for a register feed that holds it (09 R259). -/
def wakeFeed (p : Part) (seat : Nat) : Part :=
  let t := p.tile (siteTile seat .digest 1)
  if ((p.dgst seat 1).claim.isSome ∨ (p.dgst seat 1).wanted.isSome) ∧ (t.st = .gated ∨ t.st = .idle ∨ t.st = .poweringDown) ∧
      t.demand = none ∧ p.anted seat 3 1 = false then p.postAnte seat 3 1
  else p

/-- Accounts open for every hand whose work, calls of its applets among it, is queued for a Seat, and close where none is left (R93, R102). -/
def tendShares (p : Part) : Part :=
  let p := p.xct.cmds.foldl (fun p c => match siteOf c.code, c.place with
    | some site, .queued => ((p.permitted c).filter (fun n => p.seatIn n .inService)).foldl (fun p n => p.openShare n c.hand site) p
    | some site, .link n => p.openShare n c.hand site
    | some site, .seatQ n => p.openShare n c.hand site
    | _, _ => p) p
  p.setDisp { p.disp with shares := p.disp.shares.filter (fun s => p.queuedFor s.seat s.hand s.site) }

/-- The dispatcher's Dealer cycle: the accounts, the passes, then the wakes and duty rises that dealt work needs (R110, R457). A Dealer Hold stops it
(12 R334). -/
def dispatch (p : Part) : Part :=
  if p.guard.dealerHold.isSome then p
  else
    let p := dealPasses (p.xct.cmds.length + 1) p.tendShares
    p.inService.foldl (fun p n =>
      let p := [Site.tu, .lane, .pke, .digest].foldl (fun p k => p.wakeFor n k) p
      ((p.raiseDuty n 0).raiseDuty n 1).wakeFeed n) p

/-! ### The end of a dealt command (R101, R115) -/

/-- A Seat's response reaches the Dealer. -/
def responseArrives (p : Part) (seat uid : Nat) : Part :=
  match p.findCmd uid with
  | none => p
  | some c =>
    if c.place ≠ .up seat then p
    else
      let p := match siteOf c.code with
        | some site => p.learn c seat site
        | none => p
      ((((p.countAnswer c.status).updCmd uid (fun c => { c with place := .xct })).ordered uid).noteDrain).sweepDraining seat

/-! ### Tiles (01 R13 to R15) -/

/-- A demanded tile's clock runs. A lane starts at one quarter of its duty; one that leaves Gated takes a fresh mask seed (07 R205), and one that
was Idle goes on with the cycles its seed has left. -/
def tileWakes (p : Part) (seat group index : Nat) : Part :=
  let key := tileKey seat group index
  let t := p.tile key
  match t.demand with
  | none => p
  | some d =>
    if t.st = .gated ∨ t.st = .idle then
      let p := p.atTime d
      let p := p.updTile key (fun t => { t with st := .running, since := p.now, demand := none })
      if group ≠ 1 then p
      else if t.st = .idle then
        p.updLane seat index (fun l => { l with duty := 1, dutyAt := p.now, seedDue := l.seedDue + (p.now - t.since) })
      else if p.drbgServes seat then
        ((p.drbgTakes seat 64).bump (regAddr seat (laneWin index) 0x0128)).updLane seat index (fun l =>
          { l with duty := 1, dutyAt := p.now, seeded := true, requested := false, seedDue := p.now + 65536 })
      else p.updLane seat index (fun l => { l with duty := 1, dutyAt := p.now, seeded := false, requested := true, seedDue := p.now, starved := true })
    else p

/-- The engine kind of a tile group. -/
def siteOfGroup (group : Nat) : Site := if group = 0 then .tu else if group = 1 then .lane else if group = 2 then .pke else .digest

/-- A tile whose work and queue have ended 16 cycles ago is clock-gated; a lane's duty falls to zero. -/
def tileIdles (p : Part) (seat group index : Nat) : Part :=
  let site := siteOfGroup group
  let key := tileKey seat group index
  let t := p.tile key
  let fed := group == 3 && index == 1 && ((p.dgst seat 1).claim.isSome || (p.dgst seat 1).wanted.isSome)
  if t.st = .running ∧ p.engineBusy seat site index = false ∧ (p.waitingOn seat site).isEmpty ∧ fed = false then
    let p := p.atTime (max t.since t.scrubEnd + 16)
    let p := p.updTile key (fun t => { t with st := .idle, since := p.now })
    if group = 1 then p.updLane seat index (fun l => { l with duty := 0 }) else p
  else p

/-- After 20 µs in Idle a tile with no demand, and no live data in its operand memory, begins to power down (R13, R14). -/
def tileGates (p : Part) (seat group index : Nat) : Part :=
  let key := tileKey seat group index
  let t := p.tile key
  if t.st = .idle ∧ t.demand = none ∧ p.engineBusy seat (siteOfGroup group) index = false then
    let p := p.atTime (t.since + usec 20)
    p.updTile key (fun t => { t with st := .poweringDown, since := p.now })
  else p

/-- The 40 ns of a power-down are over, and a lane's seed is gone with its power; a demand that came meanwhile is served from now on. -/
def tileGated (p : Part) (seat group index : Nat) : Part :=
  let key := tileKey seat group index
  let t := p.tile key
  if t.st = .poweringDown then
    let p := p.atTime (t.since + nsec 40)
    let p := if group = 1 then
        (p.bump (regAddr seat (laneWin index) 0x0130) (p.stalled seat index)).updLane seat index (fun l => { l with seeded := false, seedDue := 0 })
      else p
    p.updTile key (fun t => { t with st := .gated, since := p.now, demand := t.demand.map (fun d => max d p.now) })
  else p

/-! ### Rihotu links (01 R20, R21, R27) -/

/-- A replay request: counted, saturating with its record. -/
def replayRequest (p : Part) (seat : Nat) (toDealer : Bool) : Part :=
  let old := (p.seat seat).replay
  (p.updSeat seat (fun s => { s with
    replay := satIncr old, fails := if toDealer then s.fails else s.fails + 1, failsUp := if toDealer then s.failsUp + 1 else s.failsUp })).saturating
    seat swinFAB 4 (seatSource seat 55) old

/-- A flit reaches an end of a link that is up. One that is good and in sequence is taken and acknowledged: a Seat's response in the order it
was sent, or the next descriptor. Any other is discarded, with a replay request. Responses wait on their Seat during a Dealer Hold (12 R334). -/
def flit (p : Part) (seat : Nat) (toDealer : Bool) (seq : BitVec 16) (crcOk : Bool) (ecc : Decoded) (response : Option Nat) : Part :=
  let x := p.seat seat
  let next := (p.replayBuffer seat toDealer).head?.map (·.uid)
  if x.link ≠ 1 ∨ (toDealer = true ∧ response.isSome = true ∧ (p.guard.dealerHold.isSome = true ∨ next ≠ response)) then p
  else
    let p := p.decoded (if toDealer then 0 else seat) ecc locLink seat
    if crcOk = true ∧ ecc ≠ .uncorrectable ∧ seq = (if toDealer then x.txSeq else x.rxSeq) then
      let p := p.updSeat seat (fun s =>
        if toDealer then { s with txSeq := s.txSeq + 1, failsUp := 0 } else { s with rxSeq := s.rxSeq + 1, fails := 0 })
      match toDealer, response with
      | true, some uid => p.responseArrives seat uid
      | true, none => p
      | false, _ => p.descriptorArrives seat .clean
    else p.replayRequest seat toDealer

/-- A retraining begins: counted, saturating with its record. -/
def startRetrain (p : Part) (seat : Nat) : Part :=
  let old := (p.seat seat).retrain
  let p := p.updSeat seat (fun s => { s with link := 2, retrain := if old = 0xFFFF then old else old + 1 })
  if old.toNat + 1 = 0xFFFF then p.event (seatSource seat 55) 0x0F12 2 seat 0 swinFAB 8 0 else p

/-- After 8 failed replays of one flit the link retrains and holds its traffic. -/
def retrain (p : Part) (seat : Nat) : Part :=
  let x := p.seat seat
  if x.link = 1 ∧ (9 ≤ x.fails ∨ 9 ≤ x.failsUp) then p.startRetrain seat else p

/-- A retraining ends: the link is up again, or it is tried again; the third failure in succession sheds the Seat. -/
def retrained (p : Part) (seat : Nat) (ok : Bool) : Part :=
  let x := p.seat seat
  if x.link ≠ 2 then p
  else
    let p := p.event (seatSource seat 55) 0x0F14 2 seat 0 seat x.retrain.toNat (if ok then 0 else 1)
    if ok then p.updSeat seat (fun s => { s with link := 1, fails := 0, failsUp := 0, failedTrainings := 0 })
    else if x.failedTrainings + 1 < 3 then (p.updSeat seat (fun s => { s with failedTrainings := s.failedTrainings + 1 })).startRetrain seat
    else
      let p := p.updSeat seat (fun s => { s with failedTrainings := 0, link := 3, fails := 0, failsUp := 0 })
      if p.seatIn seat .shed then p else p.shedSeat seat false 0 0 0

end Part

/-! ### Rows -/

/-- A tile of a Seat. -/
def onTile (seat group index : Nat) (s : State) (f : Part → Part) : Result := onUnit (s.hasSeat seat && group < 4 && index < groupTiles group) s f

/-- DISPATCH_PASS (04 R457). -/
def execDispatchPass (s : State) : Result := powered s (fun p => p.dispatch)

/-- TILE_WAKE_COMPLETE (01 R13). -/
def execTileWakeComplete (seat group index : Nat) (s : State) : Result := onTile seat group index s (fun p => p.tileWakes seat group index)

/-- TILE_IDLE_ENTER (01 R13). -/
def execTileIdleEnter (seat group index : Nat) (s : State) : Result := onTile seat group index s (fun p => p.tileIdles seat group index)

/-- TILE_GATE_ENTER (01 R13, R14). -/
def execTileGateEnter (seat group index : Nat) (s : State) : Result := onTile seat group index s (fun p => p.tileGates seat group index)

/-- TILE_POWER_DOWN_COMPLETE (01 R15). -/
def execTilePowerDownComplete (seat group index : Nat) (s : State) : Result :=
  onTile seat group index s (fun p => p.tileGated seat group index)

/-- LINK_FLIT_RECEIVE (01 R20). -/
def execLinkFlitReceive (seat : Nat) (toDealer : Bool) (seq : BitVec 16) (crcOk : Bool) (ecc : Decoded) (response : Option Nat)
    (s : State) : Result :=
  onUnit (s.hasSeat seat) s (fun p => p.flit seat toDealer seq crcOk ecc response)

/-- LINK_RETRAIN (01 R21). -/
def execLinkRetrain (seat : Nat) (s : State) : Result := onUnit (s.hasSeat seat) s (fun p => p.retrain seat)

/-- LINK_RETRAIN_COMPLETE (01 R21). -/
def execLinkRetrainComplete (seat : Nat) (ok : Bool) (s : State) : Result := onUnit (s.hasSeat seat) s (fun p => p.retrained seat ok)

end Sys2Proof.Machine
end

