-- ==== Sys2Proof/Machine/Lattice.lean ====
section
/-! DEFINITION. The sensor lattice and the TRNG (11): antes and their learning, the measurements that make witnesses, calibration, reseeding. -/

namespace Sys2Proof.Machine

/-! ### The ante table (R306 to R310), in units of 0.25 mV -/

/-- The fused nominal of an entry: at most 60 mV, and not decreasing as the step class rises (R310). -/
def anteNominal (die group : Nat) : Nat → Nat
  | 0 => min 240 (Config.anteNominal die 0 group)
  | c + 1 => max (anteNominal die group c) (min 240 (Config.anteNominal die (c + 1) group))

/-- env_min and env_max (R309, R310). -/
def anteMin (die group cls : Nat) : Nat := anteNominal die group cls - Config.anteDown die cls group

def anteMax (die group cls : Nat) : Nat :=
  let n := anteNominal die group cls
  min 240 (min (n + n / 2) (n + Config.anteUp die cls group))

/-- The entry after a window's peak, before the clamp, in eighths of a unit: it moves by an eighth of the difference, at most 1 mV (R309). -/
def anteStep (entry peak : Nat) : Nat := (8 * (entry : Int) + max (-32) (min 32 ((peak : Int) - entry))).toNat

/-- A value in eighths of a unit, between units rounded towards the nominal (R309). -/
def anteRound (nominal eighths : Nat) : Nat := if eighths < 8 * nominal then (eighths + 7) / 8 else eighths / 8

namespace Part

def latWin (die : Nat) : Nat := if die = 0 then winLAT else swinLAT

def latBump (p : Part) (die offset : Nat) : Part := p.bump (regAddr die (latWin die) offset)

/-- A lattice record: class and index in parameter 1 (R322). -/
def latRecord (p : Part) (die : Nat) (code : BitVec 16) (sev cls index p2 p3 : Nat) : Part :=
  p.record code sev die (BitVec.ofNat 32 (index % 65536 * 256 + cls * 16)) (BitVec.ofNat 32 p2) (BitVec.ofNat 32 p3)

/-- An entry of the ante table: the learned one, or the nominal. -/
def anteEntry (p : Part) (die group cls : Nat) : Nat :=
  match Sparse.get? (p.lat die).entries (group * 16 + cls) with
  | some v => v.toNat
  | none => anteNominal die group cls

/-- The engine cycle a 32-bit Dealer cycle count near the present stands for (R306). -/
def cycleOf (p : Part) (start : Nat) : Nat :=
  let d := (start + 2 ^ 32 - p.dealerCycle) % 2 ^ 32
  if d < 2 ^ 31 then p.now / 2 * 2 + 2 * d else p.now / 2 * 2 - 2 * (2 ^ 32 - d)

/-- Tiles of a group of a die: those of a Seat, or the Dealer's units (16 R412). -/
def dieTiles (die group : Nat) : Nat := if die = 0 then 2 else groupTiles group

/-- The tiles of a taken ante are demanded at its start time; a running lane's duty rises by a quarter (04 R110, R113). -/
def anteDemand (p : Part) (die group tiles ts : Nat) : Part :=
  ((List.range (groupTiles group)).filter (fun i => tiles.testBit i)).foldl (fun p i =>
    let key := tileKey die group i
    if (p.tile key).st = .running then
      if group = 1 then p.updLane die i (fun l => { l with duty := BitVec.ofNat 3 (min (l.duty.toNat + 1) p.dutyCap), dutyAt := max ts (l.dutyAt + nsec 100) }) else p
    else p.updTile key (fun t => { t with demand := if t.demand.isSome then t.demand else some ts })) p

/-- A flit with a reserved bit set is discarded, and what waited for its tiles is dealt again (04 R114). -/
def rejectAnte (p : Part) (die : Nat) (f : AnteFlit) : Part :=
  let p := p.event (seatSource die 53) 0x0F15 2 die 0 (field f.bytes 0 4) (field f.bytes 4 4) 0
  let site := siteOfGroup (field f.bytes 0 1 % 4)
  if die = 0 then p
  else (p.xct.cmds.filter (fun c => !c.isCall && siteOf c.code == some site && (c.place == .link die || c.place == .seatQ die))).foldl
    (fun p c => p.redeal die c) p

/-- A flit that uses no reserved bit. -/
def anteFlitOk (die : Nat) (b : Bytes) : Bool :=
  field b 0 1 < 4 && field b 1 1 < 16 && field b 2 2 < 2 ^ dieTiles die (field b 0 1)

/-- The shell takes a die's next ante, at most 40 ns after it was posted: the widening starts, and the wake is demanded. -/
def takeAnte (p : Part) (die : Nat) : Part :=
  match (if die = 0 || p.linkUp die then p.disp.flits.find? (fun f => f.die = die) else none) with
  | none => p
  | some f =>
    let p := p.setDisp { p.disp with flits := p.disp.flits.erase f }
    if anteFlitOk die f.bytes = false then p.rejectAnte die f
    else
      let group := field f.bytes 0 1
      let cls := field f.bytes 1 1
      let ts := p.cycleOf (field f.bytes 4 4)
      let p := p.atTime (ts - nsec 20)
      let w : AnteWindow := { group := group, cls := cls, units := p.anteEntry die group cls, from_ := max p.now (ts - nsec 10), until_ := ts + nsec 1500 }
      let p := p.latBump die 0x0100
      let p := if ts < p.now then p.latBump die 0x0108 else p
      let p := p.updLat die (fun l => { l with windows := w :: l.windows })
      if die = 0 then p else p.anteDemand die group (field f.bytes 2 2) ts

/-- The widening of a group's comparators in 1/16 mV: by the entry, or by a quarter of it on the die's other groups; in sum at most 64 mV (R299,
R307). -/
def widening (p : Part) (die group : Nat) : Nat :=
  min 1024 (((p.lat die).windows.filter (fun w => w.from_ ≤ p.now && p.now < w.until_)).foldl (fun n w =>
    n + (if w.group = group then 4 * w.units else w.units)) 0)

/-- An entry learns from its window's peak. A clamp at env_max is counted and recorded, for the comparator that saw the peak. -/
def learnAnte (p : Part) (die : Nat) (w : AnteWindow) (peak : Nat) : Part :=
  let key := w.group * 16 + w.cls
  let want := anteStep (p.anteEntry die w.group w.cls) peak
  let top := 8 * anteMax die w.group w.cls
  let new := anteRound (anteNominal die w.group w.cls) (max (8 * anteMin die w.group w.cls) (min want top))
  let p := p.updLat die (fun l => { l with entries := Sparse.put l.entries key (BitVec.ofNat 8 new) })
  if top < want then
    let per := if die = 0 then 8 else 12
    let index := w.group * per + be (p.drawn 1) % per
    ((p.draw 1).latBump die 0x0110).latRecord die 0x0742 1 1 index key peak
  else p

/-- The oldest open window of a group ends. Its peak belongs to it unless a later window of the group overlaps it; a droop witness of the die
within it forbids learning (R309). -/
def endAnte (p : Part) (die group : Nat) (peak : BitVec 8) : Part :=
  let mine := (p.lat die).windows.filter (fun w => w.group = group)
  match mine.getLast? with
  | none => p
  | some w =>
    let p := p.atTime w.until_
    let p := p.updLat die (fun l => { l with windows := l.windows.erase w })
    if mine.dropLast.any (fun v => v.from_ < w.until_) then p
    else
      let p := p.updLat die (fun l => { l with peaks := Sparse.set 0 l.peaks (group * 16 + w.cls) peak })
      if w.spoiled then p else p.learnAnte die w peak.toNat

/-! ### Sensors (R298, R312, R314) -/

/-- How many sensors of a class a die has. -/
def sensorCount (die cls : Nat) : Nat :=
  if cls = 1 then (if die = 0 then 32 else 48)
  else if cls = 2 then 8
  else if cls = 3 then (if die = 0 then 8 else 12)
  else if cls = 4 then (if die = 0 then 1 else 0)
  else if cls = 5 then 64
  else if cls = 6 then 8
  else if cls = 7 then (if die = 0 then 8 else 16)
  else if cls = 9 then (if die = 0 then 24 else 0)
  else 0

def sensor (p : Part) (die cls index : Nat) : Sensor := Sparse.get {} (p.lat die).sensors (cls * 128 + index)

def setSensor (p : Part) (die cls index : Nat) (x : Sensor) : Part :=
  p.updLat die (fun l => { l with sensors := Sparse.set {} l.sensors (cls * 128 + index) x })

/-- Retired sensors of a class, of the indices `sel` picks. -/
def retiredOf (p : Part) (die cls : Nat) (sel : Nat → Bool) : Nat :=
  ((List.range (sensorCount die cls)).filter (fun i => sel i && (p.sensor die cls i).retired)).length

/-- Coverage is lost (R314). -/
def coverageLost (p : Part) (die : Nat) : Bool :=
  let per := if die = 0 then 8 else 12
  (List.range 4).any (fun g => 4 < p.retiredOf die 1 (fun i => i / per = g)) ||
  (if die = 0 then 2 else 4) < p.retiredOf die 7 (fun _ => true) || 16 < p.retiredOf die 5 (fun _ => true)

/-- Bound of a class's trim in steps; none where the sensor has no trim (R312). -/
def trimBound (cls : Nat) : Option Nat := if cls = 4 ∨ cls = 5 then none else if cls = 3 then some 6 else some 8

/-- A trim's code: the factory's, moved by the steps taken since. -/
def trimCode (die cls index : Nat) (trim : Int) : BitVec 8 := Config.factoryTrim die cls index + BitVec.ofInt 8 trim

/-- A refused slice; the third in succession retires the sensor (R313, R314). -/
def refuseTrim (p : Part) (die cls index : Nat) (x : Sensor) (refused : Int) : Part :=
  let factory := (trimCode die cls index 0).toNat
  let p := (p.latBump die 0x0120).latRecord die 0x0740 1 cls index factory (trimCode die cls index refused).toNat
  if x.refusals + 1 < 3 then p.setSensor die cls index { x with refusals := x.refusals + 1 }
  else
    let p := p.setSensor die cls index { x with refusals := 3, retired := true }
    let p := p.latRecord die 0x0741 3 cls index factory (trimCode die cls index x.trim).toNat
    let p := p.latWitness die 11 index index
    if p.coverageLost die ∧ (p.lat die).cover = false then
      (p.updLat die (fun l => { l with cover := true })).latWitness die 11 index 0xFFFF
    else p

/-- A sensor's slice: its check asks a correction of at most one step, or finds the sensor out of bound. -/
def slice_ (p : Part) (die cls index : Nat) (correction : Int) (inBound : Bool) : Part :=
  let x := p.sensor die cls index
  if x.retired then p
  else
    let p := p.latBump die 0x0118
    let want := x.trim + max (-1) (min 1 correction)
    match trimBound cls with
    | none => if inBound then p.setSensor die cls index { x with refusals := 0 } else p.refuseTrim die cls index x 0
    | some b => if inBound ∧ want.natAbs ≤ b then p.setSensor die cls index { x with trim := want, refusals := 0 } else p.refuseTrim die cls index x want

/-! ### Temperature (R302, R303, R318) -/

/-- The diodes of a die that are not retired, with their readings in 0.25 °C. -/
def goodDiodes (p : Part) (die : Nat) (l : List (BitVec 16)) : List (Nat × Int) :=
  ((l.take (sensorCount die 7)).zipIdx.map (fun e => (e.2, e.1.toInt))).filter (fun e => !(p.sensor die 7 e.1).retired)

def leastInt (l : List Int) : Int := l.tail.foldl min (l.headD 0)
def greatestInt (l : List Int) : Int := l.tail.foldl max (l.headD 0)

/-- The diodes are sampled: levels, Tj and the thermal report. -/
def sampleTemp (p : Part) (die : Nat) (diodes : List (BitVec 16)) : Part :=
  let good := p.goodDiodes die diodes
  if good = [] then p
  else
    let l := p.lat die
    let bad := (good.filter (fun e => e.2 < -200 || 540 < e.2)).map (·.1)
    let met := bad.filter (fun i => l.badTemp.contains i)
    let fresh := met.filter (fun i => !(l.tempRun.contains i))
    let tj := greatestInt (good.map (·.2))
    let hot := if 480 < tj then l.hotRun + 1 else 0
    let p := p.setLat die { l with diodes := diodes, tj := BitVec.ofInt 16 tj, tmin := BitVec.ofInt 16 (leastInt (good.map (·.2)))
                                   badTemp := bad, tempRun := met, hotRun := hot }
    let p := if die ≠ 0 ∧ 440 ≤ tj then p.updSeat die (fun s => { s with cool := p.now }) else p
    let p := fresh.foldl (fun p i => p.latWitness die 7 i ((diodes.getD i 0).toNat)) p
    if 2 ≤ hot ∧ (p.lat die).thermal = false then p.thermalReport die true
    else if tj < 460 ∧ (p.lat die).thermal = true then p.thermalReport die false
    else p

/-- Predicted steps of what runs on a die, in 0.1 A: tiles, lane duty, or the Dealer's units (04 R111, 16 R412). -/
def predictedSteps (p : Part) (die : Nat) : Nat :=
  if die = 0 then
    15 * ([Half.a0, .a1, .b0, .b1].filter (fun h => (p.half h).up && p.power.fold == .running)).length +
      (if p.power.fold = .running then 20 else 0) + 8
  else
    [Site.tu, .pke, .digest].foldl (fun n k =>
      n + stepOf die k.group * ((List.range k.count).filter (fun i => let t := (p.tile (siteTile die k i)).st
                                                                    t == .running || t == .scrubbing)).length) 0 +
      10 * ((p.lane die 0).duty.toNat + (p.lane die 1).duty.toNat)

/-- P_hat in mW (R303). -/
def powerHat (p : Part) (die : Nat) : Nat := Config.idleFloor die + 75 * p.predictedSteps die

/-- kappa in 0.01 (°C/s) per (W/s), from 0.5 to 3.0. -/
def kappaOf (die : Nat) : Nat := 50 + Config.kappa die % 251

def clampInt (lo hi v : Int) : Int := max lo (min hi v)

/-- The band of H: 0 for 0.50 to 3 for 0.80 (R318). -/
def bandFor (tj : Int) (loaded : Bool) : Nat :=
  let b := if tj ≤ 0 then 1 else if tj ≤ 340 then 3 else 2
  if loaded then b - 1 else b

/-- Repetition count and adaptive proportion cut-offs of a band. -/
def cutoffsOf (band : Nat) : Nat × Nat :=
  if band = 0 then (81, 827) else if band = 1 then (68, 783) else if band = 2 then (59, 741) else (51, 700)

def setBand (p : Part) (die band : Nat) : Part :=
  let (rct, apt) := cutoffsOf band
  p.updTrng die (fun t => { t with hband := BitVec.ofNat 2 band, rct := BitVec.ofNat 8 rct, apt := BitVec.ofNat 10 apt })

/-- The rates over 250 ms, in 0.1 °C/s, and the band of H. Until 25 computations have passed there is no rate to judge. -/
def computeRate (p : Part) (die : Nat) : Part :=
  let l := p.lat die
  let good := p.goodDiodes die l.diodes
  if good = [] then p
  else
    let mean : Int := (good.foldl (fun n e => n + e.2) (0 : Int)) * 1000 / (good.length : Int)
    let hat : Int := p.powerHat die
    let now := (mean, hat)
    let (r, rp) : Int × Int := match l.history[24]? with
      | some (m, h) => ((mean - m) / 100, clampInt (-300) 300 ((kappaOf die : Int) * (hat - h) / 2500))
      | none => (0, 0)
    let u := r - rp
    let run := if 150 < u.natAbs then l.rateRun + 1 else 0
    let p := p.setLat die { l with history := (now :: l.history).take 25, meas := BitVec.ofInt 16 r, pred := BitVec.ofInt 16 rp, rateRun := run }
    let p := p.setBand die (bandFor l.tj.toInt (decide ((if die = 0 then 30000 else 24000) * 75 < (p.powerHat die) * 100)))
    if run = 2 then p.latWitness die 8 0 (BitVec.ofInt 16 u).toNat else p

/-! ### Supply, clocks, shield (R300, R301, R304) -/

/-- Nominal voltage of a window's rail in mV. -/
def railNominal (die window : Nat) : Nat :=
  if die = 0 then [750, 850, 900, 1200, 1100, 1800, 3000, 800].getD window 0
  else if window < 4 then 750 else if window < 6 then 850 else 900

/-- The VBAT mean: shown in GUARD_BAT, with one BATTERY_LOW record each time it first falls below 2.5 V (R300, 12 R346). -/
def batteryMean (p : Part) (mv : Nat) : Part :=
  let was := p.guard.vbatLow
  let p := p.setGuard { p.guard with vbat := BitVec.ofNat 16 mv, vbatLow := mv < 2500 }
  if mv < 2500 ∧ was = false then p.guardEvent 0x0715 3 0 2 0 6 mv 0 else p

/-- A 10 µs mean of a rail: outside its window in two consecutive means it is a witness, once per excursion. VBAT too low is none. -/
def voltageMean (p : Part) (die window mv : Nat) : Part :=
  let p := if die = 0 ∧ window = 6 then p.batteryMean mv else p
  let nominal := railNominal die window
  let out := if die = 0 ∧ window = 6 then decide (3600 < mv) else decide (mv * 100 < nominal * 94 ∨ nominal * 106 < mv * 100)
  let l := p.lat die
  if (p.sensor die 2 window).retired then p
  else if out = false then p.setLat die { l with badMeans := l.badMeans.erase window, meanRun := l.meanRun.erase window }
  else if l.badMeans.contains window = false then p.setLat die { l with badMeans := window :: l.badMeans }
  else if l.meanRun.contains window then p
  else
    let deviation := if die = 0 ∧ window = 6 then mv - 3600 else if mv < nominal then nominal - mv else mv - nominal
    (p.setLat die { l with meanRun := window :: l.meanRun }).latWitness die 2 window (min deviation 0xFFFF)

/-- The reference count over 64 crystal periods; the monitor is suspended while the crystal is stopped (16 R411). -/
def refclkWindow (p : Part) (count : Nat) (lockLost : Bool) : Part :=
  if p.power.xtalOk = false ∨ (p.sensor 0 4 0).retired = true then p
  else
    let dev : Int := (count : Int) - 305176
    let ppm := dev * 1000000 / 305176
    let p := p.updLat 0 (fun l => { l with refclk := BitVec.ofInt 16 ppm })
    if lockLost then p.latWitness 0 4 0 0xFFFF
    else if 153 < dev.natAbs then p.latWitness 0 4 0 (min (dev.natAbs * 1000000 / 305176) 0xFFFD)
    else p

/-- A net's resistance is more than 12 % from its value at the temperature of Dealer diode 0. -/
def netOut (r25 : Nat) (t : Int) (milliohms : Nat) : Bool :=
  let want : Int := r25 * (40000 + 39 * (t - 100))
  12 * want.natAbs < 100 * ((milliohms : Int) * 40000 - want).natAbs

/-- Two consecutive checks out of bounds are a breach, reported once per excursion (R304, R305). -/
def netCheck (p : Part) (net milliohms : Nat) : Part :=
  let l := p.lat 0
  let bit := BitVec.ofNat 24 (2 ^ net)
  if netOut (Config.netResistance net) ((l.diodes.getD 0 0).toInt) milliohms then
    let p := p.setLat 0 { l with shield := l.shield ||| bit, badNets := if l.badNets.contains net then l.badNets else net :: l.badNets }
    if l.badNets.contains net ∧ l.netRun.contains net = false then
      (p.updLat 0 (fun l => { l with netRun := net :: l.netRun })).latWitness 0 9 net (256 + net)
    else p
  else p.setLat 0 { l with shield := l.shield &&& ~~~ bit, badNets := l.badNets.erase net, netRun := l.netRun.erase net }

/-! ### TRNG and DRBG (R315 to R321) -/

def anySource (t : Trng) : Bool := t.src0 == 1 || t.src1 == 1

/-- A reseed falls due: it takes its entropy from the sources in service, with output held for 20 Dealer cycles, or is overdue. Cores stalled on TRNG_OUT get their value from a DRBG
that serves again (R316, R321). -/
def reseed (p : Part) (die : Nat) : Part :=
  let t := p.trng die
  if t.drbg = 0 then p
  else
    let p := p.atTime t.due
    if anySource t then
      let p := p.wait 40
      let p := (p.setTrng die { t with drbg := 1, due := p.now + msec 10, requests := 0 }).bump (regAddr die (trngWin die) 0x0100)
      if die = 0 then p
      else (List.range 4).foldl (fun p k =>
        let c := p.core die k
        if c.stalledAt.isSome then (p.setCore die k { c with stalledAt := none, lastRandom := BitVec.ofNat 32 (be (p.drawn 4)) }).drbgTakes die 4 else p) p
    else if t.drbg = 1 then p.setTrng die { t with drbg := 2 } else p

/-- 100 ms after a reseed fell due without success the DRBG stops. -/
def stopDrbg (p : Part) (die : Nat) : Part :=
  let t := p.trng die
  if (t.drbg = 1 ∨ t.drbg = 2) ∧ anySource t = false then
    let p := p.atTime (t.due + msec 100)
    let p := (p.setTrng die { t with drbg := 3 }).bump (regAddr die (trngWin die) 0x0120)
    (p.latRecord die 0x0745 4 10 0xFF (min ((p.now - t.due) / 3000) 0xFFFFFFFF) 0).latWitness die 10 0xFF 0x00FF
  else p

def srcState (t : Trng) (source : Nat) : BitVec 2 := if source = 0 then t.src0 else t.src1

def setSrc (t : Trng) (source : Nat) (v : BitVec 2) : Trng := if source = 0 then { t with src0 := v } else { t with src1 := v }

/-- Failures of a source within the last second. -/
def recentFails (p : Part) (die source : Nat) : Nat := ((p.trng die).fails.filter (fun f => f.1 = source && p.now ≤ f.2 + sec 1)).length

/-- A source fails a test and restarts; the third failure within 1 s takes it out of service (R319). -/
def sourceFail (p : Part) (die source : Nat) (test : TrngTest) : Part :=
  let t := p.trng die
  if srcState t source = 3 then p
  else
    let n := match test with
      | .repetition => 1
      | .proportion => 2
      | .startUp => 3
    let p := match test with
      | .repetition => p.bump (regAddr die (trngWin die) 0x0108)
      | .proportion => p.bump (regAddr die (trngWin die) 0x0110)
      | .startUp => p
    let fails := (source, p.now) :: t.fails.filter (fun f => p.now ≤ f.2 + sec 1)
    let p := p.latRecord die 0x0743 2 10 source source n
    if 3 ≤ (fails.filter (fun f => f.1 = source)).length then
      (p.setTrng die (setSrc { t with fails := fails } source 3)).latWitness die 10 source source
    else p.setTrng die (setSrc { t with fails := fails } source 2)

/-- A restarted source passes its start-up test. -/
def sourceRestored (p : Part) (die source : Nat) : Part :=
  let t := p.trng die
  if srcState t source = 2 then
    (p.setTrng die (setSrc t source 1)).latRecord die 0x0744 1 10 source source (p.recentFails die source)
  else p

end Part

/-! ### Rows -/

/-- WITNESS_REPORT (R305, R328). A retired sensor takes no part in any witness (R298, R314). -/
def execWitnessReport (die cls index : Nat) (magnitude : BitVec 16) (s : State) : Result :=
  onUnit (s.hasDie die) s (fun p =>
    if cls < 10 ∧ (p.sensor die cls index).retired = true then p
    else if cls = 12 ∨ cls = 14 then p.witness die cls index magnitude.toNat
    else p.latWitness die cls index magnitude.toNat)

/-- ANTE_TAKE (R306, R307). -/
def execAnteTake (die : Nat) (s : State) : Result := onUnit (s.hasDie die) s (fun p => p.takeAnte die)

/-- ANTE_WINDOW_END (R309). -/
def execAnteWindowEnd (die group : Nat) (peak : BitVec 8) (s : State) : Result :=
  onUnit (s.hasDie die && group < 4) s (fun p => p.endAnte die group peak)

/-- TEMPERATURE_SAMPLE (R302). -/
def execTemperatureSample (die : Nat) (diodes : List (BitVec 16)) (s : State) : Result := onUnit (s.hasDie die) s (fun p => p.sampleTemp die diodes)

/-- TEMP_RATE_COMPUTE (R303, R318). -/
def execTempRateCompute (die : Nat) (s : State) : Result := onUnit (s.hasDie die) s (fun p => p.computeRate die)

/-- SLOW_VOLTAGE_MEAN (R300). -/
def execSlowVoltageMean (die window millivolts : Nat) (s : State) : Result :=
  onUnit (s.hasDie die && window < 8) s (fun p => p.voltageMean die window millivolts)

/-- REFCLK_MONITOR_WINDOW (R301). -/
def execRefclkMonitorWindow (count : Nat) (lockLost : Bool) (s : State) : Result := powered s (fun p => p.refclkWindow count lockLost)

/-- SHIELD_RESISTANCE_CHECK (R304). -/
def execShieldResistanceCheck (net milliohms : Nat) (s : State) : Result := onUnit (net < 24) s (fun p => p.netCheck net milliohms)

/-- CALIBRATION_SLICE (R311 to R314). -/
def execCalibrationSlice (die cls index : Nat) (correction : Int) (inBound : Bool) (s : State) : Result :=
  onUnit (s.hasDie die && cls < 8 && index < Part.sensorCount die cls) s (fun p => p.slice_ die cls index correction inBound)

/-- DRBG_RESEED (R316). -/
def execDrbgReseed (die : Nat) (s : State) : Result := onUnit (s.hasDie die) s (fun p => p.reseed die)

/-- DRBG_STOPPED (R316). -/
def execDrbgStopped (die : Nat) (s : State) : Result := onUnit (s.hasDie die) s (fun p => p.stopDrbg die)

/-- TRNG_SOURCE_FAIL (R319). -/
def execTrngSourceFail (die source : Nat) (test : TrngTest) (s : State) : Result :=
  onUnit (s.hasDie die && source < 2) s (fun p => p.sourceFail die source test)

/-- TRNG_SOURCE_RESTORED (R319). -/
def execTrngSourceRestored (die source : Nat) (s : State) : Result :=
  onUnit (s.hasDie die && source < 2) s (fun p => p.sourceRestored die source)

end Sys2Proof.Machine
end

