-- ==== Sys2Proof/Machine/Ceremony.lean ====
section
/-! DEFINITION. Ceremonies (15): the four commands, custodian cards, the owner claim, and the ends a ceremony can come to. -/

namespace Sys2Proof.Machine

/-- The context of every signature a card gives outside a sign ceremony (R398). -/
def cerContext : Bytes := ascii "XF24-CERE"

/-- The part identity public key (01 R12, 15 R401). -/
def identityPub : Bytes := match p384.mul Config.identityKey p384.g with
  | some (x, y) => toBE 48 x ++ toBE 48 y
  | none => zeros 96

/-- An ECDSA P-384 signature by the identity key over a message, with a nonce from 48 random bytes. -/
def identitySign (k message : Bytes) : Bytes :=
  match p384.sign Config.identityKey (be k % (p384.n - 1) + 1) (sha384 message) with
  | some (r, s) => toBE 48 r ++ toBE 48 s
  | none => zeros 96

namespace Part

/-- The port whose running ceremony has an ID. -/
def cerOf (p : Part) (id : Nat) : Option (Nat × Ceremony) :=
  match p.cera.cer.filter (fun c => c.id.toNat == id) with
  | some c => some (0, c)
  | none => (p.cerb.cer.filter (fun c => c.id.toNat == id)).map (fun c => (1, c))

/-- EXTEST is the Joker port's instruction 0x00 (10 R289, R290). -/
def extesting (p : Part) : Bool := p.joker.ir == 0

/-- The registry a ceremony's cards are checked in (R399). -/
def cerRegistry (p : Part) (c : Ceremony) : Option Registry := match c.registry with
  | some r => some r
  | none => p.registryNow

/-- What each card signs outside a sign ceremony (R398). -/
def cerDigest (p : Part) (c : Ceremony) (r : Registry) : Bytes :=
  sha384 (toBE 1 c.kind ++ p.fuses.idBytes ++ c.challenge ++ toBE 8 p.serialNow ++ r.fingerprint)

/-- Cards that a kind needs (R398). -/
def cerQuorum (p : Part) (c : Ceremony) : Nat :=
  let own := fun (f : Registry → Nat) => match p.registryNow with
    | some r => f r
    | none => 17
  if c.kind = 2 then own (·.pairing)
  else if c.kind = 3 then own (·.gap)
  else if c.kind = 4 then c.m
  else match c.registry with
    | some r => r.custodians.length
    | none => own (·.deal)

/-- LAT_SHIELD of every die reads zero (12 R343). -/
def shieldWhole (p : Part) : Bool := p.dieNums.all (fun d => (p.lat d).shield == 0)

/-! ### Cards (R392, R394, R399) -/

/-- A waiting step activates the card that is present, and selects the application. The class among the permitted ones, and the protocol, are
the card's: free values. Activation runs at 4 MHz, or at FMAX where that is lower. -/
def startCard (p : Part) (port : Nat) : Part :=
  let c := p.cerPort port
  match c.step with
  | some s =>
    if s.stage = .awaiting ∧ c.present = true ∧ c.active = false ∧ p.extesting = false then
      let b := (p.drawn 2).map (·.toNat)
      let l := [1, 2, 3].filter (fun k => c.classes.getLsbD (k - 1))
      let cls := l.getD (b.headD 0 % l.length) 0
      (p.draw 2).updCer port (fun c => { c with
        active := true, cls := BitVec.ofNat 2 cls, proto := BitVec.ofNat 2 (1 + b.getD 1 0 % 2)
        div := BitVec.ofNat 11 (max 375 (1500 / c.fmax.toNat)), step := some { s with stage := .selecting } })
    else p
  | none => p

/-- A step ends. A ceremony that a cut has ended ends with it, CEREMONY_VOID (R403). -/
def finishStep (p : Part) (port : Nat) (status : BitVec 16) (payload : Bytes := []) : Part :=
  match (p.cerPort port).cer with
  | some c => if c.doomed then p.voidCeremony port else p.endStep port status payload
  | none => p.endStep port status payload

def setStage (p : Part) (port : Nat) (f : CardStep → CardStep) : Part := p.updCer port (fun c => { c with step := c.step.map f })

/-- The write command goes to the card: its busy phase begins. For a component the ceremony's Seat draws an ephemeral key (R400). -/
def sendCardWrite (p : Part) (port : Nat) (index : Nat) (counter : BitVec 32) : Part :=
  let p := p.setStage port (fun s => { s with stage := .writing, index := some index, counter := counter })
  match (p.cerPort port).cer with
  | some c =>
    if c.kind = 4 then
      let key := p.drawn 32
      (p.drbgTakes 0 32).updCer port (fun x => { x with cer := x.cer.map (fun c => { c with secret := key }) })
    else p
  | none => p

/-- SELECT has answered (R399, R403). A card other than the one whose outcome is unknown is left waiting. -/
def selected (p : Part) (port : Nat) (c : Ceremony) (data : Bytes) : Part :=
  let id := data.take 16
  let counter := BitVec.ofNat 32 (field data 16 4)
  let no := fun (r : Nat) => p.finishStep port CerStatus.notCustodian (reason r)
  match ((p.cerRegistry c).map (·.custodians)).getD [] |>.find? (fun k => k.cardId = id), (p.cerPort port).unknown with
  | none, some _ => p.setStage port (fun s => { s with stage := .awaiting })
  | none, none => no 1
  | some k, some (i, _) =>
    if k.index = i then p.setStage port (fun s => { s with stage := .recovering, index := some i, counter := counter })
    else p.setStage port (fun s => { s with stage := .awaiting })
  | some k, none =>
    if c.counted.contains k.index then no 2
    else if c.kind = 4 ∧ k.components = false then no 3
    else p.sendCardWrite port k.index counter

/-- GET COUNTER has answered for the card whose outcome was unknown: recorded, and the write is repeated (R403). -/
def recovered (p : Part) (port : Nat) (s : CardStep) (data : Bytes) : Part :=
  let before := match (p.cerPort port).unknown with
    | some (_, n) => n
    | none => s.counter
  let now_ := field data 0 4
  let p := p.cerEvent port 0x0A12 3 (s.index.getD 0xFF) before.toNat now_
  (p.updCer port (fun c => { c with unknown := none })).sendCardWrite port (s.index.getD 0xFF) (BitVec.ofNat 32 now_)

/-- The custodian is counted, and the step answers (R397, R399). The first step of an owner claim also returns the part identity public key
(R401). -/
def countCard (p : Part) (port : Nat) (c : Ceremony) (index counter : Nat) (part_ : Option Bytes) (entry : Bytes) : Part :=
  let first := if c.kind = 5 ∧ c.counted = [] then identityPub else []
  let p := p.updCer port (fun x => { x with cer := x.cer.map (fun c =>
    { c with counted := c.counted ++ [index], parts := c.parts ++ part_.toList, secret := [] }) })
  p.finishStep port Status.done (toBE 1 index ++ zeros 3 ++ toBE 4 counter ++ entry ++ first)

/-- The write command has answered. -/
def written (p : Part) (port : Nat) (c : Ceremony) (s : CardStep) (data : Bytes) : Part :=
  let index := s.index.getD 0xFF
  if c.kind = 4 then p.countCard port c index (field data 75 4) (some (c.secret ++ data.take 75)) []
  else
    let ecdsa := data.take 96
    let mldsa := slice data 96 4627
    let good : Bool := match p.cerRegistry c with
      | none => false
      | some r =>
        let (digest, context) := if c.kind = 1 then (c.digest, c.context) else (p.cerDigest c r, cerContext)
        (r.custodians.find? (fun k => k.index = index)).any (fun k => signedBy k digest context ecdsa mldsa)
    if good then
      p.countCard port c index (field data 4723 4) none (if c.kind = 1 then toBE 1 index ++ zeros 3 ++ ecdsa ++ mldsa ++ [0] else [])
    else p.finishStep port CerStatus.notCustodian (reason 4)

/-- Bytes a card command returns (R395). -/
def cardLength (c : Ceremony) (s : CardStage) : Nat :=
  if s = .selecting then 24 else if s = .recovering then 4 else if c.kind = 4 then 79 else 4727

/-- A card command completes (R393, R395). A reply of another length is a protocol failure. -/
def cardReply (p : Part) (port : Nat) (data : Bytes) (sw : BitVec 16) (repeats : Nat) : Part :=
  match (p.cerPort port).cer, (p.cerPort port).step with
  | some c, some s =>
    if s.stage = .awaiting then p
    else
      let p := if repeats = 0 then p else p.bump (regAddr 0 (cerWin port) 0x0110) repeats
      if sw ≠ 0x9000 then p.finishStep port CerStatus.protocolError (toBE 2 sw.toNat)
      else if data.length ≠ cardLength c s.stage then p.finishStep port CerStatus.protocolError
      else if s.stage = .selecting then p.selected port c data
      else if s.stage = .recovering then p.recovered port s data
      else p.written port c s data
  | _, _ => p

/-- Removal, as a step sees it (R403): in the busy phase of a write the outcome is unknown. -/
def cardGone (p : Part) (port : Nat) : Part :=
  match (p.cerPort port).step with
  | some s =>
    if s.stage = .writing then
      let p := p.cerEvent port 0x0A12 3 (s.index.getD 0xFF) s.counter.toNat 0xFFFFFFFF
      (p.updCer port (fun c => { c with unknown := some (s.index.getD 0xFF, s.counter) })).finishStep port Status.cardOutcomeUnknown
    else if s.stage = .awaiting then p.deactivate port
    else p.finishStep port Status.cardRemoved
  | none => p.deactivate port

/-! ### The commands -/

/-- A port is locked by a ceremony, or by an authorisation that has not lapsed (R402). -/
def cerLocked (p : Part) (port : Nat) : Bool := (p.cerPort port).cer.isSome || (p.cerPort port).auth.isSome

/-- An authorisation older than 60 s has lapsed (R398). -/
def lapseOld (p : Part) (port : Nat) : Part :=
  match (p.cerPort port).auth with
  | some a => if a.granted + sec 60 < p.now then p.lapseAuth port else p
  | none => p

/-- The kinds a lifecycle state permits (R398, R401, 12 R342, R343); kinds 1 to 4 need a registry in force. -/
def cerPermitted (p : Part) (kind : Nat) (context : Bytes) (given : Option Registry) : Bool :=
  if kind = 5 then (p.power.life == 0 && given.isSome || p.power.life == 2 && p.registry.isSome) && p.shieldWhole
  else p.power.life != 0 && p.registryNow.isSome && !(kind == 1 && context == cerContext)

/-- The Seat of a component ceremony (R400). -/
def componentSeat (p : Part) : Option (Nat × Bool) :=
  let private_ := fun (n : Nat) => ((p.deal.active.map (·.seats)).getD []).any (fun e => e.priv && e.mask.toNat.testBit n)
  p.leastOf .pke (p.seatNums.filter (fun n => (permittedMask p.deal.active 0).testBit n && p.seatIn n .inService && !(private_ n)))

/-- The ceremony opens: the challenge is drawn, the port locked (R397, R402). -/
def openCeremony (p : Part) (uid port : Nat) (c : Ceremony) : Part :=
  let ch := p.drawn 32
  let c := { c with challenge := ch, id := p.cerNext, lastStep := p.now }
  let p := { (p.drbgTakes 0 32) with cerNext := if p.cerNext = 0xFFFFFFFF then 1 else p.cerNext + 1 }
  let p := (p.updCer port (fun x => { x with cer := some c })).cerEvent port 0x0A13 2 0xFF c.kind c.id.toNat
  p.answer uid Status.done (toBE 4 c.id.toNat ++ toBE 1 c.seat ++ zeros 3 ++ ch)

/-- CER_BEGIN (R397, R398, R400 to R402). -/
def cerBegin (p : Part) (uid : Nat) (session : BitVec 32) (b : Bytes) : Part :=
  let port := field b 0 1
  let kind := field b 1 1
  let m := field b 2 1
  let n := field b 3 1
  let claim := kind == 5
  let reg := b.drop 1676
  let shape := if claim then 1676 ≤ b.length && field b 1672 4 == reg.length else b.length == 72
  if shape = false ∨ 1 < port ∨ kind = 0 ∨ 5 < kind ∨ 16 < n ∨ allZero (slice b 4 4) = false ∨ allZero (slice b (56 + n) (16 - n)) = false ∨
      (kind = 4 ∧ (m < 2 ∨ 16 < m)) then p.lengthFault uid
  else
    let p := p.lapseOld port
    let given := if claim && p.power.life == 0 then parseRegistry reg else none
    let context := slice b 56 n
    if p.cerLocked port then p.answer uid CerStatus.portBusy
    else if p.cerPermitted kind context given = false then p.answer uid CerStatus.refused
    else
      let c : Ceremony := { id := 0, session := session, kind := kind, m := m, digest := slice b 8 48, context := context, challenge := []
                            registry := given, ownerX := if claim then slice b 72 32 else [], ownerKem := if claim then slice b 104 1568 else [] }
      if kind = 4 then match p.componentSeat with
        | none => p.answer uid Status.handNotServed
        | some (k, tie) => (if tie then p.setDisp { p.disp with seatPtr := k % p.seatCount + 1 } else p).openCeremony uid port { c with seat := k }
      else p.openCeremony uid port c

/-- The ceremony a command names, as its session may use it: VOID where there is none, PORT_BUSY where another session holds the port or a step
runs (R402, R404). -/
def withCeremony (p : Part) (uid : Nat) (session : BitVec 32) (id : Nat) (f : Part → Nat → Ceremony → Part) : Part :=
  match p.cerOf id with
  | none => p.answer uid CerStatus.void
  | some (port, c) =>
    if c.session ≠ session ∨ (p.cerPort port).step.isSome then p.answer uid CerStatus.portBusy else f p port c

/-- The owner claim takes effect (R401). -/
def claimNow (p : Part) (uid port : Nat) (c : Ceremony) (session : BitVec 32) (cert : Bytes) (counted : Nat) : Part :=
  let root := p.drawn 32
  let ktk := (p.draw 32).drawn 32
  let eph := (p.draw 64).drawn 32
  let rand := (p.draw 96).drawn 32
  let k := (p.draw 128).drawn 48
  let p := p.drbgTakes 0 176
  let (ct, kss) := Kem.encaps c.ownerKem rand
  let dealKey := hkdfExpand384 (hkdfExtract384 c.challenge (C25519.x25519 eph c.ownerX ++ kss)) (ascii "XF24 deal key") 32
  let fingerprint := (p.findSession session).map (·.cert)
  let p := { p with
    registry := match c.registry with
      | some r => some r
      | none => p.registry
    idCert := some cert
    power := { p.power with life := 1 }
    guard := { p.guard with tamperLow := false }
    deal := { p.deal with st := .noDeal, key := some dealKey }
    xct := { p.xct with claimCert := fingerprint }
    vault := { p.vault with st := .awaitingDeck, incarnation := p.vault.incarnation + 1, root := some root, rootTag := true, ktk := some ktk } }
  let p := p.updCer port (fun x => { x with cer := none, unknown := none })
  let body := p.fuses.idBytes ++ C25519.x25519Base eph ++ padTo 1568 ct ++ identityPub
  let p := (p.deactivate port).ceremonyEnded port c 0
  (p.answer uid Status.done (toBE 2 counted ++ zeros 6 ++ body ++ identitySign k (body ++ c.challenge))).relevel

/-- CER_END (R397, R398, R401): an owner claim below its quorum stays open; the other kinds end, with an authorisation once their quorum is met. -/
def cerEnd (p : Part) (uid : Nat) (session : BitVec 32) (port : Nat) (c : Ceremony) : Part :=
  let counted := c.counted.foldl (fun m i => m ||| 2 ^ i) 0
  let met := decide (p.cerQuorum c ≤ c.counted.length)
  if c.kind = 5 then
    if met = false then p.answer uid CerStatus.quorumNotMet
    else match c.cert with
      | none => p.answer uid CerStatus.refused
      | some cert => if p.shieldWhole then p.claimNow uid port c session cert counted else p.answer uid CerStatus.refused
  else
    let p := (p.updCer port (fun x => { x with cer := none, unknown := none })).deactivate port
    let p := if c.kind = 1 then p.ceremonyEnded port c (if c.counted = [] then 2 else 0)
      else if met then p.updCer port (fun x => { x with auth := some { cer := c, granted := p.now } })
      else p.ceremonyEnded port c 2
    p.answer uid Status.done (toBE 2 counted ++ zeros 6)

end Part

/-! ### Rows: commands -/

/-- CER_BEGIN (R397). -/
def execCerBegin (o : Origin) (b : Bytes) (s : State) : Result :=
  powered s (fun p => p.serve o 0xA001 b (fun p c => p.houseOnly c (fun p => match c.session? with
    | some x => p.cerBegin c.uid x c.params
    | none => p.lengthFault c.uid)))

/-- CER_STEP (R397, R399): it waits for a card for up to 120 s. -/
def execCerStep (o : Origin) (b : Bytes) (s : State) : Result :=
  powered s (fun p => p.serve o 0xA002 b (fun p c => p.houseOnly c (fun p => match c.session? with
    | none => p.lengthFault c.uid
    | some x =>
      if c.params.length ≠ 8 ∨ allZero (c.params.drop 4) = false then p.lengthFault c.uid
      else p.withCeremony c.uid x (field c.params 0 4) (fun p port _ =>
        let p := p.updCer port (fun y => { y with
          step := some { uid := c.uid, started := p.now, stage := .awaiting }
          cer := y.cer.map (fun z => { z with steps := z.steps + 1, lastStep := p.now }) })
        (p.parkCmd c.uid).startCard port))))

/-- CER_END (R397, R398, R401). -/
def execCerEnd (o : Origin) (b : Bytes) (s : State) : Result :=
  powered s (fun p => p.serve o 0xA003 b (fun p c => p.houseOnly c (fun p => match c.session? with
    | none => p.lengthFault c.uid
    | some x =>
      if c.params.length ≠ 8 ∨ allZero (c.params.drop 4) = false then p.lengthFault c.uid
      else p.withCeremony c.uid x (field c.params 0 4) (fun p port y => p.cerEnd c.uid x port y))))

/-- CER_CERT (R401): only in an owner claim, and only a certificate over the part identity public key. -/
def execCerCert (o : Origin) (b : Bytes) (s : State) : Result :=
  powered s (fun p => p.serve o 0xA004 b (fun p c => p.houseOnly c (fun p => match c.session? with
    | none => p.lengthFault c.uid
    | some x =>
      let cert := c.params.drop 8
      if c.params.length < 8 ∨ field c.params 4 4 ≠ cert.length ∨ 4096 < cert.length then p.lengthFault c.uid
      else p.withCeremony c.uid x (field c.params 0 4) (fun p port y =>
        if y.kind = 5 ∧ Config.certKey cert = some identityPub then
          (p.updCer port (fun z => { z with cer := z.cer.map (fun w => { w with cert := some cert }) })).answer c.uid Status.done
        else p.answer c.uid CerStatus.refused))))

/-! ### Rows: cards -/

/-- CARD_INSERTED (R394, R405). The class and protocol of the record are those of CERx_STATE: the card is not active yet. -/
def execCardInserted (port : Nat) (s : State) : Result :=
  onUnit (port < 2) s (fun p =>
    if (p.cerPort port).present then p
    else
      let c := p.cerPort port
      let p := (p.updCer port (fun c => { c with present := true })).bump (regAddr 0 (Part.cerWin port) 0x0100)
      (p.cerEvent port 0x0A10 1 0xFF c.cls.toNat c.proto.toNat).startCard port)

/-- CARD_REMOVED (R394, R403, R405): the deactivation ends 1.5 µs after detection. -/
def execCardRemoved (port : Nat) (s : State) : Result :=
  onUnit (port < 2) s (fun p =>
    if (p.cerPort port).present then
      let c := p.cerPort port
      let p := (p.updCer port (fun c => { c with present := false })).bump (regAddr 0 (Part.cerWin port) 0x0108)
      let p := p.cerEvent port 0x0A11 1 (Part.stepIndex c) (if c.step.isSome then 1 else 0) 0
      (p.wait (nsec 1500)).cardGone port
    else p)

/-- CARD_RESPONSE (R393, R395, R399). -/
def execCardResponse (port : Nat) (data : Bytes) (sw : BitVec 16) (repeats : Nat) (s : State) : Result :=
  onUnit (port < 2) s (fun p => p.cardReply port data sw repeats)

/-- CARD_WAIT_TIME_EXPIRED (R393): the card of a running card command is deactivated. -/
def execCardWaitTimeExpired (port : Nat) (s : State) : Result :=
  onUnit (port < 2) s (fun p => match (p.cerPort port).step with
    | some st => if st.stage = .awaiting then p else p.finishStep port CerStatus.timeout
    | none => p)

/-- CARD_CLOCK_STOP (R392): between commands, after 1,860 idle card clocks. -/
def execCardClockStop (port : Nat) (s : State) : Result :=
  onUnit (port < 2) s (fun p =>
    let c := p.cerPort port
    if c.active ∧ c.clkstop = false ∧ c.step.any (fun x => x.stage == .awaiting) = true then
      (p.wait (1860 * 2 * c.div.toNat)).updCer port (fun c => { c with clkstop := true })
    else p)

/-- CER_STEP_CARD_TIMEOUT (R399, R403, R404): 120 s without the card. -/
def execCerStepCardTimeout (port : Nat) (s : State) : Result :=
  onUnit (port < 2) s (fun p => match (p.cerPort port).step with
    | some st =>
      if st.stage = .awaiting then
        (p.atTime (st.started + sec 120)).finishStep port
          (if (p.cerPort port).unknown.isSome then Status.cardOutcomeUnknown else CerStatus.timeout)
      else p
    | none => p)

/-- CEREMONY_IDLE_TIMEOUT (R403). -/
def execCeremonyIdleTimeout (port : Nat) (s : State) : Result :=
  onUnit (port < 2) s (fun p => match (p.cerPort port).cer, (p.cerPort port).step with
    | some c, none => (p.atTime (c.lastStep + sec 600)).voidCeremony port
    | _, _ => p)

/-- AUTHORISATION_LAPSE (R398). -/
def execAuthorisationLapse (port : Nat) (s : State) : Result :=
  onUnit (port < 2) s (fun p => match (p.cerPort port).auth with
    | some a => (p.atTime (a.granted + sec 60)).lapseAuth port
    | none => p)

end Sys2Proof.Machine
end

