-- ==== Sys2Proof/Machine/DealImage.lean ====
section
/-! DEFINITION. Deal images (02): the header, the section stream, and the checks of R46 in their order. -/

namespace Sys2Proof.Machine

/-- A failed check: the reason of R46 and the section type being checked, 0 outside a section. -/
abbrev Check (α : Type) := Except (Nat × Nat) α

/-- A section: its type, its critical flag, its value, and the whole as it stands in the stream (R33). -/
structure Section where
  type : Nat
  critical : Bool
  value : Bytes
  whole : Bytes
deriving DecidableEq, Repr

/-- Section types (R34): size of an entry and how many, where the table gives them; whether the section is required. -/
def sectionShape (t : Nat) : Option (Nat × Nat × Bool) :=
  if t = 1 then some (32, 256, true)
  else if t = 2 then some (16, 256, true)
  else if t = 3 then some (32, 4096, false)
  else if t = 4 then some (96, 4096, true)
  else if t = 5 then some (256, 1024, false)
  else if t = 6 then some (8, 2048, true)
  else if t = 7 then some (8, 4096, false)
  else if t = 8 then some (8, 1024, false)
  else if t = 9 then some (64, 1, false)
  else if t = 0xA then some (64, 1, false)
  else none

def knownSection (t : Nat) : Bool := (1 ≤ t && t ≤ 0xC) || t == 0xFF

/-! ### The stream (R33) -/

/-- The sections of a stream up to the first fault, types rising from `low` on, the signature section last; and that fault, if any. -/
def readSections : Nat → Nat → Bytes → List Section × Option (Nat × Nat)
  | 0, _, _ => ([], some (9, 0))
  | n + 1, low, b =>
    let t := field b 0 2
    let len := field b 4 4
    let size := 8 + len + padding 8 len
    if b.length < 8 then ([], some (9, 0))
    else if t < low ∨ 1 < field b 2 2 ∨ b.length < size ∨ allZero (slice b (8 + len) (padding 8 len)) = false then ([], some (9, t))
    else
      let s : Section := { type := t, critical := field b 2 2 = 1, value := slice b 8 len, whole := b.take size }
      if t = 0xFF then (if b.length = size then ([s], none) else ([], some (9, t)))
      else if knownSection t = false ∧ s.critical = true then ([], some (9, t))
      else
        let (l, e) := readSections n (t + 1) (b.drop size)
        (s :: l, e)

def splitSections (b : Bytes) : Check (List Section) := match readSections (b.length + 1) 0 b with
  | (l, none) => .ok l
  | (_, some e) => .error e

/-- The types of the sections that the part skips: those it does not know, up to the first fault (R33). -/
def skippedIn (b : Bytes) : List Nat := ((readSections (b.length + 1) 0 b).1.map (·.type)).filter (fun t => !(knownSection t))

def valueOf (l : List Section) (t : Nat) : Option Bytes := (l.find? (fun s => s.type = t)).map (·.value)

/-- The entries of a section of a type with fixed entries. -/
def entriesIn (l : List Section) (t : Nat) : List Bytes := match valueOf l t, sectionShape t with
  | some v, some (size, _, _) => chunks size v
  | _, _ => []

/-- Entry sizes and counts; partner and drill sections hold exactly one entry (13 R350, 17 R433). -/
def shapeOk (l : List Section) (t : Nat) : Bool := match valueOf l t, sectionShape t with
  | some v, some (size, n, _) => v.length % size == 0 && decide (v.length / size ≤ n) && (n != 1 || v.length == size)
  | none, some (_, _, required) => !required
  | _, none => true

/-- The images of the applet image section, each with what its layout holds (10 R272); none when one runs past the section. -/
def splitImages : Nat → Bytes → Option (List Bytes)
  | 0, b => if b = [] then some [] else none
  | n + 1, b =>
    if b = [] then some []
    else
      let len := 192 + field b 8 4 + field b 12 4
      let size := len + padding 8 len
      if b.length < 192 ∨ b.length < size ∨ allZero (slice b len (padding 8 len)) = false then none
      else (splitImages n (b.drop size)).map (fun r => b.take len :: r)

/-! ### Entries -/

def parseHand (b : Bytes) : HandEntry :=
  { hand := field b 0 1, flags := byteAt b 1, inst := field b 4 4, slotBase := field b 8 4, slotCount := field b 12 4
    ctrBase := field b 16 4, ctrCount := field b 20 4, appSize := field b 24 4, appBase := field b 28 4 }

def parseSeat (b : Bytes) : SeatEntry :=
  { hand := field b 0 1, mask := byteAt b 1, priv := (byteAt b 2).getLsbD 0, trick := field b 4 2, lane := field b 6 2, pke := field b 8 2
    digest := field b 10 2, inflight := field b 12 4 }

def parsePolicy (b : Bytes) : PolicyEntry :=
  { hand := field b 0 1, ktype := field b 1 1, usages := BitVec.ofNat 16 (field b 2 2), flags := byteAt b 4, tdeaLimit := field b 5 1
    usageLimit := field b 8 8 }

def parseAdmission (b : Bytes) : AdmissionEntry :=
  { cert := b.take 48, hand := field b 48 1, flags := byteAt b 49, limit := field b 50 2, credit := field b 52 4, window := field b 56 2
    idle := field b 58 2, swin := field b 60 4, slimit := field b 64 2 }

def parseMap (b : Bytes) : MapEntry :=
  { image := field b 0 4, hand := field b 4 1, master := field b 5 1, grants := byteAt b 6
    windows := (List.range 8).map (fun i =>
      { base := field b (16 + 16 * i) 4, len := field b (20 + 16 * i) 4, attrs := BitVec.ofNat 32 (field b (24 + 16 * i) 4) }) }

def parseMatrix (b : Bytes) : MatrixEntry :=
  { cls := field b 0 1, sev := field b 1 1, count := field b 2 2, window := field b 4 2, resp := field b 6 1, scope := byteAt b 7 }

def parseLimit (b : Bytes) : LimitEntry :=
  { code := BitVec.ofNat 16 (field b 0 2), mask := byteAt b 2, rate := field b 4 2, burst := field b 6 2 }

def parseRoute (b : Bytes) : RouteEntry :=
  { source := field b 0 2, dest := byteAt b 2, hand := field b 3 1, minsev := field b 4 1 }

def parsePartner (b : Bytes) : PartnerEntry :=
  { lead := field b 0 1 = 1, rate := field b 2 2, pairing := BitVec.ofNat 32 (field b 4 4), peer := slice b 8 16 }

def parseDrill (b : Bytes) : DrillEntry :=
  { targets := byteAt b 0, actions := byteAt b 1, duration := field b 2 2, dropFloor := field b 4 2, probCeil := field b 6 2 }

def parseImage (b : Bytes) : Image :=
  let code := field b 8 4
  { id := field b 0 4, hand := field b 4 1, code := slice b 192 code, data := slice b (192 + code) (field b 12 4), zeroLen := field b 16 4
    stackLen := field b 20 4, entry := field b 24 4, budget := field b 28 4 }

/-! ### Content rules -/

/-- Ranges [a, a + n) and [b, b + m) share a place. -/
def overlaps (a n b m : Nat) : Bool := n ≠ 0 && m ≠ 0 && a < b + m && b < a + n

/-- True when no two elements are related. -/
def pairwiseNot {α : Type} (rel : α → α → Bool) : List α → Bool
  | [] => true
  | a :: r => r.all (fun b => !(rel a b)) && pairwiseNot rel r

/-- R36; `now_` is hand 0's instance in the active Deal. -/
def handsOk (l : List Bytes) (now_ : Option Nat) : Bool :=
  let h := l.map parseHand
  let one := fun (b : Bytes) =>
    let e := parseHand b
    (e.flags &&& 0xFC) == 0 && field b 2 2 == 0 && e.inst != 0 && decide (e.slotBase < 2 ^ 23) && decide (e.ctrBase < 2 ^ 20) &&
      decide (e.slotBase + e.slotCount ≤ 8388608) && decide (e.ctrBase + e.ctrCount ≤ 1048576) &&
      decide (e.appBase + e.appSize ≤ 8176) && (e.appSize != 0 || e.appBase == 0)
  l.all one && h.any (fun e => e.hand == 0) && distinct (h.map (·.hand)) &&
    pairwiseNot (fun a b => overlaps a.slotBase a.slotCount b.slotBase b.slotCount || overlaps a.ctrBase a.ctrCount b.ctrBase b.ctrCount ||
      overlaps a.appBase a.appSize b.appBase b.appSize) h &&
    match now_ with
    | none => true
    | some i => h.all (fun e => e.hand != 0 || e.inst == i)

/-- R38. -/
def seatsOk (l : List Bytes) (hands : List Nat) (seatNums : List Nat) : Bool :=
  let s := l.map parseSeat
  let bad := fun (e : SeatEntry) => (List.range 8).any (fun n => e.mask.getLsbD n && !(seatNums.contains n))
  let on := fun (n : Nat) => s.filter (fun e => e.mask.getLsbD n)
  let sum := fun (f : SeatEntry → Nat) (n : Nat) => (on n).foldl (fun t e => t + f e) 0
  let private_ := fun (n : Nat) => s.any (fun e => e.priv && e.mask.getLsbD n)
  l.all (fun b => byteAt b 2 &&& 0xFE == 0 && byteAt b 3 == 0) && distinct (s.map (·.hand)) && s.all (fun e => hands.contains e.hand) &&
    hands.all (fun h => s.any (fun e => e.hand == h)) && s.all (fun e => !(bad e) && (e.hand == 0 || e.mask != 0)) &&
    s.all (fun e => decide (1 ≤ e.inflight) && decide (e.inflight ≤ 1048576)) &&
    seatNums.all (fun n => decide (sum (·.trick) n ≤ 1024) && decide (sum (·.lane) n ≤ 1024) && decide (sum (·.pke) n ≤ 1024) &&
      decide (sum (·.digest) n ≤ 1024)) &&
    s.all (fun e => !e.priv || s.all (fun f => f.hand == e.hand || f.hand == 0 || (e.mask &&& f.mask) == 0)) &&
    seatNums.any (fun n => (s.any (fun e => e.hand == 0 && e.mask.getLsbD n)) && !(private_ n))

/-- R125. -/
def policyOk (l : List Bytes) (hands : List Nat) : Bool :=
  let one := fun (b : Bytes) =>
    let e := parsePolicy b
    hands.contains e.hand && (e.flags &&& 0xC0) == 0 && field b 6 2 == 0 && allZero (slice b 16 16) && decide (e.usageLimit ≤ 2 ^ 56 - 1) &&
      (match admitted e.ktype with
        | some a => (e.usages &&& a) == e.usages
        | none => false) &&
      (if isTdea e.ktype then decide (16 ≤ e.tdeaLimit) && decide (e.tdeaLimit ≤ 40) else e.tdeaLimit == 0)
  l.all one && distinct (l.map (fun b => (field b 0 1, field b 1 1)))

/-- R75. -/
def admissionOk (l : List Bytes) (hands : List Nat) : Bool :=
  let one := fun (b : Bytes) =>
    let e := parseAdmission b
    hands.contains e.hand && (e.flags &&& 0xF8) == 0 && decide (1 ≤ e.limit) && decide (e.limit ≤ 64) && decide (1 ≤ e.credit) &&
      decide (e.credit ≤ 65536) && [64, 128, 256, 512, 1024, 2048, 4096].contains e.window && decide (1 ≤ e.idle) && decide (64 ≤ e.swin) &&
      decide (e.swin ≤ 16384) && decide (1 ≤ e.slimit) && decide (e.slimit ≤ 256) && allZero (slice b 66 30)
  l.all one && distinct (l.map (·.take 48))

/-- 12 R327. -/
def matrixOk (l : List Bytes) : Bool :=
  let m := l.map parseMatrix
  m.all (fun e => decide (1 ≤ e.cls) && decide (e.cls ≤ 15) && e.cls != 12 && decide (1 ≤ e.sev) && decide (e.sev ≤ 4) && decide (1 ≤ e.count) &&
    decide (1 ≤ e.window) && decide (e.resp ≤ 3) && e.scope != 0 && (e.scope &&& 0xFC) == 0) &&
    pairwiseNot (fun a b => a.cls == b.cls && a.sev == b.sev && (a.scope &&& b.scope) != 0) m

/-- 14 R376. -/
def limitsOk (l : List Bytes) (dies : List Nat) : Bool :=
  let m := l.map parseLimit
  l.all (fun b => byteAt b 3 == 0) &&
    m.all (fun e => e.mask != 0 && (List.range 8).all (fun n => !(e.mask.getLsbD n) || dies.contains n) && decide (e.rate ≤ 10000) &&
      (if e.rate = 0 then e.burst == 0 else decide (1 ≤ e.burst) && decide (e.burst ≤ 1024))) &&
    pairwiseNot (fun a b => a.code == b.code && (a.mask &&& b.mask) != 0) m

/-- A notice source that a unit of the variant has (14 R386). -/
def sourceExists (seats source : Nat) : Bool :=
  if source < 128 then decide (source ≤ 18) || source == 32 || source == 33
  else
    let n := (source - 128) / 128
    let j := source % 128
    decide (n < seats) && (decide (j ≤ 2) || (decide (16 ≤ j) && decide (j ≤ 42)) || (decide (44 ≤ j) && decide (j ≤ 55)))

/-- 14 R387. -/
def routingOk (l : List Bytes) (hands : List Nat) (seats : Nat) : Bool :=
  let m := l.map parseRoute
  l.all (fun b => allZero (slice b 5 3)) &&
    m.all (fun e => sourceExists seats e.source && e.dest != 0 && (e.dest &&& 0xF8) == 0 && hands.contains e.hand && decide (e.minsev ≤ 4)) &&
    distinct (m.map (·.source))

/-- 13 R350. -/
def partnerOk (b : Bytes) (pairing : Option Pairing) : Bool :=
  let e := parsePartner b
  (field b 0 1 == 1 || field b 0 1 == 2) && byteAt b 1 == 0 && decide (10 ≤ e.rate) && decide (e.rate ≤ 300) && allZero (slice b 24 40) &&
    pairing.any (fun x => x.id == e.pairing && x.peer == e.peer)

/-- 17 R433. -/
def drillOk (b : Bytes) : Bool :=
  let e := parseDrill b
  e.targets != 0 && (e.targets &&& 0xF0) == 0 && e.actions != 0 && (e.actions &&& 0xF0) == 0 && decide (1 ≤ e.duration) && decide (e.duration ≤ 3600) &&
    decide (1 ≤ e.dropFloor) && (e.dropFloor != 1 || (e.targets &&& 0x0C) == 0) && allZero (slice b 8 56)

/-- 10 R283. -/
def mapsOk (l : List Bytes) (images : List Image) : Bool :=
  let win := fun (w : GuardWindow) =>
    (w.attrs &&& 0xFFFFFFF8) == 0 &&
      (if w.len = 0 then w.base == 0 && w.attrs == 0
       else decide (0x10000 ≤ w.base) && decide (w.base + w.len ≤ 0x200000) && w.base % 64 == 0 && w.len % 64 == 0 &&
        !(w.attrs.getLsbD 1 && w.attrs.getLsbD 2))
  let one := fun (b : Bytes) =>
    let e := parseMap b
    allZero (slice b 7 9) && allZero (slice b 144 112) && decide (e.master ≤ 2) && (e.grants &&& 0xF8) == 0 &&
      (List.range 8).all (fun i => allZero (slice b (28 + 16 * i) 4)) && e.windows.all win &&
      pairwiseNot (fun u v => overlaps u.base u.len v.base v.len) e.windows &&
      (e.master == 0 || e.grants == 0 && e.windows.all (fun w => !(w.attrs.getLsbD 2))) &&
      images.any (fun i => i.id == e.image && i.hand == e.hand)
  let m := l.map parseMap
  l.all one && distinct (m.map (fun e => (e.image, e.master))) &&
    images.all (fun i => [0, 1, 2].all (fun k => m.any (fun e => e.image == i.id && e.master == k)))

/-- Bytes an image takes in a core's SRAM (10 R273). -/
def imageTotal (i : Image) : Nat :=
  let up := fun (n : Nat) => n + padding 64 n
  up i.code.length + up i.data.length + up i.data.length + up i.zeroLen + i.stackLen

/-- 10 R272, R273, under the signing registry. -/
def imageOk (b : Bytes) (hands : List Nat) (r : Registry) : Bool :=
  let i := parseImage b
  i.id != 0 && hands.contains i.hand && field b 6 2 == 0 && allZero (slice b 176 16) && i.code.length % 8 == 0 && decide (8 ≤ i.code.length) &&
    i.data.length % 8 == 0 && i.zeroLen % 8 == 0 && i.stackLen % 16 == 0 && decide (4096 ≤ i.stackLen) && i.entry % 2 == 0 &&
    decide (i.entry < i.code.length) && decide (1000 ≤ i.budget) && decide (i.budget ≤ 1500000000) && decide (imageTotal i ≤ 2015232) &&
    sha384 (i.code ++ i.data) == slice b 32 48 &&
    (r.custodians.find? (fun k => k.index = field b 5 1)).any (fun k =>
      p384.verify (some (field k.ecdsa 0 48, field k.ecdsa 48 48)) (sha384 (i.code ++ i.data)) (field b 80 48) (field b 128 48))

/-! ### The image -/

/-- The plaintext sections of an image under the Deal key (R42). -/
def openImage (key image : Bytes) : Option Bytes :=
  let n := field image 12 4
  gcmOpen key (slice image 88 12) (image.take 128) (slice image 128 n) (image.drop (128 + n))

/-- The structure digest (R57). -/
def structureDigest (l : List Section) : Bytes :=
  sha384 ((l.filter (fun s => s.type != 9 && s.type != 0xFF)).flatMap (·.whole))

/-- The Deal that verified sections describe. -/
def buildDeal (image : Bytes) (l : List Section) (r : Registry) : Deal :=
  { serial := field image 16 8, hands := (entriesIn l 1).map parseHand, seats := (entriesIn l 2).map parseSeat
    policy := (entriesIn l 3).map parsePolicy, admission := (entriesIn l 4).map parseAdmission, maps := (entriesIn l 5).map parseMap
    matrix := (entriesIn l 6).map parseMatrix, limits := (entriesIn l 7).map parseLimit
    routing := (valueOf l 8).map (fun _ => (entriesIn l 8).map parseRoute)
    partner := (valueOf l 9).map parsePartner, drill := (valueOf l 0xA).map parseDrill, registry := r
    images := (((valueOf l 0xC).bind (splitImages 65)).getD []).map parseImage
    digest := structureDigest l, imageDigest := sha384 image }

/-- A bank's Deal at start-up (R48): its tag and its digest are checked, its signatures are not. -/
def bootDeal (key image digest : Bytes) : Option Deal :=
  if sha384 image ≠ digest then none
  else match openImage key image with
    | none => none
    | some plain => match splitSections plain with
      | .error _ => none
      | .ok l => ((valueOf l 0xB).bind parseRegistry).map (buildDeal image l)

namespace Part

/-- Orders 2 to 5 of R46: the header, for this part. -/
def headerFault (p : Part) (b : Bytes) : Option Nat :=
  let part := match p.fuses.variant with
    | .xf2402 => 0x2402
    | .xf2404 => 0x2404
    | .xf2408 => 0x2408
  if field b 0 4 ≠ 0x4445414C ∨ field b 4 2 ≠ 1 ∨ field b 6 2 ≠ 128 ∨ byteAt b 11 ≠ 0 ∨ allZero (slice b 100 4) = false ∨
      allZero (slice b 112 16) = false then some 2
  else if field b 8 2 ≠ part ∨ field b 10 1 ≠ p.seatCount then some 3
  else if slice b 24 16 ≠ p.fuses.idBytes then some 4
  else if 8388608 < b.length ∨ b.length ≠ 144 + field b 12 4 ∨ field b 12 4 % 8 ≠ 0 then some 5
  else none

/-- Orders 9 to 15 of R46 on a decrypted stream. -/
def checkSections (p : Part) (image plain : Bytes) (signing : Registry) : Check Deal :=
  match splitSections plain with
  | .error e => .error e
  | .ok l =>
    match (List.range 11).find? (fun t => !(shapeOk l t)) with
    | some t => .error (9, t)
    | none => match (valueOf l 0xB).bind parseRegistry, (match valueOf l 0xC with
        | none => some []
        | some v => splitImages 65 v) with
      | none, _ => .error (9, 0xB)
      | some _, none => .error (9, 0xC)
      | some r, some imgs =>
        if 64 < imgs.length then .error (9, 0xC)
        else match (valueOf l 0xFF).bind parseSignatures with
          | none => .error (9, 0xFF)
          | some (m, sigs) =>
            let before := (l.filter (fun s => s.type != 0xFF)).flatMap (·.whole)
            let hands := (entriesIn l 1).map (field · 0 1)
            let images := imgs.map parseImage
            let inst := (p.deal.active.map (·.hands)).bind (fun h => (h.find? (fun e => e.hand = 0)).map (·.inst))
            if quorumSigned signing signing.deal (sha384 (image.take 128 ++ before)) (ascii "XF24-DEAL") m sigs = false then .error (10, 0)
            else if handsOk (entriesIn l 1) inst = false then .error (11, 1)
            else if seatsOk (entriesIn l 2) hands p.seatNums = false then .error (12, 2)
            else if mapsOk (entriesIn l 5) images = false then .error (13, 5)
            else if policyOk (entriesIn l 3) hands = false then .error (14, 3)
            else if admissionOk (entriesIn l 4) hands = false then .error (14, 4)
            else if matrixOk (entriesIn l 6) = false then .error (14, 6)
            else if limitsOk (entriesIn l 7) p.dieNums = false then .error (14, 7)
            else if routingOk (entriesIn l 8) hands p.seatCount = false then .error (14, 8)
            else if (valueOf l 9).any (fun b => !(partnerOk b p.part.pairing)) = true then .error (14, 9)
            else if (valueOf l 0xA).any (fun b => !(drillOk b)) = true then .error (14, 0xA)
            else if imgs.any (fun b => !(imageOk b hands signing)) = true ∨ distinct (images.map (·.id)) = false then .error (15, 0xC)
            else .ok (buildDeal image l r)

/-- Orders 6 to 8 of R46: the serial, the owner registry, the tag; the plaintext sections and the registry that signs. -/
def openChecks (p : Part) (image : Bytes) : Check (Bytes × Registry) :=
  let serial := field image 16 8
  if serial = 0 ∨ 2 ^ 64 - 1 ≤ serial ∨ serial ≤ p.serialNow then .error (6, 0)
  else match p.registryNow with
    | none => .error (7, 0)
    | some r =>
      if slice image 40 48 ≠ r.fingerprint then .error (7, 0)
      else match p.deal.key.bind (openImage · image) with
        | none => .error (8, 0)
        | some plain => .ok (plain, r)

/-- DEAL_STAGE's checks (R46). After both banks failed only the recorded Deal itself is accepted, whose signatures are not checked again (R48);
every other image, one of a greater serial too, is rejected with reason 6 (DEDUCED, log 63). -/
def checkImage (p : Part) (image : Bytes) : Check Deal :=
  if p.power.life ≠ 1 then .error (1, 0)
  else match p.headerFault image with
    | some r => .error (r, 0)
    | none =>
      if p.deal.failed then
        if field image 16 8 ≠ p.deal.recSerial ∨ sha384 image ≠ p.deal.recDigest then .error (6, 0)
        else match bootDeal (p.deal.key.getD []) image p.deal.recDigest with
          | none => .error (8, 0)
          | some d => .ok d
      else match p.openChecks image with
        | .error e => .error e
        | .ok (plain, r) => p.checkSections image plain r

/-- The sections that checking an image skips, whatever a later check finds: their records are written (R33). -/
def skippedTypes (p : Part) (image : Bytes) : List Nat :=
  if p.power.life ≠ 1 ∨ (p.headerFault image).isSome = true ∨ p.deal.failed = true then []
  else match p.openChecks image with
    | .ok (plain, _) => skippedIn plain
    | .error _ => []

end Part

end Sys2Proof.Machine
end

