-- ==== Sys2Proof/Machine/Joker.lean ====
section
/-! DEFINITION. The teardown of a hand's ranges (02 R53), and the Joker port's tokens and debug sessions (10 R289 to R294). -/

namespace Sys2Proof.Machine

/-- JOKER_TOKEN_INVALID (10 R296). -/
def jokerInvalid : BitVec 16 := 0x0E02

/-- A Joker token's header (10 R291). -/
structure Token where
  scope : Nat
  hand : Nat
  seats : Byte
  identity : Bytes
  challenge : Bytes
  serial : Nat
  expiry : Nat
deriving DecidableEq, Repr

/-- The header of a token whose fields lie within their values. -/
def parseToken (b : Bytes) : Option Token :=
  let scope := field b 6 2
  let hand := field b 8 1
  let seats := byteAt b 9
  if b.length < 128 ∨ field b 0 4 ≠ 0x4A4F4B52 ∨ field b 4 2 ≠ 1 ∨ scope = 0 ∨ 4 < scope ∨ allZero (slice b 10 6) = false ∨
      allZero (slice b 80 48) = false ∨ (scope = 4 ∧ hand = 0) ∨ (scope ≠ 4 ∧ hand ≠ 0) ∨ (scope < 3 ∧ seats ≠ 0) ∨ seats.getLsbD 0 = true then none
  else some { scope := scope, hand := hand, seats := seats, identity := slice b 16 16, challenge := slice b 32 32, serial := field b 64 8
              expiry := field b 72 8 }

namespace Part

/-! ### Teardown (02 R53) -/

/-- Every slot of a range that is retired. -/
def retiredIn (p : Part) (first n : Nat) : List Nat :=
  (p.vault.slots.filter (fun e => e.2.st == .retired && first ≤ e.1 && e.1 < first + n)).map (·.1)

/-- Zeroizes the ranges of an entry and, when the hand itself goes, its saved contexts. A slot whose generation ends is retired, with its record
(05 R138). Mutations of the hand that have not committed there are gone, the part's leases of its counters among them. -/
def tearEntry (p : Part) (e : HandEntry) (contexts : Bool) : Part :=
  let before := p.retiredIn e.slotBase e.slotCount
  let lease := fun (m : Mutation) => match m.kind with
    | .lease .. => true
    | _ => false
  let p := p.setVault { p.vault with muts := p.vault.muts.filter (fun m => !((m.hand == e.hand || lease m) && !m.committed && m.objs.any e.holds)) }
  let p := p.tearRanges e contexts
  ((p.retiredIn e.slotBase e.slotCount).filter (fun i => !(before.contains i))).foldl
    (fun p i => (p.writeJournal e.hand false p.leadEpoch (.slotRetire i 1)).1) p

def HandEntry.teardown (e : HandEntry) : JBody :=
  .teardown e.hand e.inst e.slotBase e.slotCount e.ctrBase e.ctrCount e.appBase e.appSize

/-- A record of what the part has done to its vault on its own. In a pair the lead orders it (13 R359). -/
def ownRecord (p : Part) (hand : Nat) (b : JBody) (objs : List Obj) : Part :=
  if p.mirrored && !p.orders then
    let id := p.vault.nextMut
    let m : Mutation := { id := id, kind := .note b, hand := hand, owner := none, objs := objs, own := true, forwarded := true }
    (p.setVault { p.vault with muts := p.vault.muts ++ [m], nextMut := id + 1 }).sendMirror (.forward 0 0 p.leadEpoch hand b)
  else p.mutate (.note b) hand none objs true

/-- The cores that run an instance of a hand. -/
def coresOf (p : Part) (hand : Nat) : List (Nat × Nat) :=
  (p.seatNums.flatMap (fun n => (List.range 4).map (fun k => (n, k)))).filter (fun e =>
    let c := p.core e.1 e.2
    c.uid.isSome && c.hand.toNat == hand)

/-- A hand is zeroized for debug (R294): its instances and calls end, then its ranges and contexts are zeroized, journaled. -/
def zeroizeHand (p : Part) (hand : Nat) : Part :=
  let p := (p.coresOf hand).foldl (fun p e => p.endInstance e.1 e.2 (some Status.keyErasedInFlight)) p
  match p.handEntry p.deal.epoch hand with
  | none => p
  | some e => (p.tearEntry e true).ownRecord hand (HandEntry.teardown e) []

/-! ### Tokens (R291, R292) -/

def setJoker (p : Part) (x : Joker) : Part := { p with joker := x }

/-- The operating time reaches an expiry. -/
def untilOptime (p : Part) (t : Nat) : Part := p.atTime (p.evr.opAt + msec 10 * (t - p.evr.opBase))

/-- Why a token is refused: the reason of JKR_STATUS. -/
def tokenFault (p : Part) (b : Bytes) : Option Nat :=
  match parseToken b, parseSignatures (b.drop 128) with
  | some t, some (m, sigs) =>
    let debuggable := match p.handEntry p.deal.epoch t.hand with
      | some e => e.flags.getLsbD 0
      | none => false
    if t.identity ≠ p.fuses.idBytes then some 2
    else if t.challenge ≠ p.joker.chal then some 3
    else if t.serial ≠ p.serialNow then some 4
    else if t.expiry ≤ p.optime then some 5
    else if (p.registryNow.any (fun r => quorumSigned r r.joker (sha384 (b.take 128)) (ascii "XF24-JOKR") m sigs)) = false then some 6
    else if t.scope = 4 ∧ (p.power.life ≠ 1 ∨ debuggable = false) then some 7
    else if (List.range 8).any (fun n => t.seats.getLsbD n && !(p.hasSeat n)) then some 8
    else if p.joker.scope ≠ 0 then some 9
    else none
  | _, _ => some 1

/-- A fresh challenge (R292). -/
def newChallenge (p : Part) : Part := (p.setJoker { p.joker with chal := p.drawn 32 }).drbgTakes 0 32

/-- A Seat is taken out of service for debug, as for a Shed (R293, 04 R115, R116). -/
def debugSeat (p : Part) (n : Nat) : Part :=
  let p := ((p.loseSeat n Status.seatShed).voidSeatCeremonies n).wipeCache (fun c => c.seat == n)
  let clear : Nat × Affinity → Nat × Affinity := fun e => (e.1, { e.2 with seats := e.2.seats.filter (fun k => !(k == n)) })
  let p := (p.emptyEngines n).dropConfirm n
  ({ p with disp := { p.disp with affinity := p.disp.affinity.map clear } }).updSeat n (fun s => { s with st := .shed, holdEnd := none })

def maskedSeats (p : Part) (m : Byte) : List Nat := p.seatNums.filter (fun n => m.getLsbD n)

/-- A token's session opens (R293, R294). -/
def openJoker (p : Part) (t : Token) : Part :=
  let p := p.setJoker { p.joker with scope := BitVec.ofNat 3 t.scope, hand := BitVec.ofNat 8 t.hand, seats := t.seats, expiry := t.expiry }
  if t.scope = 3 then ((p.maskedSeats t.seats).foldl (fun p n => p.debugSeat n) p).relevel
  else if t.scope = 4 then
    let p := (p.maskedSeats t.seats).foldl (fun p n =>
      if (p.core n 3).uid.isSome ∧ (p.core n 3).hand.toNat ≠ t.hand then p.endInstance n 3 (some Status.guardHold) else p) p
    (p.setJoker { p.joker with scope := 5, next := some 4 }).zeroizeHand t.hand
  else p

/-- JOKER_AUTH (R289, R291, R292). -/
def jokerAuth (p : Part) (b : Bytes) : Part :=
  let p := p.setJoker { p.joker with ir := 0x10 }
  match p.tokenFault b, parseToken b with
  | none, some t =>
    let p := (p.setJoker { p.joker with code := Status.done, reason := 0 }).bump (regAddr 0 winJKR 0x0100)
    p.newChallenge.openJoker t
  | r, _ =>
    let p := (p.setJoker { p.joker with code := jokerInvalid, reason := BitVec.ofNat 8 (r.getD 1) }).bump (regAddr 0 winJKR 0x0108)
    p.newChallenge

/-- A halted core goes on with its instance, or is idle. -/
def unhalt (p : Part) (seat core : Nat) : Part :=
  let c := p.core seat core
  if c.run = .halted then p.setCore seat core { c with run := if c.uid.isSome then .running else .idle, regs := [] } else p

/-- A Seat comes back from debug through its self-test (R293). -/
def returnSeat (p : Part) (n : Nat) : Part :=
  let q := (List.range 4).foldl (fun p k => p.unhalt n k) p
  if q.seatIn n .shed && !(q.seat n).parked then q.updSeat n (fun s => { s with st := .selfTest }) else q

/-- A debug session closes (R292 to R294): its Seats go through self-test, its hand is zeroized again. -/
def closeJoker (p : Part) : Part :=
  let j := p.joker
  let shut := fun (p : Part) => p.setJoker { p.joker with scope := 0, hand := 0, seats := 0, expiry := 0, next := none }
  if j.scope = 0 then p
  else if j.scope = 3 then
    let p := (p.maskedSeats j.seats).foldl (fun p n => p.returnSeat n) p
    (shut p).relevel
  else if j.scope = 4 then
    let p := (p.maskedSeats j.seats).foldl (fun p n => p.unhalt n 3) p
    (p.setJoker { p.joker with scope := 5, seats := 0, expiry := 0, next := none }).zeroizeHand j.hand.toNat
  else if j.scope = 5 then p.setJoker { p.joker with next := none, expiry := 0 }
  else shut p

/-- The zeroizing of a hand for debug is over: the session opens, or has closed (R294). -/
def jokerTorn (p : Part) (hand : Nat) : Part :=
  if p.joker.scope = 5 ∧ p.joker.hand.toNat = hand then
    match p.joker.next with
    | some s => p.setJoker { p.joker with scope := s, next := none }
    | none => p.setJoker { p.joker with scope := 0, hand := 0, seats := 0, next := none }
  else p

/-! ### The TAP (R289, R290) -/

/-- Another instruction is selected: leaving EXTEST lets waiting cards be activated again (R290). -/
def setIr (p : Part) (ir : Byte) (dr : Nat) : Part :=
  let was := p.extesting
  let p := p.setJoker { p.joker with ir := ir, dr := BitVec.ofNat 128 dr }
  if was then (p.startCard 0).startCard 1 else p

def bypass (p : Part) : Part := p.setIr 0xFF 0

/-- Cells 0 to 11 of a ceremony port, in the pin order of 18 R441: IO (input, output, control), CLK and RST (output, control), PRES_N (input), VSEL0 and
VSEL1 (output, control). What the manual does not give of the moment is free. -/
def portCells (p : Part) (port free : Nat) : Nat :=
  let c := p.cerPort port
  let known := (if c.present then 0 else 2 ^ 7) + (if c.cls.getLsbD 0 then 2 ^ 8 else 0) + (if c.cls.getLsbD 1 then 2 ^ 10 else 0)
  known + (free &&& 0b101001111111)

end Part

/-! ### Rows -/

/-- JOKER_AUTH (R289, R291, R292): elsewhere than in Dealt and Tamper the code selects BYPASS. -/
def execJokerAuth (token : Bytes) (s : State) : Result :=
  powered s (fun p => if (p.power.life = 1 ∨ p.power.life = 2) ∧ p.power.stage ≠ 8 then (p.setIr 0x10 0).jokerAuth token else p.bypass)

/-- JOKER_CLOSE (R289, R292). -/
def execJokerClose (s : State) : Result :=
  powered s (fun p => if p.joker.scope = 0 then p.bypass else (p.setIr 0x12 0).closeJoker)

/-- JOKER_EXPIRY (R292). -/
def execJokerExpiry (s : State) : Result :=
  powered s (fun p => if p.joker.scope = 0 ∨ p.joker.expiry = 0 then p else (p.untilOptime p.joker.expiry).closeJoker)

/-- TRST_N_LOW (R289, R292): the TAP selects the instruction of its reset, IDCODE under IEEE 1149.1. -/
def execTrstNLow (s : State) : Result :=
  powered s (fun p => (p.setIr 0x01 0).closeJoker)

/-- EXTEST (R289, R290): in Blank, or under a boundary token; active cards are deactivated first, and running steps end as for removal. -/
def execExtest (s : State) : Result :=
  powered s (fun p =>
    if (p.power.life = 0 ∨ p.joker.scope = 1) ∧ p.power.stage ≠ 8 then
      let out := fun (p : Part) (port : Nat) => match (p.cerPort port).step with
        | some st => if st.stage = .awaiting then p.finishStep port Status.cardRemoved else p.cardGone port
        | none => p.deactivate port
      (out (out p 0) 1).setIr 0x00 0
    else p.bypass)

/-- BYPASS (R289). -/
def execBypass (s : State) : Result := powered s (fun p => p.bypass)

/-- IDCODE (R289): silicon revision, part number, 0x2D3, 1. -/
def execIdcode (s : State) : Result :=
  powered s (fun p =>
    let number := match p.fuses.variant with
      | .xf2402 => 0x2402
      | .xf2404 => 0x2404
      | .xf2408 => 0x2408
    p.setIr 0x01 (p.fuses.sirev.toNat % 16 * 2 ^ 28 + number * 2 ^ 12 + 0x2D3 * 2 + 1))

/-- SAMPLE_PRELOAD (R289, R290, 18 R441): the 24 cells as they are sampled. -/
def execSamplePreload (s : State) : Result :=
  powered s (fun p =>
    let b := (p.drawn 4).map (·.toNat)
    let free := fun (i : Nat) => b.getD i 0 * 256 + b.getD (i + 1) 0
    (p.draw 4).setIr 0x02 (p.portCells 0 (free 0) + 2 ^ 12 * p.portCells 1 (free 2)))

end Sys2Proof.Machine
end

