-- ==== Sys2Proof/Machine/Pairing.lean ====
section
/-! DEFINITION. Forming a pairing (13 R350 to R352), the partner link, and PROMOTE (13 R362). -/

namespace Sys2Proof.Machine

def pairRefused : BitVec 16 := 0x0803
def promoteRefused : BitVec 16 := 0x0804

/-- A pairing message (R351): role, part identity, X25519 key, ML-KEM key or ciphertext, nonce, identity certificate; then the signature. -/
structure PairMsg where
  role : Nat
  identity : Bytes
  x : Bytes
  kem : Bytes
  cert : Bytes
  body : Bytes
  sig : Bytes
deriving DecidableEq, Repr

def parsePair (b : Bytes) : Option PairMsg :=
  if b.length < 1745 then none
  else some { role := field b 0 1, identity := slice b 1 16, x := slice b 17 32, kem := slice b 49 1568, cert := slice b 1649 (b.length - 1745)
              body := b.take (b.length - 96), sig := b.drop (b.length - 96) }

/-- The keys a pairing yields (R351). -/
structure PairKeys where
  th : Bytes
  cak : Bytes
  k1 : Bytes
  k2 : Bytes
  kt : Bytes
deriving DecidableEq, Repr

def pairKeys (lead follow secret : Bytes) : PairKeys :=
  let th := sha384 (lead ++ follow)
  let prk := hkdfExtract384 th secret
  let out := fun (label : String) => hkdfExpand384 prk (ascii label) 32
  { th := th, cak := out "XF24 pair cak", k1 := out "XF24 mirror 1", k2 := out "XF24 mirror 2", kt := out "XF24 pair kt" }

/-- The pairing ID of a transcript (R351). -/
def pairingId (th : Bytes) : BitVec 32 := if field th 0 4 = 0 then 1 else BitVec.ofNat 32 (field th 0 4)

namespace Part

/-- An item of EtherType 0x88B7 leaves. -/
def sendPair (p : Part) (b : Bytes) : Part := p.setPart { p.part with pairTx := b :: p.part.pairTx }

/-- PAIR_BEGIN is refused (R352); what it had begun is gone. -/
def refusePair (p : Part) (uid why : Nat) : Part :=
  (p.setPart { p.part with exchange := none }).answer uid pairRefused (reason why)

/-- Why PAIR_BEGIN is refused at once (R352). A second one while one is in progress is refused as another pairing (DESIGN CHOICE, log 40). -/
def pairFault (p : Part) (session : BitVec 32) (peer : Bytes) : Option Nat :=
  if p.power.life ≠ 1 ∨ p.vault.st ≠ .open_ then some 1
  else if (p.authOf 2 session).isNone then some 2
  else if p.part.link.toNat < 2 then some 3
  else if p.part.exchange.isSome ∨ (p.paired = true ∧ p.part.pairing.any (fun x => x.peer != peer) = true) then some 6
  else none

/-- This part's message without its signature. -/
def pairBody (p : Part) (lead : Bool) (x kem nonce : Bytes) : Bytes :=
  toBE 1 (if lead then 1 else 2) ++ p.fuses.idBytes ++ x ++ padTo 1568 kem ++ nonce ++ p.idCert.getD []

/-- An exchange begins: the lead sends its message; the follow waits for it (R351). -/
def beginPair (p : Part) (uid : Nat) (peer : Bytes) (lead : Bool) : Part :=
  if lead then
    let key := p.drawn 32
    let (dk, ek) := Kem.keyGen ((p.draw 32).drawn 64)
    let nonce := (p.draw 96).drawn 32
    let k := (p.draw 128).drawn 48
    let body := p.pairBody true (C25519.x25519Base key) ek nonce
    let x : PairExchange := { uid := uid, peer := peer, lead := true, start := p.now, sent := body, secret := key ++ dk }
    ((p.drbgTakes 0 176).setPart { p.part with exchange := some x }).sendPair (body ++ identitySign k body)
  else p.setPart { p.part with exchange := some { uid := uid, peer := peer, lead := false, start := p.now, sent := [], secret := [] } }

/-- The peer's message is of the peer PAIR_BEGIN names, and its signature over the transcript is its certificate's (R351). -/
def pairOk (x : PairExchange) (m : PairMsg) (transcript : Bytes) : Bool :=
  m.identity == x.peer && Config.certNames m.cert x.peer && (m.role == 1 || m.role == 2) &&
    (Config.certKey m.cert).any (fun key => key.length == 96 && p384.onCurve (field key 0 48) (field key 48 48) &&
      p384.verify (some (field key 0 48, field key 48 48)) (sha384 transcript) (field m.sig 0 48) (field m.sig 48 48))

/-- Every hand of the active Deal is zeroized in the vault (R351, 02 R53), journaled. -/
def zeroizeAll (p : Part) : Part :=
  ((p.deal.active.map (·.hands)).getD []).foldl (fun p e =>
    (p.tearEntry e true).ownRecord e.hand (HandEntry.teardown e) []) p

/-- The pairing record is written, and PAIR_BEGIN answers (R351, R366). -/
def endPair (p : Part) (x : PairExchange) (k : PairKeys) : Part :=
  let r : Pairing := { id := pairingId k.th, peer := x.peer, cak := k.cak, k1 := k.k1, k2 := k.k2, epoch := 1, lead := none }
  let p := p.setPart { p.part with pairing := some r, exchange := none, soloMap := [], settled := [], full := false }
  (p.ownRecord 0 (.pairing r.id r.peer x.lead) []).answer x.uid Status.done (toBE 4 r.id.toNat)

/-- The lead has the follow's message: the keys, and the wrapped key-table key (R351). -/
def pairAsLead (p : Part) (x : PairExchange) (m : PairMsg) : Part :=
  let secret := C25519.x25519 (x.secret.take 32) m.x ++ Kem.decaps (x.secret.drop 32) m.kem
  let k := pairKeys x.sent m.body secret
  (p.sendPair (kwpWrap k.kt (p.vault.ktk.getD []))).endPair x k

/-- The follow has the lead's message: it answers with its own, and waits for the key-table key (R351). -/
def pairAsFollow (p : Part) (x : PairExchange) (m : PairMsg) : Part :=
  let key := p.drawn 32
  let (ct, shared) := Kem.encaps m.kem ((p.draw 32).drawn 32)
  let nonce := (p.draw 64).drawn 32
  let k := (p.draw 96).drawn 48
  let body := p.pairBody false (C25519.x25519Base key) ct nonce
  let secret := C25519.x25519 key m.x ++ shared
  ((p.drbgTakes 0 144).setPart { p.part with exchange := some { x with sent := body, secret := secret, received := m.body } }).sendPair
    (body ++ identitySign k (m.body ++ body))

/-- A 0x88B7 item arrives (R351, R352). -/
def pairingItem (p : Part) (identity : Bytes) (b : Bytes) : Part :=
  match p.part.exchange with
  | none => p.bump (regAddr 0 winPPORT 0x0120)
  | some x =>
    if identity ≠ x.peer then p.bump (regAddr 0 winPPORT 0x0120)
    else if x.lead = false ∧ x.received ≠ [] then
      let k := pairKeys x.received x.sent x.secret
      match kwpUnwrap k.kt b with
      | some ktk =>
        if ktk.length = 32 then ((p.zeroizeAll).setVault { (p.zeroizeAll).vault with ktk := some ktk }).endPair x k else p.refusePair x.uid 4
      | none => p.refusePair x.uid 4
    else match parsePair b with
      | none => p.refusePair x.uid 4
      | some m =>
        let transcript := if x.lead then x.sent ++ m.body else m.body
        if decide (m.role = 1) = x.lead ∧ (m.role = 1 ∨ m.role = 2) then p.refusePair x.uid 5
        else if pairOk x m transcript = false then p.refusePair x.uid 4
        else if x.lead then p.pairAsLead x m else p.pairAsFollow x m

/-! ### PROMOTE (R362) -/

/-- Why a promote statement is refused: 1 field or signature, 2 challenge, 3 quorum, 4 not a follow in Solo. -/
def promoteFault (p : Part) (b : Bytes) : Option Nat :=
  match parseSignatures (b.drop 128), p.registryNow with
  | some (m, sigs), some r =>
    let digest := sha384 (b.take 128)
    let context := ascii "XF24-PRMT"
    if field b 0 4 ≠ 0x50524D54 ∨ field b 4 2 ≠ 1 ∨ field b 6 2 ≠ 0 ∨ allZero (slice b 80 48) = false ∨ slice b 8 16 ≠ p.fuses.idBytes ∨
        p.part.pairing.any (fun x => x.peer == slice b 24 16) = false ∨ field b 72 8 ≠ p.serialNow then some 1
    else if slice b 40 32 ≠ p.part.challenge ∨ p.part.challenge = [] then some 2
    else if quorumSigned r r.promote digest context m sigs = false then
      (if sigs.any (fun e => (signer r digest context e).isNone) then some 1 else some 3)
    else if p.part.lead = true ∨ p.part.st ≠ .solo then some 4
    else none
  | _, _ => some 1

/-- PROMOTE's challenge is replaced. -/
def newPromoteChallenge (p : Part) : Part := (p.setPart { p.part with challenge := p.drawn 32 }).drbgTakes 0 32

/-- The follow becomes lead: its epoch rises by one, every live counter is raised, and one promote record is journaled (R362). -/
def promoteNow (p : Part) (uid : Nat) : Part :=
  let e := p.leadEpoch + 1
  let up := p.part.pairing.map (fun x => { x with epoch := e, lead := some true })
  let live := (p.vault.ctrs.filter (fun c => c.2.st == .live)).map (fun c => Obj.ctr c.1)
  let p := (p.setPart { p.part with pairing := up, lead := true }).raiseCounters
  (p.parkCmd uid).mutate (.note (.promote e)) 0 (some uid) live true

/-! ### PART and PPORT words -/

def PairSt.code : PairSt → Nat
  | .unpaired => 0
  | .linking => 1
  | .resync => 2
  | .mirrored => 3
  | .solo => 4

/-- PART_STATE. -/
def partStateWord (p : Part) : Nat := (if p.part.lead && p.paired then 256 else 0) + PairSt.code p.part.st

/-- PART_RTT. -/
def partRttWord (p : Part) : Nat := min p.part.missed 30 * 2 ^ 24 + p.part.rtt.toNat

end Part

/-! ### Rows -/

/-- PAIR_BEGIN (R351, R352). -/
def execPairBegin (o : Origin) (b : Bytes) (s : State) : Result :=
  powered s (fun p => p.serve o 0x8001 b (fun p c => p.houseOnly c (fun p => match c.session? with
    | none => p.lengthFault c.uid
    | some x =>
      let role := field c.params 16 1
      if c.params.length ≠ 24 ∨ role = 0 ∨ 2 < role ∨ allZero (c.params.drop 17) = false then p.lengthFault c.uid
      else match p.pairFault x (c.params.take 16), p.authOf 2 x with
        | none, some (port, _) => ((p.useAuth port).parkCmd c.uid).beginPair c.uid (c.params.take 16) (role = 1)
        | r, _ => p.answer c.uid pairRefused (reason (r.getD 2)))))

/-- PAIRING_FRAME (R351). -/
def execPairingFrame (identity : BitVec 128) (payload : Bytes) (s : State) : Result :=
  powered s (fun p => if p.part.link.toNat < 2 then p else p.pairingItem (toBE 16 identity.toNat) payload)

/-- PAIRING_TIMEOUT (R352). -/
def execPairingTimeout (s : State) : Result :=
  powered s (fun p => match p.part.exchange with
    | some x => (p.atTime (x.start + sec 1)).refusePair x.uid 3
    | none => p)

/-- PARTNER_LINK_UP (R351): up without an association until MKA has secured it. -/
def execPartnerLinkUp (s : State) : Result :=
  powered s (fun p =>
    if p.part.enabled = true ∧ p.part.link.toNat < 2 ∧ p.power.life = 1 then p.setPart { p.part with link := 2 } else p)

/-- PARTNER_LINK_DOWN (R352): a PAIR_BEGIN in progress is refused. -/
def execPartnerLinkDown (s : State) : Result :=
  powered s (fun p =>
    let p := { p with ppAssocs := [] }
    let p := p.setPart { p.part with link := if p.part.enabled then 1 else 0 }
    match p.part.exchange with
    | some x => p.refusePair x.uid 3
    | none => p)

/-- PARTNER_PORT_FRAME (R349, R353): a frame that is dropped; R349 counts each but those of the mirror tag in PPORT_OTHER too. -/
def execPartnerPortFrame (why : PartnerDrop) (s : State) : Result :=
  powered s (fun p =>
    if p.part.link.toNat < 2 then p
    else
      let other := p.bump (regAddr 0 winPPORT 0x0120)
      match why with
      | .fcs => other.bump (regAddr 0 winPPORT 0x0110)
      | .fec => other.bump (regAddr 0 winPPORT 0x0108)
      | .icv => other.bump (regAddr 0 winPPORT 0x0118)
      | .mirrorTag => p.bump (regAddr 0 winPART 0x0110)
      | .other => other)

/-- PART_STATUS (R368): PART_STATE, PART_EPOCH and PART_RTT. -/
def execPartStatus (o : Origin) (b : Bytes) (s : State) : Result :=
  powered s (fun p => p.serve o 0x8002 b (fun p c =>
    if c.params ≠ [] then p.lengthFault c.uid
    else p.answer c.uid Status.done (toBE 4 p.partStateWord ++ toBE 8 p.leadEpoch ++ toBE 4 p.partRttWord)))

/-- PROMOTE_CHALLENGE (R362). -/
def execPromoteChallenge (o : Origin) (b : Bytes) (s : State) : Result :=
  powered s (fun p => p.serve o 0x8100 b (fun p c => p.houseOnly c (fun p =>
    if c.params ≠ [] then p.lengthFault c.uid
    else
      let p := p.newPromoteChallenge
      p.answer c.uid Status.done p.part.challenge)))

/-- PROMOTE (R362): accepted or refused, the challenge is replaced. -/
def execPromote (o : Origin) (b : Bytes) (s : State) : Result :=
  powered s (fun p => p.serve o 0x8101 b (fun p c => p.houseOnly c (fun p =>
    if c.params.length < 136 then p.lengthFault c.uid
    else match p.promoteFault c.params with
      | some r => p.newPromoteChallenge.answer c.uid promoteRefused (reason r)
      | none => p.newPromoteChallenge.promoteNow c.uid)))

end Sys2Proof.Machine
end

