-- ==== Sys2Proof/Machine/Partner.lean ====
section
/-! DEFINITION. The mirror protocol (13): frames in their order, heartbeats, loss and Solo, two-seat commit, and rejoin. -/

namespace Sys2Proof.Machine

namespace Part

/-! ### Pair states (R358, R361) -/

/-- PARTNER_STATE at each change (R358, 14 R385). -/
def partnerState (p : Part) (new : PairSt) : Part :=
  let old := p.part.st
  if old = new then p
  else (p.setPart { p.part with st := new }).event 14 0x0811 2 0 0 (PairSt.code old * 256 + PairSt.code new) (p.leadEpoch % 2 ^ 32) (if p.part.lead then 1 else 2)

/-- What a resync leaves when it ends early: settled objects stay settled (R365). -/
def leaveResync (p : Part) : Part :=
  p.setPart { p.part with soloMap := p.part.soloMap.filter (fun o => !(p.part.settled.contains o)), settled := [], peerMap := [], maps := [], todo := [] }

/-- The requests that wait for a lease end (R144, R361). -/
def endLeaseWaits (p : Part) : Part :=
  ((p.vault.leaseWaits.map (·.1)).dedup).foldl (fun p i => p.endWaiters i Status.partnerUnreachable [1]) p

/-- The partner is lost: the part enters Solo (R361). Forwarded mutations end with their outcome unknown; every pending one is marked. -/
def enterSolo (p : Part) : Part :=
  let lead := p.part.lead
  let p := p.leaveResync
  let held := p.part.sentMsgs.foldl (fun m e => min m (e.1 - 1)) p.part.sendSeq
  let pending := (p.vault.muts.filter (fun m => !m.committed)).flatMap (fun m => match m.kind with
    | .allowance .. => []
    | .remote _ => []
    | _ => m.objs)
  let p := (p.setPart { p.part with sentMsgs := [], early := [], fresh := true, leadInSolo := lead, exchanged := false, evOut := [] }).partnerState .solo
  let p := { p with deal := { p.deal with peerKnown := false, peerMatch := false } }
  let p := (p.bump (regAddr 0 winPART 0x0118)).markDirty pending
  let gone := p.vault.muts.filter (fun m => m.forwarded && m.formed.isNone)
  let p := p.setVault { p.vault with muts := p.vault.muts.filter (fun m => !(m.forwarded && m.formed.isNone)) }
  let p := gone.foldl (fun p m => match m.owner with
    | some u => p.answer u Status.partnerUnreachable [2]
    | none => p) p
  let p := if lead then p else p.endLeaseWaits
  (p.mutate (.note (.partnerLost p.leadEpoch held)) 0 none [] true).formReady

/-- Back to Linking (R358). -/
def toLinking (p : Part) : Part := (p.leaveResync).partnerState .linking

/-! ### Rejoin (R363 to R365) -/

/-- Every nonempty object, a run by each of its slots. -/
def allObjs (p : Part) : List Obj :=
  (p.vault.slots.filter (fun e => e.2.st != .empty)).map (fun e => Obj.slot e.1) ++ p.vault.ctrs.map (fun e => Obj.ctr e.1) ++
    ((p.vault.app.map (fun e => e.1 / 4096)).dedup).map Obj.app

/-- An object's kind and its index (R363). -/
def objKey : Obj → Nat × Nat
  | .slot i => (0, i)
  | .ctr i => (1, i)
  | .app i => (2, i)

def objAt (kind i : Nat) : Obj := if kind = 0 then .slot i else if kind = 1 then .ctr i else .app i

/-- The map of a kind as frames of 65,536 indices; one empty frame where the kind has none (R363). -/
def sendMapKind (p : Part) (kind : Nat) : Part :=
  let mine := p.part.soloMap.filter (fun o => (objKey o).1 = kind)
  let firsts := (mine.map (fun o => (objKey o).2 / 65536 * 65536)).dedup
  if mine = [] then p.sendMirror (.resyncMap kind 0 [])
  else firsts.foldl (fun p f => p.sendMirror (.resyncMap kind f (mine.filter (fun o => (objKey o).2 / 65536 * 65536 = f)))) p

/-- Resync begins (R358, R363): each part sends its map. In a full resync the source's map is all it holds (R365). -/
def enterResync (p : Part) : Part :=
  let p := p.setPart { p.part with settled := [], peerMap := [], maps := [], todo := [], received := 0
                                   soloMap := if p.part.full then (if p.part.lead then p.allObjs else []) else p.part.soloMap }
  (((p.partnerState .resync).sendMapKind 0).sendMapKind 1).sendMapKind 2

/-- The hand whose range holds an object. -/
def handOf (p : Part) (o : Obj) : Nat :=
  let inside := fun (e : HandEntry) => match o with
    | .slot i => e.slotBase ≤ i && i < e.slotBase + e.slotCount
    | .ctr i => e.ctrBase ≤ i && i < e.ctrBase + e.ctrCount
    | .app b => e.appBase * 256 ≤ b && b < (e.appBase + e.appSize) * 256
  (((p.deal.active.map (·.hands)).getD []).find? inside).elim 0 (·.hand)

/-- An object's current state as a body (R353 type 0x07); none for a continuation slot, whose head carries it. -/
def objBody (p : Part) : Obj → Option JBody
  | .slot i =>
    let s := p.slot i
    match s.st with
    | .head => some (.slotWrite i s)
    | .cont => none
    | .empty => some (.slotErase i 1 s.gen)
    | .retired => some (.slotRetire i 1)
  | .ctr i => some (.counter i (p.ctr i).st (p.ctr i).hw)
  | .app b => some (.appData (b * 4096 - p.appBase (p.handOf (.app b))) (Memory.readBytes p.vault.app (b * 4096) 4096))

/-- Objects are sent while the window has room (R354, R365); one that only this part set is then settled. -/
def sendObjects : Nat → Part → Part
  | 0, p => p
  | n + 1, p => match p.part.todo with
    | [] => p
    | o :: rest =>
      if p.windowFull then p
      else
        let p := p.setPart { p.part with todo := rest, settled := if p.part.peerMap.contains o then p.part.settled else o :: p.part.settled }
        let p := match p.objBody o with
          | some b => p.sendMirror (.resyncObject p.leadEpoch (p.handOf o) b)
          | none => p
        sendObjects n p

def feedResync (p : Part) : Part := sendObjects p.part.todo.length p

/-- A map frame (R363). With all three kinds present the objects of this part's own map are sent. -/
def takeMap (p : Part) (b : Bytes) : Part :=
  let kind := field b 0 1
  let first := field b 4 4
  let bitmap := b.drop 8
  if p.part.st ≠ .resync ∨ b.length < 8 ∨ 2 < kind ∨ 8192 < bitmap.length then p
  else
    let set := (List.range (8 * bitmap.length)).filter (fun i => (byteAt bitmap (i / 8)).getLsbD (7 - i % 8))
    let maps := if p.part.maps.contains kind then p.part.maps else kind :: p.part.maps
    let whole := decide (maps.length = 3) && decide (p.part.maps.length < 3)
    (p.setPart { p.part with peerMap := p.part.peerMap ++ set.map (fun i => objAt kind (first + i)), maps := maps
                             todo := if whole then p.part.soloMap else p.part.todo }).feedResync

/-! ### Applying what the partner sends (R359, R364) -/

/-- A Mutation frame's counter record that is not of a live counter's next lease is of a CTR_INIT: the values held below its start are abandoned
(05 R142; DEDUCED, log 69). A settlement abandons nothing: held leases stay with their holder (R364). -/
def abandonShared (p : Part) (b : JBody) : Part :=
  match b with
  | .counter i st hw =>
    if (p.ctr i).st = .live ∧ st ≠ .exhausted ∧ hw ≠ (p.ctr i).hw + 4096 then p.abandon i else p
  | _ => p

/-- What the partner commits takes effect here, in the vault and on the Seats (R359; 05 R136 to R138). -/
def applyShared (p : Part) (hand : Nat) (b : JBody) : Part :=
  match b with
  | .slotWrite head _ =>
    let old := p.slot head
    let p := p.applyBody hand b
    if old.st = .head then (p.cutoffs head old).zeroKeyCtxs head old.hand else p
  | .slotErase head _ _ =>
    let old := p.slot head
    if old.st = .head then
      let id := p.vault.nextMut
      let m : Mutation := { id := id, kind := .keyErase head old.gen, hand := hand, owner := none, objs := [] }
      (p.setVault { p.vault with muts := p.vault.muts ++ [m], nextMut := id + 1 }).commitErase m head b
    else p.applyBody hand b
  | .counter i _ hw =>
    (p.applyBody hand b).updCtr i (fun c => { c with mirrored := max c.mirrored hw })
  | .allowance .. => p
  | .promote _ => p
  | _ => p.applyBody hand b

/-- Its record goes to the journal with flag [1] (R359, 05 R147); Held will cover the frame once the sink has it. -/
def journalShared (p : Part) (hand seq : Nat) (b : JBody) : Part :=
  let id := p.vault.nextMut
  let m : Mutation := { id := id, kind := .remote b, hand := hand, owner := none, objs := p.bodyObjs hand b, own := true, frame := some seq }
  (p.setVault { p.vault with muts := p.vault.muts ++ [m], nextMut := id + 1 }).tryForm id

/-- A record of this part's own forwarded mutation (R359). -/
def answers (m : Mutation) (b : JBody) : Bool :=
  m.forwarded && m.formed.isNone && match m.kind, b with
    | .keyWrite slot _, .slotWrite head _ => slot == head
    | .keyWrite slot _, .slotRetire head _ => slot == head
    | .keyErase slot _, .slotErase head _ _ => slot == head
    | .keyErase slot _, .slotRetire head _ => slot == head
    | .ctrInit i _, .counter j _ _ => i == j
    | .lease i _, .counter j _ _ => i == j
    | .appData a _, .appData o _ => a == o
    | .note x, y => decide (x = y)
    | _, _ => false

/-- A follow's own mutation comes back ordered: its record is formed, and its effect and answer follow at its commit (R359). -/
def formOwn (p : Part) (m : Mutation) (seq : Nat) (b : JBody) : Part :=
  let (p, r) := p.writeJournal m.hand false p.leadEpoch b
  let p := p.setPart { p.part with applied := p.part.applied ++ [(seq, r.seq)] }
  p.updMut m.id (fun m => { m with formed := some r, forwarded := false })

/-- Forwarded mutations that a mutation ordered before them has made impossible end here as they do on the lead (R134, R359). -/
def dropImpossible (p : Part) : Part :=
  (p.vault.muts.filter (fun m => m.forwarded && m.formed.isNone)).foldl (fun p m =>
    if p.firstFor m then match p.mutFault m with
      | some (st, payload) =>
        let p := p.dropMut m.id
        match m.owner with
        | some u => p.answer u st payload
        | none => p
      | none => p
    else p) p

/-- A Mutation frame (R358, R359, 02 R58): of a hand that does not survive in both Deals it changes nothing and counts as held. -/
def takeMutation (p : Part) (seq : Nat) (b : Bytes) : Part :=
  let hand := field b 2 1
  let back := (byteAt b 3).getLsbD 1
  if b.length < 12 ∨ (p.part.st ≠ .mirrored ∧ p.part.st ≠ .resync) then p
  else match parseBody (p.vault.ktk.getD []) (field b 0 2) (b.drop 12) with
    | none => p
    | some body =>
      if p.survivesBoth hand = false ∧ body.type < 7 then p.setPart { p.part with heldSeq := max p.part.heldSeq seq }
      else match p.vault.muts.find? (fun m => back && m.hand == hand && answers m body) with
        | some m => p.formOwn m seq body
        | none => (((p.abandonShared body).applyShared hand body).journalShared hand seq body).dropImpossible

/-- The mutation that a Forward frame's record asks for (R353, R359). -/
def kindOf : JBody → MutKind
  | .slotWrite head s => .keyWrite head s
  | .slotErase head _ gen => .keyErase head (gen - 1)
  | .counter i _ hw => .ctrInit i hw
  | .appData off d => .appData off d
  | b => .note b

/-- A Forward frame: the lead orders the mutation among its own (R359). -/
def takeForward (p : Part) (b : Bytes) : Part :=
  let rest := b.drop 12
  let hand := field rest 2 1
  if b.length < 24 ∨ p.part.lead = false ∨ (p.part.st ≠ .mirrored ∧ p.part.st ≠ .resync) then p
  else match parseBody (p.vault.ktk.getD []) (field rest 0 2) (rest.drop 12) with
    | none => p
    | some body =>
      let who := (p.vault.nextMut, BitVec.ofNat 32 (field b 0 4), BitVec.ofNat 64 (field b 4 8))
      let p := p.setPart { p.part with bypartner := p.part.bypartner ++ [who] }
      let p := match kindOf body with
        | .note x => p.applyShared hand x
        | _ => p
      p.mutate (kindOf body) hand none (p.bodyObjs hand body) false

/-- A Lease request frame (R360): the lead grants the follow a lease. -/
def takeLeaseRequest (p : Part) (b : Bytes) : Part :=
  let i := field b 0 4
  if b.length ≠ 8 ∨ p.part.lead = false ∨ (p.part.st ≠ .mirrored ∧ p.part.st ≠ .resync) then p
  else p.mutate (.lease i true) 0 none [.ctr i] true

/-! ### Repair (R359, 05 R141) -/

/-- A line of the key table or of the counter table. -/
def lineBytes (p : Part) (line : Nat) : Bytes :=
  if line < ctrLine 0 then slice (p.slotBytes (line / 4)) (line % 4 * 64) 64
  else (List.range 4).flatMap (fun k => ctrBytes (p.ctr ((line - ctrLine 0) * 4 + k)))

/-- A Repair request (R359): the line's 64 bytes go back, unless the line is poisoned here as well. -/
def takeRepairRequest (p : Part) (b : Bytes) : Part :=
  let line := field b 0 8 / 64
  if b.length ≠ 8 ∨ ctrLine 1048576 ≤ line ∨ p.linePoisoned line = true then p else p.sendMirror (.repairData line (p.lineBytes line))

/-- Repair data rewrites a poisoned line (05 R141). -/
def takeRepairData (p : Part) (b : Bytes) : Part :=
  let line := field b 0 8 / 64
  let data := b.drop 8
  if b.length ≠ 72 ∨ p.linePoisoned line = false ∨ ctrLine 1048576 ≤ line then p
  else
    let key := decide (line < ctrLine 0)
    let i := line / 4
    let h := if (p.slot i).st = .cont then p.headOf i else i
    let raw := (List.range (max 1 (p.slot h).run)).flatMap (fun k => p.slotBytes (h + k))
    let at_ := (i - h) * 256 + line % 4 * 64
    let p := if key then p.loadSlot p.handsNow (raw.take at_ ++ data ++ raw.drop (at_ + 64)) h else p.loadCtrs 4 data ((line - ctrLine 0) * 4)
    ((p.writeLine line).bump (regAddr 0 winVAULT 0x0128)).event 7 0x0211 2 0 0 (if key then 0 else 1) (line % 2 ^ 32) 0

/-! ### Settlement (R364) -/

/-- A handle is void: PARTNER_CONFLICT to the sessions of its hand, and it is kept (R364). -/
def conflict (p : Part) (hand slot gen : Nat) (current : Bytes) : Part :=
  let old := handleBytes hand gen slot
  let to_ := (p.xct.sessions.filter (fun x => x.hand = hand)).map (·.id)
  let v := (BitVec.ofNat 64 (be old), BitVec.ofNat 64 (be current))
  let p := p.setPart { p.part with voids := (v :: p.part.voids).take 4096 }
  (p.bump (regAddr 0 winPART 0x0128)).notice 14 0x0810 3 hand (toBE 4 slot ++ zeros 4 ++ old ++ current) to_

/-- This part wins where both set an object: by the higher epoch, at equal epochs as the lead of Solo (R364). -/
def winsSettlement (p : Part) : Bool :=
  if p.leadEpoch = p.part.peerEpoch then p.part.leadInSolo else decide (p.part.peerEpoch < p.leadEpoch)

/-- A part keeps its own usage and block counts for a slot whose settled material and generation equal its own (R364). -/
def ownCounts (p : Part) : JBody → JBody
  | .slotWrite head s =>
    let mine := p.slot head
    if mine.st = .head ∧ mine.gen = s.gen ∧ mine.material = s.material then .slotWrite head { s with uses := mine.uses, tdea := mine.tdea }
    else .slotWrite head s
  | b => b

/-- A slot that both parts set (R364): the winner's content, at a generation above the loser's. -/
def settleSlot (p : Part) (head : Nat) (theirs : JBody) : Part × Option JBody :=
  let mine := p.slot head
  let (gTheirs, retired) := match theirs with
    | .slotWrite _ s => (s.gen, false)
    | .slotErase _ _ g => (g, false)
    | _ => (0xFFFFFF, true)
  let wins := p.winsSettlement
  let gw := if wins then mine.gen else gTheirs
  let gl := if wins then gTheirs else mine.gen
  let g := if gl < gw then gw else gl + 1
  let body : JBody :=
    if retired ∨ mine.st = .retired ∨ 0xFFFFFF < g then .slotRetire head (max 1 mine.run)
    else match wins, theirs with
      | false, .slotWrite _ s => p.ownCounts (.slotWrite head { s with gen := g })
      | false, _ => .slotErase head (max 1 mine.run) g
      | true, _ => if mine.st = .head then .slotWrite head { mine with gen := g } else .slotErase head 1 g
  let current := match body with
    | .slotWrite _ s => handleBytes s.hand s.gen head
    | _ => zeros 8
  let void := mine.st == .head && !(current == handleBytes mine.hand mine.gen head)
  let p := p.applyShared mine.hand body
  (if void then p.conflict mine.hand head mine.gen current else p, some body)

/-- A Resync object (R364): an object only the partner set is taken as it is; one both set is settled. -/
def takeObject (p : Part) (seq : Nat) (b : Bytes) : Part :=
  let hand := field b 2 1
  if b.length < 12 ∨ p.part.st ≠ .resync then p
  else match parseBody (p.vault.ktk.getD []) (field b 0 2) (b.drop 12) with
    | none => p
    | some body =>
      let body := p.ownCounts body
      let objs := p.bodyObjs hand body
      let both := objs.any (fun o => p.part.soloMap.contains o)
      let (p, out) : Part × Option JBody := match body with
        | .counter i st hw =>
          let c := p.ctr i
          let x : JBody := .counter i (if st = .exhausted ∨ c.st = .exhausted then .exhausted else if c.st = .live then .live else st) (max hw c.hw)
          (p.applyShared hand x, some x)
        | .slotWrite head _ => if both then p.settleSlot head body else (p.applyShared hand body, some body)
        | .slotErase head _ _ => if both then p.settleSlot head body else (p.applyShared hand body, some body)
        | .slotRetire head _ => if both then p.settleSlot head body else (p.applyShared hand body, some body)
        | _ => if both ∧ p.winsSettlement = true then (p, none) else (p.applyShared hand body, some body)
      let p := match out with
        | some x => p.journalShared hand seq x
        | none => p
      (p.setPart { p.part with settled := p.part.settled ++ objs.filter (fun o => !(p.part.settled.contains o)), received := p.part.received + 1 }).formReady

/-- Both maps are known, every object is settled, and every frame of this part is acknowledged. -/
def resyncDone (p : Part) : Bool :=
  p.part.st == .resync && p.part.maps.length == 3 && p.part.todo.isEmpty && p.leftObjs.isEmpty && p.part.sentMsgs.isEmpty

/-- On the follow of a full resync every object the lead did not send is zeroized (R365). -/
def dropUnsent (p : Part) : Part :=
  if p.part.full = false ∨ p.part.lead = true then p
  else
    let keep := fun (o : Obj) => p.part.settled.contains o
    let slots := (p.vault.slots.filter (fun e => e.2.st != .empty && e.2.st != .retired && !(keep (.slot e.1)))).map (·.1)
    let p := slots.foldl (fun p i => p.emptySlots none i 1) (p.wipeCache (fun c => slots.contains c.slot))
    p.setVault { p.vault with ctrs := p.vault.ctrs.filter (fun e => keep (.ctr e.1)), app := p.vault.app.filter (fun e => keep (.app (e.1 / 4096))) }

/-- The rejoin ends (R364): the lower-epoch part takes the higher epoch and the follow role, and a rejoin record is written. -/
def endRejoin (p : Part) : Part :=
  let epoch := max p.leadEpoch p.part.peerEpoch
  let lead := if p.leadEpoch = p.part.peerEpoch then p.part.lead else decide (p.part.peerEpoch < p.leadEpoch)
  let p := p.dropUnsent
  let full := p.part.full
  let n := p.part.received
  let p := p.setPart { p.part with pairing := p.part.pairing.map (fun x => { x with epoch := epoch, lead := some lead }), lead := lead
                                   soloMap := [], peerMap := [], settled := [], maps := [], full := false }
  let p := (p.bump (regAddr 0 winPART 0x0120)).partnerState .mirrored
  let (p, _) := p.writeJournal 0 false epoch (.rejoin epoch n full)
  p.formReady

/-! ### Events (R367) -/

/-- A forwarded record is written as a partner record: die byte 0x80 plus the partner's die, this part's own times and sequence. -/
def takeEvent (p : Part) (b : Bytes) : Part :=
  if b.length ≠ 32 then p
  else
    let r := p.makeRec (BitVec.ofNat 16 (field b 0 2)) 0 0 (0x80 ||| byteAt b 3) (BitVec.ofNat 32 (field b 18 4)) (BitVec.ofNat 32 (field b 22 4))
      (BitVec.ofNat 32 (field b 26 4)) (field b 30 1)
    p.store { r with flags := byteAt b 2 ||| Rec.partnerFlag }

/-- Queued records leave in Event frames, at most 1,000 in any second (R367). -/
def flushEvents (p : Part) : Part :=
  let recent := p.part.evSent.filter (fun t => p.now < t + sec 1)
  let room := 1000 - recent.length
  let go := p.part.evOut.take room
  let excess := (p.part.evOut.drop room).length
  let p := p.setPart { p.part with evOut := [], evSent := go.map (fun _ => p.now) ++ recent }
  let p := if excess = 0 then p else p.bump (regAddr 0 winPART 0x0130) excess
  go.foldl (fun p r => p.sendMirror (.event r.bytes)) p

/-! ### Frames (R353, R354) -/

/-- Ack and Held of a frame (R353, R354, R359). -/
def takeHeader (p : Part) (h : MirrorHdr) : Part :=
  let ack := h.ack.toNat
  let held := h.held.toNat
  let cover := fun (m : Mutation) => match m.kind, m.frame with
    | .remote _, _ => m
    | _, some n => if n ≤ held then { m with held := true } else m
    | _, none => m
  let p := p.setVault { p.vault with muts := p.vault.muts.map cover }
  (p.setPart { p.part with sentMsgs := p.part.sentMsgs.filter (fun e => ack < e.1) }).formReady

/-- Delivers a frame by its type. -/
def deliverMirror (p : Part) (seq type : Nat) (b : Bytes) : Part :=
  match type with
  | 2 => p.takeMutation seq b
  | 3 => p.takeForward b
  | 4 => p.takeLeaseRequest b
  | 5 => if b.length = 8 then p.takeRepairRequest b else p.takeRepairData b
  | 6 => p.takeMap b
  | 7 => p.takeObject seq b
  | 8 => p.takeEvent b
  | _ => p

/-- A folded, entering or waking part holds what is to be applied until it runs (R359, 16 R421). -/
def folding (p : Part) : Bool := p.power.fold != .running

/-- Delivers the frames held, in sequence order. -/
def drainEarly : Nat → Part → Part
  | 0, p => p
  | n + 1, p => match p.part.early.find? (fun e => e.1 = p.part.recvSeq + 1) with
    | none => p
    | some (seq, _, type, b) =>
      if p.folding ∧ type ≠ 8 then p
      else
        let p := p.setPart { p.part with recvSeq := seq, early := p.part.early.filter (fun e => !(e.1 == seq)) }
        drainEarly n (p.deliverMirror seq type b)

/-- A frame of the sequence arrives (R354): duplicates and frames beyond the window are dropped, later ones held. -/
def orderFrame (p : Part) (h : MirrorHdr) (type : Nat) (b : Bytes) : Part :=
  let seq := h.seq.toNat
  let p := if p.part.fresh ∧ p.part.recvSeq < seq then p.setPart { p.part with recvSeq := seq - 1, early := [], fresh := false } else p
  if seq ≤ p.part.recvSeq ∨ p.part.recvSeq + 4096 < seq ∨ p.part.early.any (fun e => e.1 == seq) then p
  else
    let p := p.setPart { p.part with early := p.part.early ++ [(seq, h, type, b)] }
    let p := if type = 2 ∧ p.folding = true then p.wakeTrigger 3 else p
    drainEarly p.part.early.length p

/-! ### Heartbeats (R355 to R358, R437) -/

/-- The heartbeat this part sends (R355): its Deal's serial and structure digest among it (02 R57). -/
def ownBeat (p : Part) : Beat :=
  { serial := BitVec.ofNat 64 p.serialNow, digest := (p.deal.active.map (·.digest)).getD (zeros 48), epoch := BitVec.ofNat 64 p.leadEpoch
    role := if p.part.lead then 1 else 2, state := BitVec.ofNat 8 (PairSt.code p.part.st), level := (p.levelNow).setWidth 8
    sent := BitVec.ofNat 64 (p.now / 2), echo := p.part.beatSent, delay := BitVec.ofNat 64 ((p.now - p.part.beatAt) / 2) }

/-- The roles at the first exchange of a pairing (R357): true when this part may go on. -/
def firstRoles (p : Part) (b : Beat) : Part × Bool :=
  match p.part.pairing, p.deal.active.bind (·.partner) with
  | some x, some e =>
    if x.lead.isSome then (p, true)
    else if e.lead = decide (b.role = 1) then
      (if p.part.exchanged then p else p.event 14 0x0812 3 0 0 x.id.toNat (if e.lead then 1 else 2) 0, false)
    else (p.setPart { p.part with pairing := some { x with lead := some e.lead }, lead := e.lead, full := true }, true)
  | _, _ => (p, false)

/-- What the partner says of its Deal (02 R57 to R59). -/
def notePeer (p : Part) (b : Beat) : Part :=
  match p.deal.active with
  | none => p
  | some d =>
    let match_ := b.serial.toNat == d.serial && b.digest == d.digest
    let clash := b.serial.toNat == d.serial && !(b.digest == d.digest)
    let seen := p.deal.peerKnown && p.deal.peerSerial == d.serial && !p.deal.peerMatch
    let p := { p with deal := { p.deal with peerKnown := true, peerMatch := match_, peerSerial := b.serial.toNat } }
    if clash && !seen then p.event 1 0x0C14 3 0 0 (d.serial % 2 ^ 32) (field d.digest 0 4) (field b.digest 0 4) else p

/-- Linking ends when both parts are ready (R358): equal serials and digests, both vaults open, the partner in Linking or Resync. At the
meeting the higher epoch leads (R357). A part restarted for a full resync follows at its partner's epoch (R365). -/
def tryResync (p : Part) (b : Beat) : Part :=
  if p.deal.peerMatch ∧ p.vault.st = .open_ ∧ 2 ≤ b.level.toNat ∧ (b.state = 1 ∨ b.state = 2) then
    let e := p.leadEpoch
    let pe := b.epoch.toNat
    let restarted := p.part.full && !p.part.lead && p.part.pairing.any (fun x => x.lead.isSome)
    let lead := if restarted then false else if e = pe then p.part.lead else decide (pe < e)
    let pairing := p.part.pairing.map (fun x => if restarted then { x with epoch := pe } else x)
    (p.setPart { p.part with lead := lead, pairing := pairing }).enterResync
  else p

/-- A heartbeat that is accepted. -/
def takeBeat (p : Part) (h : MirrorHdr) (b : Beat) : Part :=
  if h.seq.toNat ≤ p.part.beatIn then p
  else
    let p := p.takeHeader h
    let cycle := p.now / 2
    let trip := (cycle % 2 ^ 64 + 2 ^ 64 - b.echo.toNat + 2 ^ 64 - b.delay.toNat) % 2 ^ 64 / 150
    let p := p.setPart { p.part with
      beatIn := h.seq.toNat, missed := 0, beatAt := p.now, beatSent := b.sent, peerSt := b.state.toNat, peerEpoch := b.epoch.toNat
      rtt := if b.echo = 0 then p.part.rtt else BitVec.ofNat 16 (min trip 0xFFFF) }
    let p := p.notePeer b
    let clash := p.deal.active.any (fun d => d.serial == b.serial.toNat && !(d.digest == b.digest))
    match p.part.st with
    | .unpaired => p
    | .solo =>
      if p.part.oneWay ∧ b.state ≠ 1 then p else (p.setPart { p.part with oneWay := false, exchanged := true }).toLinking
    | .linking =>
      let (p, ok) := p.firstRoles b
      let p := p.setPart { p.part with exchanged := true }
      if ok then p.tryResync b else p
    | .mirrored =>
      if b.state = 4 then (p.setPart { p.part with oneWay := true }).enterSolo
      else if clash then p.enterSolo
      else p
    | .resync =>
      if b.state = 4 then (p.setPart { p.part with oneWay := true }).enterSolo
      else if p.deal.peerMatch then p.feedResync
      else p.toLinking

/-- A mirror frame past the port: its header and tag are checked (R353). -/
def mirrorIn (p : Part) (h : MirrorHdr) (m : MirrorIn) (corrupt : Bool) : Part :=
  if corrupt = true ∨ h.version ≠ 1 ∨ h.reserved = true ∨ h.tagOk = false ∨ p.part.pairing.any (fun x => x.id == h.pairingId) = false then
    p.bump (regAddr 0 winPART 0x0110)
  else match m with
    | .beat b => p.takeBeat h b
    | .frame type b => (p.takeHeader h).orderFrame h type b

/-- A frame as Shuffle lets it through. -/
def deliverPartner (p : Part) (e : ShufFrame × Bool) : Part := match e.1 with
  | .partnerIn h m => p.mirrorIn h m e.2
  | _ => p

/-- A mirror frame arrives on the secured partner link of a paired part, by way of Shuffle where it is armed there (17 R434). -/
def partnerFrame (p : Part) (h : MirrorHdr) (m : MirrorIn) : Part :=
  if p.part.link ≠ 3 ∨ p.part.enabled = false ∨ p.paired = false then p
  else if p.shufflesPartner 0 then
    let (p, l) := p.inject (.partnerIn h m) 0
    l.foldl deliverPartner p
  else p.mirrorIn h m false

end Part

/-! ### Rows -/

/-- HEARTBEAT_SEND (R355): every 10 µs; queued records and resync objects go with it. -/
def execHeartbeatSend (s : State) : Result :=
  powered s (fun p =>
    if p.paired = false ∨ p.part.link ≠ 3 ∨ p.part.enabled = false then p
    else
      let p := p.atTime p.part.beatDue
      let p := p.setPart { p.part with beatDue := p.now + usec 10, beatOut := p.part.beatOut + 1 }
      let p := p.transmit { seq := p.part.beatOut, msg := none, beat := some p.ownBeat }
      if p.part.st = .resync ∨ p.part.st = .mirrored then p.flushEvents.feedResync else p)

/-- HEARTBEAT (R355 to R358). -/
def execHeartbeat (h : MirrorHdr) (b : Beat) (s : State) : Result := powered s (fun p => p.partnerFrame h (.beat b))

/-- HEARTBEAT_MISSED (R356): the thirtieth in a row is the partner's loss. -/
def execHeartbeatMissed (s : State) : Result :=
  powered s (fun p =>
    if p.paired = false then p
    else
      let n := p.part.missed + 1
      let p := (p.atTime (p.part.beatAt + usec 10 * n)).setPart { p.part with missed := min n 30 }
      if n < 30 then p
      else if p.part.st = .resync ∨ p.part.st = .mirrored then p.enterSolo
      else { p.setPart { p.part with exchanged := false } with deal := { p.deal with peerKnown := false, peerMatch := false } })

/-- MUTATION (R359). -/
def execMutation (h : MirrorHdr) (b : Bytes) (s : State) : Result := powered s (fun p => p.partnerFrame h (.frame 2 b))

/-- FORWARD (R359). -/
def execForward (h : MirrorHdr) (b : Bytes) (s : State) : Result := powered s (fun p => p.partnerFrame h (.frame 3 b))

/-- LEASE_REQUEST (R360). -/
def execLeaseRequest (h : MirrorHdr) (b : Bytes) (s : State) : Result := powered s (fun p => p.partnerFrame h (.frame 4 b))

/-- REPAIR_REQUEST (R359). -/
def execRepairRequest (h : MirrorHdr) (b : Bytes) (s : State) : Result := powered s (fun p => p.partnerFrame h (.frame 5 b))

/-- REPAIR_DATA (05 R141). -/
def execRepairData (h : MirrorHdr) (b : Bytes) (s : State) : Result := powered s (fun p => p.partnerFrame h (.frame 5 b))

/-- RESYNC_MAP (R363). -/
def execResyncMap (h : MirrorHdr) (b : Bytes) (s : State) : Result := powered s (fun p => p.partnerFrame h (.frame 6 b))

/-- RESYNC_OBJECT (R364). -/
def execResyncObject (h : MirrorHdr) (b : Bytes) (s : State) : Result := powered s (fun p => p.partnerFrame h (.frame 7 b))

/-- RESYNC_COMPLETE (R364). -/
def execResyncComplete (s : State) : Result := powered s (fun p => if p.resyncDone then p.endRejoin else p)

/-- EVENT (R367). -/
def execEvent (h : MirrorHdr) (b : Bytes) (s : State) : Result := powered s (fun p => p.partnerFrame h (.frame 8 b))

/-- MIRROR_FRAME_RESEND (R354): the measured round trip plus 20 µs without an acknowledgement. -/
def execMirrorFrameResend (seq : BitVec 64) (s : State) : Result :=
  powered s (fun p =>
    match (if p.paired && p.part.link == 3 then p.part.sentMsgs.find? (fun e => e.1 = seq.toNat) else none) with
    | none => p
    | some (n, m, at_) =>
      let p := p.atTime (at_ + 300 * p.part.rtt.toNat + usec 20)
      let again := p.part.sentMsgs.map (fun e => if e.1 = n then (n, m, p.now) else e)
      ((p.setPart { p.part with sentMsgs := again }).bump (regAddr 0 winPART 0x0108)).transmit { seq := n, msg := some m })

end Sys2Proof.Machine
end

