-- ==== Sys2Proof/Machine/Shuffle.lean ====
section
/-! DEFINITION. Arming and disarming Shuffle (17 R432 to R438); Machine/Injector.lean holds the stages themselves. -/

namespace Sys2Proof.Machine

/-- True when a drill section permits an action of SHUF_CTL (bits drop, corrupt, duplicate, reorder): its own bits stand as drop, corrupt,
reorder, duplicate (17 R433). -/
def drillAction (e : DrillEntry) (bit : Nat) : Bool :=
  e.actions.getLsbD (if bit = 2 then 3 else if bit = 3 then 2 else bit)

namespace Part

/-- The settings of SHUF_CTL and of the selectors against a drill section (17 R432, R433, R436). -/
def shufflePermitted (p : Part) (target actions duration : Nat) (d : Option DrillEntry) : Bool :=
  match d with
  | none => false
  | some e =>
    let s := p.shuffle
    decide (p.power.life = 1) && decide (target ≤ 3) && e.targets.getLsbD target &&
      (List.range 4).all (fun k => !(actions.testBit k) || drillAction e k) &&
      (!(actions.testBit 0) ||
        (if s.dropMode then decide (1 ≤ s.dropValue) && decide (s.dropValue ≤ e.probCeil) else decide (e.dropFloor ≤ s.dropValue))) &&
      decide (1 ≤ duration) && decide (duration ≤ e.duration) && s.corruptEvery != 0 && s.dupEvery != 0 && s.reorderEvery != 0 &&
      decide (1 ≤ s.holdFor) && decide (s.holdFor ≤ 64) &&
      (target < 2 || s.sess == 0 || p.xct.sessions.any (fun x => x.id == s.sess && x.drill))

/-- Held frames go on in the order in which they were held (17 R436). -/
def releaseHeld (p : Part) (l : List HeldFrame) : Part :=
  let out := l.flatMap heldOut
  out.foldl (fun p e => (p.delivered e).deliverPartner e) ((p.putTx out).putOut out)

/-- Shuffle disarms and lets its held frames go. -/
def shuffleOff (p : Part) (cause : Nat) : Part :=
  if p.shuffle.en then
    let held := p.shuffle.held
    (p.disarmed cause).releaseHeld held
  else p

/-- A write of SHUF_CTL (17 R436, R438). -/
def writeShufCtl (p : Part) (v : Word) : Part :=
  let target := v.toNat / 2 ^ 24 % 8
  let actions := v.toNat / 2 ^ 12 % 16
  let duration := v.toNat % 2 ^ 12
  let fields := fun (s : Shuffle) =>
    { s with target := BitVec.ofNat 3 target, actions := BitVec.ofNat 4 actions, duration := BitVec.ofNat 12 duration }
  if v.getLsbD 31 = false then
    let p := p.shuffleOff 0
    p.setShuffle (fields p.shuffle)
  else if p.shufflePermitted target actions duration (p.deal.active.bind (·.drill)) = false then
    ((p.setShuffle { p.shuffle with refused := true }).create 0x0D04 2 0 0 v 0 0).notice 15 0x0D04 2 0 (toBE 4 v.toNat ++ zeros 8)
  else
    let held := p.shuffle.held
    let seed := if p.shuffle.seed = 0 then BitVec.ofNat 32 (be (p.drawn 4)) else p.shuffle.seed
    let p := if p.shuffle.seed = 0 then p.drbgTakes 0 4 else p
    let s := { fields p.shuffle with
      en := true, expiry := p.now + sec duration, frames := 0, kept := 0, injected := 0, lfsr := seed, seedUsed := seed, held := [] }
    let p := (p.setShuffle { p.shuffle with en := false, held := [] }).releaseHeld held
    let p := p.setShuffle s
    let sess := if target < 2 then 0 else s.sess
    let what := BitVec.ofNat 32 (target * 256 + actions)
    (p.create 0x0D01 2 0 0 what sess (BitVec.ofNat 32 duration)).notice 15 0x0D01 2 0 (toBE 4 what.toNat ++ toBE 4 sess.toNat ++ toBE 4 duration)

/-- At tc: Shuffle disarms when the new Deal does not permit what is armed (17 R436). -/
def shuffleCut (p : Part) (d : Option DrillEntry) : Part :=
  let s := p.shuffle
  if s.en ∧ p.shufflePermitted s.target.toNat s.actions.toNat s.duration.toNat d = false then p.shuffleOff 2 else p

end Part

/-- SHUFFLE_ARM: a write of SHUF_CTL. -/
def execShuffleArm (value : Word) (s : State) : Result := powered s (fun p => p.writeShufCtl value)

/-- SHUFFLE_DISARM: a write of EN = 0; the other fields keep their values. -/
def execShuffleDisarm (s : State) : Result := powered s (fun p => p.shuffleOff 0)

/-- SHUFFLE_EXPIRE: the duration ends. -/
def execShuffleExpire (s : State) : Result := powered s (fun p =>
  if p.shuffle.en then (p.atTime p.shuffle.expiry).shuffleOff 1 else p)

end Sys2Proof.Machine
end

