-- ==== Sys2Proof/Machine/Fold.lean ====
section
/-! DEFINITION. Fold (16 R419 to R422): entry with its drain, and the wake. -/

namespace Sys2Proof.Machine

/-- The system commands' refusal reasons (16 R426). -/
def sysRefused (p : Part) (uid why : Nat) : Part := p.answer uid stateRefused (reason why)

namespace Part

def setPower (p : Part) (x : Power) : Part := { p with power := x }

/-- Fold entry begins (R419 step 1): Shuffle disarms, accepted commands drain. -/
def beginFold (p : Part) (uid limit : Nat) : Part :=
  let p := (p.parkCmd uid).shuffleOff 4
  (p.setPower { p.power with fold := .entering, foldUid := some uid, foldAt := p.now, foldLimit := limit, drained := none, aborted := 0, retained := none }).noteDrain

/-- A mutation record of a command is formed: Fold entry waits for its commit (R419 step 2). -/
def formedFor (p : Part) (uid : Nat) : Bool := p.vault.muts.any (fun m => m.owner == some uid && m.formed.isSome)

/-- The drain limit (R419 step 2). -/
def drainLimit (p : Part) : Part :=
  if p.power.fold = .entering ∧ p.power.drained.isNone = true then
    let p := p.atTime (p.power.foldAt + msec p.power.foldLimit)
    let late := p.draining.filter (fun c => !(p.formedFor c.uid))
    let p := late.foldl (fun p c => p.stopCommand c.uid (some Status.abortedScrubbed)) p
    (p.setPower { p.power with aborted := p.power.aborted + late.length }).noteDrain
  else p

/-- A Seat as its rails are gated (R419 steps 3 and 4): what its retention domain does not keep is gone. -/
def foldSeat (p : Part) (n : Nat) : Part :=
  let p := (p.emptyEngines n).setCache (p.seats.cache.filter (fun c => c.seat != n))
  let mine := fun (w k : Nat) => k / w == n
  let p := { p with seats := { p.seats with
    cores := p.seats.cores.filter (fun e => !(mine 4 e.1))
    sram := p.seats.sram.filter (fun e => !(mine 4 (e.1 / 0x200000)))
    sgrdSel := p.seats.sgrdSel.filter (fun e => !(e.1 == n))
    sgrdLast := p.seats.sgrdLast.filter (fun e => !(mine 8 e.1))
    appNotices := p.seats.appNotices.filter (fun e => !(mine 256 e.1)) } }
  let p := p.updTrng n (fun t => { t with drbg := 0 })
  p.updSeat n (fun s => { s with power := false, pll := false, link := 0, holdEnd := none
                                 st := if s.st = .shed then .shed else .folded })

/-- Entry completes 200 µs after the drain (R419 steps 3 to 6); a retained trigger starts the wake (R421). -/
def entryDone (p : Part) : Part :=
  match p.power.fold, p.power.drained with
  | .entering, some td =>
    let p := p.atTime (td + usec 200)
    let p := (p.seatNums.foldl (fun p n => p.foldSeat n) p).setPower { p.power with fold := .folded }
    let p := (p.deactivate 0).deactivate 1
    let p := (p.bump (regAddr 0 winCLKPWR 0x0100)).event 16 0x0B02 1 0 0 ((td - p.power.foldAt) / 3000) p.power.aborted 0
    let p := match p.power.foldUid with
      | some u => p.answer u Status.done
      | none => p
    let by_ := p.power.retained
    let p := (p.setPower { p.power with foldUid := none, retained := none, drained := none }).relevel
    match by_ with
    | some b => p.wakeTrigger b
    | none => p
  | _, _ => p

/-- A Seat's wake (R422 steps 1 to 6): in service with fresh DRBG and ante table, or parked. -/
def wakeSeat (p : Part) (n : Nat) (failed : Bool) : Part :=
  let s := p.seat n
  if s.st = .folded then
    if failed then p.updSeat n (fun s => { s with st := .shed, parked := true, power := true, quiet := p.now })
    else
      let p := p.updSeat n (fun s => { s with st := .inService, power := true, pll := true, link := 1, fails := 0, failsUp := 0, failedTrainings := 0
                                              epoch := p.deal.epoch, armed := true })
      let p := p.updTrng n (fun t => { t with drbg := 1, due := p.now + msec 10, requests := 0, src0 := if t.src0 = 3 then 3 else 1, src1 := if t.src1 = 3 then 3 else 1 })
      p.updLat n (fun l => { l with entries := [], peaks := [], windows := [] })
  else p.updSeat n (fun s => { s with power := true })

/-- Antes of the halves of a host port that leave low-power hold (R412). -/
def holdAntes (p : Part) (group : Nat) (l : List HalfSt) : Part :=
  (List.range l.length).foldl (fun p i => if (l.getD i {}).up then p.postAnte 0 group i else p) p

/-- The wake completes 1.5 ms after its start (R422): commands are accepted from here. -/
def wakeDone (p : Part) (failed : BitVec 8) : Part :=
  if p.power.fold = .waking then
    let p := p.atTime (p.power.wakeAt + usec 1500)
    let p := (((p.postAnte 0 2 0).holdAntes 0 [p.ha0, p.ha1]).holdAntes 1 [p.hb0, p.hb1])
    let p := p.seatNums.foldl (fun p n => p.wakeSeat n (failed.getLsbD n)) p
    let p := (p.setPower { p.power with fold := .running }).bump (regAddr 0 winCLKPWR 0x0108)
    let p := p.event 16 0x0B03 1 0 0 p.power.wakeBy (mask p.inService) 0
    let p := p.power.exitUid.foldl (fun p u => p.answer u Status.done) p
    let p := (p.setPower { p.power with exitUid := [] }).relevel
    p.drainEarly p.part.early.length
  else p

end Part

/-- FOLD_ENTER (R417, R419; 02 R49). -/
def execFoldEnter (o : Origin) (b : Bytes) (s : State) : Result :=
  powered s (fun p => p.serve o 0x1301 b (fun p c => p.houseOnly c (fun p =>
    let limit := field c.params 0 4
    if c.params.length ≠ 8 ∨ limit = 0 ∨ 60000 < limit ∨ field c.params 4 4 ≠ 0 then p.lengthFault c.uid
    else if p.power.fold = .folded then p.answer c.uid Status.done
    else if p.power.life ≠ 1 ∨ p.vault.st ≠ .open_ then sysRefused p c.uid 1
    else if p.deal.st = .cutting ∨ p.deal.st = .teardown then
      (p.parkCmd c.uid).setPower { p.power with enterUid := p.power.enterUid ++ [c.uid] }
    else p.beginFold c.uid limit)))

/-- FOLD_EXIT (R421, R424): it answers at the end of the wake; on a part that runs it answers at once. -/
def execFoldExit (o : Origin) (b : Bytes) (s : State) : Result :=
  powered s (fun p => p.serve o 0x1302 b (fun p c => p.houseOnly c (fun p =>
    if c.params ≠ [] then p.lengthFault c.uid
    else if p.power.life ≠ 1 then sysRefused p c.uid 1
    else if p.power.fold = .running then p.answer c.uid Status.done
    else ((p.parkCmd c.uid).setPower { p.power with exitUid := p.power.exitUid ++ [c.uid] }).wakeTrigger 1)))

/-- FOLD_DRAIN_LIMIT (R419 step 2). -/
def execFoldDrainLimit (s : State) : Result := powered s (fun p => p.drainLimit)

/-- FOLD_ENTRY_COMPLETE (R419). -/
def execFoldEntryComplete (s : State) : Result := powered s (fun p => p.entryDone)

/-- FOLD_WAKE_COMPLETE (R422): `failed` are the Seats that fail a step. -/
def execFoldWakeComplete (failed : BitVec 8) (s : State) : Result := powered s (fun p => p.wakeDone failed)

end Sys2Proof.Machine
end

