-- ==== Sys2Proof/Machine/Deal.lean ====
section
/-! DEFINITION. Deal commands, staging, and the cut (02 R44 to R59). -/

namespace Sys2Proof.Machine

namespace Part

def setDeal (p : Part) (x : DealUnit) : Part := { p with deal := x }

/-! ### Banks (R44) -/

def dealBank (p : Part) (i : Bool) : Bank := if i then p.deal.banks.2 else p.deal.banks.1

def setDealBank (p : Part) (i : Bool) (b : Bank) : Part :=
  p.setDeal { p.deal with banks := if i then (p.deal.banks.1, b) else (b, p.deal.banks.2) }

/-- The non-active bank takes the mirror copy of the active Deal; without one it is empty. -/
def mirrorBank (p : Part) : Part :=
  let a := p.dealBank p.deal.activeBank
  if p.deal.active.isSome ∧ a.role = .active then
    let p := p.setDealBank (!p.deal.activeBank) { a with role := .mirror }
    p.setDeal { p.deal with mirror := true }
  else
    let p := p.setDealBank (!p.deal.activeBank) {}
    p.setDeal { p.deal with mirror := false }

/-- The loader's state with nothing staged. -/
def restState (p : Part) : DealSt := if p.deal.active.isSome then .idle else .noDeal

def unstage (p : Part) : Part :=
  let p := p.setDeal { p.deal with st := p.restState, staged := none, verdict := none, stagingUid := none }
  p.mirrorBank

/-! ### Staging (R45 to R48) -/

/-- DEAL_REJECT, its record and notice (R46). -/
def noteReject (p : Part) (why sect serial : Nat) : Part :=
  (p.setDeal { p.deal with reject := BitVec.ofNat 32 (why * 65536 + sect) }).event 1 0x0C11 2 0 0 why sect (serial % 2 ^ 32)

/-- True while DEAL_STAGE, DEAL_CUT and DEAL_DISCARD are turned away (R45). -/
def cutPending (p : Part) : Bool := p.deal.st == .staging || p.deal.st == .cutting || p.deal.st == .teardown

/-- An image has arrived: it is in the non-active bank, and its verification runs. -/
def stageImage (p : Part) (uid : Nat) (image : Bytes) : Part :=
  let out := p.checkImage image
  let serial := field image 16 8
  let p := (p.parkCmd uid).setDealBank (!p.deal.activeBank) { role := .staged, image := image.take 8388608 }
  let p := p.setDeal { p.deal with mirror := false, st := .staging, stagingUid := some uid }
  let p := (p.skippedTypes image).foldl (fun p t => p.event 1 0x0C10 1 0 0 t (serial % 2 ^ 32) 0) p
  match out with
  | .error (why, sect) => p.setDeal { p.deal with staged := none, verdict := some (why, sect) }
  | .ok d => p.setDeal { p.deal with staged := some d, verdict := some (0, 0) }

/-- The Deal that was lost is back, with no cut (R48). -/
def recoverDeal (p : Part) (d : Deal) : Part :=
  let b := !p.deal.activeBank
  let p := p.setDealBank b { p.dealBank b with role := .active }
  let p := p.setDeal { p.deal with activeBank := b, active := some d, staged := none, verdict := none, failed := false, st := .idle }
  p.mirrorBank.relevel

/-- The Deal is armed: shadow tables hold it in the Dealer's units and in every Seat that can take it (R47). -/
def armDeal (p : Part) : Part :=
  let p := p.setDeal { p.deal with st := .armed, verdict := none }
  p.seatNums.foldl (fun p n => p.updSeat n (fun s => { s with armed := s.st == .inService })) p

/-- Verification and arming end (R46, R47). -/
def stagingEnds (p : Part) : Part :=
  match p.deal.st, p.deal.verdict with
  | .staging, some (why, sect) =>
    let uid := p.deal.stagingUid
    let serial := field (p.dealBank (!p.deal.activeBank)).image 16 8
    let say := fun (p : Part) (st : BitVec 16) (b : Bytes) => match uid with
      | some u => p.answer u st b
      | none => p
    match why, p.deal.staged with
    | 0, some d =>
      let q := if p.deal.failed then p.recoverDeal d else p.armDeal
      say (q.setDeal { q.deal with stagingUid := none }) Status.done []
    | _, _ => say (p.unstage.noteReject why sect serial) Status.dealRejected (toBE 2 why)
  | _, _ => p

/-! ### DEAL_CUT (R49, R57) -/

/-- The partner order rule. Until the partner's serial is known it counts as equal (R58). -/
def orderMet (p : Part) (serial : Nat) : Bool :=
  let own := p.serialNow
  let peer := if p.deal.peerKnown then p.deal.peerSerial else own
  if p.paired = false ∨ p.solo = true then true
  else if p.part.lead then peer == serial else decide (own ≤ peer)

/-- Old hands' entries that the staged Deal's cut tears down, and the hands that do not survive it. -/
def tearList (p : Part) (new : Deal) : List HandEntry := ((p.deal.active.map (·.hands)).getD []).flatMap (leaving new.hands)

def goneHands (p : Part) (new : Deal) : List Nat :=
  (((p.deal.active.map (·.hands)).getD []).filter (fun e => (survivor new.hands e).isNone)).map (·.hand)

/-- Journal bytes of a cut's records (R49). -/
def cutBytes (removed : List HandEntry) : Nat := 48 + (JBody.cut 0 []).size + removed.foldl (fun n e => n + 48 + (HandEntry.teardown e).size) 0

/-- DEAL_CUT accepted: Cutting (R51 step 1). -/
def beginCut (p : Part) (uid : Nat) (new : Deal) : Part :=
  let removed := p.tearList new
  let p := (p.parkCmd uid).setJournal { p.vault.journal with reserved := cutBytes removed }
  p.setDeal { p.deal with st := .cutting, cut := some { uid := uid, t0 := p.now, removed := removed, gone := p.goneHands new } }

/-- A record the cut has reserved room for. -/
def cutRecord (p : Part) (hand : Nat) (b : JBody) : Part :=
  let p := p.setJournal { p.vault.journal with reserved := p.vault.journal.reserved - (48 + b.size) }
  (p.writeJournal hand false p.leadEpoch b).1

/-! ### The cut instant (R50 to R52) -/

/-- Sessions at tc (R52): those whose certificate the new Deal no longer admits close, and those of a hand it still holds when it admits the
certificate to another hand only; the others take the settings of their hand's entry. A session of a removed hand whose certificate stays admitted
stays open, and its new-epoch commands answer HAND_NOT_SERVED. -/
def sessionsAtCut (p : Part) (new : Deal) : Part :=
  let entry := fun (x : Session) => new.admission.find? (fun e => e.cert = x.cert ∧ e.hand = x.hand)
  let lost := p.xct.sessions.filter (fun x => (entry x).isNone &&
    (new.hands.any (fun e => e.hand == x.hand) || new.admission.all (fun e => e.cert != x.cert)))
  let take := fun (x : Session) => match entry x with
    | some e => { x with mgmt := e.flags.getLsbD 2, drill := e.flags.getLsbD 0, credit := e.credit, window := e.window, idle := e.idle
                         swin := e.swin, slimit := e.slimit }
    | none => x
  let p := p.setSessions (p.xct.sessions.map take)
  let p := lost.foldl (fun p x => if x.st = .offered then p.closeSession x.id else p.startClosing x.id) p
  { p with xct := { p.xct with claimCert := none, tamperList := ((new.admission.filter (fun e => e.hand = 0)).map (·.cert)) } }

/-- Recorder limits at tc (R52): a burst count is capped at the new burst. `p` is the part before the cut. -/
def limitsAtCut (q p : Part) : Part :=
  let codes := (((p.deal.active.map (·.limits)).getD []) ++ ((q.deal.active.map (·.limits)).getD [])).map (·.code)
  let keys := (p.evr.buckets.map (·.1) ++ codes.flatMap (fun c => p.dieNums.map (fun d => bucketKey d c))).dedup
  let cap := fun (k : Nat) => min (p.codeBucket (k / 65536) (BitVec.ofNat 16 k)) ((q.limitOf (k / 65536) (BitVec.ofNat 16 k)).2 * tokenUnit)
  q.setEvr { q.evr with buckets := keys.foldl (fun l k => Sparse.put l k { amount := cap k, at_ := q.now }) q.evr.buckets }

/-- A registry of another fingerprint ends ceremonies with their running step and lapses authorisations (15 R403). -/
def ceremoniesAtCut (p : Part) : Part :=
  [0, 1].foldl (fun p port =>
    let p := if (p.cerPort port).auth.isSome then p.lapseAuth port else p
    let c := p.cerPort port
    match c.cer with
    | some x => if c.step.isSome then p.setCer port { c with cer := some { x with doomed := true } } else p.voidCeremony port
    | none => p) p

/-- The hand a Seat is private to in a Deal (R37). -/
def privateTo (d : Option Deal) (n : Nat) : Option Nat :=
  (((d.map (·.seats)).getD []).find? (fun e => e.priv && e.mask.getLsbD n)).map (·.hand)

/-- Pairing is left: the record and the mirror keys are zeroized (13 R350). Mutations forwarded to the lead end with their outcome unknown. -/
def unpair (p : Part) : Part :=
  let gone := p.vault.muts.filter (fun m => m.forwarded && m.formed.isNone)
  let p := p.setVault { p.vault with muts := p.vault.muts.filter (fun m => !(m.forwarded && m.formed.isNone)) }
  let p := gone.foldl (fun p m => match m.owner with
    | some u => p.answer u Status.partnerUnreachable [2]
    | none => p) p
  let p := p.leaveResync.partnerState .unpaired
  let p := p.setPart { p.part with pairing := none, lead := false, sentMsgs := [], early := [], fresh := true, exchanged := false, evOut := []
                                   soloMap := [], full := false }
  (p.setDeal { p.deal with peerKnown := false, peerMatch := false, peerSerial := 0 }).formReady

/-- The partner section at tc (13 R350, R358). -/
def partnerAtCut (p : Part) (old : Option Deal) (new : Deal) : Part :=
  match new.partner, p.part.pairing with
  | none, _ => if (old.bind (·.partner)).isSome then p.unpair else p
  | some e, some x =>
    if p.part.st = .unpaired then (p.setPart { p.part with lead := x.lead.getD e.lead, exchanged := false }).partnerState .linking
    else if p.part.st = .resync then p.toLinking
    else p
  | some _, none => p

/-- tc (R51 step 3). -/
def cutInstant (p : Part) : Part :=
  match p.deal.cut, p.deal.staged with
  | some c, some new =>
    if c.tc.isSome then p
    else
      let before := p
      let old := p.deal.active
      let oldReg := p.registryNow.map (·.fingerprint)
      let p := p.closeJoker
      let b := !p.deal.activeBank
      let p := (p.setDealBank p.deal.activeBank { p.dealBank p.deal.activeBank with role := .empty }).setDealBank b { p.dealBank b with role := .active }
      let e := p.deal.epoch
      let now_ := (p.returning new.hands).filter (fun i => !(c.removed.any (fun h => h.holds (.slot i.1))))
      let p := p.returnSlots now_
      let p := p.setDeal { p.deal with
        activeBank := b, mirror := false, active := some new, staged := none, recSerial := new.serial, recDigest := new.imageDigest
        epoch := e + 1, peerMatch := false
        past := (new.serial, (old.map (·.hands)).getD [], new.hands) :: p.deal.past
        olds := match old with
          | some d => Sparse.put p.deal.olds e d
          | none => p.deal.olds
        cut := some { c with tc := some p.now, returned := now_ } }
      let p := p.cutRecord 0 (.cut new.serial new.digest)
      let p := p.limitsAtCut before
      let p := p.sessionsAtCut new
      let p := p.shuffleCut new.drill
      let p := if oldReg = some new.registry.fingerprint then p else p.ceremoniesAtCut
      let p := p.seatNums.foldl (fun p n => match privateTo (some new) n with
        | some h => if privateTo old n = some h then p else p.updSeat n (fun s => { s with privFor := some h })
        | none => p.updSeat n (fun s => { s with privFor := none })) p
      (p.partnerAtCut old new).relevel
  | _, _ => p

/-! ### Drain and teardown (R51 to R55) -/

/-- Old-epoch commands that have not been stopped or answered. -/
def oldWork (p : Part) : List Cmd := p.xct.cmds.filter (fun c => c.epoch < p.deal.epoch && (match c.place with
  | .xct => false
  | .scrubbing .. => false
  | .up _ => false
  | _ => true))

/-- Of these, the ones a cut ends: all of a hand that goes; of a hand that stays, those that name what leaves it. -/
def doomedWork (p : Part) (c : Cut) : List Cmd :=
  p.oldWork.filter (fun x => c.gone.contains x.hand || c.removed.any (fun e => e.hand == x.hand && x.objs.any e.holds))

/-- tc + 100 ms (R52). -/
def cutDeadline (p : Part) : Part :=
  match p.deal.cut with
  | some c => match c.tc with
    | some tc =>
      if c.deadline then p
      else
        let p := p.atTime (tc + msec 100)
        let p := (p.doomedWork c).foldl (fun p x => p.stopCommand x.uid (some Status.keyErasedInFlight)) p
        p.setDeal { p.deal with cut := p.deal.cut.map (fun c => { c with deadline := true }) }
    | none => p
  | none => p

/-- Teardown of what a hand loses (R53), once its old-epoch work is over. -/
def tearHand (p : Part) (hand : Nat) : Part :=
  match p.deal.cut with
  | some c =>
    let mine := c.removed.filter (fun e => e.hand = hand)
    if c.tc.isNone ∨ mine = [] ∨ c.torn.contains hand = true ∨ (p.doomedWork c).any (fun x => x.hand == hand) = true then p
    else
      let whole := c.gone.contains hand
      let p := mine.foldl (fun p e => (p.cutRecord hand (HandEntry.teardown e)).tearEntry e whole) p
      let back := match p.deal.active with
        | some d => (p.returning d.hands).filter (fun i => mine.any (fun e => e.holds (.slot i.1)))
        | none => []
      let done := p.now + tearCycles mine whole
      let p := p.returnSlots back
      p.setDeal { p.deal with st := .teardown
                              cut := p.deal.cut.map (fun c => { c with torn := hand :: c.torn, clearing := (hand, done) :: c.clearing, returned := back ++ c.returned }) }
  | none => p

/-- A newly private Seat is free of other tenants' old-epoch work, what is on it and what may still be dealt to it: their keys leave its cache, and it
serves its hand (R55). -/
def releasePrivate (p : Part) (n : Nat) : Part :=
  match (p.seat n).privFor with
  | none => p
  | some h =>
    let mayCome := fun (c : Cmd) => c.place == .queued && (permittedMask (p.dealOf c.epoch) c.hand).testBit n
    if p.xct.cmds.any (fun c => (c.onSeat n || mayCome c) && decide (c.epoch < p.deal.epoch) && c.hand != h && c.hand != 0) then p
    else (p.wipeCache (fun c => c.seat == n && c.hand != h && c.hand != 0)).updSeat n (fun s => { s with privFor := none })

/-! ### The end of the cut (R51 step 8) -/

/-- Keys of hands that have lost a Seat leave its cache once no command needs them (05 R139). -/
def wipeLost (p : Part) : Part :=
  p.wipeCache (fun c => !((permittedMask p.deal.active c.hand).testBit c.seat) && !(p.pinned c))

/-- Structures that are still needed: those of running old-epoch work, and the last one, for the partner's window (R52, R58). -/
def keptOlds (p : Part) : List (Nat × Deal) :=
  p.deal.olds.filter (fun e => p.xct.cmds.any (fun c => c.epoch == e.1) || some e.1 == (p.deal.olds.getLast?.map Prod.fst))

def cutDone (p : Part) : Part :=
  match p.deal.cut with
  | some c =>
    if c.tc.isSome ∧ c.copied = true ∧ c.removed.all (fun e => c.torn.contains e.hand) = true ∧ c.clearing = [] then
      let oldSerial := (p.deal.olds.getLast?.map (fun e => e.2.serial)).getD 0
      let was := p.deal.cuts
      let p := p.wipeLost.setJournal { p.wipeLost.vault.journal with reserved := 0 }
      let p := p.setDeal { p.deal with st := .idle, cut := none, cuts := satIncr was, olds := p.keptOlds }
      let p := p.saturating 0 winDEAL 0x001C 1 was
      let p := p.event 1 0x0C12 2 0 0 (p.serialNow % 2 ^ 32) (oldSerial % 2 ^ 32) ((c.removed.map (·.hand)).dedup).length
      let p := p.answer c.uid Status.done
      let waiting := p.power.enterUid
      let p := p.setPower { p.power with enterUid := [] }
      match waiting with
      | [] => p
      | u :: rest =>
        let limit := match p.findCmd u with
          | some x => field x.params 0 4
          | none => 1
        let p := p.beginFold u limit
        rest.foldl (fun p v => p.answer v Status.busyDraining (busyPayload 1 p.foldRemaining)) p
    else p
  | none => p

end Part

/-! ### Rows -/

/-- DEAL_STAGE (R44 to R48): the image, once its stream has delivered it whole. -/
def execDealStage (o : Origin) (b : Bytes) (s : State) : Result :=
  powered s (fun p => p.serve o 0x1101 b (fun p c => p.houseOnly c (fun p =>
    if p.cutPending then p.answer c.uid Status.dealCutPending
    else p.whenStreamed c (fun p image => p.stageImage c.uid image))))

/-- DEAL_STAGING_COMPLETE (R46 to R48). -/
def execDealStagingComplete (s : State) : Result := powered s (fun p => p.stagingEnds)

/-- DEAL_CUT (R45, R46, R49, R57). A parameter block of a wrong length is answered so before anything else is asked (03 R456; DEDUCED, log 62). -/
def execDealCut (o : Origin) (b : Bytes) (s : State) : Result :=
  powered s (fun p => p.serve o 0x1102 b (fun p c => p.houseOnly c (fun p =>
    let serial := field c.params 0 8
    if c.params.length ≠ 8 then p.lengthFault c.uid
    else if p.cutPending then p.answer c.uid Status.dealCutPending
    else match (if p.deal.st = .armed then p.deal.staged else none) with
      | none => (p.noteReject 0x0010 0 serial).answer c.uid Status.dealRejected (toBE 2 0x0010)
      | some d =>
        if d.serial ≠ serial then (p.noteReject 0x0010 0 serial).answer c.uid Status.dealRejected (toBE 2 0x0010)
        else if p.orderMet serial = false then (p.noteReject 0x0011 0 serial).answer c.uid Status.dealRejected (toBE 2 0x0011)
        else if p.journalRoom true false (Part.cutBytes (p.tearList d)) = false then p.answer c.uid VStatus.journalUnavailable (reason 2)
        else p.beginCut c.uid d)))

/-- DEAL_DISCARD (R44, R45); a wrong length is answered first, as DEAL_CUT's is (log 62). -/
def execDealDiscard (o : Origin) (b : Bytes) (s : State) : Result :=
  powered s (fun p => p.serve o 0x1103 b (fun p c => p.houseOnly c (fun p =>
    if c.params ≠ [] then p.lengthFault c.uid
    else if p.cutPending then p.answer c.uid Status.dealCutPending
    else (if p.deal.st = .armed then p.unstage else p).answer c.uid Status.done)))

def DealSt.code : DealSt → Nat
  | .idle => 0
  | .staging => 1
  | .armed => 2
  | .cutting => 3
  | .teardown => 4
  | .noDeal => 5

namespace Part

/-- The staged serial: 0 until a Deal is armed (DEAL_SSER). -/
def stagedSerial (p : Part) : Nat :=
  if p.deal.st = .staging then 0
  else match p.deal.staged with
    | some d => d.serial
    | none => 0

/-- DEAL_ASER: 0 without a Deal. -/
def activeSerial (p : Part) : Nat := match p.deal.active with
  | some d => d.serial
  | none => 0

/-- DEAL_PEER. -/
def peerWord (p : Part) : Nat := (if p.deal.peerKnown then 2 else 0) + (if p.deal.peerMatch then 1 else 0)

def peerSerialNow (p : Part) : Nat := if p.deal.peerKnown then p.deal.peerSerial else 0

end Part

/-- DEAL_QUERY (R44, R45); its layout is the model's (log 10). -/
def execDealQuery (o : Origin) (b : Bytes) (s : State) : Result :=
  powered s (fun p => p.serve o 0x1104 b (fun p c => p.houseOnly c (fun p =>
    if c.params ≠ [] then p.lengthFault c.uid
    else p.answer c.uid Status.done
      (toBE 8 p.activeSerial ++ toBE 8 p.stagedSerial ++ toBE 1 (DealSt.code p.deal.st) ++ toBE 1 p.peerWord ++ zeros 6 ++ toBE 8 p.peerSerialNow))))

/-- CUT_INSTANT (R50, R51). -/
def execCutInstant (s : State) : Result := powered s (fun p => p.cutInstant)

/-- SEAT_EPOCH_FLIP (R51 step 4): a Seat that is not running takes the structure at its re-admission (R47). -/
def execSeatEpochFlip (seat : Nat) (s : State) : Result :=
  onUnit (s.hasSeat seat) s (fun p => match p.deal.cut.bind (·.tc) with
    | some tc =>
      if p.seatIn seat .inService ∨ p.seatIn seat .held then
        (p.atTime (tc + nsec 40)).updSeat seat (fun s => { s with epoch := p.deal.epoch, armed := true })
      else p
    | none => p)

/-- CUT_DRAIN_DEADLINE (R52). -/
def execCutDrainDeadline (s : State) : Result := powered s (fun p => p.cutDeadline)

/-- HAND_TEARDOWN (R53). -/
def execHandTeardown (hand : Nat) (s : State) : Result := powered s (fun p => p.tearHand hand)

/-- TEARDOWN_COMPLETE (R53, R54; 10 R294): the background zeroizing of a hand's ranges is over. -/
def execTeardownComplete (hand : Nat) (s : State) : Result :=
  powered s (fun p =>
    let p := match p.deal.cut.bind (fun c => c.clearing.find? (fun e => e.1 == hand)) with
      | some e => p.atTime e.2
      | none => p
    (p.setDeal { p.deal with
    cut := p.deal.cut.map (fun c => { c with clearing := c.clearing.filter (fun e => !(e.1 == hand)) }) }).jokerTorn hand)

/-- DEAL_MIRROR_COPY_COMPLETE (R51 step 7). -/
def execDealMirrorCopyComplete (s : State) : Result :=
  powered s (fun p => match p.deal.cut with
    | some c =>
      if c.tc.isSome ∧ c.copied = false then
        let p := p.mirrorBank
        p.setDeal { p.deal with cut := p.deal.cut.map (fun c => { c with copied := true }) }
      else p
    | none => p)

/-- CUT_COMPLETE (R51 step 8; R49: a Fold request that waited goes on). -/
def execCutComplete (s : State) : Result := powered s (fun p => p.cutDone)

/-- PRIVATE_SEAT_RELEASE (R55). -/
def execPrivateSeatRelease (seat : Nat) (s : State) : Result := onUnit (s.hasSeat seat) s (fun p => p.releasePrivate seat)

end Sys2Proof.Machine
end

