-- ==== Sys2Proof/Machine/EventCmds.lean ====
section
/-! DEFINITION. The recorder's commands and timed events (14 R371, R377 to R380). -/

namespace Sys2Proof.Machine

/-- Places a record by its sequence. -/
def bySeq (r : Rec) : List Rec → List Rec
  | [] => [r]
  | x :: l => if r.seq < x.seq then r :: x :: l else x :: bySeq r l

namespace Part

/-- The records of an area: 0 ring, 1 pinned, 2 kitty, 3 register file (R379). -/
def areaRecs (p : Part) (area : Nat) : List Rec :=
  (if area = 0 then p.evr.ring else if area = 1 then p.evr.pinned else if area = 2 then p.evr.kitty else p.evr.regfile).map (·.2)

/-- The records of an area at or after a sequence, in sequence order, up to a count. -/
def readRecs (p : Part) (area start count : Nat) : List Rec :=
  (((p.areaRecs area).filter (fun r => start ≤ r.seq)).foldl (fun l r => bySeq r l) []).take count

/-- Flag [0] of EVENT_READ (R379). The ring holds every sequence in turn, so a missing one is lost unless it waits in the holding buffer; the kitty and
the register file overwrite once they are full; the pinned area loses records only with a bad block. -/
def readGap (p : Part) (area start : Nat) (l : List Rec) : Bool :=
  match l with
  | [] => false
  | r :: _ =>
    let from_ := max start 1
    if area = 0 then decide ((p.evr.hold.filter (fun h => from_ ≤ h.seq && h.seq < r.seq)).length < r.seq - from_)
    else if area = 1 then decide (from_ < r.seq) && !p.evr.badPin.isEmpty
    else
      let all := p.areaRecs area
      decide (from_ < r.seq) && decide ((if area = 2 then kittySlots else regSlots) ≤ all.length) && all.all (fun x => r.seq ≤ x.seq)

end Part

/-- EVENT_READ (R379). -/
def execEventRead (o : Origin) (b : Bytes) (s : State) : Result :=
  powered s (fun p => p.serve o 0x9101 b (fun p c => p.houseOnly c (fun p =>
    let area := field c.params 0 1
    let count := field c.params 4 4
    if c.params.length ≠ 16 ∨ 3 < area ∨ field c.params 1 3 ≠ 0 ∨ count = 0 ∨ 256 < count then p.lengthFault c.uid
    else
      let l := p.readRecs area (field c.params 8 8) count
      p.answer c.uid Status.done
        (toBE 1 (if p.readGap area (field c.params 8 8) l then 1 else 0) ++ zeros 3 ++ toBE 4 l.length ++ l.flatMap Rec.bytes))))

/-- EVENT_FREEZE (R377). -/
def execEventFreeze (o : Origin) (b : Bytes) (s : State) : Result :=
  powered s (fun p => p.serve o 0x9102 b (fun p c => p.houseOnly c (fun p =>
    if c.params ≠ [] then p.lengthFault c.uid
    else (p.freeze (c.session?.elim 0 (·.toNat))).answer c.uid Status.done)))

/-- EVENT_THAW (R377, R378). -/
def execEventThaw (o : Origin) (b : Bytes) (s : State) : Result :=
  powered s (fun p => p.serve o 0x9103 b (fun p c => p.houseOnly c (fun p =>
    if c.params ≠ [] then p.lengthFault c.uid
    else (p.thaw 0).answer c.uid Status.done)))

/-- TIME_ANNOTATE (R379, R380): the record goes to the ring and to the kitty (R374). -/
def execTimeAnnotate (o : Origin) (b : Bytes) (s : State) : Result :=
  powered s (fun p => p.serve o 0x9104 b (fun p c => p.houseOnly c (fun p =>
    let ns := field c.params 8 4
    if c.params.length ≠ 16 ∨ 999999999 < ns ∨ field c.params 12 4 ≠ 0 then p.lengthFault c.uid
    else
      let seq := p.evr.seq
      (p.create 0x0904 0 0 0 (BitVec.ofNat 32 (field c.params 0 4)) (BitVec.ofNat 32 (field c.params 4 4)) (BitVec.ofNat 32 ns) true).answer c.uid
        Status.done (toBE 8 seq))))

/-- EVR_FREEZE_SET (R377): a register write of 1. -/
def execEvrFreezeSet (s : State) : Result := powered s (fun p => p.freeze 0)

/-- EVR_FREEZE_CLEAR (R377): a register write of 0. -/
def execEvrFreezeClear (s : State) : Result := powered s (fun p => p.thaw 2)

/-- FREEZE_TIMEOUT (R377): 10 s after the most recent request. -/
def execFreezeTimeout (s : State) : Result :=
  powered s (fun p => match p.evr.thawAt with
    | some t => (p.atTime t).thaw 1
    | none => p)

/-- OPTIME_SAVE (R371): the value goes to the root area. -/
def execOptimeSave (s : State) : Result := powered s (fun p => p.setEvr { p.evr with opSaved := p.optime })

end Sys2Proof.Machine
end

