-- ==== Sys2Proof/Machine/Ports.lean ====
section
/-! DEFINITION. Host port halves and the partner port (03 R61 to R63, 16 R413, R414, R425): links, drains, MKA, service frames, pauses. -/

namespace Sys2Proof.Machine

/-- The port number of PORT_CTL (16 R417). -/
def halfOf : Nat → Half
  | 0 => .a0
  | 1 => .a1
  | 2 => .b0
  | _ => .b1

namespace Part

/-- A half that its port has: half 1 only of a split port (03 HPx_MODE). -/
def halfExists (p : Part) (h : Half) : Bool := halfIndex h % 2 == 0 || (p.portOf h).split

def setPortOf (p : Part) (h : Half) (x : HostPort) : Part := if halfIndex h < 2 then { p with hpa := x } else { p with hpb := x }

/-- A mode that was written takes effect as the link comes up. -/
def takeMode (p : Part) (h : Half) : Part :=
  let x := p.portOf h
  match x.newMode with
  | none => p
  | some v => p.setPortOf h { x with split := v.getLsbD 0, msreq0 := v.getLsbD 4, msreq1 := v.getLsbD 5, newMode := none }

/-- A staged Deal found at start-up is armed again before L2 (02 R48). -/
def rearm (p : Part) : Part :=
  let b := p.dealBank (!p.deal.activeBank)
  if b.role ≠ .staged ∨ p.deal.failed = true ∨ p.power.life ≠ 1 then p
  else match p.checkImage b.image with
    | .ok d => (p.setDeal { p.deal with staged := some d }).armDeal
    | .error _ => p.unstage

/-- The first half that comes up ends start-up (16 R413 step 9). -/
def startUpEnds (p : Part) : Part := if p.power.stage = 6 then (p.setPower { p.power with stage := 7 }).rearm else p

/-- A half comes up, secured by MKA or not. -/
def halfUp (p : Part) (h : Half) (secured : Bool) : Part :=
  let p := p.takeMode h
  if p.power.stage.toNat < 6 ∨ p.power.stage = 8 ∨ (p.half h).enabled = false ∨ p.halfExists h = false then p
  else (((p.updHalf h (fun x => { x with link := if secured then 3 else 2 })).startUpEnds).relevel).pumpAll

/-- A half's link is gone: it trains again while it is enabled. -/
def halfDown (p : Part) (h : Half) : Part :=
  (p.updHalf h (fun x => { x with link := if x.enabled && p.halfExists h then 1 else 0, assocs := [], paused := 0 })).relevel

/-- A write of HPx_MODE: the port retrains, and the mode takes effect as its link comes up. -/
def writeMode (p : Part) (portB : Bool) (value : Word) : Part :=
  let h := if portB then Half.b0 else .a0
  let g := if portB then Half.b1 else .a1
  let p := p.setPortOf h { p.portOf h with newMode := some (value &&& 0x31) }
  (p.halfDown h).halfDown g

/-! ### MKA (R61) -/

/-- The associations of a port: at most four on a half, the pairing's one on the partner port. -/
def assocsOf (p : Part) : Port → List Assoc
  | .host h => (p.half h).assocs
  | .partner => p.ppAssocs

def setAssocs (p : Part) (port : Port) (l : List Assoc) : Part :=
  match port with
  | .host h => p.updHalf h (fun x => { x with assocs := l })
  | .partner => { p with ppAssocs := l }

/-- The port's link is up. -/
def portUp (p : Part) : Port → Bool
  | .host h => (p.half h).up && (p.half h).enabled
  | .partner => decide (2 ≤ p.part.link.toNat) && p.part.enabled && p.part.pairing.isSome

/-- The part is key server: always on a host port, by the lower identity on the partner port (R61, 13 R349). -/
def keyServer (p : Part) : Port → Bool
  | .host _ => true
  | .partner => p.part.pairing.any (fun x => decide (be p.fuses.idBytes < be x.peer))

/-- A fresh SAK of an association. -/
def freshSak (p : Part) (port : Port) (ca : Nat) (joined : Nat) : Part :=
  let own := p.keyServer port
  let l := (p.assocsOf port).map (fun a =>
    if a.ca = ca then { a with sak := if own then a.sak + 1 else a.sak, key := if own then p.drawn 32 else a.key, members := a.members + joined } else a)
  let p := p.setAssocs port l
  if p.keyServer port then p.drbgTakes 0 32 else p

/-- The CAK a host port's association is of: an AES-256 key of hand 0 in the key table, or on the partner port the pairing's (R61, 13 R349). Before the
vault opens the table does not tell which keys there are: any index is then a CAK, of no known value (DESIGN CHOICE, log 51). -/
def cakOf (p : Part) (port : Port) (ca : Nat) : Option Bytes :=
  let s := p.slot ca
  match port with
  | .partner => some []
  | .host _ => if p.vault.st ≠ .open_ then some []
    else if s.st = .head ∧ s.ktype = 3 ∧ s.hand = 0 then some s.material else none

/-- A member joins: a fresh SAK, and the port is secured. -/
def mkaJoin (p : Part) (port : Port) (ca : Nat) : Part :=
  let l := p.assocsOf port
  let known := l.any (fun a => a.ca == ca)
  let most := match port with
    | .host _ => 4
    | .partner => 1
  match (if known = false ∧ most ≤ l.length then none else p.cakOf port ca) with
  | none => p
  | some cak =>
    let p := if known then p else p.setAssocs port (l ++ [{ ca := ca, cak := cak }])
    let p := p.freshSak port ca 1
    match port with
    | .host h => p.updHalf h (fun x => { x with link := 3 })
    | .partner => p.setPart { p.part with link := 3 }

/-! ### PORT_CTL (16 R424, R425) -/

/-- PORT_STATE (16 R427). -/
def portState (p : Part) (port action : Nat) : Part := p.event 16 0x0B06 1 0 0 port action 0

/-- Halves that would stay enabled without one. -/
def othersEnabled (p : Part) (h : Half) : Bool :=
  [Half.a0, .a1, .b0, .b1].any (fun k => k != h && p.halfExists k && (p.half k).enabled)

/-- µs left of a drain. -/
def drainLeft (p : Part) (t0 : Nat) : Nat := (t0 + msec 100 - p.now + 2999) / 3000

/-- PORT_CTL on a host port half. -/
def halfCtl (p : Part) (uid port : Nat) (enable : Bool) : Part :=
  let h := halfOf port
  let x := p.half h
  match x.draining, enable with
  | some t, true => (p.setHalf h { x with retained := true }).answer uid Status.busyDraining (busyPayload 2 (p.drainLeft t))
  | some _, false => (p.setHalf h { x with retained := false }).answer uid Status.done
  | none, true =>
    if x.enabled then p.answer uid Status.done
    else ((p.setHalf h { x with enabled := true, link := if p.halfExists h then 1 else 0 }).portState port 1).answer uid Status.done
  | none, false =>
    if x.enabled = false then p.answer uid Status.done
    else if p.othersEnabled h = false then sysRefused p uid 2
    else ((p.setHalf h { x with enabled := false, draining := some p.now, retained := false }).portState port 0).answer uid Status.done

/-- The partner port's link goes down: a PAIR_BEGIN in progress is refused (13 R352). -/
def partnerDown (p : Part) : Part :=
  let p := { p with ppAssocs := [] }
  let p := p.setPart { p.part with link := if p.part.enabled then 1 else 0 }
  match p.part.exchange with
  | some x => p.refusePair x.uid 3
  | none => p

/-- PORT_CTL on the partner port. -/
def partnerCtl (p : Part) (uid : Nat) (enable : Bool) : Part :=
  let x := p.part
  match x.draining, enable with
  | some t, true => (p.setPart { x with retained := true }).answer uid Status.busyDraining (busyPayload 2 (p.drainLeft t))
  | some _, false => (p.setPart { x with retained := false }).answer uid Status.done
  | none, true =>
    if x.enabled then p.answer uid Status.done
    else ((p.setPart { x with enabled := true, link := 1 }).portState 4 1).answer uid Status.done
  | none, false =>
    if x.enabled = false then p.answer uid Status.done
    else ((p.setPart { x with enabled := false, draining := some p.now, retained := false }).portState 4 0).answer uid Status.done

/-- Responses to commands accepted on a half are still to leave. -/
def halfOwes (p : Part) (h : Half) : Bool := p.xct.cmds.any (fun c => c.half == h && !c.isCall) || p.xct.replies.any (fun r => r.half == h)

/-- A drain ends (R425): the link goes down, and a retained enable takes effect. -/
def drainEnds (p : Part) (port : Port) : Part :=
  match port with
  | .host h => match (p.half h).draining with
    | none => p
    | some t =>
      let p := if p.halfOwes h then p.atTime (t + msec 100) else p
      let back := (p.half h).retained
      let p := p.updHalf h (fun x => { x with draining := none, retained := false, enabled := back, link := if back && p.halfExists h then 1 else 0
                                              assocs := [], paused := 0 })
      (if back then p.portState (halfIndex h) 1 else p).relevel
  | .partner => match p.part.draining with
    | none => p
    | some _ =>
      let back := p.part.retained
      let p := (p.setPart { p.part with draining := none, retained := false, enabled := back }).partnerDown
      if back then p.portState 4 1 else p

/-! ### Service frames (R61) -/

/-- The address of a half that a service frame asks for. -/
def ownAddress (p : Part) (h : Half) (k : IpService) (dst : BitVec 128) : Bool :=
  let x := p.half h
  match k with
  | .arp => x.ip4 != 0 && dst.toNat == x.ip4.toNat
  | .echo4 => x.ip4 != 0 && dst.toNat == x.ip4.toNat
  | .neighbour => x.ip6 != 0 && dst == x.ip6
  | .echo6 => x.ip6 != 0 && dst == x.ip6
  | .other => false

end Part

/-! ### Rows -/

/-- HOST_PORT_LINK_UP (16 R413; 01 R22). -/
def execHostPortLinkUp (half : Half) (secured : Bool) (s : State) : Result := powered s (fun p => p.halfUp half secured)

/-- HOST_PORT_LINK_DOWN (01 R22). -/
def execHostPortLinkDown (half : Half) (s : State) : Result := powered s (fun p => if (p.half half).up then p.halfDown half else p)

/-- PORT_TRAINING_RETRY (16 R414): the half failed to train, and tries again. -/
def execPortTrainingRetry (half : Half) (s : State) : Result :=
  powered s (fun p =>
    if p.power.stage.toNat < 6 ∨ p.power.stage = 8 ∨ (p.half half).enabled = false ∨ p.halfExists half = false ∨ (p.half half).up = true then p
    else
      let p := (p.wait (sec 1)).updHalf half (fun x => { x with link := 1 })
      p.event 0 0x0B05 4 0 0 p.power.stage.toNat 0 (Config.failureCode (8 + halfIndex half) % 2 ^ 32))

/-- HPX_MODE_WRITE (03 R62, HPx_MODE). -/
def execHpxModeWrite (portB : Bool) (value : Word) (s : State) : Result := powered s (fun p => p.writeMode portB value)

/-- PORT_CTL (16 R417, R424, R425). -/
def execPortCtl (o : Origin) (b : Bytes) (s : State) : Result :=
  powered s (fun p => p.serve o 0x1303 b (fun p c => p.houseOnly c (fun p =>
    let port := field c.params 0 1
    let action := field c.params 1 1
    if c.params.length ≠ 8 ∨ 4 < port ∨ 1 < action ∨ allZero (c.params.drop 2) = false then p.lengthFault c.uid
    else if p.power.life = 3 then sysRefused p c.uid 1
    else if port = 4 then p.partnerCtl c.uid (action = 1)
    else p.halfCtl c.uid port (action = 1))))

/-- PORT_DRAIN_END (16 R425). -/
def execPortDrainEnd (port : Port) (s : State) : Result := powered s (fun p => p.drainEnds port)

/-- MKA_FRAME_RECEIVE (R61): a frame in which no member joins changes nothing the manual names. -/
def execMkaFrameReceive (port : Port) (ca : Nat) (joins : Bool) (s : State) : Result :=
  powered s (fun p => if p.portUp port && joins then p.mkaJoin port ca else p)

/-- SAK_RENEW (R61): a PN has passed 2^63. -/
def execSakRenew (port : Port) (ca : Nat) (s : State) : Result :=
  powered s (fun p => if p.portUp port && (p.assocsOf port).any (fun a => a.ca == ca) then p.freshSak port ca 0 else p)

/-- IP_SERVICE_FRAME (R61, R62): answered for the half's own address, under MACsec. -/
def execIpServiceFrame (half : Half) (service : IpService) (dst : BitVec 128) (s : State) : Result :=
  powered s (fun p =>
    if (p.half half).link = 3 ∧ (p.half half).enabled = true ∧ p.ownAddress half service dst = true then { p with ipTx := (half, service) :: p.ipTx }
    else p)

/-- PFC_FRAME_RECEIVE (R61). -/
def execPfcFrameReceive (half : Half) (paused : BitVec 8) (s : State) : Result :=
  powered s (fun p => if (p.half half).up then (p.updHalf half (fun x => { x with paused := paused })).pumpAll else p)

end Sys2Proof.Machine
end

