-- ==== Sys2Proof/Machine/PowerUp.lean ====
section
/-! DEFINITION. Power-fail, Off, the battery, start-up, oscillators, firmware and RETIRE (16 R407 to R418, R427; 12 R340 to R344; 14 R383). -/

namespace Sys2Proof.Machine

/-! ### What outlives a power loss (16 R409) -/

/-- The MRAM content of a port half. -/
def HalfSt.kept (h : HalfSt) : HalfSt := { vlan := h.vlan, ip4 := h.ip4, ip6 := h.ip6 }

/-- The MRAM content of a port: a mode that was written holds from the next link on. -/
def HostPort.kept (x : HostPort) : HostPort :=
  match x.newMode with
  | none => x
  | some v => { x with split := v.getLsbD 0, msreq0 := v.getLsbD 4, msreq1 := v.getLsbD 5, newMode := none }

/-- The next sequence of the recorder as its scan finds it (14 R372). -/
def scanSeq (e : EvrUnit) : Nat :=
  1 + ((e.ring.map (·.2.seq)) ++ (e.pinned.map (·.2.seq)) ++ (e.kitty.map (·.2.seq))).foldl max 0

namespace Part

/-- The recorder's MRAM, with the register file the battery holds. -/
def keptEvr (p : Part) : EvrUnit :=
  let e := p.evr
  { ring := e.ring, pinned := e.pinned, kitty := e.kitty, regfile := e.regfile, ringPtr := e.ringPtr, pinPtr := e.pinPtr, kittyPtr := e.kittyPtr
    regPtr := e.regPtr, badRing := e.badRing, badPin := e.badPin, pinFull := (nextPinned e).isNone, kittyOn := (nextRing e).isNone
    opSaved := e.opSaved, opBase := e.opSaved, opAt := p.now, pcycle := e.pcycle, seq := scanSeq e, house := e.house }

/-- The part in Off: MRAM, fuses, and what the battery holds. Everything else is at its reset value. -/
def off (p : Part) : Part :=
  { fuses := p.fuses, now := p.now, draws := p.draws
    power := { life := p.power.life, fwMin := p.power.fwMin, fwBanks := p.power.fwBanks, fwImages := p.power.fwImages, firstVbat := p.power.firstVbat
               lastOrderly := p.power.lastOrderly, lowStart := p.power.lowStart, slowOk := p.power.slowOk, xtalOk := p.power.xtalOk }
    deal := { banks := p.deal.banks, activeBank := p.deal.activeBank, recSerial := p.deal.recSerial, recDigest := p.deal.recDigest
              epoch := p.deal.epoch, key := p.deal.key, past := p.deal.past }
    hpa := p.hpa.kept, hpb := p.hpb.kept, ha0 := p.ha0.kept, ha1 := p.ha1.kept, hb0 := p.hb0.kept, hb1 := p.hb1.kept
    xct := { tamperList := p.xct.tamperList, claimCert := p.xct.claimCert }
    vault := { incarnation := p.vault.incarnation, journal := { inMram := p.vault.journal.inMram }, deckVer := p.vault.deckVer
               deckStart := p.vault.deckStart, deckEnd := p.vault.deckEnd, ktk := p.vault.ktk, root := p.vault.root, rootTag := p.vault.rootTag
               offErase := p.vault.offErase }
    guard := { vbat := p.guard.vbat, vbatOk := p.guard.vbatOk, vbatLow := p.guard.vbatLow, erases := p.guard.erases, offAt := p.now
               tamperLow := p.guard.tamperLow, offSlots := p.guard.offSlots, offLost := p.guard.offLost }
    part := { pairing := p.part.pairing, pairTx := p.part.pairTx }
    evr := p.keptEvr
    cera := { present := p.cera.present }, cerb := { present := p.cerb.present }
    registry := p.registry, idCert := p.idCert
    counts := p.counts.filter (fun e => e.1 == regAddr 0 winEVR 0x0118)
    tx := p.tx, ipTx := p.ipTx, ptx := p.ptx }

/-! ### Off (12 R340, R341; 14 R383) -/

/-- An event the guard observes in Off: one of 64 battery-backed slots, or counted. -/
def offEvent (p : Part) (code : BitVec 16) (sev p1 p2 : Nat) : Part :=
  let g := p.guard
  if g.offSlots.length < 64 then
    p.setGuard { g with offSlots := g.offSlots ++ [(code, BitVec.ofNat 8 sev, BitVec.ofNat 32 p1, BitVec.ofNat 32 p2, (p.now - g.offAt) / sec 1)] }
  else p.setGuard { g with offLost := g.offLost + 1 }

/-- Sensors that report in Off: the shield, VBAT and the guard supply, photodiodes 0 to 3, diode 0 (R340). -/
def watchedOff (cls index : Nat) : Bool :=
  (cls == 9 && decide (index < 24)) || (cls == 2 && (index == 6 || index == 7)) || (cls == 5 && decide (index < 4)) || (cls == 7 && index == 0)

/-- A witness in Off erases at once (R341): the root register and its tag are cleared and the Off-Erase flag is set. -/
def offWitness (p : Part) (cls index mag : Nat) : Part :=
  let n := severity cls mag
  if p.power.on = true ∨ p.guard.vbatOk = false ∨ p.power.life = 0 ∨ p.power.life = 3 ∨ watchedOff cls index = false ∨ n = 0 then p
  else (p.offEvent 0x0700 n (cls * 2 ^ 28 + n * 2 ^ 20 + index % 2 ^ 16) mag).setVault
    { p.vault with root := none, rootTag := false, offErase := true }

/-! ### Start-up (R413, R414) -/

/-- STARTUP_FAIL (R414, R427). -/
def startFail (p : Part) (die cause : Nat) : Part := p.event 0 0x0B05 4 0 0 p.power.stage.toNat die (Config.failureCode cause % 2 ^ 32)

/-- The bank boot ROM runs: of the verifying ones not below the minimum, the higher version (R418). -/
def bootBank (p : Part) : Option (Bool × Word) :=
  let ok := fun (v : Option Word) => v.filter (fun x => p.power.fwMin ≤ x)
  match ok p.power.fwBanks.1, ok p.power.fwBanks.2 with
  | none, none => none
  | some a, none => some (false, a)
  | none, some b => some (true, b)
  | some a, some b => if a < b then some (true, b) else some (false, a)

/-- A root lost or erased in Off is completed as an Erase (12 R344): `none` where nothing is to be done. -/
def rootCheck (p : Part) : Option Nat :=
  if p.power.life ≠ 1 then none else if p.vault.offErase then some 0xFF else if p.vault.rootTag = false then some 0xFE else none

def completeErase (p : Part) : Part :=
  let p := p.setVault { incarnation := p.vault.incarnation, st := .erased }
  { p with
    deal := { p.deal with key := none }
    part := { p.part with pairing := none }
    power := { p.power with life := 2 }
    guard := { p.guard with tamperLow := true, erases := satIncr p.guard.erases } }

/-- The records of Off, before any other of the new power cycle (14 R383). -/
def offRecords (p : Part) (seconds : Nat) : Part :=
  let slots := p.guard.offSlots
  let p := p.create 0x0907 1 0 0 (BitVec.ofNat 32 (min seconds 0xFFFFFFFF)) (BitVec.ofNat 32 slots.length) (BitVec.ofNat 32 p.guard.offLost)
  let p := slots.foldl (fun p (code, flags, p1, p2, at_) => p.create code flags.toNat Rec.offFlag 0 p1 p2 (BitVec.ofNat 32 at_)) p
  p.setGuard { p.guard with offrec := slots.length, offSlots := [], offLost := 0 }

/-- The active Deal is loaded (02 R48). -/
def loadDeal (p : Part) : Part :=
  let a := p.deal.activeBank
  let one := fun (b : Bank) => if b.good then bootDeal (p.deal.key.getD []) b.image p.deal.recDigest else none
  if p.deal.recSerial = 0 then p.setDeal { p.deal with st := .noDeal }
  else match one (p.dealBank a), one (p.dealBank (!a)) with
    | some d, _ =>
      let p := p.setDeal { p.deal with active := some d, st := .idle }
      if (p.dealBank (!a)).role = .staged then p else p.mirrorBank
    | none, some d =>
      let p := p.setDealBank a { role := .active, image := (p.dealBank (!a)).image }
      (p.setDeal { p.deal with active := some d, st := .idle }).mirrorBank
    | none, none => (p.setDeal { p.deal with st := .noDeal, failed := true }).event 1 0x0C13 4 0 0 3 (p.deal.recSerial % 2 ^ 32) 0

/-- A pairing of the active Deal starts in Linking (13 R358). -/
def startPair (p : Part) : Part :=
  match p.deal.active.bind (·.partner), p.part.pairing with
  | some e, some x => (p.setPart { p.part with lead := x.lead.getD e.lead }).partnerState .linking
  | _, _ => p

/-- A die's TRNG after its start-up tests (11 R315, R317). -/
def startTrng (p : Part) (die : Nat) (ok : Bool) : Part :=
  p.updTrng die (fun t => if ok then { t with drbg := 1, src0 := 1, src1 := 1, due := p.now + msec 10, requests := 0 } else { t with drbg := 0, src0 := 3, src1 := 3 })

/-- Seats come up, or are parked (R413 steps 5 to 7, R414; 12 R342). -/
def startSeats (p : Part) (f : BootFindings) : Part :=
  p.seatNums.foldl (fun p n =>
    if p.power.life = 2 then (p.startTrng n true).updSeat n (fun s => { s with st := .shed, parked := true, power := true, pll := true, link := 1 })
    else if f.badSeats.getLsbD n then
      (p.updSeat n (fun s => { s with st := .shed, parked := true, power := true, quiet := p.now })).startFail n 2
    else (p.startTrng n true).updSeat n (fun s => { s with st := .inService, power := true, pll := true, link := 1, epoch := p.deal.epoch, armed := true })) p

/-- Port training starts (R413 step 8). -/
def startPorts (p : Part) : Part :=
  let p := [Half.a0, .a1, .b0, .b1].foldl (fun p h => p.updHalf h (fun x => { x with link := if p.halfExists h then 1 else 0 })) p
  if p.power.life = 1 then p.setPart { p.part with link := 1 } else p

/-- Steps 4 to 8 of R413, by the lifecycle state. -/
def startUnits (p : Part) (f : BootFindings) : Part :=
  let life := p.power.life
  let p := p.atTime (p.evr.opAt + msec 50)
  let p := if life = 1 then p.loadDeal.startPair else p.setDeal { p.deal with st := .noDeal }
  let p := if life = 3 then p
    else
      let p := (p.setPower { p.power with stage := 4, dealerTrngOk := f.dealerTrngOk }).startTrng 0 f.dealerTrngOk
      let p := if f.dealerTrngOk then p else p.startFail 0 3
      (p.startSeats f).setPower { (p.startSeats f).power with stage := 5 }
  let p := p.atTime (p.evr.opAt + msec 75)
  let p := if life = 3 ∨ life = 2 then p.setVault { p.vault with st := .erased }
    else
      let p := p.setPower { p.power with badStacks := f.badStacks }
      if f.badStacks = 0 then
        let keys := p.drawn 64
        (p.drbgTakes 0 64).setVault { p.vault with st := .awaitingDeck, lineKey := keys.take 32, macKey := keys.drop 32 }
      else p.startFail 0 4
  (p.setPower { p.power with stage := 6 }).startPorts.newChallenge

/-- A boot firmware bank with an uncorrectable word fails verification; a Deal bank with one is not loaded (01 R19). -/
def badBanks (p : Part) (f : BootFindings) : Part :=
  let keep := fun (b : Nat) (v : Option Word) => if f.badFirmware.getLsbD b then none else v
  let p := p.setPower { p.power with fwBanks := (keep 0 p.power.fwBanks.1, keep 1 p.power.fwBanks.2) }
  let mark := fun (b : Nat) (k : Bank) => if f.badDeal.getLsbD b then { k with good := false } else k
  p.setDeal { p.deal with banks := (mark 0 p.deal.banks.1, mark 1 p.deal.banks.2) }

/-- Uncorrectable words the start found in MRAM: boot firmware banks, Deal banks, log blocks, the kitty (01 R19). -/
def badWords (p : Part) (f : BootFindings) : Part :=
  let banks := (List.range 2).filter (fun b => f.badFirmware.getLsbD b) ++ (List.range 2).filter (fun b => f.badDeal.getLsbD b)
  let p := banks.foldl (fun p b => p.ecc 0 3 locMram b) p
  let p := f.badLogBlocks.foldl (fun p e => p.ecc 0 3 locMram e.2) p
  if f.kittyBad then p.ecc 0 3 locMram 0 else p

/-- PORST_N is released (R408, R413). -/
def start (p : Part) (f : BootFindings) : Part :=
  if p.power.on then p
  else if f.railLow then p.setPower { p.power with lowStart := true }
  else
    let p := p.atTime (p.guard.offAt + sec f.offSeconds.toNat)
    let cause : BitVec 2 := if p.power.firstVbat then 0 else if p.power.lastOrderly then 1 else 2
    let low := p.power.lowStart
    let p := p.setPower { p.power with on := true, stage := 0, cause := cause, firstVbat := false, lowStart := false }
    let p := p.setEvr { p.evr with pcycle := min (p.evr.pcycle + 1) 0xFFFFFF, opBase := p.evr.opSaved + 100, opAt := p.now }
    let erase := p.rootCheck
    let p := match erase with
      | some _ => p.completeErase
      | none => p.setVault { p.vault with offErase := false }
    let p := p.badBanks f
    match p.bootBank with
    | none => (p.setPower { p.power with stage := 8 }).startFail 0 1
    | some (bank, version) =>
      let p := p.atTime (p.evr.opAt + msec 25)
      let p := p.setPower { p.power with stage := 2, dlrPll := true, fw := version, fwMin := version, fwBank := bank }
      let p := p.atTime (p.evr.opAt + msec 45)
      let p := f.badLogBlocks.foldl (fun p e => p.badBlock e.1 e.2) p
      let p := p.offRecords f.offSeconds.toNat
      let p := if f.kittyBad then p.kittyFail else p
      let p := p.badWords f
      let p := p.event 0 0x0B01 1 0 0 cause.toNat version.toNat p.evr.pcycle
      let p := if low then p.startFail 0 0 else p
      let p := match erase with
        | some what => p.guardEvent 0x0713 4 0 0 0 0 what p.guard.erases.toNat
        | none => p
      p.startUnits f

/-! ### RETIRE and FW_LOAD (R416, R418) -/

/-- Why RETIRE is refused (R426). -/
def retireFault (p : Part) (b : Bytes) : Option Nat :=
  if p.power.life ≠ 1 ∧ p.power.life ≠ 2 then some 1
  else match parseSignatures (b.drop 64), p.registryNow with
    | some (m, sigs), some r =>
      if field b 0 4 ≠ 0x52455452 ∨ field b 4 2 ≠ 1 ∨ field b 6 2 ≠ 0 ∨ slice b 8 16 ≠ p.fuses.idBytes ∨ field b 24 8 ≠ p.serialNow ∨
          allZero (slice b 32 32) = false then some 4
      else if quorumSigned r r.deal (sha384 (b.take 64)) (ascii "XF24-RETR") m sigs then none else some 4
    | _, _ => some 4

/-- Retired (R415, R416), TAMPER_N low (18 R450: DEDUCED, log 70, of a part no Erase drove it low of). What ran under the erased keys ends as erased in flight; sessions Retired does not serve close. -/
def retireNow (p : Part) (uid : Nat) : Part :=
  let p := (p.closeJoker.voidCeremony 0).voidCeremony 1
  let p := [0, 1].foldl (fun p port => if (p.cerPort port).auth.isSome then p.lapseAuth port else p) p
  let work := p.xct.cmds.filter (fun c => c.uid != uid && c.place != .xct)
  let p := work.foldl (fun p c => p.stopCommand c.uid (some Status.keyErasedInFlight)) p
  let p := (p.wipeCache (fun _ => true)).unpair
  let p := p.setVault { incarnation := p.vault.incarnation, st := .erased }
  let p := { p with
    deal := { p.deal with st := .noDeal, banks := ({}, {}), mirror := false, active := none, staged := none, verdict := none, stagingUid := none
                          cut := none, key := none, olds := [] }
    registry := none
    guard := { p.guard with tamperLow := true }
    power := { p.power with life := 3 } }
  let p := p.event 0 0x0B08 4 0 0 0 0 0
  let lost := p.xct.sessions.filter (fun x => x.hand != 0 || !(p.xct.tamperList.contains x.cert))
  let p := p.answer uid Status.done
  (lost.foldl (fun p x => if x.st = .offered then p.closeSession x.id else p.startClosing x.id) p).relevel

/-- The version of an image that verifies (R418). -/
def firmwareVersion (p : Part) (b : Bytes) : Option Word :=
  let n := field b 12 4
  let v := field b 8 4
  let header := b.take 128
  let sig := b.drop (128 + n)
  let key := Config.firmwareKeys.take 96
  if b.length ≠ 128 + n + 4724 ∨ field b 0 4 ≠ 0x58464657 ∨ field b 4 2 ≠ 1 ∨ field b 6 2 ≠ 0 ∨ v = 0 ∨ n % 8 ≠ 0 ∨ 4189448 < n ∨
      slice b 16 48 ≠ sha384 (slice b 128 n) ∨ allZero (slice b 64 64) = false ∨ byteAt sig 4723 ≠ 0 then none
  else if p384.verify (some (field key 0 48, field key 48 48)) (sha384 header) (field sig 0 48) (field sig 48 48) = false ∨
      Dsa.verify (Config.firmwareKeys.drop 96) (sha384 header) (ascii "XF24-FIRM") (slice sig 96 4627) = false then none
  else if BitVec.ofNat 32 v < p.power.fwMin then none
  else some (BitVec.ofNat 32 v)

/-- The bank that is not running is written, then verified (R418). -/
def loadFirmware (p : Part) (uid : Nat) (image : Bytes) : Part :=
  let bank := !p.power.fwBank
  let v := p.firmwareVersion image
  let p := p.setPower { p.power with
    fwBanks := if bank then (p.power.fwBanks.1, v) else (v, p.power.fwBanks.2)
    fwImages := if bank then (p.power.fwImages.1, image) else (image, p.power.fwImages.2) }
  match v with
  | none => sysRefused p uid 3
  | some v =>
    (p.event 0 0x0B07 2 0 0 (if bank then 1 else 0) v.toNat 0).answer uid Status.done (toBE 1 (if bank then 1 else 0) ++ zeros 3 ++ toBE 4 v.toNat)

/-! ### Words (16 'SYS registers', 'CLKPWR registers') -/

def FoldSt.code : FoldSt → Nat
  | .running => 0
  | .entering => 1
  | .folded => 2
  | .waking => 3

/-- SYS_LIFE: the level reads 0 while start-up runs. -/
def sysLifeWord (p : Part) : Nat :=
  p.power.stage.toNat * 256 + (if p.power.stage = 7 then p.power.level.toNat else 0) * 16 + p.power.life.toNat

/-- CLKPWR_FOLD. -/
def foldWord (p : Part) : Nat := (if p.power.autowake then 65536 else 0) + FoldSt.code p.power.fold

end Part

/-! ### Rows -/

/-- POWER_UP (R408, R413, R414). -/
def execPowerUp (f : BootFindings) (s : State) : Result := always s (fun p => p.start f)

/-- POWER_FAIL (R409). -/
def execPowerFail (orderly : Bool) (s : State) : Result :=
  powered s (fun p =>
    let q := p.off
    q.setPower { q.power with lastOrderly := orderly, firstVbat := false })

/-- OFF_WITNESS (12 R341). -/
def execOffWitness (cls index : Nat) (magnitude : BitVec 16) (s : State) : Result := always s (fun p => p.offWitness cls index magnitude.toNat)

/-- VBAT_LOSS (12 R341; TAMPER_N is then high-impedance, 18 R450): without main power the root register, its tag and what the battery holds are lost. -/
def execVbatLoss (s : State) : Result :=
  always s (fun p =>
    let p := p.setGuard { p.guard with vbatOk := false, tamperLow := false }
    if p.power.on then p.batteryMean 0
    else
      let p := p.setGuard { p.guard with vbat := 0, vbatLow := true }
      let p := (p.setVault { p.vault with root := none, rootTag := false }).setGuard { p.guard with offSlots := [], offLost := 0 }
      let p := p.setEvr { p.evr with regfile := [], regPtr := 0 }
      p.setPower { p.power with firstVbat := true, slowOk := false, xtalOk := false })

/-- VBAT_RETURN (12 R340, 18 R450, R454): the guard domain runs again, and drives TAMPER_N as the lifecycle has it. -/
def execVbatReturn (millivolts : BitVec 16) (s : State) : Result :=
  always s (fun p =>
    if p.guard.vbatOk then p
    else
      let p := p.setGuard { p.guard with vbat := millivolts, vbatOk := true, vbatLow := millivolts.toNat < 2500, tamperLow := decide (2 ≤ p.power.life) }
      p.setPower { p.power with slowOk := true })

/-- BATTERY_LOW (12 R341, R346; 11 R300): once each time VBAT falls below 2.5 V; in Off into a battery-backed slot. -/
def execBatteryLow (millivolts : BitVec 16) (s : State) : Result :=
  always s (fun p =>
    if p.power.on then p.batteryMean millivolts.toNat
    else if p.guard.vbatOk = false then p
    else
      let low := decide (millivolts.toNat < 2500)
      let was := p.guard.vbatLow
      let p := p.setGuard { p.guard with vbat := millivolts, vbatLow := low }
      if low && !was then p.offEvent 0x0715 3 (2 * 2 ^ 28 + 6) millivolts.toNat else p)

/-- OSC32_FAIL (R411): stopped for 1 ms. -/
def execOsc32Fail (s : State) : Result :=
  always s (fun p =>
    if p.power.xtalOk = false then p
    else
      let p := p.setPower { p.power with xtalOk := false }
      if p.power.on then p.event 16 0x0B04 3 0 0 0 0 0 else p.offEvent 0x0B04 3 0 0)

/-- OSC32_RESTART (R411). -/
def execOsc32Restart (s : State) : Result :=
  always s (fun p =>
    if p.power.xtalOk = true ∨ (p.power.on = false ∧ p.guard.vbatOk = false) then p
    else
      let p := p.setPower { p.power with xtalOk := true }
      if p.power.on then p.event 16 0x0B04 3 0 0 1 0 0 else p.offEvent 0x0B04 3 1 0)

/-- SYS_STATUS (R417). -/
def execSysStatus (o : Origin) (b : Bytes) (s : State) : Result :=
  powered s (fun p => p.serve o 0x1304 b (fun p c => p.houseOnly c (fun p =>
    if c.params ≠ [] then p.lengthFault c.uid
    else p.answer c.uid Status.done (toBE 4 p.sysLifeWord ++ toBE 4 p.foldWord ++ toBE 4 p.power.fw.toNat ++ zeros 4))))

/-- FW_LOAD (R417, R418): the image as its stream delivers it. -/
def execFwLoad (o : Origin) (b : Bytes) (s : State) : Result :=
  powered s (fun p => p.serve o 0x1401 b (fun p c => p.houseOnly c (fun p => p.whenStreamed c (fun p image =>
    if p.power.life ≠ 1 then sysRefused p c.uid 1 else p.loadFirmware c.uid image))))

/-- RETIRE (R416, R426). -/
def execRetire (o : Origin) (b : Bytes) (s : State) : Result :=
  powered s (fun p => p.serve o 0x1501 b (fun p c => p.houseOnly c (fun p =>
    if c.params.length < 72 then p.lengthFault c.uid
    else match p.retireFault c.params with
      | some r => sysRefused p c.uid r
      | none => p.retireNow c.uid)))

end Sys2Proof.Machine
end

