-- ==== Sys2Proof/Machine/Registers.lean ====
section
/-! DEFINITION. What a management read of every register returns (01 R25 to R29 and each chapter's register tables), and REG_READ. -/

namespace Sys2Proof.Machine

/-- A flag as the bit it has in a word. -/
def bit (b : Bool) (n : Nat) : Nat := if b then 2 ^ n else 0

/-- KiB that hold n bytes. -/
def kib (n : Nat) : Nat := (n + 1023) / 1024

/-- An engine's tile state as LANEx_STATE, TU_STATE and DGSTx_STATE encode it. -/
def TileSt.code : TileSt → Nat
  | .gated => 0
  | .idle => 1
  | .running => 2
  | .scrubbing => 3
  | .poweringDown => 4

/-- SEAT_STATE.STATE. -/
def SeatSt.code : SeatSt → Nat
  | .inService => 0
  | .held => 1
  | .shed => 2
  | .selfTest => 3
  | .folded => 4

/-- VAULT_STATE.STATE. -/
def VaultSt.code : VaultSt → Nat
  | .initialising => 0
  | .awaitingDeck => 1
  | .replaying => 2
  | .open_ => 3
  | .erased => 4

/-- CORE_RUN.STATE. -/
def CoreRun.code : CoreRun → Nat
  | .idle => 0
  | .loading => 1
  | .running => 2
  | .ending => 3
  | .halted => 4

/-- The part number of a variant (16 SYS_ID). -/
def Variant.number : Variant → Nat
  | .xf2402 => 0x2402
  | .xf2404 => 0x2404
  | .xf2408 => 0x2408

namespace Part

/-! ### Registers of the Dealer, by offset in their window -/

def sysReg (p : Part) (o : Nat) : Nat :=
  if o = 0x00 then p.fuses.variant.number * 65536 + p.seatCount * 256 + p.fuses.sirev.toNat
  else if 0x04 ≤ o ∧ o ≤ 0x10 then field p.fuses.idBytes (o - 4) 4
  else if o = 0x20 then p.sysLifeWord
  else if o = 0x24 then p.power.fw.toNat
  else if o = 0x28 then p.power.fwMin.toNat
  else if o = 0x2C then bit p.power.fwBank 2 + p.power.cause.toNat
  else if o = 0x40 then p.power.ecc1.toNat
  else if o = 0x44 then p.power.ecc2.toNat
  else if o = 0x48 then p.power.eccu.toNat
  else 0

def dealReg (p : Part) (o : Nat) : Nat :=
  if o = 0x00 then bit p.deal.mirror 9 + bit p.deal.activeBank 8 + DealSt.code p.deal.st
  else if o = 0x04 then p.activeSerial / 2 ^ 32
  else if o = 0x08 then p.activeSerial % 2 ^ 32
  else if o = 0x0C then p.stagedSerial / 2 ^ 32
  else if o = 0x10 then p.stagedSerial % 2 ^ 32
  else if o = 0x14 then p.deal.reject.toNat
  else if o = 0x18 then (if p.deal.st = .cutting then p.oldWork.length % 2 ^ 24 else 0)
  else if o = 0x1C then p.deal.cuts.toNat
  else if o = 0x20 then p.peerWord
  else if o = 0x24 then p.peerSerialNow / 2 ^ 32
  else if o = 0x28 then p.peerSerialNow % 2 ^ 32
  else 0

/-- The mode a port has been given: the one written, also before it takes effect. -/
def modeWord (x : HostPort) : Nat :=
  match x.newMode with
  | some v => v.toNat
  | none => bit x.msreq1 5 + bit x.msreq0 4 + bit x.split 0

def hpReg (x : HostPort) (h0 h1 : HalfSt) (o : Nat) : Nat :=
  if o = 0x00 then modeWord x
  else if o = 0x04 then (if x.split then h1.link.toNat * 4 else 0) + h0.link.toNat
  else if o = 0x08 then h1.vlan.toNat * 65536 + h0.vlan.toNat
  else if o = 0x0C then x.udp.toNat
  else if o = 0x10 then h0.ip4.toNat
  else if o = 0x14 then h1.ip4.toNat
  else if 0x20 ≤ o ∧ o ≤ 0x2C then h0.ip6.toNat / 2 ^ (8 * (0x2C - o)) % 2 ^ 32
  else if 0x30 ≤ o ∧ o ≤ 0x3C then h1.ip6.toNat / 2 ^ (8 * (0x3C - o)) % 2 ^ 32
  else 0

def xctReg (p : Part) (o : Nat) : Nat :=
  if o = 0x00 then (p.xct.sessions.filter (fun x => x.st == .offered)).length * 65536 + p.xct.sessions.length
  else if o = 0x04 then p.xct.retired.length
  else 0

/-- Commands in a queue of the hand DISP_HQSEL selects; none of a hand that the active Deal lacks. -/
def queueDepth (p : Part) (cls : Cls) : Nat :=
  let hand := p.disp.hqSel.toNat
  if (p.handEntry p.deal.epoch hand).isNone then 0
  else min 1048576 (p.xct.cmds.filter (fun c => c.place == .queued && c.hand == hand && c.cls == cls)).length

/-- DISP_SVC: the estimates for the selected Seat and class. -/
def svcWord (p : Part) : Nat :=
  let seat := p.disp.svcSel.toNat % 8
  let site := siteOfGroup (p.disp.svcSel.toNat / 16)
  if p.hasSeat seat then min (p.waitOn seat site / 300) 0xFFFF * 65536 + min (p.overhead seat site) 0xFFFF else 0

def dispReg (p : Part) (o : Nat) : Nat :=
  if o = 0x00 then
    (if p.power.on then mask (p.seatNums.filter (fun n => !(p.seatIn n .inService) && !(p.seatIn n .held))) else 0) * 65536 +
      mask (p.seatNums.filter (fun n => p.seatIn n .held)) * 256 + mask p.inService
  else if o = 0x04 then bit p.disp.affEn 16 + p.disp.slack.toNat
  else if o = 0x08 then p.disp.longCap.toNat
  else if o = 0x10 then p.disp.hqSel.toNat
  else if o = 0x14 then p.queueDepth .trump
  else if o = 0x18 then p.queueDepth .plain
  else if o = 0x1C then p.queueDepth .long
  else if o = 0x20 then p.disp.svcSel.toNat
  else if o = 0x24 then p.svcWord
  else if o = 0x30 then bit p.disp.split 8 + p.disp.anteDie.toNat * 16 + p.disp.anteGroup.toNat * 4
  else if o = 0x34 then p.disp.anteClass.toNat
  else 0

def vaultReg (p : Part) (o : Nat) : Nat :=
  if o = 0x00 then bit p.vault.journal.sink.isSome 8 + VaultSt.code p.vault.st
  else if o = 0x04 then p.vault.incarnation % 2 ^ 32
  else if o = 0x08 then min (kib p.vault.journal.used) 16384
  else 0

/-- CTR_HELD: counters with leases held. -/
def ctrReg (p : Part) (o : Nat) : Nat :=
  if o = 0x00 then (p.vault.leases.filter (fun l => l.ranges.any (fun r => r.1 < r.2))).length else 0

def evrReg (p : Part) (o : Nat) : Nat :=
  if o = 0x00 then bit p.evr.fatal 3 + bit p.evr.kittyOn 2 + bit p.evr.pinFull 1 + bit p.evr.thawAt.isSome 0
  else if o = 0x04 then bit p.evr.thawAt.isSome 0
  else if o = 0x08 then p.evr.hold.length * 65536 + ((p.evr.thawAt.getD p.now - p.now) + msec 1 - 1) / msec 1
  else if o = 0x18 then p.evr.pcycle
  else if o = 0x24 then p.evr.pinned.length
  else if o = 0x28 then p.evr.badPin.length * 65536 + p.evr.badRing.length
  else 0

/-- NTC_ROUTE: the routing of the selected source. -/
def routeWord (p : Part) : Nat :=
  match routeOf p.deal.active p.evr.srcSel.toNat with
  | some r => r.hand * 65536 + r.minsev * 256 + r.dest.toNat % 8
  | none => 0

def ntcReg (p : Part) (o : Nat) : Nat :=
  if o = 0x00 then p.evr.srcSel.toNat else if o = 0x04 then p.routeWord else 0

def guardReg (p : Part) (o : Nat) : Nat :=
  if o = 0x00 then
    (mask (p.seatNums.filter (fun n => p.seatIn n .held)) + bit p.guard.dealerHold.isSome 0) * 2 ^ 24 +
      mask (p.seatNums.filter (fun n => p.seatIn n .shed)) * 65536 + mask (p.seatNums.filter (fun n => (p.seat n).parked)) * 256 +
      bit p.guard.dealerCap 7
  else if o = 0x04 then p.litGroups
  else if o = 0x08 then p.guard.last.toNat
  else if o = 0x0C then p.guard.offrec * 2 ^ 24 + p.guard.vbat.toNat
  else if o = 0x10 then p.guard.erases.toNat
  else 0

def cerReg (c : CerPort) (o : Nat) : Nat :=
  if o = 0x00 then
    bit c.cer.isSome 31 + (c.cer.elim 0 (fun x => x.session.toNat % 2 ^ 14)) * 65536 + c.proto.toNat * 64 + c.cls.toNat * 16 + bit c.clkstop 3 +
      bit (c.step.any (fun st => st.stage == .writing)) 2 + bit c.active 1 + bit c.present 0
  else if o = 0x04 then bit c.pps 16 + c.fmax.toNat * 256 + c.classes.toNat
  else if o = 0x08 then c.div.toNat
  else 0

def partReg (p : Part) (o : Nat) : Nat :=
  if o = 0x00 then p.partStateWord
  else if o = 0x04 then p.leadEpoch / 2 ^ 32
  else if o = 0x08 then p.leadEpoch % 2 ^ 32
  else if o = 0x0C then p.part.pairing.elim 0 (fun x => x.id.toNat)
  else if o = 0x10 then p.partRttWord
  else if o = 0x14 then (if p.part.st = .resync then min p.leftObjs.length 0xFFFFFF else 0)
  else 0

def shufReg (p : Part) (o : Nat) : Nat :=
  let s := p.shuffle
  if o = 0x00 then bit s.en 31 + s.target.toNat * 2 ^ 24 + s.actions.toNat * 2 ^ 12 + s.duration.toNat
  else if o = 0x04 then s.sess.toNat
  else if o = 0x08 then s.drop.toNat
  else if o = 0x0C then s.corrupt.toNat
  else if o = 0x10 then s.rdup.toNat
  else if o = 0x14 then s.seed.toNat
  else if o = 0x18 then bit s.refused 31 + s.held.length * 2 ^ 24 + (if s.en then (s.expiry - p.now + sec 1 - 1) / sec 1 else 0)
  else if o = 0x1C then s.seedUsed.toNat
  else 0

/-- CLKPWR_REMAIN: 0 while running or folded. -/
def remainWord (p : Part) : Nat := min p.phaseRemaining 0xFFFFFFFF

/-- Fold entry has gated the Seat rails: 100 µs after the drain (16 R419 step 4). -/
def railsGated (p : Part) : Bool := p.power.fold == .entering && p.power.drained.any (fun td => decide (td + usec 100 ≤ p.now))

/-- CLKPWR_SEATPWR: the rails are ungated from the start of a wake (16 R422 step 1). -/
def railUp (p : Part) (n : Nat) : Bool := p.power.fold == .waking || ((p.seat n).power && !p.railsGated)

/-- CLKPWR_PLL: a folded Seat's PLL has locked again 150 µs into the wake (16 R422 step 2). -/
def pllUp (p : Part) (n : Nat) : Bool :=
  if (p.seat n).st = .folded then p.power.fold == .waking && decide (p.power.wakeAt + usec 150 ≤ p.now) else (p.seat n).pll && !p.railsGated

def clkReg (p : Part) (o : Nat) : Nat :=
  if o = 0x00 then p.foldWord
  else if o = 0x04 then p.remainWord
  else if o = 0x08 then mask (p.seatNums.filter (fun n => p.pllUp n)) + bit p.power.dlrPll 0
  else if o = 0x0C then bit p.power.slowOk 1 + bit p.power.xtalOk 0
  else if o = 0x10 then mask (p.seatNums.filter (fun n => p.railUp n))
  else 0

def jkrReg (p : Part) (o : Nat) : Nat :=
  if o = 0x00 then p.joker.hand.toNat * 2 ^ 24 + p.joker.seats.toNat * 65536 + p.joker.scope.toNat
  else if 0x10 ≤ o ∧ o ≤ 0x2C then field p.joker.chal (o - 0x10) 4
  else if o = 0x30 then p.joker.code.toNat * 65536 + p.joker.reason.toNat
  else 0

/-! ### Registers every die has -/

/-- Sensors of a die that are retired (LAT_STATE). -/
def retiredCount (p : Part) (die : Nat) : Nat := ((List.range 10).map (fun c => p.retiredOf die c (fun _ => true))).sum

/-- LAT_ANTE: the selected entry of the ante table. -/
def anteWord (p : Part) (die : Nat) : Nat :=
  let l := p.lat die
  let group := l.anteSel.toNat / 16
  let cls := l.anteSel.toNat % 16
  (Sparse.get 0 l.peaks (group * 16 + cls)).toNat * 2 ^ 24 + anteMax die group cls * 65536 + anteMin die group cls * 256 + p.anteEntry die group cls

/-- LAT_SENS: the selected sensor. -/
def sensWord (p : Part) (die : Nat) : Nat :=
  let l := p.lat die
  let cls := l.sensSel.toNat / 256
  let index := l.sensSel.toNat % 128
  if sensorCount die cls ≤ index then 0
  else
    let x := p.sensor die cls index
    (Config.factoryTrim die cls index).toNat * 2 ^ 24 + (trimCode die cls index x.trim).toNat * 65536 + min x.refusals 3 * 256 + (if x.retired then 2 else 0)

def latReg (p : Part) (die o : Nat) : Nat :=
  let l := p.lat die
  if o = 0x00 then
    min (p.retiredCount die) 255 * 65536 + bit l.cover 9 + bit l.thermal 8 + mask ((List.range 4).filter (fun g => 0 < p.widening die g))
  else if o = 0x04 then l.tmin.toNat * 65536 + l.tj.toNat
  else if o = 0x08 then l.pred.toNat * 65536 + l.meas.toNat
  else if o = 0x10 then l.anteSel.toNat
  else if o = 0x14 then p.anteWord die
  else if o = 0x20 then l.sensSel.toNat
  else if o = 0x24 then p.sensWord die
  else if o = 0x28 then l.lastW.toNat
  else if o = 0x30 ∧ die = 0 then l.shield.toNat
  else if o = 0x34 ∧ die = 0 then l.refclk.toNat
  else 0

/-- TRNG_OUT reads zero here (11 R321). -/
def trngReg (p : Part) (die o : Nat) : Nat :=
  let t := p.trng die
  if o = 0x00 then t.hband.toNat * 256 + t.drbg.toNat * 16 + t.src1.toNat * 4 + t.src0.toNat
  else if o = 0x04 then t.apt.toNat * 65536 + t.rct.toNat
  else 0

/-! ### Registers of a Seat -/

def seatReg (p : Part) (n o : Nat) : Nat :=
  if o = 0x00 then n * 2 ^ 24 + p.seatCount * 65536 + p.fuses.sirev.toNat * 256
  else if o = 0x04 then p.awake n * 256 + SeatSt.code (if p.railsGated && (p.seat n).st != .shed then .folded else (p.seat n).st)
  else if o = 0x10 then (p.seat n).ecc1.toNat
  else if o = 0x14 then (p.seat n).ecc2.toNat
  else if o = 0x18 then (p.seat n).eccu.toNat
  else 0

def fabReg (p : Part) (n o : Nat) : Nat :=
  if o = 0x00 then (p.seat n).link.toNat
  else if o = 0x04 then (p.seat n).replay.toNat
  else if o = 0x08 then (p.seat n).retrain.toNat
  else 0

/-- The hand whose command a job runs. -/
def jobHand (p : Part) (j : Option Job) : Nat := (j.bind (fun j => p.findCmd j.uid)).elim 0 (·.hand)

def siteState (p : Part) (n : Nat) (site : Site) (k : Nat) : TileSt := (p.tile (siteTile n site k)).st

def laneReg (p : Part) (n k o : Nat) : Nat :=
  let l := p.lane n k
  if o = 0x00 then
    (l.slots.filter (fun e => e.2.chained)).length * 2 ^ 20 + l.slots.length * 65536 + l.duty.toNat * 256 + TileSt.code (p.siteState n .lane k)
  else if o = 0x04 then bit (l.starved || decide (0 < p.stalled n k)) 1 + bit (p.maskFresh n k) 0
  else if o = 0x08 ∧ k = 0 then kib (p.holdUsed n)
  else 0

def tuReg (p : Part) (n k o : Nat) : Nat :=
  if o = 0x00 then
    let st := p.siteState n .tu k
    (if st = .running then p.jobHand (p.tu n k) else 0) * 65536 + (p.tu n k).elim 0 (·.prog) * 256 + TileSt.code st
  else if o = 0x04 then 15 * 65536 + p.fuses.romrev.toNat
  else 0

/-- PKE_STATE.STATE: bank 0 runs ahead of bank 1 (08 R241). -/
def pkeCode (p : Part) (n k : Nat) : Nat :=
  match p.siteState n .pke k with
  | .gated => 0
  | .scrubbing => 4
  | .poweringDown => 5
  | .idle => 1
  | .running => if (p.pke n k).bank0.isSome then 2 else if (p.pke n k).bank1.isSome then 3 else 1

def pkeReg (p : Part) (n k o : Nat) : Nat :=
  let x := p.pke n k
  if o = 0x00 then
    let job := if p.pkeCode n k = 2 then x.bank0 else if p.pkeCode n k = 3 then x.bank1 else none
    p.jobHand x.bank1 * 2 ^ 24 + p.jobHand x.bank0 * 65536 + job.elim 0 (·.prog) * 256 + bit x.parked 4 + p.pkeCode n k
  else if o = 0x04 then bit x.starved 1 + bit (p.drbgServes n && p.siteState n .pke k != .gated) 0
  else 0

/-- The digest registers management reaches: STATE, STATUS (09 R269), and the output (R262). -/
def dgstReg (p : Part) (n k o : Nat) : Nat :=
  let d := p.dgst n k
  if o = 0x00 then
    d.hand.toNat * 65536 + bit d.starved 12 + bit d.matched 11 + bit d.done 10 + bit d.busy 9 + bit (k == 1 && d.claim.isSome) 8 +
      TileSt.code (p.siteState n .digest k)
  else if o = 0x28 then d.status.toNat
  else if 0x40 ≤ o ∧ o ≤ 0x7C then be (padTo 4 (slice d.res (o - 0x40) 4))
  else 0

def kcacheReg (p : Part) (n o : Nat) : Nat :=
  if o = 0x00 then p.cacheFill n
  else if o = 0x04 then (p.seats.cache.filter (fun e => e.seat == n && p.pinned e)).foldl (fun m e => m + e.key.run) 0
  else 0

def coreReg (p : Part) (n k o : Nat) : Nat :=
  let c := p.core n k
  if o = 0x00 then c.hand.toNat * 2 ^ 24 + c.calls.length
  else if o = 0x04 then CoreRun.code c.run
  else if o = 0x08 then c.image % 2 ^ 32
  else 0

def sgrdReg (p : Part) (n o : Nat) : Nat :=
  let sel := Sparse.get 0 p.seats.sgrdSel n
  if o = 0x00 then sel
  else if o = 0x04 then (if sel = 7 then 0 else (Sparse.get 0 p.seats.sgrdLast (n * 8 + sel)).toNat)
  else 0

/-- NTC_RAISE reads zero; NTC_QUEUE counts the Seat's queued notices. -/
def seatNtcReg (p : Part) (n o : Nat) : Nat :=
  if o = 0x04 then (p.seats.appNotices.filter (fun e => e.1 / 256 == n)).length else 0

/-! ### The register space (R25) -/

/-- A Dealer register that is no count pair. -/
def dealerReg (p : Part) (w o : Nat) : Nat :=
  if w = 0x00 then p.sysReg o
  else if w = 0x01 then p.dealReg o
  else if w = 0x02 then hpReg p.hpa p.ha0 p.ha1 o
  else if w = 0x03 then hpReg p.hpb p.hb0 p.hb1 o
  else if w = 0x04 then (if o = 0 then p.part.link.toNat else 0)
  else if w = 0x05 then p.xctReg o
  else if w = 0x06 then p.dispReg o
  else if w = 0x07 then p.vaultReg o
  else if w = 0x08 then p.ctrReg o
  else if w = 0x09 then p.evrReg o
  else if w = 0x0A then p.ntcReg o
  else if w = 0x0B then p.guardReg o
  else if w = 0x0C then p.latReg 0 o
  else if w = 0x0D then cerReg p.cera o
  else if w = 0x0E then cerReg p.cerb o
  else if w = 0x0F then p.partReg o
  else if w = 0x10 then p.shufReg o
  else if w = 0x11 then p.clkReg o
  else if w = 0x12 then p.jkrReg o
  else if w = 0x13 then p.trngReg 0 o
  else 0

/-- A register of Seat n that is no count pair. -/
def seatSpaceReg (p : Part) (n w o : Nat) : Nat :=
  if w = 0x00 then p.seatReg n o
  else if w = 0x01 then p.laneReg n 0 o
  else if w = 0x02 then p.laneReg n 1 o
  else if w = 0x03 then p.tuReg n (o / 0x1000) (o % 0x1000)
  else if w = 0x04 then p.pkeReg n (o / 0x2000) (o % 0x2000)
  else if w = 0x05 then p.dgstReg n 0 o
  else if w = 0x06 then p.dgstReg n 1 o
  else if w = 0x07 then p.kcacheReg n o
  else if w = 0x08 then (if o / 0x1000 < 4 then p.coreReg n (o / 0x1000) (o % 0x1000) else 0)
  else if w = 0x09 then p.sgrdReg n o
  else if w = 0x0A then p.latReg n o
  else if w = 0x0B then p.trngReg n o
  else if w = 0x0C then p.fabReg n o
  else if w = 0x0D then p.seatNtcReg n o
  else 0

end Part

/-- Length of the blocks a window is divided into: TU, PKE and CORE (R25). -/
def blockOf (die w : Nat) : Nat := if die = 0 then 0x10000 else if w = 0x03 ∨ w = 0x08 then 0x1000 else if w = 0x04 then 0x2000 else 0x10000

/-- The offset past the last count pair of a window; 0x100 where it has none. -/
def countsEnd (die w : Nat) : Nat :=
  if die = 0 then
    [0x100, 0x100, 0x138, 0x138, 0x128, 0x150, 0x130, 0x140, 0x120, 0x130, 0x110, 0x128, 0x130, 0x128, 0x128, 0x138, 0x128, 0x120, 0x118, 0x128].getD w 0x100
  else [0x100, 0x140, 0x140, 0x120, 0x138, 0x138, 0x138, 0x120, 0x120, 0x120, 0x130, 0x128, 0x100, 0x110].getD w 0x100

/-- True when `addr` is the LO register of a count pair. -/
def isCountLo (addr : Nat) : Bool :=
  let die := addr / 2 ^ 24
  let w := addr / 65536 % 256
  let o := addr % 65536
  let b := o % blockOf die w
  decide (0x100 ≤ b) && decide (b < countsEnd die w) && b % 8 == 0 && (die == 0 || w != 0x08 || decide (o < 0x4000))

namespace Part

/-- The 64-bit value of the pair whose LO register is at `addr`: counts (LANEx_STARVE with the stall that runs), and the sequences and the version
the vault holds. -/
def pairValue (p : Part) (addr : Nat) : BitVec 64 :=
  if addr = winVAULT + 0x100 then BitVec.ofNat 64 p.vault.deckVer
  else if addr = winVAULT + 0x108 then BitVec.ofNat 64 p.vault.journal.next
  else if addr = winVAULT + 0x110 then BitVec.ofNat 64 p.vault.journal.acked
  else if addr = winEVR + 0x14 then BitVec.ofNat 64 p.optime
  else if addr = winEVR + 0x20 then BitVec.ofNat 64 p.evr.seq
  else if 2 ^ 24 ≤ addr ∧ addr % 2 ^ 24 = regAddr 0 swinLANEA 0x0130 then p.count addr + BitVec.ofNat 64 (p.stalled (addr / 2 ^ 24) 0)
  else if 2 ^ 24 ≤ addr ∧ addr % 2 ^ 24 = regAddr 0 swinLANEB 0x0130 then p.count addr + BitVec.ofNat 64 (p.stalled (addr / 2 ^ 24) 1)
  else p.count addr

/-- A LO register whose read latches its HI: the count pairs, and EVR_OPTIME and EVR_SEQ, whose HI stands before it (14). -/
def latchesAt (addr : Nat) : Bool := isCountLo addr || addr == winEVR + 0x14 || addr == winEVR + 0x20

/-- The LO register whose latch a HI register reads, if it is one. -/
def hiOf (addr : Nat) : Option Nat :=
  if addr = winEVR + 0x10 ∨ addr = winEVR + 0x1C then some (addr + 4)
  else if 4 ≤ addr ∧ isCountLo (addr - 4) = true then some (addr - 4)
  else none

/-- Reads one register of a present die: the value, with the latch a LO register leaves (R29). -/
def readReg (p : Part) (addr : Nat) : Part × Word :=
  if latchesAt addr then
    let v := p.pairValue addr
    ({ p with latches := Sparse.set 0 p.latches addr (v.extractLsb' 32 32) }, v.truncate 32)
  else match hiOf addr with
    | some lo => (p, Sparse.get 0 p.latches lo)
    | none =>
      let w := addr / 65536 % 256
      let o := addr % 65536
      (p, BitVec.ofNat 32 (if addr < 2 ^ 24 then p.dealerReg w o else p.seatSpaceReg (addr / 2 ^ 24) w o))

/-- Reads n registers in address order. -/
def readRegs (p : Part) (addr : Nat) : Nat → Part × Bytes
  | 0 => (p, [])
  | n + 1 =>
    let (p, v) := p.readReg addr
    let (p, rest) := p.readRegs (addr + 4) n
    (p, toBE 4 v.toNat ++ rest)

end Part

/-- REG_READ (R28, R29). -/
def execRegRead (o : Origin) (b : Bytes) (s : State) : Result :=
  powered s (fun p => p.serve o 0x1601 b (fun p c => p.houseOnly c (fun p =>
    let addr := field c.params 0 4
    let count := field c.params 4 4
    if c.params.length ≠ 8 ∨ addr % 4 ≠ 0 ∨ count = 0 ∨ 64 < count then p.lengthFault c.uid
    else if p.hasDie (addr / 2 ^ 24) = false ∨ 2 ^ 24 < addr % 2 ^ 24 + 4 * count then p.answer c.uid Status.accessFault
    else
      let (p, data) := p.readRegs addr count
      p.answer c.uid Status.done data)))

end Sys2Proof.Machine
end

