-- ==== Sys2Proof/Machine/RegWrites.lean ====
section
/-! DEFINITION. REG_WRITE (01 R5, R28, R29): the writable fields of every register, under the command's field mask. -/

namespace Sys2Proof.Machine

/-- A register's bits after a masked write: the set bits of the mask take the value's. -/
def merged (old : Nat) (v m : Word) : Word := (BitVec.ofNat 32 old &&& ~~~m) ||| (v &&& m)

/-- A word that a register of a range of word registers holds, after a masked write. -/
def putWord (x : BitVec 128) (index : Nat) (v m : Word) : BitVec 128 :=
  let sh := 32 * (3 - index)
  let old := x.toNat / 2 ^ sh % 2 ^ 32
  BitVec.ofNat 128 (x.toNat - old * 2 ^ sh + (merged old v m).toNat * 2 ^ sh)

namespace Part

/-! ### Writes by window (R5); every field and offset not named is read-only or reserved -/

/-- HPx registers: MODE retrains the port; the others act at once. -/
def writeHp (p : Part) (portB : Bool) (o : Nat) (v m : Word) : Part :=
  let h := if portB then Half.b0 else .a0
  let g := if portB then Half.b1 else .a1
  let x := p.portOf h
  let vlan := merged ((p.half g).vlan.toNat * 65536 + (p.half h).vlan.toNat) v m &&& 0x8FFF8FFF
  if o = 0x00 then (if m &&& 0x31 = 0 then p else p.writeMode portB (merged (modeWord x) v m))
  else if o = 0x08 then
    (p.updHalf h (fun y => { y with vlan := vlan.truncate 16 })).updHalf g (fun y => { y with vlan := vlan.extractLsb' 16 16 })
  else if o = 0x0C then p.setPortOf h { x with udp := (merged x.udp.toNat v m).truncate 16 }
  else if o = 0x10 then p.updHalf h (fun y => { y with ip4 := merged y.ip4.toNat v m })
  else if o = 0x14 then p.updHalf g (fun y => { y with ip4 := merged y.ip4.toNat v m })
  else if 0x20 ≤ o ∧ o ≤ 0x2C then p.updHalf h (fun y => { y with ip6 := putWord y.ip6 ((o - 0x20) / 4) v m })
  else if 0x30 ≤ o ∧ o ≤ 0x3C then p.updHalf g (fun y => { y with ip6 := putWord y.ip6 ((o - 0x30) / 4) v m })
  else p

/-- DISP registers; a cap of 0 or of 9 to 15 is ignored. -/
def writeDisp (p : Part) (o : Nat) (v m : Word) : Part :=
  let d := p.disp
  let w := merged (p.dispReg o) v m
  if o = 0x04 then p.setDisp { d with affEn := w.getLsbD 16, slack := w.truncate 16 }
  else if o = 0x08 then (if w.toNat % 16 = 0 ∨ 8 < w.toNat % 16 then p else p.setDisp { d with longCap := w.truncate 4 })
  else if o = 0x10 then p.setDisp { d with hqSel := w.truncate 8 }
  else if o = 0x20 then p.setDisp { d with svcSel := BitVec.ofNat 6 (w.toNat % 8 + w.toNat / 16 % 4 * 16) }
  else if o = 0x30 then p.setDisp { d with split := d.split && !((v &&& m).getLsbD 8) }
  else p

/-- CERx_CFG: a clock limit of 0 or of 21 to 31, and no permitted class, are ignored, each field by itself. -/
def writeCer (p : Part) (port o : Nat) (v m : Word) : Part :=
  let c := p.cerPort port
  let w := merged (cerReg c 0x04) v m
  let f := w.toNat / 256 % 32
  if o = 0x04 then p.setCer port { c with
      pps := w.getLsbD 16
      fmax := if f = 0 ∨ 20 < f then c.fmax else BitVec.ofNat 5 f
      classes := if w.toNat % 8 = 0 then c.classes else w.truncate 3 }
  else p

/-- SHUF registers: a write of SHUF_CTL arms or disarms (17 R436), the others set what the next arming uses. -/
def writeShuf (p : Part) (o : Nat) (v m : Word) : Part :=
  let s := p.shuffle
  let w := merged (p.shufReg o) v m
  if o = 0x00 then (if m &&& 0x8700FFFF = 0 then p else p.writeShufCtl w)
  else if o = 0x04 then p.setShuffle { s with sess := w }
  else if o = 0x08 then p.setShuffle { s with drop := w &&& 0x8000FFFF }
  else if o = 0x0C then p.setShuffle { s with corrupt := w &&& 0x87FF3FFF }
  else if o = 0x10 then p.setShuffle { s with rdup := w &&& 0xFFFF007F }
  else if o = 0x14 then p.setShuffle { s with seed := w }
  else if o = 0x18 then p.setShuffle { s with refused := s.refused && !((v &&& m).getLsbD 31) }
  else p

/-- EVR_FREEZE: 1 freezes or restarts the 10 s, 0 thaws (14 R377). -/
def writeEvr (p : Part) (o : Nat) (v m : Word) : Part :=
  if o = 0x04 ∧ m.getLsbD 0 = true then (if v.getLsbD 0 then p.freeze 0 else p.thaw 2) else p

/-- The selectors of LAT. -/
def writeLat (p : Part) (die o : Nat) (v m : Word) : Part :=
  if o = 0x10 then p.updLat die (fun l => { l with anteSel := (merged l.anteSel.toNat v m).truncate 6 })
  else if o = 0x20 then p.updLat die (fun l => { l with sensSel := (merged l.sensSel.toNat v m &&& 0xF7F).truncate 12 })
  else p

/-- A Dealer register. -/
def writeDealer (p : Part) (w o : Nat) (v m : Word) : Part :=
  if w = 0x02 then p.writeHp false o v m
  else if w = 0x03 then p.writeHp true o v m
  else if w = 0x06 then p.writeDisp o v m
  else if w = 0x09 then p.writeEvr o v m
  else if w = 0x0A ∧ o = 0 then p.setEvr { p.evr with srcSel := (merged p.evr.srcSel.toNat v m).truncate 10 }
  else if w = 0x0C then p.writeLat 0 o v m
  else if w = 0x0D then p.writeCer 0 o v m
  else if w = 0x0E then p.writeCer 1 o v m
  else if w = 0x10 then p.writeShuf o v m
  else if w = 0x11 ∧ o = 0 then { p with power := { p.power with autowake := (merged p.foldWord v m).getLsbD 16 } }
  else p

/-- A register of Seat n: selectors and the STARVED bits. -/
def writeSeatReg (p : Part) (n w o : Nat) (v m : Word) : Part :=
  let set := v &&& m
  if (w = 0x01 ∨ w = 0x02) ∧ o = 0x04 then p.updLane n (w - 1) (fun l => { l with starved := l.starved && !set.getLsbD 1 })
  else if w = 0x04 ∧ o % 0x2000 = 0x04 then p.updPke n (o / 0x2000) (fun x => { x with starved := x.starved && !set.getLsbD 1 })
  else if (w = 0x05 ∨ w = 0x06) ∧ o = 0 then p.updDgst n (w - 5) (fun d => { d with starved := d.starved && !set.getLsbD 12 })
  else if w = 0x09 ∧ o = 0 then
    let sel := (merged (Sparse.get 0 p.seats.sgrdSel n) v m).toNat % 8
    { p with seats := { p.seats with sgrdSel := Sparse.set 0 p.seats.sgrdSel n sel } }
  else if w = 0x0A then p.writeLat n o v m
  else p

end Part

/-- Registers only applet cores reach: the register feed, CORE_DOORBELL, NTC_RAISE and TRNG_OUT (R29). -/
def appletOnly (addr : Nat) : Bool :=
  let die := addr / 2 ^ 24
  let w := addr / 65536 % 256
  let o := addr % 65536
  if die = 0 then decide (w = 0x13 ∧ o = 0x10)
  else
    decide (w = 0x06) && (decide (4 ≤ o ∧ o ≤ 0x24) || decide (0x80 ≤ o ∧ o ≤ 0xBC)) ||
    decide (w = 0x08 ∧ o < 0x4000 ∧ o % 0x1000 = 0x0C) || decide (w = 0x0D ∧ o = 0) || decide (w = 0x0B ∧ o = 0x10)

/-- A masked write of one register of a present die. -/
def Part.writeReg (p : Part) (addr : Nat) (v m : Word) : Part :=
  let w := addr / 65536 % 256
  let o := addr % 65536
  if addr < 2 ^ 24 then p.writeDealer w o v m else p.writeSeatReg (addr / 2 ^ 24) w o v m

/-- REG_WRITE (R28, R29). -/
def execRegWrite (o : Origin) (b : Bytes) (s : State) : Result :=
  powered s (fun p => p.serve o 0x1602 b (fun p c => p.houseOnly c (fun p =>
    let addr := field c.params 0 4
    if c.params.length ≠ 12 ∨ addr % 4 ≠ 0 then p.lengthFault c.uid
    else if p.hasDie (addr / 2 ^ 24) = false ∨ appletOnly addr = true then p.answer c.uid Status.accessFault
    else (p.writeReg addr (BitVec.ofNat 32 (field c.params 4 4)) (BitVec.ofNat 32 (field c.params 8 4))).answer c.uid Status.done)))

end Sys2Proof.Machine
end

