-- ==== Sys2Proof/Machine/Debug.lean ====
section
/-! DEFINITION. JOKER_ACCESS: what a debug master reaches under the open scope, and what is denied (10 R293, R295). -/

namespace Sys2Proof.Machine

namespace Part

/-- The registers the open scope reads: the Dealer's, or those of the masked Seats less the digest outputs; the JKR window under every scope (R297). -/
def debugReads (p : Part) (addr : Nat) : Bool :=
  let die := addr / 2 ^ 24
  let w := addr / 65536 % 256
  let o := addr % 65536
  addr % 4 == 0 &&
    ((die == 0 && w == 0x12) || (p.joker.scope == 2 && die == 0) ||
     (p.joker.scope == 3 && p.hasSeat die && p.joker.seats.getLsbD die && !((w == 0x05 || w == 0x06) && decide (0x40 ≤ o ∧ o < 0xC0))))

/-- The cores the open scope halts and steps: every core of a Seat session's Seats, core 3 of a hand session's. -/
def debugCore (p : Part) (seat core : Nat) : Bool := p.hasSeat seat && core < 4 && p.debugHolds seat core

/-- The access lies within the open scope and outside every protected region (R293, R295). -/
def debugAllowed (p : Part) (t : DebugTarget) (write : Bool) : Bool :=
  match t with
  | .reg a => !write && p.debugReads a.toNat
  | .sram n k a => p.joker.scope == 3 && p.debugCore n k && 0x10000 ≤ a.toNat && a.toNat + 4 ≤ 0x200000
  | .halt n k => p.debugCore n k
  | .resume n k => p.debugCore n k
  | .step n k => p.debugCore n k
  | .coreReg n k i => p.joker.scope == 3 && p.debugCore n k && i < 66
  | .protectedRegion _ => false

/-- A core's register as a debug master reads it: x0 is zero; a halted core's register holds what was written to it or read of it before, and a
free value until then. Index 0 to 31 are the integer registers, 32 the instruction address. -/
def readCoreReg (p : Part) (seat core index : Nat) : Part × BitVec 64 :=
  let c := p.core seat core
  match (if index = 0 then some 0 else Sparse.get? c.regs index) with
  | some v => (p, v)
  | none =>
    let v := BitVec.ofNat 64 (be (p.drawn 8))
    let p := p.draw 8
    (if c.run = .halted then p.setCore seat core { c with regs := Sparse.put c.regs index v } else p, v)

/-- A 32-bit half of a core's register: the low halves are 0 to 32, the high halves 33 to 65. -/
def debugRegister (p : Part) (seat core i : Nat) (write : Bool) (data : Word) : Part × Word :=
  let index := i % 33
  let sh := if i < 33 then 0 else 32
  let (p, v) := p.readCoreReg seat core index
  let c := p.core seat core
  let old := v.toNat / 2 ^ sh % 2 ^ 32
  let new := BitVec.ofNat 64 (v.toNat - old * 2 ^ sh + data.toNat * 2 ^ sh)
  if write then (if c.run = .halted ∧ index ≠ 0 then p.setCore seat core { c with regs := Sparse.put c.regs index new } else p, data)
  else (p, BitVec.ofNat 32 old)

/-- An access in scope, with the data it returns. A stepped core executes one instruction: what it leaves in the registers is free; what it does
outside the core comes as commands. A word of SRAM is little-endian, as the core reads it (10, example of R288: DEDUCED, log 39). -/
def debugDo (p : Part) (t : DebugTarget) (write : Bool) (data : Word) : Part × Word :=
  match t with
  | .reg a => p.readReg a.toNat
  | .sram n k a =>
    if write then ((p.writeSram n k a.toNat (toBE 4 data.toNat).reverse).touch n k a.toNat 4, data)
    else (p, BitVec.ofNat 32 (be (p.readSram n k a.toNat 4).reverse))
  | .halt n k => (if (p.core n k).run = .running ∨ (p.core n k).run = .idle then p.updCore n k (fun c => { c with run := .halted, regs := [] }) else p, 0)
  | .resume n k => (p.unhalt n k, 0)
  | .step n k =>
    (if (p.core n k).run = .halted ∧ (p.core n k).uid.isSome = true then p.updCore n k (fun c => { c with regs := [] }) else p, 0)
  | .coreReg n k i => p.debugRegister n k i write data
  | .protectedRegion _ => (p, 0)

/-- The address an access shifts in. -/
def debugAddr : DebugTarget → Nat
  | .reg a => a.toNat
  | .sram _ _ a => a.toNat
  | .halt _ k => k
  | .resume _ k => k
  | .step _ k => k
  | .coreReg _ _ i => i
  | .protectedRegion i => i

/-- The address, the data and JKR_STATUS, as the 96 bits that are shifted out (R289). -/
def shiftAccess (p : Part) (addr : Nat) (data : Word) : Part :=
  p.setIr 0x11 (addr % 2 ^ 32 * 2 ^ 64 + data.toNat * 2 ^ 32 + p.joker.code.toNat * 65536 + p.joker.reason.toNat)

/-- An access of a debug master in an open session: performed, or denied with zero data, its count and its record (R295). -/
def debugAccess (p : Part) (t : DebugTarget) (write : Bool) (data : Word) : Part :=
  if p.debugAllowed t write then
    let (p, v) := p.debugDo t write data
    (p.setJoker { p.joker with code := Status.done, reason := 0 }).shiftAccess (debugAddr t) v
  else
    let p := (p.setJoker { p.joker with code := Status.debugDenied, reason := 0 }).bump (regAddr 0 winJKR 0x0110)
    (p.record 0x0E10 3 0 (BitVec.ofNat 32 (p.joker.scope.toNat * 2 ^ 24)) (BitVec.ofNat 32 (debugAddr t)) 0).shiftAccess (debugAddr t) 0

end Part

/-- JOKER_ACCESS (R289, R295): without an open session the code selects BYPASS. -/
def execJokerAccess (t : DebugTarget) (write : Bool) (data : Word) (s : State) : Result :=
  powered s (fun p => if p.joker.scope = 0 ∨ p.joker.scope = 5 then p.bypass else p.debugAccess t write data)

end Sys2Proof.Machine
end

