-- ==== Sys2Proof/Machine/Dispatch.lean ====
section
/-! DEFINITION. Dispatch: one arm for every command, a direct call of its meaning. -/

namespace Sys2Proof.Machine

def exec (i : Instr) (s : State) : Host.Outcome State Fault Refusal :=
  match i with
  | .sessionHello a b => Sys2Proof.Machine.execSessionHello a b s
  | .sessionProve a b c => Sys2Proof.Machine.execSessionProve a b c s
  | .sessionClose a b => Sys2Proof.Machine.execSessionClose a b s
  | .sessionStatus a b => Sys2Proof.Machine.execSessionStatus a b s
  | .streamAck a b => Sys2Proof.Machine.execStreamAck a b s
  | .streamData a b => Sys2Proof.Machine.execStreamData a b s
  | .dealStage a b => Sys2Proof.Machine.execDealStage a b s
  | .dealCut a b => Sys2Proof.Machine.execDealCut a b s
  | .dealDiscard a b => Sys2Proof.Machine.execDealDiscard a b s
  | .dealQuery a b => Sys2Proof.Machine.execDealQuery a b s
  | .guardReadmit a b => Sys2Proof.Machine.execGuardReadmit a b s
  | .foldEnter a b => Sys2Proof.Machine.execFoldEnter a b s
  | .foldExit a b => Sys2Proof.Machine.execFoldExit a b s
  | .portCtl a b => Sys2Proof.Machine.execPortCtl a b s
  | .sysStatus a b => Sys2Proof.Machine.execSysStatus a b s
  | .fwLoad a b => Sys2Proof.Machine.execFwLoad a b s
  | .retire a b => Sys2Proof.Machine.execRetire a b s
  | .regRead a b => Sys2Proof.Machine.execRegRead a b s
  | .regWrite a b => Sys2Proof.Machine.execRegWrite a b s
  | .keyImport a b => Sys2Proof.Machine.execKeyImport a b s
  | .keyExport a b => Sys2Proof.Machine.execKeyExport a b s
  | .keyGenerate a b => Sys2Proof.Machine.execKeyGenerate a b s
  | .keyComponent a b => Sys2Proof.Machine.execKeyComponent a b s
  | .keyErase a b => Sys2Proof.Machine.execKeyErase a b s
  | .keyAttrRead a b => Sys2Proof.Machine.execKeyAttrRead a b s
  | .keyGenRead a b => Sys2Proof.Machine.execKeyGenRead a b s
  | .ctrInit a b => Sys2Proof.Machine.execCtrInit a b s
  | .ctrNext a b => Sys2Proof.Machine.execCtrNext a b s
  | .ctrRead a b => Sys2Proof.Machine.execCtrRead a b s
  | .deckSnapshot a b => Sys2Proof.Machine.execDeckSnapshot a b s
  | .deckCommit a b => Sys2Proof.Machine.execDeckCommit a b s
  | .deckLoad a b => Sys2Proof.Machine.execDeckLoad a b s
  | .journalAttach a b => Sys2Proof.Machine.execJournalAttach a b s
  | .journalAck a b => Sys2Proof.Machine.execJournalAck a b s
  | .journalReplay a b => Sys2Proof.Machine.execJournalReplay a b s
  | .vaultOpen a b => Sys2Proof.Machine.execVaultOpen a b s
  | .pinTranslate a b => Sys2Proof.Machine.execPinTranslate a b s
  | .pinVerify a b => Sys2Proof.Machine.execPinVerify a b s
  | .dukptPinTranslate a b => Sys2Proof.Machine.execDukptPinTranslate a b s
  | .dukptMac a b => Sys2Proof.Machine.execDukptMac a b s
  | .emvArqc a b => Sys2Proof.Machine.execEmvArqc a b s
  | .emvScript a b => Sys2Proof.Machine.execEmvScript a b s
  | .macGenerate a b => Sys2Proof.Machine.execMacGenerate a b s
  | .macVerify a b => Sys2Proof.Machine.execMacVerify a b s
  | .ff1Encrypt a b => Sys2Proof.Machine.execFf1Encrypt a b s
  | .ff1Decrypt a b => Sys2Proof.Machine.execFf1Decrypt a b s
  | .tdeaCbcEncrypt a b => Sys2Proof.Machine.execTdeaCbcEncrypt a b s
  | .tdeaCbcDecrypt a b => Sys2Proof.Machine.execTdeaCbcDecrypt a b s
  | .laneEcb a b c => Sys2Proof.Machine.execLaneEcb a b c s
  | .laneCbc a b c => Sys2Proof.Machine.execLaneCbc a b c s
  | .laneCtr a b c => Sys2Proof.Machine.execLaneCtr a b c s
  | .laneGcm a b c => Sys2Proof.Machine.execLaneGcm a b c s
  | .laneXts a b c => Sys2Proof.Machine.execLaneXts a b c s
  | .laneCmac a b c => Sys2Proof.Machine.execLaneCmac a b c s
  | .laneCtxExport a b c => Sys2Proof.Machine.execLaneCtxExport a b c s
  | .laneCtxImport a b c => Sys2Proof.Machine.execLaneCtxImport a b c s
  | .laneCtxDiscard a b c => Sys2Proof.Machine.execLaneCtxDiscard a b c s
  | .pkeEcdsaSign a b => Sys2Proof.Machine.execPkeEcdsaSign a b s
  | .pkeEcdsaVerify a b => Sys2Proof.Machine.execPkeEcdsaVerify a b s
  | .pkeEd25519Sign a b => Sys2Proof.Machine.execPkeEd25519Sign a b s
  | .pkeEd25519Verify a b => Sys2Proof.Machine.execPkeEd25519Verify a b s
  | .pkeAgree a b => Sys2Proof.Machine.execPkeAgree a b s
  | .pkeRsaSign a b => Sys2Proof.Machine.execPkeRsaSign a b s
  | .pkeRsaPublic a b => Sys2Proof.Machine.execPkeRsaPublic a b s
  | .pkeRsaUnwrap a b => Sys2Proof.Machine.execPkeRsaUnwrap a b s
  | .pkeMldsaVerify a b => Sys2Proof.Machine.execPkeMldsaVerify a b s
  | .dgstHash a b => Sys2Proof.Machine.execDgstHash a b s
  | .dgstCtxExport a b => Sys2Proof.Machine.execDgstCtxExport a b s
  | .dgstCtxImport a b => Sys2Proof.Machine.execDgstCtxImport a b s
  | .dgstCtxDiscard a b => Sys2Proof.Machine.execDgstCtxDiscard a b s
  | .appletInvoke a b => Sys2Proof.Machine.execAppletInvoke a b s
  | .appdataRead a b => Sys2Proof.Machine.execAppdataRead a b s
  | .appdataWrite a b => Sys2Proof.Machine.execAppdataWrite a b s
  | .pairBegin a b => Sys2Proof.Machine.execPairBegin a b s
  | .partStatus a b => Sys2Proof.Machine.execPartStatus a b s
  | .promoteChallenge a b => Sys2Proof.Machine.execPromoteChallenge a b s
  | .promote a b => Sys2Proof.Machine.execPromote a b s
  | .noticeResend a b => Sys2Proof.Machine.execNoticeResend a b s
  | .eventRead a b => Sys2Proof.Machine.execEventRead a b s
  | .eventFreeze a b => Sys2Proof.Machine.execEventFreeze a b s
  | .eventThaw a b => Sys2Proof.Machine.execEventThaw a b s
  | .timeAnnotate a b => Sys2Proof.Machine.execTimeAnnotate a b s
  | .cerBegin a b => Sys2Proof.Machine.execCerBegin a b s
  | .cerStep a b => Sys2Proof.Machine.execCerStep a b s
  | .cerEnd a b => Sys2Proof.Machine.execCerEnd a b s
  | .cerCert a b => Sys2Proof.Machine.execCerCert a b s
  | .hostFrameReceive a b => Sys2Proof.Machine.execHostFrameReceive a b s
  | .mkaFrameReceive a b c => Sys2Proof.Machine.execMkaFrameReceive a b c s
  | .sakRenew a b => Sys2Proof.Machine.execSakRenew a b s
  | .ipServiceFrame a b c => Sys2Proof.Machine.execIpServiceFrame a b c s
  | .responseSend a b => Sys2Proof.Machine.execResponseSend a b s
  | .noticeFrameSend a => Sys2Proof.Machine.execNoticeFrameSend a s
  | .streamAckDelay a b => Sys2Proof.Machine.execStreamAckDelay a b s
  | .streamOutputResend a b => Sys2Proof.Machine.execStreamOutputResend a b s
  | .streamInputIdle a b => Sys2Proof.Machine.execStreamInputIdle a b s
  | .sessionOfferTimeout a => Sys2Proof.Machine.execSessionOfferTimeout a s
  | .sessionIdleTimeout a => Sys2Proof.Machine.execSessionIdleTimeout a s
  | .sessionClosingTimeout a => Sys2Proof.Machine.execSessionClosingTimeout a s
  | .dispatchPass => Sys2Proof.Machine.execDispatchPass s
  | .anteTake a => Sys2Proof.Machine.execAnteTake a s
  | .anteWindowEnd a b c => Sys2Proof.Machine.execAnteWindowEnd a b c s
  | .tileWakeComplete a b c => Sys2Proof.Machine.execTileWakeComplete a b c s
  | .tileIdleEnter a b c => Sys2Proof.Machine.execTileIdleEnter a b c s
  | .tileGateEnter a b c => Sys2Proof.Machine.execTileGateEnter a b c s
  | .tilePowerDownComplete a b c => Sys2Proof.Machine.execTilePowerDownComplete a b c s
  | .linkFlitReceive a b c d e f => Sys2Proof.Machine.execLinkFlitReceive a b c d e f s
  | .linkRetrain a => Sys2Proof.Machine.execLinkRetrain a s
  | .linkRetrainComplete a b => Sys2Proof.Machine.execLinkRetrainComplete a b s
  | .seatDescriptorArrive a b => Sys2Proof.Machine.execSeatDescriptorArrive a b s
  | .keyFetchComplete a b c => Sys2Proof.Machine.execKeyFetchComplete a b c s
  | .trickStart a b c => Sys2Proof.Machine.execTrickStart a b c s
  | .trickComplete a b c d => Sys2Proof.Machine.execTrickComplete a b c d s
  | .laneCommandResident a b c => Sys2Proof.Machine.execLaneCommandResident a b c s
  | .laneCommandComplete a b c d => Sys2Proof.Machine.execLaneCommandComplete a b c d s
  | .laneCompareFail a b => Sys2Proof.Machine.execLaneCompareFail a b s
  | .laneReseedRequest a b => Sys2Proof.Machine.execLaneReseedRequest a b s
  | .laneMaskReseed a b => Sys2Proof.Machine.execLaneMaskReseed a b s
  | .pkeJobStart a b c => Sys2Proof.Machine.execPkeJobStart a b c s
  | .pkeJobComplete a b c d => Sys2Proof.Machine.execPkeJobComplete a b c d s
  | .pkeYieldPoint a b => Sys2Proof.Machine.execPkeYieldPoint a b s
  | .pkeLongResume a b => Sys2Proof.Machine.execPkeLongResume a b s
  | .keygenStepComplete a b => Sys2Proof.Machine.execKeygenStepComplete a b s
  | .digestJobStart a b c => Sys2Proof.Machine.execDigestJobStart a b c s
  | .digestJobComplete a b c => Sys2Proof.Machine.execDigestJobComplete a b c s
  | .digestParityFault a b => Sys2Proof.Machine.execDigestParityFault a b s
  | .engineScrubComplete a b c => Sys2Proof.Machine.execEngineScrubComplete a b c s
  | .keyInvalidate a b => Sys2Proof.Machine.execKeyInvalidate a b s
  | .keyEraseOrder a b => Sys2Proof.Machine.execKeyEraseOrder a b s
  | .eraseConfirm a b => Sys2Proof.Machine.execEraseConfirm a b s
  | .mutationCommit a => Sys2Proof.Machine.execMutationCommit a s
  | .ackRootWrite => Sys2Proof.Machine.execAckRootWrite s
  | .journalDeferredRecord a => Sys2Proof.Machine.execJournalDeferredRecord a s
  | .leaseGrant a => Sys2Proof.Machine.execLeaseGrant a s
  | .vaultReencryptComplete a => Sys2Proof.Machine.execVaultReencryptComplete a s
  | .vaultPatrol a => Sys2Proof.Machine.execVaultPatrol a s
  | .deckSnapshotComplete => Sys2Proof.Machine.execDeckSnapshotComplete s
  | .cutInstant => Sys2Proof.Machine.execCutInstant s
  | .seatEpochFlip a => Sys2Proof.Machine.execSeatEpochFlip a s
  | .cutDrainDeadline => Sys2Proof.Machine.execCutDrainDeadline s
  | .handTeardown a => Sys2Proof.Machine.execHandTeardown a s
  | .teardownComplete a => Sys2Proof.Machine.execTeardownComplete a s
  | .dealMirrorCopyComplete => Sys2Proof.Machine.execDealMirrorCopyComplete s
  | .cutComplete => Sys2Proof.Machine.execCutComplete s
  | .privateSeatRelease a => Sys2Proof.Machine.execPrivateSeatRelease a s
  | .witnessReport a b c d => Sys2Proof.Machine.execWitnessReport a b c d s
  | .holdEnd a => Sys2Proof.Machine.execHoldEnd a s
  | .seatReadmit a => Sys2Proof.Machine.execSeatReadmit a s
  | .seatSelfTestComplete a b => Sys2Proof.Machine.execSeatSelfTestComplete a b s
  | .thermalReport a b => Sys2Proof.Machine.execThermalReport a b s
  | .temperatureSample a b => Sys2Proof.Machine.execTemperatureSample a b s
  | .tempRateCompute a => Sys2Proof.Machine.execTempRateCompute a s
  | .slowVoltageMean a b c => Sys2Proof.Machine.execSlowVoltageMean a b c s
  | .refclkMonitorWindow a b => Sys2Proof.Machine.execRefclkMonitorWindow a b s
  | .shieldResistanceCheck a b => Sys2Proof.Machine.execShieldResistanceCheck a b s
  | .calibrationSlice a b c d e => Sys2Proof.Machine.execCalibrationSlice a b c d e s
  | .drbgReseed a => Sys2Proof.Machine.execDrbgReseed a s
  | .drbgStopped a => Sys2Proof.Machine.execDrbgStopped a s
  | .trngSourceFail a b c => Sys2Proof.Machine.execTrngSourceFail a b c s
  | .trngSourceRestored a b => Sys2Proof.Machine.execTrngSourceRestored a b s
  | .trngOutRead a b => Sys2Proof.Machine.execTrngOutRead a b s
  | .trngOutTimeout a b => Sys2Proof.Machine.execTrngOutTimeout a b s
  | .appletInstanceStart a b => Sys2Proof.Machine.execAppletInstanceStart a b s
  | .appletEcall a b c d e => Sys2Proof.Machine.execAppletEcall a b c d e s
  | .appletException a b c d e => Sys2Proof.Machine.execAppletException a b c d e s
  | .appletBudgetExpired a b => Sys2Proof.Machine.execAppletBudgetExpired a b s
  | .coreDoorbell a b c => Sys2Proof.Machine.execCoreDoorbell a b c s
  | .slotGuardViolation a b c d e f g => Sys2Proof.Machine.execSlotGuardViolation a b c d e f g s
  | .slotGuardStoreDrain a b c d => Sys2Proof.Machine.execSlotGuardStoreDrain a b c d s
  | .ntcRaise a b c => Sys2Proof.Machine.execNtcRaise a b c s
  | .dgstbClaim a b => Sys2Proof.Machine.execDgstbClaim a b s
  | .dgstbRelease a b => Sys2Proof.Machine.execDgstbRelease a b s
  | .dgstbClaimGrant a => Sys2Proof.Machine.execDgstbClaimGrant a s
  | .dgstbClaimTimeout a => Sys2Proof.Machine.execDgstbClaimTimeout a s
  | .dgstbGo a b c d e => Sys2Proof.Machine.execDgstbGo a b c d e s
  | .dgstbData a b c => Sys2Proof.Machine.execDgstbData a b c s
  | .dgstbLast a b c => Sys2Proof.Machine.execDgstbLast a b c s
  | .dgstbBlockDone a => Sys2Proof.Machine.execDgstbBlockDone a s
  | .dgstbCmp a b c d => Sys2Proof.Machine.execDgstbCmp a b c d s
  | .jokerAuth a => Sys2Proof.Machine.execJokerAuth a s
  | .jokerAccess a b c => Sys2Proof.Machine.execJokerAccess a b c s
  | .jokerClose => Sys2Proof.Machine.execJokerClose s
  | .jokerExpiry => Sys2Proof.Machine.execJokerExpiry s
  | .trstNLow => Sys2Proof.Machine.execTrstNLow s
  | .extest => Sys2Proof.Machine.execExtest s
  | .bypass => Sys2Proof.Machine.execBypass s
  | .idcode => Sys2Proof.Machine.execIdcode s
  | .samplePreload => Sys2Proof.Machine.execSamplePreload s
  | .pairingFrame a b => Sys2Proof.Machine.execPairingFrame a b s
  | .heartbeatSend => Sys2Proof.Machine.execHeartbeatSend s
  | .heartbeat a b => Sys2Proof.Machine.execHeartbeat a b s
  | .heartbeatMissed => Sys2Proof.Machine.execHeartbeatMissed s
  | .mutation a b => Sys2Proof.Machine.execMutation a b s
  | .forward a b => Sys2Proof.Machine.execForward a b s
  | .leaseRequest a b => Sys2Proof.Machine.execLeaseRequest a b s
  | .repairRequest a b => Sys2Proof.Machine.execRepairRequest a b s
  | .repairData a b => Sys2Proof.Machine.execRepairData a b s
  | .resyncMap a b => Sys2Proof.Machine.execResyncMap a b s
  | .resyncObject a b => Sys2Proof.Machine.execResyncObject a b s
  | .resyncComplete => Sys2Proof.Machine.execResyncComplete s
  | .event a b => Sys2Proof.Machine.execEvent a b s
  | .mirrorFrameResend a => Sys2Proof.Machine.execMirrorFrameResend a s
  | .evrFreezeSet => Sys2Proof.Machine.execEvrFreezeSet s
  | .evrFreezeClear => Sys2Proof.Machine.execEvrFreezeClear s
  | .freezeTimeout => Sys2Proof.Machine.execFreezeTimeout s
  | .optimeSave => Sys2Proof.Machine.execOptimeSave s
  | .cardInserted a => Sys2Proof.Machine.execCardInserted a s
  | .cardRemoved a => Sys2Proof.Machine.execCardRemoved a s
  | .cardResponse a b c d => Sys2Proof.Machine.execCardResponse a b c d s
  | .cardWaitTimeExpired a => Sys2Proof.Machine.execCardWaitTimeExpired a s
  | .cardClockStop a => Sys2Proof.Machine.execCardClockStop a s
  | .cerStepCardTimeout a => Sys2Proof.Machine.execCerStepCardTimeout a s
  | .ceremonyIdleTimeout a => Sys2Proof.Machine.execCeremonyIdleTimeout a s
  | .authorisationLapse a => Sys2Proof.Machine.execAuthorisationLapse a s
  | .powerUp a => Sys2Proof.Machine.execPowerUp a s
  | .powerFail a => Sys2Proof.Machine.execPowerFail a s
  | .offWitness a b c => Sys2Proof.Machine.execOffWitness a b c s
  | .hostPortLinkUp a b => Sys2Proof.Machine.execHostPortLinkUp a b s
  | .portTrainingRetry a => Sys2Proof.Machine.execPortTrainingRetry a s
  | .hpxModeWrite a b => Sys2Proof.Machine.execHpxModeWrite a b s
  | .portDrainEnd a => Sys2Proof.Machine.execPortDrainEnd a s
  | .foldDrainLimit => Sys2Proof.Machine.execFoldDrainLimit s
  | .foldEntryComplete => Sys2Proof.Machine.execFoldEntryComplete s
  | .foldWakeComplete a => Sys2Proof.Machine.execFoldWakeComplete a s
  | .osc32Fail => Sys2Proof.Machine.execOsc32Fail s
  | .osc32Restart => Sys2Proof.Machine.execOsc32Restart s
  | .shuffleArm a => Sys2Proof.Machine.execShuffleArm a s
  | .shuffleDisarm => Sys2Proof.Machine.execShuffleDisarm s
  | .shuffleExpire => Sys2Proof.Machine.execShuffleExpire s
  | .hostPortLinkDown a => Sys2Proof.Machine.execHostPortLinkDown a s
  | .partnerLinkUp => Sys2Proof.Machine.execPartnerLinkUp s
  | .partnerLinkDown => Sys2Proof.Machine.execPartnerLinkDown s
  | .pfcFrameReceive a b => Sys2Proof.Machine.execPfcFrameReceive a b s
  | .partnerPortFrame a => Sys2Proof.Machine.execPartnerPortFrame a s
  | .vbatLoss => Sys2Proof.Machine.execVbatLoss s
  | .vbatReturn a => Sys2Proof.Machine.execVbatReturn a s
  | .batteryLow a => Sys2Proof.Machine.execBatteryLow a s
  | .pairingTimeout => Sys2Proof.Machine.execPairingTimeout s
  | .dealStagingComplete => Sys2Proof.Machine.execDealStagingComplete s

end Sys2Proof.Machine
end

