-- ==== Sys2Proof/Safety.lean ====
section
/-! DEFINITION. What counts as a safe step, and when a command is ready to act, in the terms claims use. -/

namespace Sys2Proof.Safety

open Sys2Proof.Machine

/-- P holds of every next state that a step from a state with P gives. -/
def Kept (P : State → Prop) : Prop := ∀ s t, P s → step s = .next t → P t

/-- The memories the part holds are in canonical form: addresses rise, and no listed byte is zero. -/
def MemoryWf (s : State) : Prop := Memory.wf s.vault.app = true ∧ Memory.wf s.seats.sram = true

/-- The state after an act: the part it leaves, with the queue as it was. -/
def after (s : State) (p : Part) : State := { s with toPart := p }

/-- The units whose state a frame speaks of. -/
inductive Unit_ where
  | fuses | power | deal | ports | xct | disp | vault | seats | lats | trngs | guard | part | evr | cers | joker | shuffle | counts
deriving DecidableEq, Repr

/-- A unit's state is the same before and after. -/
def Unit_.Same (s t : State) : Unit_ → Prop
  | .fuses => t.fuses = s.fuses
  | .power => t.power = s.power
  | .deal => t.deal = s.deal
  | .ports => t.hpa = s.hpa ∧ t.hpb = s.hpb ∧ t.ha0 = s.ha0 ∧ t.ha1 = s.ha1 ∧ t.hb0 = s.hb0 ∧ t.hb1 = s.hb1
  | .xct => t.xct = s.xct
  | .disp => t.disp = s.disp
  | .vault => t.vault = s.vault
  | .seats => t.seats = s.seats
  | .lats => t.lats = s.lats
  | .trngs => t.trngs = s.trngs
  | .guard => t.guard = s.guard
  | .part => t.part = s.part
  | .evr => t.evr = s.evr
  | .cers => t.cera = s.cera ∧ t.cerb = s.cerb
  | .joker => t.joker = s.joker
  | .shuffle => t.shuffle = s.shuffle
  | .counts => t.counts = s.counts

/-- The frame: none of these units has changed. -/
def Keeps (l : List Unit_) (s t : State) : Prop := ∀ u ∈ l, u.Same s t

/-- An accepted host command c, of code `code` and parameter block b, stands at the head of its session's Dealer order, and no Dealer Hold
stops the Dealer: the Dealer serves it now (04 R106, 12 R334). -/
structure Ready (s : State) (o : Origin) (code : Nat) (b : Bytes) (c : Cmd) : Prop where
  on : s.power.on = true
  found : s.toPart.findRow o code = some c
  block : c.params = b
  host : c.isCall = false
  head : s.toPart.isHead c = true
  free : s.guard.dealerHold = none

/-- Ready, and from a house-hand session. -/
structure HouseReady (s : State) (o : Origin) (code : Nat) (b : Bytes) (c : Cmd) : Prop extends Ready s o code b c where
  house : c.hand = 0

/-- The Dealer-class commands: code and row (03 R90, 04 R455). -/
def dealerRows : List (Nat × (Origin → Bytes → Instr)) :=
  [(0x1003, .sessionClose), (0x1004, .sessionStatus), (0x1101, .dealStage), (0x1102, .dealCut), (0x1103, .dealDiscard), (0x1104,
   .dealQuery), (0x1201, .guardReadmit), (0x1301, .foldEnter), (0x1302, .foldExit), (0x1303, .portCtl), (0x1304, .sysStatus), (0x1401,
   .fwLoad), (0x1501, .retire), (0x1601, .regRead), (0x1602, .regWrite), (0x2005, .keyErase), (0x2006, .keyAttrRead), (0x2007, .keyGenRead),
   (0x2101, .ctrInit), (0x2102, .ctrNext), (0x2103, .ctrRead), (0x2201, .deckSnapshot), (0x2202, .deckCommit), (0x2203, .deckLoad), (0x2204,
   .journalAttach), (0x2205, .journalAck), (0x2206, .journalReplay), (0x2207, .vaultOpen), (0x8001, .pairBegin), (0x8002, .partStatus),
   (0x8100, .promoteChallenge), (0x8101, .promote), (0x9201, .noticeResend), (0x9101, .eventRead), (0x9102, .eventFreeze), (0x9103,
   .eventThaw), (0x9104, .timeAnnotate), (0xA001, .cerBegin), (0xA002, .cerStep), (0xA003, .cerEnd), (0xA004, .cerCert), (0x7101,
   .appdataRead), (0x7102, .appdataWrite)]

/-- The part once the command a row names has arrived: a host's, alone in its frame, under its session's next sequence; an applet's, by its doorbell
(log 6). -/
def arrived (p : Part) (o : Origin) (code : Nat) (b : Bytes) : Part :=
  match o with
  | .host id req => match p.findSession id with
    | none => p
    | some x => (p.updSession id (fun z => { z with seqIn := z.seqIn + 1, seen := (z.seqIn + 1) :: z.seen, lastAt := p.now })).accept
        x x.hand false x.path code req b
  | .call seat core desc => p.placeCall seat core desc code b

/-- The command's block names an input stream that it opened, and the stream has delivered its whole operand, this image (03 R72). -/
structure Streamed (s : State) (c : Cmd) (image : Bytes) : Prop where
  block : c.params.length = 16
  reserved : allZero (slice c.params 4 4) = true
  stream : (s.toPart.streamOf c).map (·.data) = some image
  whole : field c.params 8 8 ≤ image.length

/-- The command of a uid waits at XCT with this status and payload, to be sent (03 R85). -/
def Answered (t : State) (uid : Nat) (status : BitVec 16) (payload : Bytes) : Prop :=
  ∃ c, t.toPart.findCmd uid = some c ∧ c.place = .xct ∧ c.status = status ∧ c.payload = payload

/-- The command of a uid has left its Seat with this status and payload, which cross the Seat's link (01 'The life of one command'). -/
def Rising (t : State) (uid seat : Nat) (status : BitVec 16) (payload : Bytes) : Prop :=
  ∃ c, t.toPart.findCmd uid = some c ∧ c.place = .up seat ∧ c.status = status ∧ c.payload = payload

/-- The command of a uid has stopped on an engine of its Seat, which scrubs; it will answer this status. -/
def Scrubbing (t : State) (uid seat : Nat) (site : Site) (index : Nat) (status : BitVec 16) : Prop :=
  ∃ c, t.toPart.findCmd uid = some c ∧ c.place = .scrubbing seat site index ∧ c.status = status ∧ c.payload = []

/-- A mirror frame with this header arrives on the secured link of the pairing, and passes its checks: version, reserved bytes, tag, pairing (13
R353); Shuffle does not stand in its way. -/
structure MirrorArrives (s : State) (h : MirrorHdr) : Prop where
  on : s.power.on = true
  link : s.part.link = 3
  enabled : s.part.enabled = true
  paired : s.toPart.paired = true
  clear : s.toPart.shufflesPartner 0 = false
  version : h.version = 1
  reserved : h.reserved = false
  tag : h.tagOk = true
  pairing : s.part.pairing.any (fun x => x.id == h.pairingId) = true

/-- The frame is the next of its order, nothing waits behind a gap, and the part is not folded: it is delivered at once (13 R354, R359). -/
structure NextFrame (s : State) (h : MirrorHdr) : Prop extends MirrorArrives s h where
  next : s.part.recvSeq + 1 = h.seq.toNat
  early : s.part.early = []
  awake : s.toPart.folding = false

/-- The part as a next frame finds it: its acknowledgement and Held taken, its sequence delivered (13 R354). -/
def framed (s : State) (h : MirrorHdr) : Part :=
  (s.toPart.takeHeader h).setPart { (s.toPart.takeHeader h).part with recvSeq := h.seq.toNat, early := [], fresh := false }

end Sys2Proof.Safety
end

