-- ==== Sys2Proof/WellFormed.lean ====
section
/-! DEFINITION. Which commands name units and indices that some variant of the part has. A command that is not well formed names
nothing of any part; one that is may still name a Seat its variant lacks (00 R1), which exec answers with the fault absentUnit. -/

namespace Sys2Proof

def seatOk (n : Nat) : Bool := 1 ≤ n && n ≤ 7

def dieOk (n : Nat) : Bool := n ≤ 7

/-- An applet call names a core of a Seat (10 R278). -/
def Origin.wf : Origin → Bool
  | .host _ _ => true
  | .call seat core _ => seatOk seat && core < 4

def engineCount : Engine → Nat
  | .tu => 16
  | .lane => 2
  | .pke => 8
  | .digest => 2

/-- Tiles of a tile group (01 'Tiles and on-demand clocks'). -/
def groupSize : Nat → Nat
  | 0 => 16
  | 1 => 2
  | 2 => 8
  | 3 => 2
  | _ => 0

/-- A debug master's target on a core names one (10 R293). -/
def DebugTarget.wf : DebugTarget → Bool
  | .reg _ => true
  | .sram seat core _ => seatOk seat && core < 4
  | .halt seat core => seatOk seat && core < 4
  | .resume seat core => seatOk seat && core < 4
  | .step seat core => seatOk seat && core < 4
  | .coreReg seat core index => seatOk seat && core < 4 && index < 66
  | .protectedRegion _ => true

/-- Every unit and index a command names lies within the ranges the manual gives. -/
def Instr.wf : Instr → Bool
  | .sessionHello _ _ => true
  | .sessionProve _ _ _ => true
  | .sessionClose o _ => o.wf
  | .sessionStatus o _ => o.wf
  | .streamAck _ _ => true
  | .streamData _ _ => true
  | .dealStage o _ => o.wf
  | .dealCut o _ => o.wf
  | .dealDiscard o _ => o.wf
  | .dealQuery o _ => o.wf
  | .guardReadmit o _ => o.wf
  | .foldEnter o _ => o.wf
  | .foldExit o _ => o.wf
  | .portCtl o _ => o.wf
  | .sysStatus o _ => o.wf
  | .fwLoad o _ => o.wf
  | .retire o _ => o.wf
  | .regRead o _ => o.wf
  | .regWrite o _ => o.wf
  | .keyImport seat unit => seatOk seat && unit < 16
  | .keyExport seat unit => seatOk seat && unit < 16
  | .keyGenerate seat core => seatOk seat && core < 8
  | .keyComponent seat unit => seatOk seat && unit < 16
  | .keyErase o _ => o.wf
  | .keyAttrRead o _ => o.wf
  | .keyGenRead o _ => o.wf
  | .ctrInit o _ => o.wf
  | .ctrNext o _ => o.wf
  | .ctrRead o _ => o.wf
  | .deckSnapshot o _ => o.wf
  | .deckCommit o _ => o.wf
  | .deckLoad o _ => o.wf
  | .journalAttach o _ => o.wf
  | .journalAck o _ => o.wf
  | .journalReplay o _ => o.wf
  | .vaultOpen o _ => o.wf
  | .pinTranslate seat unit => seatOk seat && unit < 16
  | .pinVerify seat unit => seatOk seat && unit < 16
  | .dukptPinTranslate seat unit => seatOk seat && unit < 16
  | .dukptMac seat unit => seatOk seat && unit < 16
  | .emvArqc seat unit => seatOk seat && unit < 16
  | .emvScript seat unit => seatOk seat && unit < 16
  | .macGenerate seat unit => seatOk seat && unit < 16
  | .macVerify seat unit => seatOk seat && unit < 16
  | .ff1Encrypt seat unit => seatOk seat && unit < 16
  | .ff1Decrypt seat unit => seatOk seat && unit < 16
  | .tdeaCbcEncrypt seat unit => seatOk seat && unit < 16
  | .tdeaCbcDecrypt seat unit => seatOk seat && unit < 16
  | .laneEcb seat lane slot => seatOk seat && lane < 2 && slot < 12
  | .laneCbc seat lane slot => seatOk seat && lane < 2 && slot < 12
  | .laneCtr seat lane slot => seatOk seat && lane < 2 && slot < 12
  | .laneGcm seat lane slot => seatOk seat && lane < 2 && slot < 12
  | .laneXts seat lane slot => seatOk seat && lane < 2 && slot < 12
  | .laneCmac seat lane slot => seatOk seat && lane < 2 && slot < 12
  | .laneCtxExport seat lane slot => seatOk seat && lane < 2 && slot < 12
  | .laneCtxImport seat lane slot => seatOk seat && lane < 2 && slot < 12
  | .laneCtxDiscard seat lane slot => seatOk seat && lane < 2 && slot < 12
  | .pkeEcdsaSign seat core => seatOk seat && core < 8
  | .pkeEcdsaVerify seat core => seatOk seat && core < 8
  | .pkeEd25519Sign seat core => seatOk seat && core < 8
  | .pkeEd25519Verify seat core => seatOk seat && core < 8
  | .pkeAgree seat core => seatOk seat && core < 8
  | .pkeRsaSign seat core => seatOk seat && core < 8
  | .pkeRsaPublic seat core => seatOk seat && core < 8
  | .pkeRsaUnwrap seat core => seatOk seat && core < 8
  | .pkeMldsaVerify seat core => seatOk seat && core < 8
  | .dgstHash seat engine => seatOk seat && engine < 2
  | .dgstCtxExport seat engine => seatOk seat && engine < 2
  | .dgstCtxImport seat engine => seatOk seat && engine < 2
  | .dgstCtxDiscard seat engine => seatOk seat && engine < 2
  | .appletInvoke seat core => seatOk seat && core < 4
  | .appdataRead o _ => o.wf
  | .appdataWrite o _ => o.wf
  | .pairBegin o _ => o.wf
  | .partStatus o _ => o.wf
  | .promoteChallenge o _ => o.wf
  | .promote o _ => o.wf
  | .noticeResend o _ => o.wf
  | .eventRead o _ => o.wf
  | .eventFreeze o _ => o.wf
  | .eventThaw o _ => o.wf
  | .timeAnnotate o _ => o.wf
  | .cerBegin o _ => o.wf
  | .cerStep o _ => o.wf
  | .cerEnd o _ => o.wf
  | .cerCert o _ => o.wf
  | .hostFrameReceive _ _ => true
  | .mkaFrameReceive _ ca _ => ca < 4
  | .sakRenew _ ca => ca < 4
  | .ipServiceFrame _ _ _ => true
  | .responseSend _ _ => true
  | .noticeFrameSend _ => true
  | .streamAckDelay _ _ => true
  | .streamOutputResend _ _ => true
  | .streamInputIdle _ _ => true
  | .sessionOfferTimeout _ => true
  | .sessionIdleTimeout _ => true
  | .sessionClosingTimeout _ => true
  | .dispatchPass => true
  | .anteTake die => dieOk die
  | .anteWindowEnd die group _ => dieOk die && group < 4
  | .tileWakeComplete seat group index => seatOk seat && index < groupSize group
  | .tileIdleEnter seat group index => seatOk seat && index < groupSize group
  | .tileGateEnter seat group index => seatOk seat && index < groupSize group
  | .tilePowerDownComplete seat group index => seatOk seat && index < groupSize group
  | .linkFlitReceive seat _ _ _ _ _ => seatOk seat
  | .linkRetrain seat => seatOk seat
  | .linkRetrainComplete seat _ => seatOk seat
  | .seatDescriptorArrive seat _ => seatOk seat
  | .keyFetchComplete seat slot _ => seatOk seat && slot < 8388608
  | .trickStart seat unit _ => seatOk seat && unit < 16
  | .trickComplete seat unit _ _ => seatOk seat && unit < 16
  | .laneCommandResident seat lane _ => seatOk seat && lane < 2
  | .laneCommandComplete seat lane slot _ => seatOk seat && lane < 2 && slot < 12
  | .laneCompareFail seat lane => seatOk seat && lane < 2
  | .laneReseedRequest seat lane => seatOk seat && lane < 2
  | .laneMaskReseed seat lane => seatOk seat && lane < 2
  | .pkeJobStart seat core _ => seatOk seat && core < 8
  | .pkeJobComplete seat core _ _ => seatOk seat && core < 8
  | .pkeYieldPoint seat core => seatOk seat && core < 8
  | .pkeLongResume seat core => seatOk seat && core < 8
  | .keygenStepComplete seat core => seatOk seat && core < 8
  | .digestJobStart seat engine _ => seatOk seat && engine < 2
  | .digestJobComplete seat engine _ => seatOk seat && engine < 2
  | .digestParityFault seat engine => seatOk seat && engine < 2
  | .engineScrubComplete seat engine index => seatOk seat && index < engineCount engine
  | .keyInvalidate seat slot => seatOk seat && slot < 8388608
  | .keyEraseOrder seat slot => seatOk seat && slot < 8388608
  | .eraseConfirm seat slot => seatOk seat && slot < 8388608
  | .mutationCommit _ => true
  | .ackRootWrite => true
  | .journalDeferredRecord _ => true
  | .leaseGrant counter => counter < 1048576
  | .vaultReencryptComplete group => group < 3670016
  | .vaultPatrol _ => true
  | .deckSnapshotComplete => true
  | .cutInstant => true
  | .seatEpochFlip seat => seatOk seat
  | .cutDrainDeadline => true
  | .handTeardown hand => hand < 256
  | .teardownComplete hand => hand < 256
  | .dealMirrorCopyComplete => true
  | .cutComplete => true
  | .privateSeatRelease seat => seatOk seat
  | .witnessReport die cls _ _ => dieOk die && cls < 16
  | .holdEnd die => dieOk die
  | .seatReadmit seat => seatOk seat
  | .seatSelfTestComplete seat _ => seatOk seat
  | .thermalReport die _ => dieOk die
  | .temperatureSample die _ => dieOk die
  | .tempRateCompute die => dieOk die
  | .slowVoltageMean die window _ => dieOk die && window < 8
  | .refclkMonitorWindow _ _ => true
  | .shieldResistanceCheck net _ => net < 24
  | .calibrationSlice die cls index _ _ => dieOk die && cls < 10 && index < 64
  | .drbgReseed die => dieOk die
  | .drbgStopped die => dieOk die
  | .trngSourceFail die source _ => dieOk die && source < 2
  | .trngSourceRestored die source => dieOk die && source < 2
  | .trngOutRead seat core => seatOk seat && core < 4
  | .trngOutTimeout seat core => seatOk seat && core < 4
  | .appletInstanceStart seat core => seatOk seat && core < 4
  | .appletEcall seat core _ _ _ => seatOk seat && core < 4
  | .appletException seat core _ _ _ => seatOk seat && core < 4
  | .appletBudgetExpired seat core => seatOk seat && core < 4
  | .coreDoorbell seat core _ => seatOk seat && core < 4
  | .slotGuardViolation seat master core _ _ _ _ => seatOk seat && core < 4 && master < 7
  | .slotGuardStoreDrain seat core _ _ => seatOk seat && core < 4
  | .ntcRaise seat core _ => seatOk seat && core < 4
  | .dgstbClaim seat core => seatOk seat && core < 4
  | .dgstbRelease seat core => seatOk seat && core < 4
  | .dgstbClaimGrant seat => seatOk seat
  | .dgstbClaimTimeout seat => seatOk seat
  | .dgstbGo seat core _ _ _ => seatOk seat && core < 4
  | .dgstbData seat core _ => seatOk seat && core < 4
  | .dgstbLast seat core _ => seatOk seat && core < 4
  | .dgstbBlockDone seat => seatOk seat
  | .dgstbCmp seat core _ _ => seatOk seat && core < 4
  | .jokerAuth _ => true
  | .jokerAccess t _ _ => t.wf
  | .jokerClose => true
  | .jokerExpiry => true
  | .trstNLow => true
  | .extest => true
  | .bypass => true
  | .idcode => true
  | .samplePreload => true
  | .pairingFrame _ _ => true
  | .heartbeatSend => true
  | .heartbeat _ _ => true
  | .heartbeatMissed => true
  | .mutation _ _ => true
  | .forward _ _ => true
  | .leaseRequest _ _ => true
  | .repairRequest _ _ => true
  | .repairData _ _ => true
  | .resyncMap _ _ => true
  | .resyncObject _ _ => true
  | .resyncComplete => true
  | .event _ _ => true
  | .mirrorFrameResend _ => true
  | .evrFreezeSet => true
  | .evrFreezeClear => true
  | .freezeTimeout => true
  | .optimeSave => true
  | .cardInserted port => port < 2
  | .cardRemoved port => port < 2
  | .cardResponse port _ _ _ => port < 2
  | .cardWaitTimeExpired port => port < 2
  | .cardClockStop port => port < 2
  | .cerStepCardTimeout port => port < 2
  | .ceremonyIdleTimeout port => port < 2
  | .authorisationLapse port => port < 2
  | .powerUp _ => true
  | .powerFail _ => true
  | .offWitness cls _ _ => cls < 16
  | .hostPortLinkUp _ _ => true
  | .portTrainingRetry _ => true
  | .hpxModeWrite _ _ => true
  | .portDrainEnd _ => true
  | .foldDrainLimit => true
  | .foldEntryComplete => true
  | .foldWakeComplete _ => true
  | .osc32Fail => true
  | .osc32Restart => true
  | .shuffleArm _ => true
  | .shuffleDisarm => true
  | .shuffleExpire => true
  | .hostPortLinkDown _ => true
  | .partnerLinkUp => true
  | .partnerLinkDown => true
  | .pfcFrameReceive _ _ => true
  | .partnerPortFrame _ => true
  | .vbatLoss => true
  | .vbatReturn _ => true
  | .batteryLow _ => true
  | .pairingTimeout => true
  | .dealStagingComplete => true

end Sys2Proof
end

