-- ==== Sys2Proof/Certificates/Slice0/Obligations.lean ====
section
/-! DEFINITION. The statements for the provers: what every command does, by family, and what holds of the whole block. -/

open Sys2Proof Sys2Proof.Machine Sys2Proof.Safety

/-- SYS_STATUS, DEAL_QUERY, PART_STATUS and SESSION_STATUS answer DONE with their words, and do nothing else (16 R417, 02 R45, 13 R357, 03 R85).
Completes: sessionStatus, dealQuery, sysStatus, partStatus. It rests on choices of the model: log 10. -/
def Obligations.StatusQueriesAnswer : Prop :=
  (∀ s o c, HouseReady s o 0x1304 [] c → exec (.sysStatus o []) s = .next (after s (s.toPart.answer c.uid Status.done
    (toBE 4 s.sysLifeWord ++ toBE 4 s.foldWord ++ toBE 4 s.power.fw.toNat ++ zeros 4)))) ∧
  (∀ s o c, HouseReady s o 0x1104 [] c → exec (.dealQuery o []) s = .next (after s (s.toPart.answer c.uid Status.done
    (toBE 8 s.activeSerial ++ toBE 8 s.stagedSerial ++ toBE 1 (DealSt.code s.deal.st) ++ toBE 1 s.peerWord ++ zeros 6 ++
      toBE 8 s.peerSerialNow)))) ∧
  (∀ s o c, Ready s o 0x8002 [] c → exec (.partStatus o []) s = .next (after s (s.toPart.answer c.uid Status.done
    (toBE 4 s.partStateWord ++ toBE 8 s.leadEpoch ++ toBE 4 s.partRttWord)))) ∧
  (∀ s o c x, Ready s o 0x1004 [] c → c.session?.bind s.findSession = some x → exec (.sessionStatus o []) s =
    .next (after s (s.toPart.answer c.uid Status.done (toBE 4 (s.unanswered x.id) ++ toBE 8 x.seqIn ++ toBE 8 x.reqHigh ++
      toBE 4 (s.xct.streams.filter (fun y => y.session = x.id)).length ++
      ((s.xct.streams.filter (fun y => y.session = x.id)).map (fun y => y.id.toNat)).flatMap (toBE 4)))))

/-- What answering a host's command does: it waits at XCT with its status and payload, and nothing but XCT, its counts and the mark of a Fold's drain
changes (03 R85). -/
def Obligations.AnswerWaitsAtXct : Prop :=
  ∀ (s : State) (c : Cmd) (status : BitVec 16) (payload : Bytes), s.findCmd c.uid = some c → c.isCall = false → c.retract = none →
    Answered (after s (s.toPart.answer c.uid status payload)) c.uid status payload ∧
    s.toPart.answer c.uid status payload = { s.toPart with
      xct := (s.toPart.answer c.uid status payload).xct, counts := (s.toPart.answer c.uid status payload).counts
      power := { s.power with drained := (s.toPart.answer c.uid status payload).power.drained } } ∧
    (s.toPart.answer c.uid status payload).xct.sessions = s.xct.sessions

/-- DEAL_STAGE, DEAL_DISCARD and DEAL_CUT from a house-hand session: the image takes the non-active bank and its verification runs; a staged image is
dropped; the armed Deal's cut begins (02 R44, R45, R49, R51). DEAL_STAGING_COMPLETE: a good image is armed and its command answers DONE; a bad one
leaves nothing staged and answers DEAL_REJECTED with the reason (02 R46, R47). `Keeps` names the units an act leaves as they were. Completes:
dealStage, dealCut, dealDiscard, dealStagingComplete. It rests on choices of the model: log 20, 46. -/
def Obligations.DealCommandsAct : Prop :=
  (∀ s o b c image, HouseReady s o 0x1101 b c → Streamed s c image → s.cutPending = false → ∃ t, exec (.dealStage o b) s = .next t ∧
    t = after s (s.toPart.stageImage c.uid image) ∧ t.deal.st = .staging ∧ t.deal.stagingUid = some c.uid ∧ t.deal.active = s.deal.active) ∧
  (∀ s o c, HouseReady s o 0x1103 [] c → s.deal.st = .armed → ∃ t, exec (.dealDiscard o []) s = .next t ∧
    t = after s (s.toPart.unstage.answer c.uid Status.done) ∧ t.deal.staged = none ∧ t.deal.active = s.deal.active) ∧
  (∀ s o c b d, HouseReady s o 0x1102 b c → b.length = 8 → s.deal.st = .armed → s.deal.staged = some d → d.serial = field b 0 8 →
    s.orderMet d.serial = true → s.journalRoom true false (Part.cutBytes (s.tearList d)) = true →
    ∃ t, exec (.dealCut o b) s = .next t ∧ t = after s (s.toPart.beginCut c.uid d) ∧ t.deal.st = .cutting ∧
      t.deal.cut.map (·.uid) = some c.uid ∧ t.deal.active = s.deal.active) ∧
  (∀ s u d, s.power.on = true → s.deal.st = .staging → s.deal.verdict = some (0, 0) → s.deal.staged = some d → s.deal.failed = false →
    s.deal.stagingUid = some u → ∃ t, exec .dealStagingComplete s = .next t ∧ t.deal.st = .armed ∧ t.deal.staged = some d ∧
      t.deal.stagingUid = none ∧
      Keeps [.fuses, .ports, .disp, .vault, .lats, .trngs, .guard, .cers, .joker, .shuffle] s t) ∧
  (∀ s u why sect, s.power.on = true → s.deal.st = .staging → s.deal.verdict = some (why, sect) → why ≠ 0 → s.deal.stagingUid = some u →
    ∃ t, exec .dealStagingComplete s = .next t ∧ t.deal.staged = none ∧ t.deal.reject = BitVec.ofNat 32 (why * 65536 + sect) ∧
      Keeps [.fuses, .ports, .disp, .vault, .lats, .trngs, .guard, .cers, .joker, .shuffle] s t)

/-- The rows of a cut (02 R51 to R55): the instant makes the staged Deal active in the other bank and the next epoch; each running Seat flips within
40 ns; the deadline passes at tc + 100 ms; a removed hand's ranges are torn down, and come back when their zeroizing ends; the active bank is copied;
DEAL_CUT answers; a private Seat is freed. `Keeps` names the units an act leaves as they were. Completes: cutInstant, seatEpochFlip, cutDrainDeadline,
handTeardown, teardownComplete, dealMirrorCopyComplete, cutComplete, privateSeatRelease. It rests on choices of the model: log 2, 47, 58. -/
def Obligations.CutRowsAct : Prop :=
  (∀ s c new, s.power.on = true → s.deal.cut = some c → c.tc = none → s.deal.staged = some new → ∃ t, exec .cutInstant s = .next t ∧
    t.deal.active = some new ∧ t.deal.activeBank = !s.deal.activeBank ∧ t.deal.epoch = s.deal.epoch + 1 ∧ t.deal.staged = none ∧
    t.deal.recSerial = new.serial ∧
      Keeps [.fuses, .ports, .lats, .guard] s t) ∧
  (∀ s n c tc, s.power.on = true → s.hasSeat n = true → s.deal.cut = some c → c.tc = some tc → s.seatIn n .inService = true →
    ∃ t, exec (.seatEpochFlip n) s = .next t ∧ t = after s ((s.toPart.atTime (tc + nsec 40)).updSeat n (fun x =>
      { x with epoch := s.deal.epoch, armed := true })) ∧ (t.seat n).epoch = s.deal.epoch) ∧
  (∀ s c tc, s.power.on = true → s.deal.cut = some c → c.tc = some tc → c.deadline = false → ∃ t, exec .cutDrainDeadline s = .next t ∧
    t.deal.cut = some { c with deadline := true } ∧ tc + msec 100 ≤ t.now ∧
      Keeps [.fuses, .ports, .lats, .trngs, .guard, .cers, .joker, .shuffle] s t) ∧
  (∀ s c tc h, s.power.on = true → s.deal.cut = some c → c.tc = some tc → c.removed.any (fun e => e.hand == h) = true →
    c.torn.contains h = false → (s.doomedWork c).any (fun x => x.hand == h) = false → ∃ t, exec (.handTeardown h) s = .next t ∧
      t.deal.st = .teardown ∧ t.deal.cut.map (·.torn) = some (h :: c.torn) ∧
      Keeps [.fuses, .ports, .disp, .lats, .trngs, .guard, .cers, .joker] s t) ∧
  (∀ s c h e, s.power.on = true → s.deal.cut = some c → c.clearing.find? (fun x => x.1 == h) = some e →
    ∃ t, exec (.teardownComplete h) s = .next t ∧
      t.deal.cut = some { c with clearing := c.clearing.filter (fun x => !(x.1 == h)) } ∧ t.now = max s.now e.2 ∧
      Keeps [.fuses, .power, .ports, .xct, .disp, .vault, .seats, .lats, .trngs, .guard, .part, .evr, .cers, .shuffle, .counts] s t) ∧
  (∀ s c tc, s.power.on = true → s.deal.cut = some c → c.tc = some tc → c.copied = false → ∃ t, exec .dealMirrorCopyComplete s = .next t ∧
    t.deal.cut = some { c with copied := true } ∧
    (s.deal.active.isSome = true → (s.dealBank s.deal.activeBank).role = .active →
      t.dealBank (!s.deal.activeBank) = { s.dealBank s.deal.activeBank with role := .mirror } ∧ t.deal.mirror = true) ∧
      Keeps [.fuses, .power, .ports, .xct, .disp, .vault, .seats, .lats, .trngs, .guard, .part, .evr, .cers, .joker, .shuffle, .counts] s t) ∧
  (∀ s c tc, s.power.on = true → s.deal.cut = some c → c.tc = some tc → c.copied = true →
    c.removed.all (fun e => c.torn.contains e.hand) = true → c.clearing = [] → ∃ t, exec .cutComplete s = .next t ∧
      t.deal.cut = none ∧ t.deal.st = .idle ∧ t.deal.cuts = Part.satIncr s.deal.cuts ∧
      Keeps [.fuses, .ports, .lats, .guard, .joker] s t) ∧
  (∀ s n h, s.power.on = true → s.hasSeat n = true → (s.seat n).privFor = some h →
    s.xct.cmds.any (fun c => (c.onSeat n || (c.place == .queued && (permittedMask (s.dealOf c.epoch) c.hand).testBit n)) &&
      decide (c.epoch < s.deal.epoch) && c.hand != h && c.hand != 0) = false →
    ∃ t, exec (.privateSeatRelease n) s = .next t ∧ (t.seat n).privFor = none ∧
      Keeps [.fuses, .power, .deal, .ports, .xct, .disp, .vault, .lats, .trngs, .guard, .cers, .joker, .shuffle] s t)

/-- REG_READ answers the words of consecutive registers; REG_WRITE writes one register under its mask (01 R28). Completes: regRead, regWrite. It rests
on choices of the model: log 33. -/
def Obligations.RegisterCommandsAct : Prop :=
  (∀ s o c b, HouseReady s o 0x1601 b c → b.length = 8 → field b 0 4 % 4 = 0 → 1 ≤ field b 4 4 → field b 4 4 ≤ 64 →
    s.hasDie (field b 0 4 / 2 ^ 24) = true → field b 0 4 % 2 ^ 24 + 4 * field b 4 4 ≤ 2 ^ 24 →
    exec (.regRead o b) s = .next (after s ((s.readRegs (field b 0 4) (field b 4 4)).1.answer c.uid Status.done
      (s.readRegs (field b 0 4) (field b 4 4)).2))) ∧
  (∀ s o c b, HouseReady s o 0x1602 b c → b.length = 12 → field b 0 4 % 4 = 0 → s.hasDie (field b 0 4 / 2 ^ 24) = true →
    appletOnly (field b 0 4) = false → exec (.regWrite o b) s = .next (after s
      ((s.writeReg (field b 0 4) (BitVec.ofNat 32 (field b 4 4)) (BitVec.ofNat 32 (field b 8 4))).answer c.uid Status.done)))

/-- Every part of the state but a count pair's latch is as it was after a register read (01 R5, R29). A count pair's LO register reads bits 31 to 0 of
the count and latches bits 63 to 32, which its HI register then reads; read together they are one consistent value (01 R29). A write of DISP_LONGCAP
of 0 or 9 to 15 is ignored, a write of 1 to 8 takes effect, and only the bits the mask sets are written (04 DISP_LONGCAP, 01 R28). It rests on choices
of the model: log 55. -/
def Obligations.RegisterRules : Prop :=
  (∀ (p : Machine.Part) (addr n : Nat), (p.readRegs addr n).1 = { p with latches := (p.readRegs addr n).1.latches } ∧
    (p.readRegs addr n).2.length = 4 * n) ∧
  (∀ (p : Machine.Part) (addr : Nat), isCountLo addr = true →
    (p.readRegs addr 2).2 = toBE 4 ((p.pairValue addr).truncate 32 : BitVec 32).toNat ++ toBE 4 ((p.pairValue addr).extractLsb' 32 32).toNat ∧
    ((p.readReg addr).1.readReg (addr + 4)).2 = (p.pairValue addr).extractLsb' 32 32) ∧
  (∀ (p : Machine.Part) (v m : Word),
    let w := (merged p.disp.longCap.toNat v m).toNat % 16
    ((w = 0 ∨ 8 < w) → p.writeReg 0x060008 v m = p) ∧
    (1 ≤ w → w ≤ 8 → (p.writeReg 0x060008 v m).disp.longCap = BitVec.ofNat 4 w ∧
      p.writeReg 0x060008 v m = { p with disp := (p.writeReg 0x060008 v m).disp }))

/-- GUARD_READMIT, FOLD_ENTER, FOLD_EXIT, PORT_CTL, FW_LOAD and RETIRE do what they are for: a parked Seat may be re-admitted; entry begins; a wake
begins; a half drains towards disabled, an enabled one comes back; a verified image takes the idle bank; a quorum retires the part (12 R337, 16 R417
to R426). `Keeps` names the units an act leaves as they were. Completes: guardReadmit, foldEnter, foldExit, portCtl, fwLoad, retire. It rests on
choices of the model: log 20, 49, 51, 53. -/
def Obligations.SystemCommandsAct : Prop :=
  (∀ s o c b, HouseReady s o 0x1201 b c → b.length = 8 → allZero (b.drop 1) = true → s.hasSeat (field b 0 1) = true →
    s.seatIn (field b 0 1) .selfTest = false → (s.seat (field b 0 1)).parked = true → exec (.guardReadmit o b) s = .next (after s
      ((s.updSeat (field b 0 1) (fun x => { x with parked := false, readmitBy := true })).answer c.uid Status.done))) ∧
  (∀ s o c b, HouseReady s o 0x1301 b c → b.length = 8 → 1 ≤ field b 0 4 → field b 0 4 ≤ 60000 → field b 4 4 = 0 → s.power.fold = .running →
    s.power.life = 1 → s.vault.st = .open_ → s.deal.st ≠ .cutting → s.deal.st ≠ .teardown → ∃ t, exec (.foldEnter o b) s = .next t ∧
      t = after s (s.toPart.beginFold c.uid (field b 0 4)) ∧ t.power.fold = .entering ∧ t.power.foldUid = some c.uid ∧ t.shuffle.en = false) ∧
  (∀ s o c, HouseReady s o 0x1302 [] c → s.power.life = 1 → s.power.fold = .folded → ∃ t, exec (.foldExit o []) s = .next t ∧
    t.power.fold = .waking ∧ t.power.exitUid = s.power.exitUid ++ [c.uid] ∧ t.power.wakeAt = s.now ∧
      Keeps [.fuses, .deal, .ports, .vault, .lats, .trngs, .guard, .cers, .joker, .shuffle] s t) ∧
  (∀ s o c b, HouseReady s o 0x1303 b c → b.length = 8 → field b 0 1 ≤ 3 → field b 1 1 = 0 → allZero (b.drop 2) = true → s.power.life ≠ 3 →
    (s.half (halfOf (field b 0 1))).draining = none → (s.half (halfOf (field b 0 1))).enabled = true →
    s.othersEnabled (halfOf (field b 0 1)) = true → ∃ t, exec (.portCtl o b) s = .next t ∧
      (t.half (halfOf (field b 0 1))).enabled = false ∧ (t.half (halfOf (field b 0 1))).draining = some s.now ∧
      Keeps [.fuses, .deal, .vault, .lats, .trngs, .guard, .cers, .joker, .shuffle] s t) ∧
  (∀ s o c b, HouseReady s o 0x1303 b c → b.length = 8 → field b 0 1 ≤ 3 → field b 1 1 = 1 → allZero (b.drop 2) = true → s.power.life ≠ 3 →
    (s.half (halfOf (field b 0 1))).draining = none → (s.half (halfOf (field b 0 1))).enabled = false → ∃ t, exec (.portCtl o b) s = .next t ∧
      (t.half (halfOf (field b 0 1))).enabled = true ∧
      Keeps [.fuses, .deal, .vault, .lats, .trngs, .guard, .cers, .joker, .shuffle] s t) ∧
  (∀ s o c b, HouseReady s o 0x1303 b c → b.length = 8 → field b 0 1 = 4 → field b 1 1 = 0 → allZero (b.drop 2) = true → s.power.life ≠ 3 →
    s.part.draining = none → s.part.enabled = true → exec (.portCtl o b) s = .next (after s ((({ s.toPart with part :=
      { s.part with enabled := false, draining := some s.now, retained := false } } : Machine.Part).portState 4 0).answer c.uid Status.done))) ∧
  (∀ s o c b, HouseReady s o 0x1303 b c → b.length = 8 → field b 0 1 = 4 → field b 1 1 = 1 → allZero (b.drop 2) = true → s.power.life ≠ 3 →
    s.part.draining = none → s.part.enabled = false → exec (.portCtl o b) s = .next (after s ((({ s.toPart with part :=
      { s.part with enabled := true, link := 1 } } : Machine.Part).portState 4 1).answer c.uid Status.done))) ∧
  (∀ s o c b image v, HouseReady s o 0x1401 b c → Streamed s c image → s.power.life = 1 → s.firmwareVersion image = some v →
    ∃ t, exec (.fwLoad o b) s = .next t ∧
      (if s.power.fwBank then t.power.fwBanks = (some v, s.power.fwBanks.2) ∧ t.power.fwImages = (image, s.power.fwImages.2)
        else t.power.fwBanks = (s.power.fwBanks.1, some v) ∧ t.power.fwImages = (s.power.fwImages.1, image)) ∧
      t.power.fw = s.power.fw ∧
      Keeps [.fuses, .deal, .ports, .vault, .lats, .trngs, .guard, .cers, .joker, .shuffle] s t) ∧
  (∀ s o c b, HouseReady s o 0x1501 b c → 72 ≤ b.length → s.retireFault b = none → ∃ t, exec (.retire o b) s = .next t ∧
    t.power.life = 3 ∧ t.vault.st = .erased ∧ t.vault.slots = [] ∧ t.deal.active = none ∧ t.registry = none ∧
      Keeps [.fuses, .ports, .lats, .trngs] s t)

/-- The rows of Fold: the drain limit, the end of entry, the end of the wake (16 R419, R422). `Keeps` names the units an act leaves as they were.
Completes: foldDrainLimit, foldEntryComplete, foldWakeComplete. It rests on choices of the model: log 2, 49. -/
def Obligations.FoldRowsAct : Prop :=
  (∀ s, s.power.on = true → s.power.fold = .entering → s.power.drained = none → ∃ t, exec .foldDrainLimit s = .next t ∧
    s.power.foldAt + msec s.power.foldLimit ≤ t.now ∧
    t.power.aborted = s.power.aborted + ((s.toPart.atTime (s.power.foldAt + msec s.power.foldLimit)).draining.filter
      (fun c => !((s.toPart.atTime (s.power.foldAt + msec s.power.foldLimit)).formedFor c.uid))).length ∧
      Keeps [.fuses, .deal, .ports, .lats, .trngs, .guard, .cers, .joker, .shuffle] s t) ∧
  (∀ s td, s.power.on = true → s.power.fold = .entering → s.power.drained = some td → s.power.retained = none →
    ∃ t, exec .foldEntryComplete s = .next t ∧ t.power.fold = .folded ∧ td + usec 200 ≤ t.now ∧ t.power.foldUid = none ∧
      Keeps [.fuses, .deal, .ports, .disp, .vault, .lats, .guard, .joker, .shuffle] s t) ∧
  (∀ s failed, s.power.on = true → s.power.fold = .waking → ∃ t, exec (.foldWakeComplete failed) s = .next t ∧ t.power.fold = .running ∧
    s.power.wakeAt + usec 1500 ≤ t.now ∧ t.power.exitUid = [] ∧
      Keeps [.fuses, .deal, .ports, .guard, .cers, .joker] s t)

/-- The rows of the guard (12 R325 to R337): a witness of severity 1 or more is counted in the guard's window and in LAT_WITN; a Hold ends after its
100 µs; a shed Seat starts its self-test after its quiet second and returns after it; a thermal report stands and clears; a scrub ends. `Keeps` names
the units an act leaves as they were. Completes: witnessReport, holdEnd, seatReadmit, seatSelfTestComplete, thermalReport. It rests on choices of the
model: log 2, 32. -/
def Obligations.GuardRowsAct : Prop :=
  (∀ s die cls index mag, s.power.on = true → s.hasDie die = true → cls ≤ 11 → severity cls mag.toNat = 0 →
    (cls < 10 → (s.sensor die cls index).retired = false) → ∃ t, exec (.witnessReport die cls index mag) s = .next t ∧
      t.count (regAddr die (if die = 0 then winLAT else swinLAT) 0x0128) = s.count (regAddr die (if die = 0 then winLAT else swinLAT) 0x0128) + 1 ∧
      (t.lat die).lastW = BitVec.ofNat 32 (cls * 2 ^ 28 + index % 4096 * 2 ^ 16 + mag.toNat) ∧ t.guard = s.guard ∧
      Keeps [.fuses, .power, .deal, .ports, .xct, .disp, .vault, .seats, .trngs, .guard, .part, .evr, .cers, .joker, .shuffle] s t) ∧
  (∀ s die cls index mag, s.power.on = true → s.hasDie die = true → severity cls mag.toNat ≠ 0 →
    (cls < 10 → (s.sensor die cls index).retired = false) → ∃ t, exec (.witnessReport die cls index mag) s = .next t ∧
      t.guard.seen = Machine.Part.pruneSeen ({ die := die, cls := cls, sev := severity cls mag.toNat, at_ := s.now } :: s.guard.seen) s.now ∧
      Keeps [.fuses] s t) ∧
  (∀ s t0, s.power.on = true → s.guard.dealerHold = some t0 → ∃ t, exec (.holdEnd 0) s = .next t ∧
    t = after s ((s.toPart.atTime t0).setGuard { s.guard with dealerHold := none, dealerFree := max s.now t0 + usec 400 }).drainInbox) ∧
  (∀ s n e, s.power.on = true → s.hasSeat n = true → s.seatIn n .held = true → (s.seat n).holdEnd = some e → (s.lat n).thermal = false →
    ∃ t, exec (.holdEnd n) s = .next t ∧ t.seatIn n .inService = true ∧ (t.seat n).holdEnd = none ∧ e ≤ t.now ∧
      Keeps [.fuses, .deal, .ports, .lats, .joker] s t) ∧
  (∀ s n, s.power.on = true → s.hasSeat n = true → s.seatIn n .shed = true → (s.seat n).parked = false → s.power.life = 1 →
    ¬ (s.joker.scope = 3 ∧ s.joker.seats.getLsbD n = true) → ∃ t, exec (.seatReadmit n) s = .next t ∧ t.seatIn n .selfTest = true ∧ (s.seat n).quiet + sec 1 ≤ t.now ∧
      Keeps [.fuses, .deal, .ports, .disp, .vault, .lats, .trngs, .guard, .cers, .joker, .shuffle] s t) ∧
  (∀ s n, s.power.on = true → s.hasSeat n = true → s.seatIn n .selfTest = true →
    ∃ t, exec (.seatSelfTestComplete n true) s = .next t ∧
    t.seatIn n .inService = true ∧ (t.seat n).ecc1 = 0 ∧ (t.seat n).ecc2 = 0 ∧ (t.seat n).eccu = 0 ∧ (t.seat n).replay = 0 ∧
    (t.seat n).retrain = 0 ∧
      Keeps [.fuses, .deal, .ports, .vault, .trngs, .guard, .cers, .joker, .shuffle] s t) ∧
  (∀ s n, s.power.on = true → s.hasSeat n = true → s.seatIn n .selfTest = true → ∃ t, exec (.seatSelfTestComplete n false) s = .next t ∧
    t.seatIn n .shed = true ∧
      Keeps [.fuses, .deal, .ports, .vault, .trngs, .guard, .cers, .joker, .shuffle] s t) ∧
  (∀ s die, s.power.on = true → s.hasDie die = true → (s.lat die).thermal = true → ∃ t, exec (.thermalReport die false) s = .next t ∧
    (t.lat die).thermal = false ∧ (die = 0 → t.guard.dealerCap = false) ∧
      Keeps [.fuses, .deal, .ports, .trngs, .joker, .shuffle] s t) ∧
  (∀ s, s.power.on = true → (s.lat 0).thermal = false → s.power.life ≠ 3 → ∃ t, exec (.thermalReport 0 true) s = .next t ∧
    t.guard.dealerCap = true ∧ t.guard.dealerHold.isSome = true ∧
      Keeps [.fuses, .deal, .ports, .trngs, .joker, .shuffle] s t)

/-- POWER_UP, POWER_FAIL and the rows of the guard domain act with main power off (16 R408, R409, R411, R413, R414; 12 R340, R341). `Keeps` names the
units an act leaves as they were. Completes: powerUp, powerFail, offWitness, osc32Fail, osc32Restart, vbatLoss, vbatReturn, batteryLow. It rests on
choices of the model: log 2, 6, 52. -/
def Obligations.PowerRowsAct : Prop :=
  (∀ s f bank v, s.power.on = false → f.railLow = false → (s.badBanks f).bootBank = some (bank, v) → s.rootCheck = none → ∃ t, exec (.powerUp f) s = .next t ∧
    t.power.on = true ∧ t.power.stage = 6 ∧ t.power.fw = v ∧ t.power.fwBank = bank ∧ t.power.fwMin = v ∧ t.power.life = s.power.life ∧
    t.evr.pcycle = min (s.evr.pcycle + 1) 0xFFFFFF ∧ t.fuses = s.fuses ∧
      Keeps [.fuses, .disp, .lats, .cers, .shuffle] s t) ∧
  (∀ s orderly, s.power.on = true → ∃ t, exec (.powerFail orderly) s = .next t ∧ t = after s { s.off with
      power := { s.off.power with lastOrderly := orderly, firstVbat := false } } ∧
    t.power.on = false ∧ t.xct.sessions = [] ∧ t.xct.cmds = [] ∧ t.vault.slots = [] ∧ t.seats = {} ∧ t.deal.banks = s.deal.banks ∧
    t.vault.root = s.vault.root ∧ t.evr.ring = s.evr.ring ∧ t.evr.pinned = s.evr.pinned) ∧
  (∀ s cls index mag, s.power.on = false → s.guard.vbatOk = true → s.power.life ≠ 0 → s.power.life ≠ 3 → Part.watchedOff cls index = true →
    severity cls mag.toNat ≠ 0 → ∃ t, exec (.offWitness cls index mag) s = .next t ∧
      t.vault = { s.vault with root := none, rootTag := false, offErase := true } ∧
      Keeps [.fuses, .power, .deal, .xct, .seats, .part, .evr] s t) ∧
  (∀ s, s.power.on = false → ∃ t, exec .vbatLoss s = .next t ∧ t.vault = { s.vault with root := none, rootTag := false } ∧ t.guard.vbatOk = false ∧
    t.guard.offSlots = [] ∧ t.evr = { s.evr with regfile := [], regPtr := 0 } ∧ Keeps [.fuses, .deal, .xct, .seats, .part] s t) ∧
  (∀ s mv, s.guard.vbatOk = false → exec (.vbatReturn mv) s = .next (after s { s.toPart with
    guard := { s.guard with vbat := mv, vbatOk := true, vbatLow := decide (mv.toNat < 2500), tamperLow := decide (2 ≤ s.power.life) }, power := { s.power with slowOk := true } })) ∧
  (∀ s mv, s.power.on = false → s.guard.vbatOk = true → ∃ t, exec (.batteryLow mv) s = .next t ∧ t.guard.vbat = mv ∧
    t.guard.vbatLow = decide (mv.toNat < 2500) ∧ Keeps [.fuses, .power, .deal, .xct, .vault, .seats, .evr] s t) ∧
  (∀ s, s.power.xtalOk = true → ∃ t, exec .osc32Fail s = .next t ∧ t.power = { s.power with xtalOk := false } ∧
    Keeps [.fuses, .deal, .vault, .disp, .lats, .trngs] s t) ∧
  (∀ s, s.power.xtalOk = false → (s.power.on = true ∨ s.guard.vbatOk = true) → ∃ t, exec .osc32Restart s = .next t ∧
    t.power = { s.power with xtalOk := true } ∧ Keeps [.fuses, .deal, .vault, .disp, .lats, .trngs] s t)

/-- The rows of the host ports (03 R61, HPx_MODE; 16 R413, R414, R425). `Keeps` names the units an act leaves as they were. Completes:
mkaFrameReceive, sakRenew, ipServiceFrame, hostPortLinkUp, portTrainingRetry, hpxModeWrite, portDrainEnd, hostPortLinkDown, pfcFrameReceive. It rests
on choices of the model: log 2, 51. -/
def Obligations.PortRowsAct : Prop :=
  (∀ s h secured, s.power.on = true → 6 ≤ s.power.stage.toNat → s.power.stage ≠ 8 → ((s.takeMode h).half h).enabled = true →
    (s.takeMode h).halfExists h = true → ∃ t, exec (.hostPortLinkUp h secured) s = .next t ∧ (t.half h).link = (if secured then 3 else 2) ∧
      (s.power.stage = 6 → t.power.stage = 7) ∧ t.vault = s.vault ∧
      Keeps [.fuses, .disp, .vault, .lats, .trngs, .guard, .cers, .joker] s t) ∧
  (∀ s h, s.power.on = true → (s.half h).up = true → ∃ t, exec (.hostPortLinkDown h) s = .next t ∧
    t.half h = { s.half h with link := if (s.half h).enabled && s.halfExists h then 1 else 0, assocs := [], paused := 0 } ∧
    Keeps [.fuses, .deal, .vault, .disp, .lats, .guard, .shuffle] s t) ∧
  (∀ s h, s.power.on = true → 6 ≤ s.power.stage.toNat → s.power.stage ≠ 8 → (s.half h).enabled = true → s.halfExists h = true →
    (s.half h).up = false → ∃ t, exec (.portTrainingRetry h) s = .next t ∧ t.half h = { s.half h with link := 1 } ∧ t.now = s.now + sec 1 ∧
      Keeps [.fuses, .power, .deal, .vault, .disp, .lats, .guard, .shuffle] s t) ∧
  (∀ s portB v, s.power.on = true → ∃ t, exec (.hpxModeWrite portB v) s = .next t ∧
    (if portB then t.hpb else t.hpa).newMode = some (v &&& 0x31) ∧ (t.half (if portB then .b0 else .a0)).up = false ∧
    (t.half (if portB then .b1 else .a1)).up = false ∧ Keeps [.fuses, .deal, .vault, .disp, .lats, .guard, .shuffle] s t) ∧
  (∀ s h t0, s.power.on = true → (s.half h).draining = some t0 → ∃ t, exec (.portDrainEnd (.host h)) s = .next t ∧
    (t.half h).draining = none ∧ (t.half h).enabled = (s.half h).retained ∧ (t.half h).up = false ∧
    Keeps [.fuses, .deal, .vault, .disp, .lats, .guard, .shuffle] s t) ∧
  (∀ s t0, s.power.on = true → s.part.draining = some t0 → s.part.exchange = none → ∃ t, exec (.portDrainEnd .partner) s = .next t ∧
    t.part.draining = none ∧ t.part.enabled = s.part.retained ∧ t.ppAssocs = [] ∧
      Keeps [.fuses, .deal, .disp, .vault, .lats, .trngs, .guard, .cers, .joker, .shuffle] s t) ∧
  (∀ s h ca, s.power.on = true → s.portUp (.host h) = true → ((s.half h).assocs.any (fun a => a.ca == ca) = true ∨ (s.half h).assocs.length < 4) →
    s.cakOf (.host h) ca ≠ none → ∃ t, exec (.mkaFrameReceive (.host h) ca true) s = .next t ∧ (t.half h).link = 3 ∧ (t.half h).assocs.any (fun a => a.ca == ca) = true ∧
      Keeps [.fuses, .power, .deal, .xct, .vault, .seats, .guard, .evr] s t) ∧
  (∀ s h ca, s.power.on = true → s.portUp (.host h) = true → (s.half h).assocs.any (fun a => a.ca == ca) = true →
    ∃ t, exec (.sakRenew (.host h) ca) s = .next t ∧
      (t.half h).assocs = (s.half h).assocs.map (fun a => if a.ca = ca then { a with sak := a.sak + 1, key := s.drawn 32 } else a) ∧
      t.draws = s.draws + 32 ∧ Keeps [.fuses, .power, .deal, .xct, .vault, .seats, .guard, .evr] s t) ∧
  (∀ s h k dst, s.power.on = true → (s.half h).link = 3 → (s.half h).enabled = true → s.ownAddress h k dst = true →
    exec (.ipServiceFrame h k dst) s = .next (after s { s.toPart with ipTx := (h, k) :: s.ipTx })) ∧
  (∀ s h ps, s.power.on = true → (s.half h).up = true →
    exec (.pfcFrameReceive h ps) s = .next (after s (s.updHalf h (fun x => { x with paused := ps })).pumpAll))

/-- Sessions and streams (03 R72, R73, R76, R77, R85). The clocks of streams and sessions (03 R72, R73, R77, R78): a late acknowledgement leaves 20 µs
after the last byte; unacknowledged output goes again after 1 ms; an input stream that stays idle for 100 ms ends its command; offers lapse after 1 s;
an idle session closes; Closing ends after 100 ms. `Keeps` names the units an act leaves as they were. Completes: sessionHello, sessionProve,
sessionClose, streamAck, streamData, streamAckDelay, streamOutputResend, streamInputIdle, sessionOfferTimeout, sessionIdleTimeout,
sessionClosingTimeout. It rests on choices of the model: log 2, 6, 10, 17, 65, 66, 67. -/
def Obligations.SessionRowsAct : Prop :=
  (∀ (s : State) a payload e key i inc, s.power.on = true → s.guard.dealerHold = none → s.findSession 0 = none → s.canSend a.half = true →
    (s.portChecks a (32 + payload.length)).2 = true → 1672 ≤ payload.length →
    s.admission (payload.drop 1672) = some e → Config.certKey (payload.drop 1672) = some key → field payload 1668 4 = (payload.drop 1672).length →
    (payload.drop 1672).length ≤ 4096 → (s.xct.hellos.filter (fun t => ((s.portChecks a (32 + payload.length)).1.inCycle a.half).now < t + sec 1)).length < 10000 → field payload 1664 4 < 2 →
    (s.xct.sessions.filter (fun x => x.cert = e.cert)).length < e.limit → s.xct.sessions.length < 16384 →
    ¬ (e.flags.getLsbD 1 = true ∧ field payload 1664 4 = 0) → s.freeIndex = some (i, inc) →
    (s.xct.sessions.filter (fun x => x.st == .offered)).length < 1024 → ∃ t x f, exec (.sessionHello a payload) s = .next t ∧
      t.xct.sessions = s.xct.sessions ++ [x] ∧ x.st = .offered ∧ x.id = BitVec.ofNat 32 (inc * 16384 + i) ∧ x.hand = e.hand ∧
      t.tx = f :: s.tx ∧ f.code = 0x1001 ∧ f.status = Status.done ∧ Keeps [.fuses, .power, .deal, .vault, .seats, .guard, .evr] s t) ∧
  (∀ (s : State) a id x payload, s.power.on = true → s.guard.dealerHold = none → s.canSend a.half = true → id ≠ 0 →
    (s.portChecks a (32 + payload.length)).2 = true → s.findSession id = some x → x.st = .offered →
    32 ≤ payload.length → Part.hostSigned x (payload.take (payload.length - 32)) = true →
    payload.drop (payload.length - 32) = Part.finish "XCT fin h" x → ∃ t f, exec (.sessionProve a id payload) s = .next t ∧
      (t.findSession id).map (·.st) = some .open_ ∧ t.tx = f :: s.tx ∧ f.code = 0x1002 ∧ f.status = Status.done ∧
      f.payload = Part.finish "XCT fin p" x ∧ Keeps [.fuses, .power, .deal, .vault, .seats, .guard, .evr] s t) ∧
  (∀ s o c id, Ready s o 0x1003 [] c → c.session? = some id → exec (.sessionClose o []) s =
    .next (after s ((s.toPart.answer c.uid Status.done).startClosing id))) ∧
  (∀ (p : Machine.Part) id x, p.findSession id = some x → x.st = .open_ →
    ∀ y, (p.startClosing id).findSession id = some y → y.st = .closing ∧ y.waiting = []) ∧
  (∀ s id x b y, s.power.on = true → s.findSession id = some x → x.st ≠ .offered → b.length = 16 →
    s.findStream x.id (BitVec.ofNat 32 (field b 0 4)) = some y → y.input = false → field b 4 4 = 0 → y.acked < field b 8 8 →
    field b 8 8 ≤ y.announced → s.shuffle.en = false → ∃ t, exec (.streamAck id b) s = .next t ∧
      t = after s ((s.toPart.updSession id (fun z => { z with lastAt := s.now })).takeAckEntry x b) ∧
      (∀ z, t.findStream x.id (BitVec.ofNat 32 (field b 0 4)) = some z → z.acked = field b 8 8) ∧
      Keeps [.fuses, .power, .deal, .vault, .seats, .guard, .evr] s t) ∧
  (∀ s id x b y, s.power.on = true → s.findSession id = some x → x.st ≠ .offered → 16 ≤ b.length → field b 4 4 = 0 →
    s.findStream x.id (BitVec.ofNat 32 (field b 0 4)) = some y → y.input = true → y.declared = none → y.segs = [] →
    field b 8 8 = y.acked → (b.drop 16).length ≤ x.swin * 1024 → s.shuffle.en = false → ∃ t, exec (.streamData id b) s = .next t ∧
      ∃ z, t.findStream x.id (BitVec.ofNat 32 (field b 0 4)) = some z ∧ z.data = y.data ++ b.drop 16 ∧
        z.acked = y.acked + (b.drop 16).length ∧
      Keeps [.fuses, .deal, .ports, .lats, .trngs, .guard, .cers, .joker] s t) ∧
  (∀ s id sid x y, s.power.on = true → s.shuffle.en = false → s.findStream id sid = some y → y.input = true → y.announced < y.acked →
    s.findSession id = some x → s.canSend x.half = true → ∃ t f, exec (.streamAckDelay id sid) s = .next t ∧ t.tx = f :: s.tx ∧ f.code = 0x1005 ∧
      f.payload = toBE 4 sid.toNat ++ zeros 4 ++ toBE 8 y.acked ∧ (t.findStream id sid).map (·.announced) = some y.acked ∧
      y.advAt + usec 20 ≤ t.now ∧ Keeps [.fuses, .power, .deal, .vault, .seats, .guard, .evr] s t) ∧
  (∀ s id sid x y, s.power.on = true → s.shuffle.en = false → s.findStream id sid = some y → y.input = false → y.acked < y.announced →
    y.resends < 8 → s.findSession id = some x → s.canSend x.half = true → ∃ t, exec (.streamOutputResend id sid) s = .next t ∧
      (t.findStream id sid).map (·.resends) = some (y.resends + 1) ∧ y.lastAt + msec 1 ≤ t.now ∧
      Keeps [.fuses, .power, .deal, .vault, .seats, .guard, .evr] s t) ∧
  (∀ s id sid y c, s.power.on = true → s.findStream id sid = some y → y.input = true → y.ended ≠ some y.acked → y.declared ≠ some y.acked →
    s.findCmd y.uid = some c → c.isCall = false → c.place = .queued → c.retract = none → ∃ t, exec (.streamInputIdle id sid) s = .next t ∧
      Answered t c.uid Status.streamAborted [] ∧ y.lastAt + msec 100 ≤ t.now ∧
      Keeps [.fuses, .deal, .ports, .lats, .trngs, .guard, .cers, .joker, .shuffle] s t) ∧
  (∀ s id x, s.power.on = true → s.shuffle.en = false → s.findSession id = some x → x.st = .offered →
    ∃ t, exec (.sessionOfferTimeout id) s = .next t ∧ t.findSession id = none ∧ x.offeredAt + sec 1 ≤ t.now ∧
      Keeps [.fuses, .power, .deal, .ports, .disp, .lats, .trngs, .guard, .cers, .joker] s t) ∧
  (∀ s id x, s.power.on = true → s.findSession id = some x → x.st = .open_ → ∃ t, exec (.sessionIdleTimeout id) s = .next t ∧
    x.lastAt + sec x.idle ≤ t.now ∧ (∀ y, t.findSession id = some y → y.st = .closing) ∧
      Keeps [.fuses, .deal, .ports, .disp, .lats, .trngs, .guard, .joker] s t) ∧
  (∀ s id x, s.power.on = true → s.findSession id = some x → x.st = .closing → ∃ t, exec (.sessionClosingTimeout id) s = .next t ∧
    t.findSession id = none ∧ x.closingAt + msec 100 ≤ t.now ∧
      Keeps [.fuses, .deal, .ports, .lats, .trngs, .guard, .cers, .joker] s t)

/-- Frames in and out (03 R65 to R70, R80 to R85, R88, R89): a frame that passes R80 and R81 carries its command, or its bundle's commands in their
order, to the checks of R82, sealed or not; a Dealer command of a row that is not accepted yet arrives, alone in its frame, and is then served as an
accepted one (log 6); a response or a refusal leaves with its status and payload, and its credit returns; waiting notices leave. `Keeps` names the
units an act leaves as they were. Completes: hostFrameReceive, responseSend, noticeFrameSend. It rests on choices of the model: log 6, 67, 68, 76. -/
def Obligations.FrameRowsAct : Prop :=
  (∀ (s : State) (a : Arrival) (frame body : Bytes) (x : Session), s.power.on = true → s.guard.dealerHold = none →
    (s.portChecks a frame.length).2 = true → s.shuffle.en = false → 32 ≤ frame.length → (headerOf frame).readable = true →
    (headerOf frame).segment = false → (headerOf frame).session ≠ 0 → (headerOf frame).status = 0 → (headerOf frame).plen = body.length →
    s.findSession (headerOf frame).session = some x → x.st ≠ .offered →
    Machine.Part.openFrame x (headerOf frame) frame a.secTag = some body →
    Machine.Part.seqOk x (headerOf frame).seq = true → (headerOf frame).seq < 2 ^ 64 - 1 → ∃ (p : Machine.Part) (y : Session),
      p = { (s.portChecks a frame.length).1.inCycle a.half with xct := { ((s.portChecks a frame.length).1.inCycle a.half).xct with
        sessions := p.xct.sessions } } ∧
      p.findSession x.id = some y ∧ y.seqIn = max x.seqIn (headerOf frame).seq ∧ y.path = Machine.Part.pathOf a ∧
      ((headerOf frame).bundle = false → (headerOf frame).code ≠ 0x1005 → exec (.hostFrameReceive a frame) s =
        .next (after s (p.accept y (headerOf frame).hand (headerOf frame).ordered (Machine.Part.pathOf a) (headerOf frame).code
          (headerOf frame).request body))) ∧
      (∀ l, (headerOf frame).bundle = true → bundleOf (headerOf frame).request body = some l → l.all (fun e => e.status == 0) = true →
        exec (.hostFrameReceive a frame) s = .next (after s (l.foldl (fun q e => match q.findSession x.id with
          | some z => q.accept z (headerOf frame).hand (headerOf frame).ordered (Machine.Part.pathOf a) e.code e.request e.payload
          | none => q) p)))) ∧
  (∀ (s : State) (o : Origin) (b : Bytes) (c : Cmd) (code : Nat) (f : Origin → Bytes → Instr), (code, f) ∈ dealerRows → s.power.on = true →
    s.findRow o code = none → (arrived s.toPart o code b).findRow o code = some c →
    exec (f o b) s = exec (f o b) (after s (arrived s.toPart o code b))) ∧
  (∀ (s : State) (c : Cmd) (x : Session) (req : BitVec 64), s.power.on = true → s.shuffle.en = false →
    s.xct.replies.find? (fun r => r.session = x.id ∧ r.request = req) = none →
    s.xct.cmds.find? (fun c => c.origin = .host x.id req ∧ c.place = .xct) = some c → s.findSession x.id = some x → x.st = .open_ →
    x.seqOut < 2 ^ 64 - 2 → s.mayLeave (Machine.Part.readyCmd c) = true → x.waiting.any (fun w => w.code == 0x0330) = false →
    ∃ t f, exec (.responseSend x.id req) s = .next t ∧ t.tx = f :: s.tx ∧
      f.request = req ∧ f.status = c.status ∧ f.payload = c.payload ∧ f.path = c.path ∧ f.seq = x.seqOut + 1 ∧ t.findCmd c.uid = none ∧
      Keeps [.fuses, .power, .deal, .vault, .seats, .guard, .evr] s t) ∧
  (∀ (s : State) (r : Reply) (x : Session), s.power.on = true → s.shuffle.en = false →
    s.xct.replies.find? (fun e => e.session = x.id ∧ e.request = r.request) = some r → r.bare = false → s.findSession x.id = some x →
    x.st = .open_ → x.seqOut < 2 ^ 64 - 2 → s.mayLeave (Machine.Part.readyReply r) = true → ∃ t f, exec (.responseSend x.id r.request) s = .next t ∧
      t.tx = f :: s.tx ∧ f.request = r.request ∧ f.code = r.code ∧ f.status = r.status ∧ f.payload = r.payload ∧ f.path = r.path ∧
      f.seq = x.seqOut + 1 ∧ t.xct.replies = s.xct.replies.erase r ∧ Keeps [.fuses, .power, .deal, .vault, .seats, .guard, .evr] s t) ∧
  (∀ (s : State) (x : Session) (n : Notice), s.power.on = true → s.shuffle.en = false → s.findSession x.id = some x → x.st = .open_ →
    x.waiting = [n] → x.seqOut < 2 ^ 64 - 2 → s.canSend x.half = true →
    Machine.Part.reserve n.sev * tokenUnit ≤ refilled s.evr.budget 4000000 4000 s.now →
    ∃ t f, exec (.noticeFrameSend x.id) s = .next t ∧ t.tx = f :: s.tx ∧ f.code = 0x9001 ∧ f.payload = n.bytes (x.noticeSeq + 1) ∧
      (t.findSession x.id).map (·.waiting) = some [] ∧ Keeps [.fuses, .power, .deal, .vault, .seats, .guard] s t)

/-- The rows of a transaction unit's programs (05 R129, R130; 06 R165 to R182; 15 R400): with its own trick on the unit, a program computes that
trick's outcome, which the unit holds until TRICK_COMPLETE; nothing is released yet. `Keeps` names the units an act leaves as they were. Completes:
keyImport, keyExport, keyComponent, pinTranslate, pinVerify, dukptPinTranslate, dukptMac, emvArqc, emvScript, macGenerate, macVerify, ff1Encrypt,
ff1Decrypt, tdeaCbcEncrypt, tdeaCbcDecrypt. It rests on choices of the model: log 5, 11, 12, 28. -/
def Obligations.TrickProgramsRun : Prop :=
  ∀ (s : State) (n u prog : Nat) (i : Instr) (j : Job) (c : Cmd),
    (prog, i) ∈ [(0x01, Instr.pinTranslate n u), (0x02, .pinVerify n u), (0x11, .dukptPinTranslate n u), (0x12, .dukptMac n u),
      (0x21, .emvArqc n u), (0x22, .emvScript n u), (0x31, .macGenerate n u), (0x32, .macVerify n u), (0x41, .ff1Encrypt n u),
      (0x42, .ff1Decrypt n u), (0x51, .tdeaCbcEncrypt n u), (0x52, .tdeaCbcDecrypt n u), (0x81, .keyImport n u), (0x82, .keyExport n u),
      (0x84, .keyComponent n u)] →
    s.power.on = true → s.hasSeat n = true → u < 16 → s.tu n u = some j → j.prog = prog → j.out = none → s.findCmd j.uid = some c →
    ∃ t, exec i s = .next t ∧ t.tu n u = some { j with out := some (s.trickOutcome n c) } ∧ t.xct = s.xct ∧ t.draws = s.draws + 24 ∧
      (∀ m k, (m, k) ≠ (n, u) → k < 16 → t.tu m k = s.tu m k) ∧
      Keeps [.fuses, .power, .deal, .ports, .xct, .disp, .vault, .lats, .guard, .part, .evr, .cers, .joker, .shuffle] s t

/-- TRICK_START and TRICK_COMPLETE (06 R156 to R162): a free unit of a Seat in service takes its next command, checks it, charges its keys and runs it
for its count; a command that fails a check answers at once and leaves the unit busy for 400 cycles; a trick ends after its full count, its outcome
leaves for the Dealer; one whose fault check fails scrubs and will answer FAULT_DETECTED. What PIN_VERIFY, the MAC programs, FF1 and bounded TDEA CBC
compute (06 R171, R175, R179, R180, R181): equal PINs answer DONE and unequal ones PIN_MISMATCH; a generated MAC is its first bytes, padded, and a
received one answers DONE or MAC_MISMATCH; CBC of whole blocks keeps their length. Completes: trickStart, trickComplete. It rests on choices of the
model: log 2, 5, 60, 77. -/
def Obligations.TrickRowsAct : Prop :=
  (∀ (s : State) (n u : Nat) (ecc : Decoded) (c : Cmd), s.power.on = true → s.hasSeat n = true → u < 16 → s.tileUp (siteTile n .tu u) = true →
    s.tu n u = none → s.seatIn n .inService = true → s.drbgServes n = true → s.nextFor n .tu (fun _ => true) = some c →
    let p := ((s.atTime (s.tile (siteTile n .tu u)).since).keyRead n c ecc).1
    (ecc = .uncorrectable → handlesOf c.code c.params ≠ [] → exec (.trickStart n u ecc) s = .next (after s p)) ∧
    (ecc ≠ .uncorrectable → ∀ count uses q, p.tuCheck n c = .go count uses → p.chargeAll n c uses = .ok q →
      exec (.trickStart n u ecc) s = .next (after s ((q.takeEngine c n .tu u count).setTu n u
        (some { uid := c.uid, prog := progOf c.code, start := q.now, count := count })))) ∧
    (ecc ≠ .uncorrectable → ∀ st pl, p.tuCheck n c = .refuse st pl → s.findCmd c.uid = some c → c.isCall = false → c.retract = none →
      ∃ t, exec (.trickStart n u ecc) s = .next t ∧ Rising t c.uid n st pl ∧ t.tu n u = none ∧ (t.tile (siteTile n .tu u)).since = t.now + 400)) ∧
  (∀ (s : State) (n u : Nat) (ecc : Decoded) (j : Job) (o : Outcome) (c : Cmd), s.power.on = true → s.hasSeat n = true → u < 16 →
    s.tu n u = some j → j.out = some o → s.findCmd j.uid = some c →
    let p := (s.toPart.atTime (j.start + j.count)).decoded n ecc Machine.Part.locOperand u
    (ecc ≠ .uncorrectable → o.effect = .none → j.prog ≠ 0x84 → c.isCall = false → c.retract = none →
      ∃ t, exec (.trickComplete n u true ecc) s = .next t ∧ Rising t j.uid n o.status o.payload ∧ t.tu n u = none ∧ j.start + j.count ≤ t.now) ∧
    (ecc ≠ .uncorrectable → j.prog ≠ 0x84 → exec (.trickComplete n u false ecc) s = .next (after s
      (((p.bump (regAddr n (swinTU + u * 0x1000) 0x0100)).bump (regAddr n (swinTU + u * 0x1000) 0x0110)).engineFault n .tu u j.uid))) ∧
    (ecc = .uncorrectable → ∀ ok, exec (.trickComplete n u ok ecc) s = .next (after s (p.stopWork j.uid (some Status.abortedScrubbed))))) ∧
  (∀ f1 f2 k1 k2 pan b1 b2 x y, Pin.readField f1 (Pin.decipher f1 k1 pan b1) = some x → Pin.readField f2 (Pin.decipher f2 k2 pan b2) = some y →
    Machine.Part.verifyPin f1 f2 k1 k2 pan b1 b2 = (if x = y then { status := Status.done, payload := [] }
      else { status := TuStatus.pinMismatch, payload := [] })) ∧
  (∀ len mac expected, Machine.Part.macOutcome true len mac expected = { status := Status.done, payload := padTo 16 (mac.take len) } ∧
    Machine.Part.macOutcome false len mac expected = (if mac.take len = expected.take len then { status := Status.done, payload := [] }
      else { status := TuStatus.macMismatch, payload := [] })) ∧
  (∀ b key, ∀ d, Machine.Part.tdeaCbc true b key = { status := Status.done, payload := d } → b.length % 8 = 0 → 24 ≤ b.length →
    d.length = b.length - 24)

/-- The six lane modes (07 R186 to R203): a resident command of the row's own mode computes the output of the input that has come, with a seed that
has not expired; with all of it there it has its outcome too, and the lane holds both until LANE_COMMAND_COMPLETE. What a command streams is released;
one with equal XTS keys is denied. `Keeps` names the units an act leaves as they were. Completes: laneEcb, laneCbc, laneCtr, laneGcm, laneXts,
laneCmac. It rests on choices of the model: log 5, 13. -/
def Obligations.LaneModesRun : Prop :=
  ∀ (s : State) (n l slot mode : Nat) (i : Instr) (j : LaneJob) (c : Cmd) (k : Slot) (key2 : Bytes),
    (mode, i) ∈ [(1, Instr.laneEcb n l slot), (2, .laneCbc n l slot), (3, .laneCtr n l slot), (4, .laneGcm n l slot), (5, .laneXts n l slot),
      (6, .laneCmac n l slot)] →
    s.power.on = true → s.hasSeat n = true → l < 2 → slot < 12 → Sparse.get? (s.lane n l).slots slot = some j → j.mode = mode → j.out = none →
    s.maskFresh n l = true → s.findCmd j.uid = some c → s.keyOf n c (slice c.params 0 8) = .ok k →
    key2 = (match s.keyOf n c (slice c.params 8 8) with | .ok x => x.material | .error _ => []) →
    let r := Lane.req c.code c.params
    let rec_ := j.resumed.getD []
    let pk := Lane.peek r c.params rec_
    let chain := if r.resume then slice rec_ 56 16 else Lane.chain0 r c.params j.iv
    let width := if r.resume then field rec_ 6 1 else field c.params 64 1
    let whole := (s.laneInput c r).2
    let aad := (s.laneInput c r).1.take r.aad
    let come := ((s.laneInput c r).1.drop r.aad).take r.len
    let grain := if r.mode = 5 then max 1 pk.unit else 16
    let text := if whole then come else come.take (come.length / grain * grain)
    let out := Lane.run r k.material key2 chain pk.unit width text
    let streamed := r.outId != 0 && mode != 6 && j.holdBytes == 0
    (mode = 5 → k.material = key2 → ∃ t, exec i s = .next t ∧
      Sparse.get? (t.lane n l).slots slot = some { j with out := some (Machine.Part.endsAs Status.keyUsageDenied) } ∧ t.xct = s.xct) ∧
    ((mode = 5 → k.material ≠ key2) → ∃ t, exec i s = .next t ∧
      Sparse.get? (t.lane n l).slots slot = some { j with
        output := out, released := if streamed then out.length else j.released
        out := if whole then some (Machine.Part.laneOutcome c r j k.material pk chain aad text out (s.drawn 16)) else none
        issued := max j.issued ((text.length + 15) / 16 + (if mode = 5 then Lane.units text.length pk.unit else 0)) } ∧
      (streamed = false → t.xct = s.xct) ∧ Keeps [.fuses, .power, .deal, .ports, .disp, .vault, .lats, .trngs, .guard, .cers, .joker] s t)

/-- The rows of a lane (07 R193, R197, R202, R203, R205 to R208): a checked command becomes resident with its time; a context command takes a slot
too; a finished command leaves its slot after its time, with its outcome on the way to the Dealer; a failed compare stops every resident and scrubs
the lane; a seed is asked for and, when it has come by the time it falls due, used for 65,536 cycles; else the lane stalls. The context commands of a
lane (07 R212 to R216): a clear record is exported and its ticket is spent; an imported clear record takes a free place and its ticket is answered; a
discarded record is freed at the next generation. `Keeps` names the units an act leaves as they were. Completes: laneCtxExport, laneCtxImport,
laneCtxDiscard, laneCommandResident, laneCommandComplete, laneCompareFail, laneReseedRequest, laneMaskReseed. It rests on choices of the model: log 2,
72, 77. -/
def Obligations.LaneRowsAct : Prop :=
  (∀ (s : State) (n l slot : Nat) (ecc : Decoded) (c : Cmd) (keys : List Slot) (q : Machine.Part), s.power.on = true → s.hasSeat n = true → l < 2 →
    s.tileUp (siteTile n .lane l) = true → s.seatIn n .inService = true → Machine.Part.freeSlot (s.lane n l) = some slot →
    s.nextFor n .lane (s.laneFit n) = some c → Lane.modeOf c.code ≠ 0 → (s.passTurn n c.hand .lane).laneCheck n c = .ok keys →
    ecc ≠ .uncorrectable → (Lane.req c.code c.params).resume = false →
    ((Lane.req c.code c.params).mode = 4 → (Lane.req c.code c.params).op = 2) →
    ((s.passTurn n c.hand .lane).keyRead n c ecc).1.chargeAll n c (Machine.Part.usesOf keys [0, 8] c.params [0, 0]) = .ok q →
    ∃ t j, exec (.laneCommandResident n l ecc) s = .next t ∧ Sparse.get? (t.lane n l).slots slot = some j ∧ j.uid = c.uid ∧
      j.mode = (Lane.req c.code c.params).mode ∧ j.start = q.now ∧ j.out = none ∧
      j.count = Lane.cycles (Lane.req c.code c.params) (Lane.peek (Lane.req c.code c.params) c.params []).unit ∧
      Keeps [.fuses, .deal, .ports, .lats, .trngs, .guard, .cers, .joker] s t) ∧
  (∀ (s : State) (n l slot : Nat) (ecc : Decoded) (c : Cmd) (st : BitVec 16) (pl : Bytes), s.power.on = true → s.hasSeat n = true → l < 2 →
    s.tileUp (siteTile n .lane l) = true → s.seatIn n .inService = true → Machine.Part.freeSlot (s.lane n l) = some slot →
    s.nextFor n .lane (s.laneFit n) = some c → Lane.modeOf c.code ≠ 0 → (s.passTurn n c.hand .lane).laneCheck n c = .error (st, pl) →
    s.findCmd c.uid = some c → c.isCall = false → c.retract = none →
    ∃ t, exec (.laneCommandResident n l ecc) s = .next t ∧ Rising t c.uid n st pl ∧ t.lane n l = s.lane n l ∧
      Keeps [.fuses, .deal, .ports, .lats, .trngs, .guard, .cers, .joker] s t) ∧
  (∀ (s : State) (n l slot : Nat) (ecc : Decoded) (c : Cmd), s.power.on = true → s.hasSeat n = true → l < 2 →
    s.tileUp (siteTile n .lane l) = true → s.seatIn n .inService = true → Machine.Part.freeSlot (s.lane n l) = some slot →
    s.nextFor n .lane (s.laneFit n) = some c → Lane.modeOf c.code = 0 →
    ∃ t, exec (.laneCommandResident n l ecc) s = .next t ∧
      Sparse.get? (t.lane n l).slots slot = some { uid := c.uid, mode := 0, chained := false, start := s.now } ∧
      Keeps [.fuses, .deal, .ports, .lats, .trngs, .guard, .cers, .joker] s t) ∧
  (∀ (s : State) (n l slot : Nat) (ecc : Decoded) (j : LaneJob) (o : Outcome) (c : Cmd), s.power.on = true → s.hasSeat n = true → l < 2 → slot < 12 →
    Sparse.get? (s.lane n l).slots slot = some j → j.out = some o → s.findCmd j.uid = some c → o.effect = .none →
    (ecc ≠ .uncorrectable → c.isCall = false → c.retract = none → (Lane.req c.code c.params).outId = 0 →
      ∃ t, exec (.laneCommandComplete n l slot ecc) s = .next t ∧
        Rising t c.uid n o.status o.payload ∧ Sparse.get? (t.lane n l).slots slot = none ∧ j.start + j.count ≤ t.now) ∧
    (ecc = .uncorrectable → exec (.laneCommandComplete n l slot ecc) s = .next (after s
      ((s.toPart.decoded n ecc Machine.Part.locOperand l).stopWork j.uid (some Status.abortedScrubbed))))) ∧
  (∀ (s : State) (n l slot : Nat) (j : LaneJob) (c : Cmd), s.power.on = true → s.hasSeat n = true → l < 2 → (s.lane n l).slots = [(slot, j)] →
    s.findCmd j.uid = some c → c.place = .engine n .lane l → ∃ q : Machine.Part, exec (.laneCompareFail n l) s =
      .next (after s (q.latWitness n 13 l (512 + l))) ∧ (q.lane n l).slots = [] ∧ (q.tile (siteTile n .lane l)).st = .scrubbing ∧
      (q.tile (siteTile n .lane l)).scrubEnd = s.now + 2048 ∧ Scrubbing (after s q) c.uid n .lane l Status.faultDetected ∧
      Keeps [.fuses, .deal, .ports, .disp, .trngs, .guard, .cers, .joker, .shuffle] s (after s q)) ∧
  (∀ (s : State) (n l : Nat), s.power.on = true → s.hasSeat n = true → l < 2 → s.tileUp (siteTile n .lane l) = true →
    ∃ t, exec (.laneReseedRequest n l) s = .next t ∧ t.lane n l = { s.lane n l with requested := true } ∧ (s.lane n l).seedDue - 8192 ≤ t.now ∧
      Keeps [.fuses, .power, .deal, .ports, .xct, .disp, .vault, .lats, .trngs, .guard, .part, .evr, .cers, .joker, .shuffle, .counts] s t) ∧
  (∀ (s : State) (n l : Nat), s.power.on = true → s.hasSeat n = true → l < 2 → s.tileUp (siteTile n .lane l) = true →
    (s.lane n l).requested = true → s.drbgServes n = true → ∃ t, exec (.laneMaskReseed n l) s = .next t ∧ (t.lane n l).seeded = true ∧
      (t.lane n l).requested = false ∧ (t.lane n l).seedDue = t.now + 65536 ∧ (s.lane n l).seedDue ≤ t.now ∧ t.draws = s.draws + 64 ∧
      Keeps [.fuses, .power, .deal, .ports, .xct, .disp, .vault, .lats, .guard, .part, .evr, .cers, .joker, .shuffle] s t) ∧
  (∀ (s : State) (n l : Nat), s.power.on = true → s.hasSeat n = true → l < 2 → s.tileUp (siteTile n .lane l) = true →
    ((s.lane n l).requested = false ∨ s.drbgServes n = false) → ∃ t, exec (.laneMaskReseed n l) s = .next t ∧
      t.lane n l = { s.lane n l with seeded := false, starved := true } ∧ t.draws = s.draws ∧
      Keeps [.fuses, .power, .deal, .ports, .xct, .disp, .vault, .lats, .guard, .part, .evr, .cers, .joker, .shuffle] s t) ∧
  (∀ (s : State) (n l slot : Nat) (j : LaneJob) (c : Cmd), s.power.on = true → s.hasSeat n = true → l < 2 → slot < 12 →
    Sparse.get? (s.lane n l).slots slot = some j → s.findCmd j.uid = some c → c.uid = j.uid → c.code = 0x4101 → s.linkUp n = true → c.isCall = false → c.retract = none →
    c.params.length = 16 → allZero (slice c.params 8 8) = true →
    s.ticketFault c.hand (ticketOf (c.params.take 8)) = none →
    field (s.ctx (Machine.Part.ctxKey (ticketOf (c.params.take 8)).hand (ticketOf (c.params.take 8)).index)).data 0 1 = 1 →
    (field (s.ctx (Machine.Part.ctxKey (ticketOf (c.params.take 8)).hand (ticketOf (c.params.take 8)).index)).data 1 1 = 2 ∨
      field (s.ctx (Machine.Part.ctxKey (ticketOf (c.params.take 8)).hand (ticketOf (c.params.take 8)).index)).data 1 1 = 3) →
    ∃ t, exec (.laneCtxExport n l slot) s = .next t ∧ Rising t c.uid n Status.done
      ([1, 0, 0, 0] ++ toBE 4 (s.ctx (Machine.Part.ctxKey (ticketOf (c.params.take 8)).hand (ticketOf (c.params.take 8)).index)).data.length ++
        (s.ctx (Machine.Part.ctxKey (ticketOf (c.params.take 8)).hand (ticketOf (c.params.take 8)).index)).data) ∧
      (t.ctx (Machine.Part.ctxKey (ticketOf (c.params.take 8)).hand (ticketOf (c.params.take 8)).index)).used = false ∧
      Keeps [.fuses, .deal, .ports, .lats, .trngs, .guard, .cers, .joker] s t) ∧
  (∀ (s : State) (n l slot : Nat) (j : LaneJob) (c : Cmd) (g : Nat), s.power.on = true → s.hasSeat n = true → l < 2 → slot < 12 →
    Sparse.get? (s.lane n l).slots slot = some j → s.findCmd j.uid = some c → c.uid = j.uid → c.code = 0x4102 → s.linkUp n = true → c.isCall = false → c.retract = none →
    c.params.length = 144 → allZero (slice c.params 0 8) = true → slice c.params 8 8 = [1, 0, 0, 0, 0, 0, 0, 128] →
    Machine.Part.laneRecordOk (c.params.drop 16) = true → (field (c.params.drop 16) 1 1 = 2 ∨ field (c.params.drop 16) 1 1 = 3) →
    field (c.params.drop 16) 4 1 = c.hand → s.freeRecord c.hand = some g →
    ∃ t, exec (.laneCtxImport n l slot) s = .next t ∧ Rising t c.uid n Status.done
      (toBE 1 c.hand ++ toBE 3 ((s.ctx (Machine.Part.ctxKey c.hand g)).gen + 1) ++ toBE 2 (s.vault.incarnation % 65536) ++ toBE 2 g) ∧
      t.ctx (Machine.Part.ctxKey c.hand g) = { gen := (s.ctx (Machine.Part.ctxKey c.hand g)).gen + 1, used := true, data := c.params.drop 16 } ∧
      Keeps [.fuses, .deal, .ports, .lats, .trngs, .guard, .cers, .joker] s t) ∧
  (∀ (s : State) (n l slot : Nat) (j : LaneJob) (c : Cmd), s.power.on = true → s.hasSeat n = true → l < 2 → slot < 12 →
    Sparse.get? (s.lane n l).slots slot = some j → s.findCmd j.uid = some c → c.uid = j.uid → c.code = 0x4103 → s.linkUp n = true → c.isCall = false → c.retract = none →
    c.params.length = 8 → s.ticketFault c.hand (ticketOf c.params) = none →
    field (s.ctx (Machine.Part.ctxKey (ticketOf c.params).hand (ticketOf c.params).index)).data 0 1 = 1 →
    ∃ t, exec (.laneCtxDiscard n l slot) s = .next t ∧ Rising t c.uid n Status.done [] ∧
      t.ctx (Machine.Part.ctxKey (ticketOf c.params).hand (ticketOf c.params).index) =
        { gen := min ((ticketOf c.params).gen + 1) 0xFFFFFF, used := false, data := [] } ∧
      Keeps [.fuses, .deal, .ports, .disp, .lats, .trngs, .guard, .cers, .joker, .shuffle] s t)

/-- The operations of a public-key core (08 R222, R225 to R237, R242): with the row's own job in the bank that runs, an operation computes its outcome
and the core holds it until PKE_JOB_COMPLETE; RSA key generation draws its first candidate instead. `Keeps` names the units an act leaves as they
were. Completes: keyGenerate, pkeEcdsaSign, pkeEcdsaVerify, pkeEd25519Sign, pkeEd25519Verify, pkeAgree, pkeRsaSign, pkeRsaPublic, pkeRsaUnwrap,
pkeMldsaVerify. It rests on choices of the model: log 5, 14. -/
def Obligations.PkeOperationsRun : Prop :=
  (∀ (s : State) (n k b op : Nat) (i : Instr) (j : Job) (c : Cmd),
    (op, i) ∈ [(0x01, Instr.pkeEcdsaSign n k), (0x02, .pkeEcdsaVerify n k), (0x03, .pkeEd25519Sign n k), (0x04, .pkeEd25519Verify n k),
      (0x11, .pkeAgree n k), (0x21, .pkeRsaSign n k), (0x22, .pkeRsaPublic n k), (0x23, .pkeRsaUnwrap n k), (0x31, .pkeMldsaVerify n k),
      (0x40, .keyGenerate n k)] →
    s.power.on = true → s.hasSeat n = true → k < 8 → Machine.Part.runningBank (s.pke n k) = some b → Machine.Part.bank (s.pke n k) b = some j →
    j.prog = op → j.out = none → s.findCmd j.uid = some c → (op = 0x40 → field c.params 4 1 ≠ 0x20) →
    (Machine.Part.drawsRandom c = true → s.drbgServes n = true) → ∃ t, exec i s = .next t ∧
      Machine.Part.bank (t.pke n k) b = some { j with
        out := some (Machine.Part.pkeOutcome c (s.pkeResult n c).1), sound := (s.pkeResult n c).2 } ∧
      Machine.Part.bank (t.pke n k) (1 - b) = Machine.Part.bank (s.pke n k) (1 - b) ∧ t.draws = s.draws + Machine.Part.drawCount c ∧
      Keeps [.fuses, .power, .deal, .ports, .xct, .disp, .vault, .lats, .guard, .part, .evr, .cers, .joker, .shuffle] s t) ∧
  (∀ (s : State) (n k : Nat) (j : Job) (c : Cmd), s.power.on = true → s.hasSeat n = true → k < 8 → (s.pke n k).bank0 = none →
    (s.pke n k).bank1 = some j → (s.pke n k).parked = false → j.prog = 0x40 → j.out = none → s.findCmd j.uid = some c →
    field c.params 4 1 = 0x20 → (s.pke n k).keygen.stage = 0 → s.drbgServes n = true → ∃ t, exec (.keyGenerate n k) s = .next t ∧
      t.pke n k = { s.pke n k with keygen := { stage := 1, candidate := Pk.candidate (32 * field c.params 5 1) (s.drawn 512) } } ∧
      t.draws = s.draws + 512 ∧
      Keeps [.fuses, .power, .deal, .ports, .xct, .disp, .vault, .lats, .guard, .part, .evr, .cers, .joker, .shuffle] s t)

/-- The rows of a public-key core (08 R223, R224, R235, R237, R239, R240, R241, R243): an idle core takes a checked job into bank 0, a Long one into
bank 1; a job ends after its count; at a yield point a Long job parks and the waiting Trump job takes bank 0 after 256 cycles; the parked job resumes
256 cycles after it; a step of RSA key generation keeps or replaces its candidate. `Keeps` names the units an act leaves as they were. Completes:
pkeJobStart, pkeJobComplete, pkeYieldPoint, pkeLongResume, keygenStepComplete. It rests on choices of the model: log 2, 14, 77. -/
def Obligations.PkeRowsAct : Prop :=
  (∀ (s : State) (n k : Nat) (ecc : Decoded) (c : Cmd) (count : Nat) (uses : List Machine.Part.KeyUse) (q : Machine.Part), s.power.on = true →
    s.hasSeat n = true → k < 8 → s.tileUp (siteTile n .pke k) = true → s.engineBusy n .pke k = false → s.seatIn n .inService = true →
    s.nextFor n .pke (fun c => c.cls != .long || s.longCores n < s.disp.longCap.toNat) = some c →
    (s.atTime (s.tile (siteTile n .pke k)).since).pkeCheck n c = .go count uses → ecc ≠ .uncorrectable →
    ((s.atTime (s.tile (siteTile n .pke k)).since).keyRead n c ecc).1.chargeAll n c uses = .ok q →
    ∃ t, exec (.pkeJobStart n k ecc) s = .next t ∧ Machine.Part.bank (t.pke n k) (if c.cls = .long then 1 else 0) =
      some { uid := c.uid, prog := opOf c.code, start := q.now, count := count } ∧
      Keeps [.fuses, .deal, .ports, .lats, .trngs, .guard, .cers, .joker] s t) ∧
  (∀ (s : State) (n k : Nat) (ecc : Decoded) (c : Cmd) (st : BitVec 16) (pl : Bytes), s.power.on = true →
    s.hasSeat n = true → k < 8 → s.tileUp (siteTile n .pke k) = true → s.engineBusy n .pke k = false → s.seatIn n .inService = true →
    s.nextFor n .pke (fun c => c.cls != .long || s.longCores n < s.disp.longCap.toNat) = some c →
    (s.atTime (s.tile (siteTile n .pke k)).since).pkeCheck n c = .refuse st pl → s.findCmd c.uid = some c → c.isCall = false → c.retract = none →
    ∃ t, exec (.pkeJobStart n k ecc) s = .next t ∧ Rising t c.uid n st pl ∧ t.pke n k = s.pke n k ∧
      (t.tile (siteTile n .pke k)).since = t.now + 400 ∧
      Keeps [.fuses, .deal, .ports, .lats, .trngs, .guard, .cers, .joker] s t) ∧
  (∀ (s : State) (n k : Nat) (ecc : Decoded) (j : Job) (o : Outcome) (c : Cmd), s.power.on = true → s.hasSeat n = true → k < 8 →
    (s.pke n k).bank0 = some j → j.out = some o → s.findCmd j.uid = some c → (Machine.Part.drawsRandom c = true → s.drbgServes n = true) →
    let p := s.toPart.decoded n ecc Machine.Part.locOperand k
    (ecc ≠ .uncorrectable → j.sound = true → o.effect = .none → c.isCall = false → c.retract = none →
      ∃ t, exec (.pkeJobComplete n k true ecc) s = .next t ∧ Rising t j.uid n o.status o.payload ∧
        (t.pke n k).bank0 = none ∧ (t.pke n k).bank1 = (s.pke n k).bank1 ∧ j.start + j.elapsed + j.count ≤ t.now) ∧
    (ecc ≠ .uncorrectable → ∀ ok, (ok && j.sound) = false → (s.pke n k).bank1 = none → exec (.pkeJobComplete n k ok ecc) s = .next (after s
      ((((p.atTime (j.start + j.elapsed + j.count)).bump (regAddr n (Machine.Part.pkeWin k) 0x0118)).countScrub n .pke k).engineFault
        n .pke k j.uid))) ∧
    (ecc = .uncorrectable → ∀ ok, exec (.pkeJobComplete n k ok ecc) s =
      .next (after s (p.stopWork j.uid (some Status.abortedScrubbed))))) ∧
  (∀ (s : State) (n k o count : Nat) (j : Job) (c tr : Cmd) (uses : List Machine.Part.KeyUse) (q : Machine.Part), s.power.on = true →
    s.hasSeat n = true → k < 8 → (s.pke n k).bank1 = some j → (s.pke n k).parked = false → (s.pke n k).bank0 = none →
    (List.range 8).any (fun i => s.idleCore n i) = false → s.seatIn n .inService = true → s.findCmd j.uid = some c → s.firstTrump n = some tr →
    tr.cls = .trump → s.nextYield c j (s.pke n k).keygen = some o →
    (List.range k).any (fun i => s.yieldTime n i == s.yieldTime n k) = false →
    let p' := (((s.toPart.atTime (j.start + j.elapsed + o)).wait 256).setPke n k
      { s.pke n k with parked := true, bank1 := some { j with offset := o } }).bump (regAddr n (Machine.Part.pkeWin k) 0x0120)
    p'.pkeCheck n tr = .go count uses → p'.chargeAll n tr uses = .ok q →
    ∃ t, exec (.pkeYieldPoint n k) s = .next t ∧ (t.pke n k).bank0 = some { uid := tr.uid, prog := opOf tr.code, start := q.now, count := count } ∧
      Keeps [.fuses, .deal, .ports, .lats, .trngs, .guard, .cers, .joker] s t) ∧
  (∀ (s : State) (n k : Nat) (j : Job), s.power.on = true → s.hasSeat n = true → k < 8 → (s.pke n k).bank1 = some j → (s.pke n k).parked = true →
    (s.pke n k).bank0 = none → (s.tile (siteTile n .pke k)).st ≠ .scrubbing → ∃ t, exec (.pkeLongResume n k) s = .next t ∧
      (t.pke n k).parked = false ∧ t.now = max s.now (s.tile (siteTile n .pke k)).since + 256 ∧
      (t.pke n k).bank1 = some { j with elapsed := t.now - j.start - j.offset } ∧
      Keeps [.fuses, .power, .deal, .ports, .xct, .disp, .vault, .lats, .trngs, .guard, .part, .evr, .cers, .joker, .shuffle, .counts] s t) ∧
  (∀ (s : State) (n k m : Nat) (j : Job) (c : Cmd), s.power.on = true → s.hasSeat n = true → k < 8 → (s.pke n k).bank1 = some j →
    s.findCmd j.uid = some c → (s.pke n k).parked = false → s.drbgServes n = true → m = field c.params 5 1 →
    let g := (s.pke n k).keygen
    let rest := s.toPart.draw 2048
    (g.stage = 1 → Pk.keepCandidate (32 * m) g.candidate g.primes (s.drawn 2048) = true → ∃ t, exec (.keygenStepComplete n k) s = .next t ∧
      (t.pke n k).keygen = { g with stage := 2, cycles := g.cycles + PkCount.cand m } ∧ t.draws = s.draws + 2048 ∧
      Keeps [.fuses, .power, .deal, .ports, .xct, .disp, .vault, .lats, .guard, .part, .evr, .cers, .joker, .shuffle] s t) ∧
    (g.stage = 1 → Pk.keepCandidate (32 * m) g.candidate g.primes (s.drawn 2048) = false → ∃ t, exec (.keygenStepComplete n k) s = .next t ∧
      (t.pke n k).keygen = { g with stage := 1, rejected := g.rejected + 1, candidate := Pk.candidate (32 * m) (rest.drawn 512)
                                    cycles := g.cycles + PkCount.cand m } ∧ t.draws = s.draws + 2560 ∧
      Keeps [.fuses, .power, .deal, .ports, .xct, .disp, .vault, .lats, .guard, .part, .evr, .cers, .joker, .shuffle] s t) ∧
    (g.stage = 2 → Pk.confirmed (32 * m) g.candidate (s.drawn 2048) = true → g.primes = [] → ∃ t, exec (.keygenStepComplete n k) s = .next t ∧
      (t.pke n k).keygen = { g with stage := 1, primes := [g.candidate], candidate := Pk.candidate (32 * m) (rest.drawn 512)
                                    cycles := g.cycles + 4 * PkCount.mr m } ∧
      Keeps [.fuses, .power, .deal, .ports, .xct, .disp, .vault, .lats, .guard, .part, .evr, .cers, .joker, .shuffle] s t) ∧
    (∀ a, g.stage = 2 → Pk.confirmed (32 * m) g.candidate (s.drawn 2048) = true → g.primes = [a] → ∃ t j',
      exec (.keygenStepComplete n k) s = .next t ∧ (t.pke n k).keygen.stage = 3 ∧ (t.pke n k).bank1 = some j' ∧
      j'.out = some (Machine.Part.pkeOutcome c (.key (Pk.rsaKey (32 * m) a g.candidate).1 (Pk.rsaKey (32 * m) a g.candidate).2)) ∧
      j'.count = g.cycles + 4 * PkCount.mr m + PkCount.fin m ∧
      Keeps [.fuses, .power, .deal, .ports, .xct, .disp, .vault, .lats, .guard, .part, .evr, .cers, .joker, .shuffle] s t))

/-- DGST_HASH and the context commands of a digest engine (09 R250 to R258, R264): with its whole data there, the engine's digest has its outcome and
its count; a context without a key is exported, imported, discarded. `Keeps` names the units an act leaves as they were. Completes: dgstHash,
dgstCtxExport, dgstCtxImport, dgstCtxDiscard. It rests on choices of the model: log 5. -/
def Obligations.DigestCommandsRun : Prop :=
  (∀ (s : State) (n e : Nat) (j : Job) (c : Cmd) (data : Bytes), s.power.on = true → s.hasSeat n = true → e < 2 → (s.dgst n e).job = some j →
    j.prog = 0x6001 → j.out = none → s.findCmd j.uid = some c → s.digestFeed c (Dg.req c.params) = .whole data →
    ∃ t j', exec (.dgstHash n e) s = .next t ∧ (t.dgst n e).job = some j' ∧ j' = { j with out := j'.out, count := j'.count } ∧
      j'.out = some (s.digestOutcome n c (Dg.req c.params) (j.resumed.getD []) data) ∧
      Keeps [.fuses, .power, .deal, .ports, .xct, .disp, .vault, .lats, .trngs, .guard, .part, .evr, .cers, .joker, .shuffle, .counts] s t) ∧
  (∀ (s : State) (n e : Nat) (j : Job) (c : Cmd), s.power.on = true → s.hasSeat n = true → e < 2 → (s.dgst n e).job = some j →
    s.findCmd j.uid = some c → c.uid = j.uid → c.code = 0x6101 → s.linkUp n = true → c.isCall = false → c.retract = none → c.params.length = 16 →
    allZero (slice c.params 8 8) = true → s.ticketFault c.hand (ticketOf (c.params.take 8)) = none →
    field (s.ctx (Machine.Part.ctxKey (ticketOf (c.params.take 8)).hand (ticketOf (c.params.take 8)).index)).data 0 1 = 2 →
    field (s.ctx (Machine.Part.ctxKey (ticketOf (c.params.take 8)).hand (ticketOf (c.params.take 8)).index)).data 2 1 = 0 →
    ∃ t, exec (.dgstCtxExport n e) s = .next t ∧ Rising t c.uid n Status.done
      ([1, 0, 0, 0] ++ toBE 4 (s.ctx (Machine.Part.ctxKey (ticketOf (c.params.take 8)).hand (ticketOf (c.params.take 8)).index)).data.length ++
        (s.ctx (Machine.Part.ctxKey (ticketOf (c.params.take 8)).hand (ticketOf (c.params.take 8)).index)).data) ∧
      (t.ctx (Machine.Part.ctxKey (ticketOf (c.params.take 8)).hand (ticketOf (c.params.take 8)).index)).used = false ∧
      Keeps [.fuses, .deal, .ports, .lats, .trngs, .guard, .cers, .joker] s t) ∧
  (∀ (s : State) (n e : Nat) (j : Job) (c : Cmd) (g : Nat), s.power.on = true → s.hasSeat n = true → e < 2 → (s.dgst n e).job = some j →
    s.findCmd j.uid = some c → c.uid = j.uid → c.code = 0x6102 → s.linkUp n = true → c.isCall = false → c.retract = none → c.params.length = 272 →
    allZero (slice c.params 0 8) = true → slice c.params 8 8 = [1, 0, 0, 0, 0, 0, 1, 0] → Dg.recordOk (c.params.drop 16) = true →
    field (c.params.drop 16) 2 1 = 0 → field (c.params.drop 16) 4 1 = c.hand → s.freeRecord c.hand = some g →
    ∃ t, exec (.dgstCtxImport n e) s = .next t ∧ Rising t c.uid n Status.done
      (toBE 1 c.hand ++ toBE 3 ((s.ctx (Machine.Part.ctxKey c.hand g)).gen + 1) ++ toBE 2 (s.vault.incarnation % 65536) ++ toBE 2 g) ∧
      t.ctx (Machine.Part.ctxKey c.hand g) = { gen := (s.ctx (Machine.Part.ctxKey c.hand g)).gen + 1, used := true, data := c.params.drop 16 } ∧
      Keeps [.fuses, .deal, .ports, .lats, .trngs, .guard, .cers, .joker] s t) ∧
  (∀ (s : State) (n e : Nat) (j : Job) (c : Cmd), s.power.on = true → s.hasSeat n = true → e < 2 → (s.dgst n e).job = some j →
    s.findCmd j.uid = some c → c.uid = j.uid → c.code = 0x6103 → s.linkUp n = true → c.isCall = false → c.retract = none → c.params.length = 8 →
    s.ticketFault c.hand (ticketOf c.params) = none →
    field (s.ctx (Machine.Part.ctxKey (ticketOf c.params).hand (ticketOf c.params).index)).data 0 1 = 2 →
    ∃ t, exec (.dgstCtxDiscard n e) s = .next t ∧ Rising t c.uid n Status.done [] ∧
      t.ctx (Machine.Part.ctxKey (ticketOf c.params).hand (ticketOf c.params).index) =
        { gen := min ((ticketOf c.params).gen + 1) 0xFFFFFF, used := false, data := [] } ∧
      Keeps [.fuses, .deal, .ports, .disp, .lats, .trngs, .guard, .cers, .joker, .shuffle] s t)

/-- The rows of a digest engine (09 R248, R252, R255 to R258, R266): an engine takes its next job; a finished digest leaves its output in RES and its
outcome on the way to the Dealer; a parity fault stops the job and scrubs the engine. The register feed of engine B (09 R259 to R262): a core with the
grant claims an idle engine and releases it; a waiting claim is granted when the job ends; 10 µs without an access ends a claim; GO starts an unkeyed
job, DATA and LAST feed it, the last block's end makes the output ready, CMP compares it. `Keeps` names the units an act leaves as they were.
Completes: digestJobStart, digestJobComplete, digestParityFault, dgstbClaim, dgstbRelease, dgstbClaimGrant, dgstbClaimTimeout, dgstbGo, dgstbData,
dgstbLast, dgstbBlockDone, dgstbCmp. It rests on choices of the model: log 2, 29, 30, 72, 73, 77. -/
def Obligations.DigestRowsAct : Prop :=
  (∀ (s : State) (n e : Nat) (ecc : Decoded) (c : Cmd) (k : Option Slot) (q : Machine.Part), s.power.on = true → s.hasSeat n = true → e < 2 →
    s.tileUp (siteTile n .digest e) = true → (s.dgst n e).job = none → (s.dgst n e).reg = none → (s.dgst n e).claim = none →
    (s.dgst n e).wanted = none → s.seatIn n .inService = true → s.nextFor n .digest (s.dgstFit n e) = some c → c.code = 0x6001 →
    (Dg.req c.params).resume = false → (s.atTime (s.tile (siteTile n .digest e)).since).dgstCheck n c = .ok k →
    ecc ≠ .uncorrectable →
    ((s.atTime (s.tile (siteTile n .digest e)).since).keyRead n c ecc).1.chargeAll n c (Machine.Part.digestUses k c.params) = .ok q →
    ∃ t j, exec (.digestJobStart n e ecc) s = .next t ∧ (t.dgst n e).job = some j ∧ j.uid = c.uid ∧ j.prog = 0x6001 ∧ j.start = q.now ∧ j.out = none ∧
      j.resumed = none ∧ j.count = Dg.count (Dg.req c.params) ((Dg.req c.params).len.getD 0) 0 ((k.map (·.material.length)).getD 0) ∧
      Keeps [.fuses, .deal, .ports, .lats, .trngs, .guard, .cers, .joker] s t) ∧
  (∀ (s : State) (n e : Nat) (ecc : Decoded) (c : Cmd) (st : BitVec 16) (pl : Bytes), s.power.on = true → s.hasSeat n = true → e < 2 →
    s.tileUp (siteTile n .digest e) = true → (s.dgst n e).job = none → (s.dgst n e).reg = none → (s.dgst n e).claim = none →
    (s.dgst n e).wanted = none → s.seatIn n .inService = true → s.nextFor n .digest (s.dgstFit n e) = some c → c.code = 0x6001 →
    (s.atTime (s.tile (siteTile n .digest e)).since).dgstCheck n c = .error (st, pl) → s.findCmd c.uid = some c → c.isCall = false →
    c.retract = none → ∃ t, exec (.digestJobStart n e ecc) s = .next t ∧ Rising t c.uid n st pl ∧ t.dgst n e = s.dgst n e ∧
      (t.tile (siteTile n .digest e)).since = t.now + 400 ∧
      Keeps [.fuses, .deal, .ports, .lats, .trngs, .guard, .cers, .joker] s t) ∧
  (∀ (s : State) (n e : Nat) (ecc : Decoded) (j : Job) (o : Outcome) (c : Cmd), s.power.on = true → s.hasSeat n = true → e < 2 →
    (s.dgst n e).job = some j → j.out = some o → o.effect = .none → s.findCmd j.uid = some c →
    (ecc ≠ .uncorrectable → c.isCall = false → c.retract = none → (allZero (slice c.params 0 8) = true ∨ s.drbgServes n = true) →
      (o.status = Status.done ∨ o.status = DgStatus.mismatch) → ∃ t, exec (.digestJobComplete n e ecc) s = .next t ∧
      Rising t j.uid n o.status o.payload ∧ (t.dgst n e).job = none ∧ (t.dgst n e).res = slice o.payload 24 (field o.payload 16 1) ∧
      j.start + j.count ≤ t.now) ∧
    (ecc = .uncorrectable → exec (.digestJobComplete n e ecc) s = .next (after s
      ((s.toPart.decoded n ecc Machine.Part.locOperand e).stopWork j.uid (some Status.abortedScrubbed))))) ∧
  (∀ (s : State) (n e : Nat) (j : Job), s.power.on = true → s.hasSeat n = true → e < 2 → (s.dgst n e).job = some j →
    exec (.digestParityFault n e) s = .next (after s (((s.toPart.bump (regAddr n (dgstWin e) 0x0120)).bump
      (regAddr n (dgstWin e) 0x0110)).engineFault n .digest e j.uid))) ∧
  (∀ (s : State) (n k : Nat), s.power.on = true → s.hasSeat n = true → k < 4 → (s.core n k).run = .running → (s.core n k).stalledAt = none →
    (s.grantsOf (s.core n k)).getLsbD 0 = true →
    ((s.dgst n 1).claim = none → (s.dgst n 1).wanted = none →
      ((s.dgst n 1).job = none → s.tileUp (siteTile n .digest 1) = true → ∃ t, exec (.dgstbClaim n k) s = .next t ∧
        (t.dgst n 1).claim = some k ∧ (t.dgst n 1).wanted = none ∧ (t.dgst n 1).lastAccess = s.now ∧ (t.dgst n 1).job = none ∧
        Keeps [.fuses, .power, .deal, .ports, .xct, .disp, .vault, .lats, .trngs, .guard, .part, .evr, .cers, .joker, .shuffle, .counts] s t) ∧
      (((s.dgst n 1).job ≠ none ∨ s.tileUp (siteTile n .digest 1) = false) → ∃ t, exec (.dgstbClaim n k) s = .next t ∧
        (t.dgst n 1).claim = none ∧ (t.dgst n 1).wanted = some k ∧ (t.dgst n 1).job = (s.dgst n 1).job ∧
        Keeps [.fuses, .power, .deal, .ports, .xct, .disp, .vault, .lats, .trngs, .guard, .part, .evr, .cers, .joker, .shuffle, .counts] s t)) ∧
    ((s.dgst n 1).claim = some k → (s.dgst n 1).reg = none → ∃ t, exec (.dgstbRelease n k) s = .next t ∧ (t.dgst n 1).claim = none ∧
        Keeps [.fuses, .power, .deal, .ports, .xct, .vault, .lats, .trngs, .guard, .part, .evr, .cers, .joker, .shuffle] s t) ∧
    (∀ ctrl len, (s.dgst n 1).claim = some k → (ctrl : Word).toNat / 256 % 4 = 0 → 1 ≤ ctrl.toNat % 16 → ctrl.toNat % 16 ≤ 8 →
      (Dg.isShake (ctrl.toNat % 16) = false → ctrl.toNat / 65536 % 64 = 0) → (len : BitVec 64).toNat ≤ 2 ^ 48 →
      (s.core n k).uid.bind s.findCmd ≠ none → (s.tile (siteTile n .digest 1)).st ≠ .scrubbing →
      ∃ t, exec (.dgstbGo n k ctrl 0 len) s = .next t ∧ (t.dgst n 1).reg = some
          { alg := ctrl.toNat % 16, inject := 0, outLen := ctrl.toNat / 65536 % 64 + 1, len := len.toNat, key := 0, begun := s.now } ∧
        (t.dgst n 1).lastAccess = (s.dgst n 1).lastAccess ∧ (t.dgst n 1).done = false ∧ (t.dgst n 1).busy = false ∧
        Keeps [.fuses, .power, .deal, .ports, .xct, .disp, .vault, .lats, .trngs, .guard, .part, .evr, .cers, .joker, .shuffle] s t) ∧
    (∀ j value, (s.dgst n 1).claim = some k → (s.dgst n 1).reg = some j → (s.dgst n 1).busy = false → j.lastSeen = false →
      j.fed.length + 4 ≤ j.len → ∃ t, exec (.dgstbData n k value) s = .next t ∧
        (t.dgst n 1).reg = some { j with fed := j.fed ++ toBE 4 value.toNat } ∧
        (t.dgst n 1).busy = ((j.fed.length + 4) % Dg.block j.alg == 0) ∧
        Keeps [.fuses, .power, .deal, .ports, .xct, .vault, .lats, .trngs, .guard, .part, .evr, .cers, .joker, .shuffle] s t) ∧
    (∀ j value, (s.dgst n 1).claim = some k → (s.dgst n 1).reg = some j → (s.dgst n 1).busy = false → j.lastSeen = false →
      value.toNat / 4 % 64 = 0 → j.fed.length + value.toNat % 4 = j.len → ∃ t, exec (.dgstbLast n k value) s = .next t ∧
        (t.dgst n 1).reg = some { j with fed := j.fed ++ (toBE 4 value.toNat).take (value.toNat % 4), lastSeen := true } ∧
        (t.dgst n 1).busy = true ∧
        Keeps [.fuses, .power, .deal, .ports, .xct, .vault, .lats, .trngs, .guard, .part, .evr, .cers, .joker, .shuffle] s t) ∧
    (∀ value expected, (s.dgst n 1).claim = some k → (s.dgst n 1).done = true → 4 ≤ (value : Word).toNat % 128 →
      value.toNat % 128 ≤ (s.dgst n 1).output.length → ∃ t, exec (.dgstbCmp n k value expected) s = .next t ∧
        (t.dgst n 1).matched = ((s.dgst n 1).output.take (value.toNat % 128) == (padTo 64 expected).take (value.toNat % 128)) ∧
        t.now = s.now + 32 ∧
        Keeps [.fuses, .power, .deal, .ports, .xct, .disp, .vault, .lats, .trngs, .guard, .part, .evr, .cers, .joker, .shuffle, .counts] s t)) ∧
  (∀ (s : State) (n k : Nat), s.power.on = true → s.hasSeat n = true → (s.dgst n 1).wanted = some k → (s.dgst n 1).job = none →
    (s.dgst n 1).claim = none → s.tileUp (siteTile n .digest 1) = true → ∃ t, exec (.dgstbClaimGrant n) s = .next t ∧ (t.dgst n 1).claim = some k ∧ (t.dgst n 1).wanted = none ∧
      (t.dgst n 1).lastAccess = t.now ∧
      Keeps [.fuses, .power, .deal, .ports, .xct, .disp, .vault, .lats, .trngs, .guard, .part, .evr, .cers, .joker, .shuffle, .counts] s t) ∧
  (∀ (s : State) (n k : Nat), s.power.on = true → s.hasSeat n = true → (s.dgst n 1).claim = some k → ∃ t, exec (.dgstbClaimTimeout n) s = .next t ∧
    (t.dgst n 1).claim = none ∧ (s.dgst n 1).lastAccess + usec 10 ≤ t.now ∧
    ((s.dgst n 1).reg ≠ none → (t.dgst n 1).status = Status.digestContextPoisoned ∧ (t.dgst n 1).res = []) ∧
      Keeps [.fuses, .power, .deal, .ports, .xct, .vault, .lats, .trngs, .guard, .part, .evr, .cers, .joker, .shuffle] s t) ∧
  (∀ (s : State) (n k : Nat) (j : RegJob), s.power.on = true → s.hasSeat n = true → (s.dgst n 1).reg = some j → (s.dgst n 1).claim = some k →
    (s.dgst n 1).busy = true → j.key = 0 → ∃ t, exec (.dgstbBlockDone n) s = .next t ∧ (t.dgst n 1).busy = false ∧ (s.dgst n 1).due ≤ t.now ∧
      (j.lastSeen = true → j.inject = 0 → (t.dgst n 1).done = true ∧ (t.dgst n 1).status = Status.done ∧ (t.dgst n 1).reg = none ∧
        (t.dgst n 1).res = Dg.finish j.alg (Dg.start j.alg) j.fed j.fed.length (Dg.outLen j.alg j.outLen)) ∧
      Keeps [.fuses, .power, .deal, .ports, .xct, .vault, .lats, .trngs, .guard, .part, .evr, .cers, .joker, .shuffle] s t)

/-- The life of an applet instance (10 R275 to R278): an idle core of a Seat in service takes an invocation of an image of its hand; the instance
starts with its input in the mailbox; an ecall with a7 = 0 ends it with its output once no call is outstanding; a budget that is spent ends it with
APPLET_TIMEOUT, an illegal instruction with APPLET_TRAP; a doorbell places a call of the core. `Keeps` names the units an act leaves as they were.
Completes: appletInvoke, appletInstanceStart, appletEcall, appletException, appletBudgetExpired, coreDoorbell. It rests on choices of the model: log
2, 15, 30. -/
def Obligations.AppletRowsAct : Prop :=
  (∀ (s : State) (n k : Nat) (c : Cmd) (i : Image), s.power.on = true → s.hasSeat n = true → k < 4 → (s.core n k).run = .idle →
    s.seatIn n .inService = true → s.nextFor n .core (fun c => s.coreServes n k c.hand) = some c → 16 ≤ c.params.length →
    c.params.length = 16 + field c.params 8 4 → field c.params 8 4 ≤ 8192 → allZero (slice c.params 4 4) = true →
    allZero (slice c.params 12 4) = true → s.imageOf c.epoch c.hand (field c.params 0 4) = some i →
    ∃ t, exec (.appletInvoke n k) s = .next t ∧ t.core n k =
      { s.core n k with run := .loading, uid := some c.uid, hand := BitVec.ofNat 8 c.hand, started := s.now } ∧
      Keeps [.fuses, .deal, .ports, .vault, .lats, .trngs, .guard, .cers, .joker, .shuffle] s t) ∧
  (∀ (s : State) (n k u : Nat) (c : Cmd) (i : Image), s.power.on = true → s.hasSeat n = true → k < 4 → (s.core n k).run = .loading →
    (s.core n k).uid = some u → s.findCmd u = some c → s.imageOf c.epoch c.hand (field c.params 0 4) = some i →
    (s.linkUp n = true ∨ ((s.core n k).image = i.id ∧ (s.core n k).serial = ((s.dealOf c.epoch).map (·.serial)).getD 0)) →
    ∃ t, exec (.appletInstanceStart n k) s = .next t ∧ (t.core n k).run = .running ∧ (t.core n k).image = i.id ∧
      (t.core n k).a0 = BitVec.ofNat 64 (c.params.drop 16).length ∧ (t.core n k).a1 = 0x10000 ∧
      (t.core n k).pc = BitVec.ofNat 64 (codeAt + i.entry) ∧ (t.core n k).calls = [] ∧ s.now ≤ t.now ∧
      Keeps [.fuses, .power, .deal, .ports, .xct, .disp, .vault, .lats, .trngs, .guard, .part, .evr, .cers, .joker, .shuffle] s t) ∧
  (∀ (s : State) (n k u : Nat) (c : Cmd) (a0 a1 : BitVec 64), s.power.on = true → s.hasSeat n = true → k < 4 → (s.core n k).run = .running →
    (s.core n k).stalledAt = none → (s.core n k).uid = some u → (s.core n k).calls = [] → s.findCmd u = some c → a1.toNat ≤ 8192 → 
    ∃ t, exec (.appletEcall n k 0 a0 a1) s = .next t ∧ (t.core n k).run = .idle ∧ (t.core n k).uid = none ∧
      Rising t u n Status.done (toBE 4 (a0.toNat % 2 ^ 32) ++ zeros 4 ++ toBE 4 a1.toNat ++ zeros 4 ++ s.readSram n k mailOut a1.toNat) ∧
      Keeps [.fuses, .deal, .ports, .lats, .trngs, .guard, .cers, .joker, .shuffle] s t) ∧
  (∀ (s : State) (n k u : Nat) (c : Cmd) (cause pc : BitVec 64), s.power.on = true → s.hasSeat n = true → k < 4 → (s.core n k).run = .running →
    (s.core n k).uid = some u → s.findCmd u = some c → c.isCall = false → c.retract = none → s.callsOf n k = [] → s.seatIn n .inService = true →
    ∃ t, exec (.appletException n k .illegalInstruction cause pc) s = .next t ∧ (t.core n k).run = .idle ∧
      Rising t u n ApStatus.trap (toBE 8 cause.toNat ++ toBE 8 pc.toNat) ∧
      Keeps [.fuses, .deal, .ports, .lats, .trngs, .guard, .cers, .joker, .shuffle] s t) ∧
  (∀ (s : State) (n k u : Nat) (c : Cmd) (i : Image), s.power.on = true → s.hasSeat n = true → k < 4 → (s.core n k).run = .running →
    (s.core n k).uid = some u → s.findCmd u = some c → c.isCall = false → c.retract = none → s.callsOf n k = [] → s.seatIn n .inService = true →
    s.imageOf c.epoch c.hand (s.core n k).image = some i → ∃ t, exec (.appletBudgetExpired n k) s = .next t ∧ (t.core n k).run = .idle ∧
      Rising t u n ApStatus.timeout [] ∧ (s.core n k).started + 2 * i.budget ≤ t.now ∧
      Keeps [.fuses, .deal, .ports, .lats, .trngs, .guard, .cers, .joker, .shuffle] s t) ∧
  (∀ (s : State) (n k : Nat) (value : Word), s.power.on = true → s.hasSeat n = true → k < 4 → (s.core n k).run = .running →
    (s.core n k).stalledAt = none → value.toNat % 32 = 0 → guardAllowsAll (s.masterWindows n 4 k) .read value.toNat 32 = true →
    guardAllowsAll (s.masterWindows n 4 k) .read (field (s.readSram n k value.toNat 32) 8 8) (field (s.readSram n k value.toNat 32) 4 4) = true →
    (s.core n k).calls.length < 32 → callCodes.contains (field (s.readSram n k value.toNat 32) 0 2) = true → s.solo = false →
    (vaultMutations.contains (field (s.readSram n k value.toNat 32) 0 2) = true → s.survivesBoth (s.core n k).hand.toNat = true) →
    ((((s.core n k).uid.bind s.findCmd).map (·.epoch)).getD s.deal.epoch = s.deal.epoch → s.busyWrite (s.core n k).hand.toNat (field (s.readSram n k value.toNat 32) 0 2)
      (s.readSram n k (field (s.readSram n k value.toNat 32) 8 8) (field (s.readSram n k value.toNat 32) 4 4)) = none) →
    ∃ t, exec (.coreDoorbell n k value) s = .next t ∧
      (t.core n k).calls = (s.core n k).calls ++ [{ desc := value, uid := s.xct.nextUid }] ∧
      Keeps [.fuses, .deal, .ports, .trngs, .guard, .cers, .joker, .shuffle] s t)

/-- Applet data, raised notices and random values (10 R280, 14 R390, 11 R321). The Slot Guard (10 R284 to R288): a forbidden access of a running
instance ends it with ACCESS_FAULT and counts, its address in SGRD_LAST; a drained store writes the bytes its windows allow. `Keeps` names the units
an act leaves as they were. Completes: appdataRead, appdataWrite, trngOutRead, trngOutTimeout, slotGuardViolation, slotGuardStoreDrain, ntcRaise. It
rests on choices of the model: log 15, 31. -/
def Obligations.AppletServicesAct : Prop :=
  (∀ (s : State) (n k : Nat) (d : BitVec 32) (c : Cmd) (b : Bytes) (a : Nat), s.power.on = true → s.guard.dealerHold = none →
    s.findRow (.call n k d) 0x7101 = some c → s.isHead c = true → c.params = b → b.length = 16 → field b 8 4 ≠ 0 → field b 8 4 ≤ 4096 →
    allZero (slice b 12 4) = true → s.appRange c (field b 0 8) (field b 8 4) = some a → (c.hand = 0 ∨ s.vault.st = .open_) →
    s.mustWait c = false → s.unsettled (.app (a / 4096)) = false →
    (List.range ((a % 64 + field b 8 4 + 63) / 64)).any (fun i => s.linePoisoned (appLine (a + 64 * i))) = false →
    (c.epoch = s.deal.epoch → s.appTearing a = false) → exec (.appdataRead (.call n k d) b) s =
      .next (after s (s.toPart.answer c.uid Status.done (Memory.readBytes s.vault.app a (field b 8 4))))) ∧
  (∀ (s : State) (n k : Nat) (d : BitVec 32) (c : Cmd) (b : Bytes) (a : Nat), s.power.on = true → s.guard.dealerHold = none →
    s.findRow (.call n k d) 0x7102 = some c → s.isHead c = true → c.params = b → b.length = 16 + field b 8 4 → field b 8 4 ≠ 0 →
    field b 8 4 ≤ 4096 → allZero (slice b 12 4) = true → s.appRange c (field b 0 8) (field b 8 4) = some a →
    (c.hand = 0 ∨ s.vault.st = .open_) → s.mustWait c = false → s.unsettled (.app (a / 4096)) = false →
    (List.range ((a % 64 + field b 8 4 + 63) / 64)).any (fun i => s.linePoisoned (appLine (a + 64 * i))) = false →
    (c.epoch = s.deal.epoch → s.appTearing a = false) → s.journalRefusal = none → exec (.appdataWrite (.call n k d) b) s =
      .next (after s ((s.toPart.parkCmd c.uid).hostMutation (.appData (field b 0 8) (b.drop 16)) c.hand c.uid [.app (a / 4096)]))) ∧
  (∀ (s : State) (n k : Nat) (v : Word), s.power.on = true → s.hasSeat n = true → k < 4 → (s.core n k).run = .running →
    (s.core n k).stalledAt = none → (s.grantsOf (s.core n k)).getLsbD 2 = true →
    (∀ u, (s.core n k).lastRaise = some u → u + usec 10 ≤ s.now) → exec (.ntcRaise n k v) s = .next (after s
      ((s.toPart.updCore n k (fun c => { c with lastRaise := some s.now })).notice (seatSource n (48 + k)) 0x0F20 1 (s.core n k).hand.toNat
        (toBE 4 (s.core n k).image ++ toBE 4 v.toNat)))) ∧
  (∀ (s : State) (n k : Nat), s.power.on = true → s.hasSeat n = true → k < 4 → (s.core n k).run = .running → (s.core n k).stalledAt = none →
    (s.grantsOf (s.core n k)).getLsbD 1 = true →
    (s.drbgServes n = true → ∃ t, exec (.trngOutRead n k) s = .next t ∧
      t.core n k = { s.core n k with lastRandom := BitVec.ofNat 32 (be (s.drawn 4)) } ∧ t.draws = s.draws + 4 ∧
      Keeps [.fuses, .power, .deal, .ports, .xct, .disp, .vault, .lats, .guard, .part, .evr, .cers, .joker, .shuffle] s t) ∧
    (s.drbgServes n = false → ∃ t, exec (.trngOutRead n k) s = .next t ∧ t.core n k = { s.core n k with stalledAt := some s.now } ∧
      t.draws = s.draws ∧
      Keeps [.fuses, .power, .deal, .ports, .xct, .disp, .vault, .lats, .guard, .part, .evr, .cers, .joker, .shuffle] s t)) ∧
  (∀ (s : State) (n k u t0 : Nat) (c : Cmd), s.power.on = true → s.hasSeat n = true → k < 4 → (s.core n k).stalledAt = some t0 →
    s.drbgServes n = false → (s.core n k).uid = some u → s.findCmd u = some c → c.isCall = false → c.retract = none → s.callsOf n k = [] →
    s.seatIn n .inService = true → ∃ t, exec (.trngOutTimeout n k) s = .next t ∧ t0 + usec 20 ≤ t.now ∧ (t.core n k).run = .idle ∧
      Rising t u n Status.abortedScrubbed [] ∧
      Keeps [.fuses, .deal, .ports, .lats, .trngs, .guard, .cers, .joker, .shuffle] s t) ∧
  (∀ (s : State) (n k u len : Nat) (a : Access) (addr pc : BitVec 32) (c : Cmd), s.power.on = true → s.hasSeat n = true → k < 4 →
    (s.core n k).run = .running → s.accessOk n k k a addr.toNat len = false → guardConflict (s.masterWindows n k k) addr.toNat len = false →
    (s.core n k).uid = some u → s.findCmd u = some c → c.isCall = false → c.retract = none → s.callsOf n k = [] →
    s.seatIn n .inService = true → ∃ t, exec (.slotGuardViolation n k k a addr len pc) s = .next t ∧ (t.core n k).run = .idle ∧
      Rising t u n Status.accessFault [] ∧ Sparse.get 0 t.seats.sgrdLast (n * 8 + k) = addr ∧
      t.count (regAddr n swinSGRD 0x0100) = s.count (regAddr n swinSGRD 0x0100) + 1 ∧
      Keeps [.fuses, .deal, .ports, .trngs, .guard, .cers, .joker, .shuffle] s t) ∧
  (∀ (s : State) (n k : Nat) (addr : BitVec 32) (d : Bytes), s.power.on = true → s.hasSeat n = true → k < 4 → (s.core n k).run = .running →
    d ≠ [] → guardConflict (s.masterWindows n k k) addr.toNat d.length = false →
    guardAllowsAll (s.masterWindows n k k) .write addr.toNat d.length = true → MemoryWf s →
    ∃ t, exec (.slotGuardStoreDrain n k addr d) s = .next t ∧ t.readSram n k addr.toNat d.length = d ∧
      (∀ a, (a < sramBase n k + addr.toNat ∨ sramBase n k + addr.toNat + d.length ≤ a) →
        Memory.read t.seats.sram a = Memory.read s.seats.sram a) ∧
      Keeps [.fuses, .power, .deal, .ports, .xct, .disp, .vault, .lats, .trngs, .guard, .part, .evr, .cers, .joker, .shuffle, .counts] s t)

/-- Key reads (05 R121, R122, R127): KEY_ATTR_READ answers the slot's header, KEY_GEN_READ its state and generation. Counter commands (05 R127, R142
to R144): CTR_READ answers state, high-water and held values; CTR_NEXT issues the next held values, in order, or waits for a grant; CTR_INIT waits for
its mutation. `Keeps` names the units an act leaves as they were. Completes: keyAttrRead, keyGenRead, ctrInit, ctrNext, ctrRead. -/
def Obligations.KeyReadsAndCounters : Prop :=
  (∀ s o c b, Ready s o 0x2006 b c → b.length = 8 → (c.hand = 0 ∨ s.vault.st = .open_) → s.mustWait c = false →
    s.handleFault c.epoch c.hand b 5 = none → exec (.keyAttrRead o b) s =
      .next (after s (s.toPart.answer c.uid Status.done (s.slotSeen c.epoch (handleOf b).slot).header))) ∧
  (∀ s o c b, Ready s o 0x2007 b c → b.length = 8 → allZero (b.drop 4) = true → (c.hand = 0 ∨ s.vault.st = .open_) → s.mustWait c = false →
    field b 0 4 < 8388608 → s.slotInHand c.epoch c.hand (field b 0 4) = true → s.linePoisoned (slotLine (field b 0 4)) = false →
    exec (.keyGenRead o b) s = .next (after s (s.toPart.answer c.uid Status.done
      (toBE 1 (s.slotSeen c.epoch (field b 0 4)).st.code ++ [0] ++ toBE 3 (s.slotSeen c.epoch (field b 0 4)).gen ++ zeros 3)))) ∧
  (∀ x : Slot, x.header.length = 32) ∧
  (∀ s o c b, Ready s o 0x2103 b c → b.length = 8 → allZero (b.drop 4) = true → (c.hand = 0 ∨ s.vault.st = .open_) → s.mustWait c = false →
    field b 0 4 < 1048576 → s.ctrInHand c.epoch c.hand (field b 0 4) = true → s.linePoisoned (ctrLine (field b 0 4)) = false →
    exec (.ctrRead o b) s = .next (after s (s.toPart.answer c.uid Status.done
      (toBE 1 (s.ctrSeen c.epoch (field b 0 4)).st.code ++ zeros 7 ++ toBE 8 (s.ctrSeen c.epoch (field b 0 4)).hw ++
        toBE 8 (if (s.ctrSeen c.epoch (field b 0 4)).st = .uninit then 0 else s.heldValues (field b 0 4)))))) ∧
  (∀ s o c b, Ready s o 0x2102 b c → b.length = 8 → 1 ≤ field b 4 4 → field b 4 4 ≤ 64 → (c.hand = 0 ∨ s.vault.st = .open_) →
    s.mustWait c = false → field b 0 4 < 1048576 → s.ctrInHand c.epoch c.hand (field b 0 4) = true →
    s.linePoisoned (ctrLine (field b 0 4)) = false → (s.ctrSeen c.epoch (field b 0 4)).st ≠ .uninit →
    field b 4 4 ≤ s.heldValues (field b 0 4) → exec (.ctrNext o b) s =
      .next (after s ((s.toPart.issueValues (field b 0 4) (field b 4 4)).1.answer c.uid Status.done
        ((s.toPart.issueValues (field b 0 4) (field b 4 4)).2.flatMap (toBE 8))))) ∧
  (∀ s o c b, Ready s o 0x2102 b c → b.length = 8 → 1 ≤ field b 4 4 → field b 4 4 ≤ 64 → (c.hand = 0 ∨ s.vault.st = .open_) →
    s.mustWait c = false → field b 0 4 < 1048576 → s.ctrInHand c.epoch c.hand (field b 0 4) = true →
    s.linePoisoned (ctrLine (field b 0 4)) = false → (s.ctrSeen c.epoch (field b 0 4)).st ≠ .uninit →
    s.heldValues (field b 0 4) < field b 4 4 → (s.ctr (field b 0 4)).st ≠ .exhausted → (s.solo = true → s.part.lead = true) →
    s.soloLimit (field b 0 4) = false → s.survivesBoth c.hand = true → ∃ t, exec (.ctrNext o b) s = .next t ∧ t.vault = { s.vault with leaseWaits := s.vault.leaseWaits ++ [(field b 0 4, c.uid)] } ∧
      (t.findCmd c.uid).map (·.place) = (s.findCmd c.uid).map (fun _ => .waiting) ∧
      Keeps [.fuses, .deal, .ports, .lats, .trngs, .guard, .cers, .joker, .shuffle] s t) ∧
  (∀ s o c b, Ready s o 0x2101 b c → b.length = 16 → allZero (slice b 4 4) = true → (c.hand = 0 ∨ s.vault.st = .open_) → s.mustWait c = false →
    field b 0 4 < 1048576 → s.ctrInHand c.epoch c.hand (field b 0 4) = true → s.linePoisoned (ctrLine (field b 0 4)) = false →
    (c.epoch = s.deal.epoch → s.ctrTearing (field b 0 4) = false) → s.journalRefusal = none → exec (.ctrInit o b) s =
      .next (after s ((s.toPart.parkCmd c.uid).hostMutation (.ctrInit (field b 0 4) (field b 8 8)) c.hand c.uid [.ctr (field b 0 4)])))

/-- Issued values are consecutive within a range, and no value is issued twice: what CTR_NEXT takes leaves the leases (05 R143, R144). -/
def Obligations.IssuedValuesLeave : Prop :=
  ∀ (n : Nat) (l : List (Nat × Nat)), (∀ r ∈ l, r.1 < r.2) → l.Pairwise (fun a b => a.2 ≤ b.1) →
    (Machine.Part.takeValues n l).1.Pairwise (· < ·) ∧
    (∀ v ∈ (Machine.Part.takeValues n l).1, ∀ r ∈ (Machine.Part.takeValues n l).2, ¬ (r.1 ≤ v ∧ v < r.2)) ∧
    (∀ v, (v ∈ (Machine.Part.takeValues n l).1 ∨ ∃ r ∈ (Machine.Part.takeValues n l).2, r.1 ≤ v ∧ v < r.2) ↔ ∃ r ∈ l, r.1 ≤ v ∧ v < r.2) ∧
    (n ≤ (l.map (fun r => r.2 - r.1)).sum → (Machine.Part.takeValues n l).1.length = n)

/-- KEY_ERASE and the rows of an erase (05 R127, R136, R137): the command waits for its mutation; an order wipes the Seat's copies and aborts its
users; a Seat without copy and users confirms; old copies past their cutoff become draining. `Keeps` names the units an act leaves as they were.
Completes: keyErase, keyInvalidate, keyEraseOrder, eraseConfirm. It rests on choices of the model: log 58. -/
def Obligations.EraseRowsAct : Prop :=
  (∀ s o c b, Ready s o 0x2005 b c → b.length = 8 → (c.hand = 0 ∨ s.vault.st = .open_) → s.mustWait c = false →
    s.handleFault c.epoch c.hand b 4 = none → s.journalRefusal = none → exec (.keyErase o b) s = .next (after s
      ((s.toPart.parkCmd c.uid).hostMutation (.keyErase (handleOf b).slot (handleOf b).gen) c.hand c.uid
        (Machine.Part.runObjs (handleOf b).slot (s.slot (handleOf b).slot).run)))) ∧
  (∀ (s : State) (n slot g te : Nat), s.power.on = true → s.hasSeat n = true → s.erasedGen n slot = some (g, te) →
    s.usersOf n slot (g, te) = [] → (s.dgst n 1).reg = none → ∃ t, exec (.keyEraseOrder n slot) s = .next t ∧
      t.seats.cache = s.seats.cache.filter (fun e => !(e.seat == n && e.slot == slot && e.gen ≤ g)) ∧
      Keeps [.fuses, .power, .deal, .ports, .xct, .disp, .vault, .lats, .trngs, .guard, .part, .evr, .cers, .joker, .shuffle] s t) ∧
  (∀ (s : State) (n slot g : Nat) (m : Mutation), s.power.on = true → s.hasSeat n = true → s.vault.muts = [m] → m.kind = .keyErase slot g →
    m.committed = true → m.confirms = [n] → m.owner = none → s.usersOf n slot (g, m.te) = [] →
    s.seats.cache.any (fun e => e.seat == n && e.slot == slot && e.gen ≤ g) = false → ∃ t, exec (.eraseConfirm n slot) s = .next t ∧
      t.vault = { s.vault with muts := [] } ∧
      Keeps [.fuses, .deal, .ports, .disp, .lats, .trngs, .guard, .cers, .joker, .shuffle] s t) ∧
  (∀ (s : State) (n slot : Nat), s.power.on = true → s.hasSeat n = true → ∃ t, exec (.keyInvalidate n slot) s = .next t ∧
    (∀ e ∈ t.seats.cache, e.seat = n → e.slot = slot → e.cutoff.isSome = true → e.draining = true) ∧
    (∀ e, e.seat ≠ n → (e ∈ t.seats.cache ↔ e ∈ s.seats.cache)) ∧
    Keeps [.fuses, .power, .deal, .ports, .xct, .disp, .vault, .lats, .trngs, .guard, .part, .evr, .cers, .joker, .shuffle] s t)

/-- The journal and the rows of a mutation (05 R133, R134, R143, R145, R146): a mutation whose record is acknowledged in MRAM commits; the
acknowledged sequence reaches MRAM; a deferred record forms; a lease is granted by a mutation. The journal's sink (05 R127, R145): an attached stream
takes the records from the first one not acknowledged; an acknowledgement of the sink's session frees the records up to it. `Keeps` names the units an
act leaves as they were. Completes: journalAttach, journalAck, mutationCommit, ackRootWrite, journalDeferredRecord, leaseGrant. It rests on choices of
the model: log 2, 27. -/
def Obligations.MutationRowsAct : Prop :=
  (∀ (s : State) (m : Mutation) (r : JRec) (i start : Nat), s.power.on = true → s.findMut m.id = some m → m.formed = some r →
    s.mayCommit m = true → m.kind = .ctrInit i start → r.body = .counter i .live start → m.owner = none → s.solo = false →
    s.vault.muts = [m] → ∃ t, exec (.mutationCommit m.id) s = .next t ∧ (t.ctr i).st = .live ∧ (t.ctr i).hw = start ∧ t.vault.muts = [] ∧
      Keeps [.fuses, .deal, .ports, .lats, .trngs, .guard, .cers, .joker] s t) ∧
  (∀ (s : State), s.power.on = true → exec .ackRootWrite s =
    .next (after s (s.toPart.setJournal { s.vault.journal with inMram := s.vault.journal.acked }))) ∧
  (∀ (s : State) (m : Mutation), s.power.on = true → s.vault.muts = [m] → m.formed = none → m.committed = false → m.forwarded = false →
    m.own = true → s.part.st = .unpaired → s.mutFault m = none → s.vault.journal.sink = none → m.objs.any s.inReenc = false →
    s.journalRoom true false (48 + (s.bodyOf m.kind).size) = true → (∀ b, m.kind ≠ .remote b) → m.frame = none →
    ∃ t r, exec (.journalDeferredRecord m.id) s = .next t ∧ t.vault.muts = [{ m with formed := some r }] ∧ r.seq = s.vault.journal.next ∧
      r.body = s.bodyOf m.kind ∧ t.vault.journal.next = s.vault.journal.next + 1 ∧ t.vault.journal.buffer = s.vault.journal.buffer ++ [r] ∧
      Keeps [.fuses, .deal, .ports, .lats, .trngs, .guard, .cers, .joker] s t) ∧
  (∀ (s : State) (i : Nat), s.power.on = true → s.wantsLease i = true → s.part.st = .unpaired → exec (.leaseGrant i) s =
    .next (after s (s.toPart.mutate (.lease i false) 0 none [.ctr i] true))) ∧
  (∀ s o c b x, HouseReady s o 0x2204 b c → b.length = 8 → field b 0 4 ≠ 0 → allZero (b.drop 4) = true → c.session? = some x →
    (s.findStream x (BitVec.ofNat 32 (field b 0 4))).any (fun y => y.uid == c.uid) = true → exec (.journalAttach o b) s =
      .next (after s ((s.toPart.detachSink.parkCmd c.uid).attachSink x (BitVec.ofNat 32 (field b 0 4)) c.uid))) ∧
  (∀ s o c b x st u, HouseReady s o 0x2205 b c → b.length = 8 → c.session? = some x → s.vault.journal.sink = some (x, st, u) →
    s.vault.journal.acked < field b 0 8 → field b 0 8 ≤ s.sinkSent → exec (.journalAck o b) s =
      .next (after s ((s.toPart.answer c.uid Status.done).ackJournal (field b 0 8)))) ∧
  (∀ (p : Machine.Part) (n : Nat), p.vault.muts = [] → (p.ackJournal n).vault.journal.acked = n ∧
    (p.ackJournal n).vault.journal.buffer = p.vault.journal.buffer.filter (fun r => n < r.seq))

/-- The deck and cold start (05 R149 to R153): a snapshot starts, ends and is committed; a deck that fails its header is refused, a replay applies its
records, the vault opens with the next incarnation. The vault's lines (05 R140, R141): a finished re-encryption raises its group's major counter and
clears its minor ones; a pass that finds nothing is counted, and one that finds a line failing its MAC poisons it. `Keeps` names the units an act
leaves as they were. Completes: deckSnapshot, deckCommit, deckLoad, journalReplay, vaultOpen, vaultReencryptComplete, vaultPatrol,
deckSnapshotComplete. It rests on choices of the model: log 2, 20, 26, 27, 61, 77. -/
def Obligations.DeckRowsAct : Prop :=
  (∀ s o c b x, HouseReady s o 0x2201 b c → b.length = 8 → field b 0 4 ≠ 0 → field b 0 4 < 2 ^ 32 → allZero (b.drop 4) = true →
    s.vault.snapshot = none → c.session? = some x → (s.findStream x (BitVec.ofNat 32 (field b 0 4))).any (fun y => y.uid == c.uid) = true →
    ∃ t sn, exec (.deckSnapshot o b) s = .next t ∧ t.vault.snapshot = some sn ∧ sn.uid = some c.uid ∧ sn.version = s.vault.deckVer + 1 ∧
      sn.start = s.vault.journal.next ∧ sn.header = s.deckHeader (s.vault.deckVer + 1) (s.drawn 32) ∧ t.draws = s.draws + 32 ∧
      Keeps [.fuses, .deal, .ports, .lats, .guard, .cers, .joker] s t) ∧
  (∀ (s : State) (sn : Snapshot) (u : Nat) (c : Cmd) (x : BitVec 32), s.power.on = true → s.vault.snapshot = some sn → sn.uid = some u →
    s.findCmd u = some c → c.session? = some x →
    let id := BitVec.ofNat 32 (field c.params 0 4)
    let sent := fun (p : Machine.Part) => !((p.findStream x id).any (fun y => y.announced < y.data.length))
    let body := s.deckBody sn.header sn.version
    let p := s.toPart.produce x id body.1 true
    let full : Snapshot := { sn with stop := s.vault.journal.next, chain := body.2 }
    (sn.stop ≠ 0 → sent s.toPart = true → exec .deckSnapshotComplete s = .next (after s
      ((s.toPart.setVault { s.vault with snapshot := none, completed := some { sn with uid := none } }).answer c.uid Status.done
        (toBE 8 sn.version ++ sn.chain)))) ∧
    (sn.stop = 0 → sent p = true → exec .deckSnapshotComplete s = .next (after s
      ((p.setVault { p.vault with snapshot := none, completed := some { full with uid := none } }).answer c.uid Status.done
        (toBE 8 sn.version ++ body.2)))) ∧
    (sn.stop = 0 → sent p = false → exec .deckSnapshotComplete s = .next (after s (p.setVault { p.vault with snapshot := some full })))) ∧
  (∀ s o c b sn, HouseReady s o 0x2202 b c → b.length = 56 → s.vault.completed = some sn → field b 0 8 = sn.version → slice b 8 48 = sn.chain →
    exec (.deckCommit o b) s = .next (after s ((s.toPart.setVault { s.vault with deckVer := sn.version, deckStart := sn.start, deckEnd := sn.stop }).answer
      c.uid Status.done))) ∧
  (∀ s o c b deck, HouseReady s o 0x2203 b c → Streamed s c deck → s.vault.st ≠ .open_ → (s.loadDeck deck).2 = 0 →
    exec (.deckLoad o b) s = .next (after s ((s.loadDeck deck).1.answer c.uid Status.done))) ∧
  (∀ s o c b y, HouseReady s o 0x2206 b c → Streamed s c y.data → s.streamOf c = some y → s.vault.st ≠ .open_ →
    (s.vault.deckVer = 0 ∨ s.vault.deckLoaded = true) →
    let r := Machine.Part.replay true y.data.length (s.toPart.setVault { s.vault with st := .replaying }) (y.data.drop y.used)
    r.2.2 = 0 → exec (.journalReplay o b) s =
      .next (after s (r.1.answer c.uid Status.done (toBE 8 (r.1.vault.replayNext - 1))))) ∧
  (∀ s o c b, HouseReady s o 0x2207 b c → b.length = 4 → field b 0 4 = 0 → s.vault.st ≠ .open_ → s.openNeed ≤ s.vault.replayNext - 1 →
    exec (.vaultOpen o b) s = .next (after s (s.toPart.openVault.answer c.uid Status.done (toBE 8 (s.vault.replayNext - 1))))) ∧
  (∀ p : Machine.Part, p.openVault.vault.st = .open_ ∧ p.openVault.vault.incarnation = p.vault.incarnation + 1 ∧ p.openVault.vault.leases = [] ∧
    p.openVault.vault.journal.next = p.vault.replayNext) ∧
  (∀ (s : State) (g : Nat), s.power.on = true → g ∈ s.vault.reenc → ∃ t, exec (.vaultReencryptComplete g) s = .next t ∧
    g ∉ t.vault.reenc ∧ (∀ e ∈ t.vault.minors, e.1 / 64 ≠ g) ∧ Sparse.get 0 t.vault.majors g = Sparse.get 0 s.vault.majors g + 1 ∧
    t.vault.slots = s.vault.slots ∧ t.vault.app = s.vault.app ∧ Keeps [.fuses, .deal, .ports, .lats, .trngs, .guard, .cers, .joker] s t ∧
    (s.vault.muts = [] → Keeps [.power, .xct, .disp, .seats, .part, .evr, .shuffle] s t)) ∧
  (∀ (s : State), s.power.on = true → exec (.vaultPatrol []) s = .next (after s (s.toPart.bump (regAddr 0 winVAULT 0x0138)))) ∧
  (∀ (p : Machine.Part) (line mag : Nat), p.part.st = .unpaired → p.guard.seen = [] → p.deal.active = none →
    (p.poisonLine line mag).linePoisoned line = true)

/-- DISPATCH_PASS (04 R95 to R100, R457; 12 R334): the only queued command goes to the Seat R100 chooses, next in the order of dealing, its descriptor
on that Seat's link; a Dealer Hold stops the dispatcher. `Keeps` names the units an act leaves as they were. Completes: dispatchPass. It rests on
choices of the model: log 22, 57. -/
def Obligations.DispatchPassDeals : Prop :=
  (∀ (s : State) (c : Cmd) (site : Site) (n : Nat) (tie : Bool), s.power.on = true → s.guard.dealerHold = none → s.xct.cmds = [c] →
    c.place = .queued → c.cls ≠ .dealer → c.hand < 256 → siteOf c.code = some site → s.choose c site = .deal n tie →
    ∃ t d, exec .dispatchPass s = .next t ∧ t.findCmd c.uid = some d ∧ d.place = .link n ∧ d.seat = n ∧ d.dealSeq = s.disp.dealSeq + 1 ∧
      d.dealtAt = s.now ∧ d.params = c.params ∧ t.disp.dealSeq = s.disp.dealSeq + 1 ∧ t.disp.handPtr = (c.hand + 1) % 256 ∧
      Keeps [.fuses, .power, .deal, .ports, .vault, .seats, .lats, .trngs, .guard, .part, .evr, .cers, .joker, .shuffle] s t) ∧
  (∀ (s : State) (e : Nat), s.power.on = true → s.guard.dealerHold = some e → exec .dispatchPass s = .next s)

/-- Affinity may cost no more than its slack (04 R100): where R100 deals to a Seat although another Seat that the command may use has less load, the
loads differ by at most the slack times the engines of the class. It rests on choices of the model: log 22. -/
def Obligations.ChoiceWithinSlack : Prop :=
  ∀ (p : Machine.Part) (c : Cmd) (site : Site) (n : Nat) (tie : Bool), p.choose c site = .deal n tie →
    n ∈ p.permitted c ∧ p.seatIn n .inService = true ∧ p.hasRoom n site = true ∧ p.linkUp n = true ∧ p.orderedTurn c = true ∧
    ∀ m, m ∈ p.permitted c → p.seatIn m .inService = true → p.heldPrivate c m = false → p.flipped c m = true → p.hasRoom m site = true →
      p.linkUp m = true → (p.replayBuffer m false).length < 64 → p.loadOf n site ≤ p.loadOf m site + 30 * p.disp.slack.toNat * site.count

/-- The rows of a tile's clock (01 R13 to R15): a demanded tile runs from its demand on; one without work idles, gates after 20 µs, and is gated 40 ns
later, its content kept until then. `Keeps` names the units an act leaves as they were. Completes: tileWakeComplete, tileIdleEnter, tileGateEnter,
tilePowerDownComplete. It rests on choices of the model: log 2. -/
def Obligations.TileRowsAct : Prop :=
  (∀ (s : State) (n g i d : Nat), s.power.on = true → s.hasSeat n = true → g < 4 → i < groupTiles g → (s.tile (tileKey n g i)).demand = some d →
    ((s.tile (tileKey n g i)).st = .gated ∨ (s.tile (tileKey n g i)).st = .idle) → ∃ t, exec (.tileWakeComplete n g i) s = .next t ∧
      (t.tile (tileKey n g i)).st = .running ∧ (t.tile (tileKey n g i)).demand = none ∧ t.now = max s.now d ∧
      (g = 1 → (t.lane n i).duty = 1 ∧
        (t.lane n i).seeded = if (s.tile (tileKey n g i)).st = .gated then s.drbgServes n else (s.lane n i).seeded) ∧
      Keeps [.fuses, .power, .deal, .ports, .xct, .disp, .vault, .lats, .guard, .part, .evr, .cers, .joker, .shuffle] s t) ∧
  (∀ (s : State) (n g i : Nat), s.power.on = true → s.hasSeat n = true → g < 4 → i < groupTiles g → (s.tile (tileKey n g i)).st = .running →
    s.engineBusy n (Machine.Part.siteOfGroup g) i = false → s.waitingOn n (Machine.Part.siteOfGroup g) = [] →
    (g = 3 → i = 1 → (s.dgst n 1).claim = none ∧ (s.dgst n 1).wanted = none) → ∃ t, exec (.tileIdleEnter n g i) s = .next t ∧
      (t.tile (tileKey n g i)).st = .idle ∧ max (s.tile (tileKey n g i)).since (s.tile (tileKey n g i)).scrubEnd + 16 ≤ t.now ∧
      Keeps [.fuses, .power, .deal, .ports, .xct, .disp, .vault, .lats, .trngs, .guard, .part, .evr, .cers, .joker, .shuffle, .counts] s t) ∧
  (∀ (s : State) (n g i : Nat), s.power.on = true → s.hasSeat n = true → g < 4 → i < groupTiles g → (s.tile (tileKey n g i)).st = .idle →
    (s.tile (tileKey n g i)).demand = none → s.engineBusy n (Machine.Part.siteOfGroup g) i = false → ∃ t, exec (.tileGateEnter n g i) s = .next t ∧ (t.tile (tileKey n g i)).st = .poweringDown ∧
      t.now = max s.now ((s.tile (tileKey n g i)).since + usec 20) ∧ t.seats.tus = s.seats.tus ∧ t.seats.lanes = s.seats.lanes ∧
      t.seats.pkes = s.seats.pkes ∧ t.seats.dgsts = s.seats.dgsts ∧
      Keeps [.fuses, .power, .deal, .ports, .xct, .disp, .vault, .lats, .trngs, .guard, .part, .evr, .cers, .joker, .shuffle, .counts] s t) ∧
  (∀ (s : State) (n g i : Nat), s.power.on = true → s.hasSeat n = true → g < 4 → i < groupTiles g → (s.tile (tileKey n g i)).st = .poweringDown →
    ∃ t, exec (.tilePowerDownComplete n g i) s = .next t ∧ (t.tile (tileKey n g i)).st = .gated ∧
      t.now = max s.now ((s.tile (tileKey n g i)).since + nsec 40) ∧
      ((t.tile (tileKey n g i)).demand.isSome = (s.tile (tileKey n g i)).demand.isSome) ∧
      Keeps [.fuses, .power, .deal, .ports, .xct, .disp, .vault, .lats, .trngs, .guard, .part, .evr, .cers, .joker, .shuffle] s t)

/-- The Rihotu links (01 R20, R21): a good flit in sequence is taken; one that is not asks a replay; a response that arrives is answered to its host;
after 8 failed replays the link retrains, and a good training brings it back. `Keeps` names the units an act leaves as they were. Completes:
linkFlitReceive, linkRetrain, linkRetrainComplete. It rests on choices of the model: log 24, 77. -/
def Obligations.LinkRowsAct : Prop :=
  (∀ (s : State) (n : Nat) (ecc : Decoded), s.power.on = true → s.hasSeat n = true → (s.seat n).link = 1 → ecc ≠ .uncorrectable →
    exec (.linkFlitReceive n false (s.seat n).rxSeq true ecc none) s = .next (after s (((s.toPart.decoded n ecc Machine.Part.locLink n).updSeat n
      (fun x => { x with rxSeq := x.rxSeq + 1, fails := 0 })).descriptorArrives n .clean))) ∧
  (∀ (s : State) (n : Nat), s.power.on = true → s.hasSeat n = true → (s.seat n).link = 1 →
    (∀ c, s.nextDescriptor n = some c → s.findCmd c.uid = some c → ∃ t, exec (.linkFlitReceive n false (s.seat n).rxSeq true .clean none) s = .next t ∧
      (t.findCmd c.uid).map (·.place) = some (.seatQ n) ∧ (t.seat n).rxSeq = (s.seat n).rxSeq + 1) ∧
    (s.nextDescriptor n = none → ∃ t, exec (.linkFlitReceive n false (s.seat n).rxSeq true .clean none) s = .next t ∧
      t.seat n = { s.seat n with rxSeq := (s.seat n).rxSeq + 1, fails := 0 } ∧
      Keeps [.fuses, .power, .deal, .ports, .xct, .disp, .vault, .lats, .trngs, .guard, .part, .evr, .cers, .joker, .shuffle, .counts] s t)) ∧
  (∀ (s : State) (n : Nat) (q : BitVec 16) (ok : Bool), s.power.on = true → s.hasSeat n = true → (s.seat n).link = 1 →
    (ok = false ∨ q ≠ (s.seat n).rxSeq) → (s.seat n).replay.toNat < 0xFFFFFFFE → ∃ t, exec (.linkFlitReceive n false q ok .clean none) s = .next t ∧
      t.seat n = { s.seat n with replay := (s.seat n).replay + 1, fails := (s.seat n).fails + 1 } ∧ t.xct = s.xct ∧
      Keeps [.fuses, .deal, .ports, .vault, .lats, .trngs, .guard, .cers, .joker, .shuffle] s t) ∧
  (∀ (s : State) (n : Nat) (q : BitVec 16) (ok : Bool), s.power.on = true → s.hasSeat n = true → (s.seat n).link = 1 →
    exec (.linkFlitReceive n false q ok .uncorrectable none) s =
      .next (after s ((s.toPart.decoded n .uncorrectable Machine.Part.locLink n).replayRequest n false))) ∧
  (∀ (s : State) (n u : Nat) (ecc : Decoded) (c : Cmd), s.power.on = true → s.hasSeat n = true → (s.seat n).link = 1 →
    s.guard.dealerHold = none → (s.replayBuffer n true).head?.map (·.uid) = some u → s.findCmd u = some c → c.place = .up n →
    ecc ≠ .uncorrectable → ∃ t, exec (.linkFlitReceive n true (s.seat n).txSeq true ecc (some u)) s = .next t ∧
      Answered t u c.status c.payload ∧ (t.seat n).txSeq = (s.seat n).txSeq + 1 ∧
      Keeps [.fuses, .deal, .ports, .vault, .lats, .trngs, .guard, .cers, .joker, .shuffle] s t) ∧
  (∀ (s : State) (n : Nat), s.power.on = true → s.hasSeat n = true → (s.seat n).link = 1 → (9 ≤ (s.seat n).fails ∨ 9 ≤ (s.seat n).failsUp) →
    ∃ t, exec (.linkRetrain n) s = .next t ∧ (t.seat n).link = 2 ∧
      (t.seat n).retrain = (if (s.seat n).retrain = 0xFFFF then 0xFFFF else (s.seat n).retrain + 1) ∧
      Keeps [.fuses, .power, .deal, .ports, .disp, .vault, .lats, .trngs, .guard, .cers, .joker, .shuffle] s t) ∧
  (∀ (s : State) (n : Nat), s.power.on = true → s.hasSeat n = true → (s.seat n).link = 2 → ∃ t, exec (.linkRetrainComplete n true) s = .next t ∧
    t.seat n = { s.seat n with link := 1, fails := 0, failsUp := 0, failedTrainings := 0 } ∧
      Keeps [.fuses, .deal, .ports, .lats, .trngs, .guard, .joker, .shuffle] s t) ∧
  (∀ (s : State) (n : Nat), s.power.on = true → s.hasSeat n = true → (s.seat n).link = 2 → (s.seat n).failedTrainings < 2 →
    ∃ t, exec (.linkRetrainComplete n false) s = .next t ∧ (t.seat n).link = 2 ∧ (t.seat n).failedTrainings = (s.seat n).failedTrainings + 1 ∧
      Keeps [.fuses, .deal, .ports, .lats, .trngs, .guard, .joker, .shuffle] s t)

/-- What a Seat takes in (04 R95, 05 R139; 06 R162): the descriptor on the link enters the local queue; a fetched key joins the cache, tagged with
hand, slot and generation; an engine whose scrub ends runs again, and what was stopped on it answers. `Keeps` names the units an act leaves as they
were. Completes: seatDescriptorArrive, keyFetchComplete, engineScrubComplete. It rests on choices of the model: log 2, 60, 77. -/
def Obligations.SeatIntakeRowsAct : Prop :=
  (∀ (s : State) (n : Nat) (ecc : Decoded) (c : Cmd), s.power.on = true → s.hasSeat n = true → s.linkUp n = true →
    s.nextDescriptor n = some c → s.findCmd c.uid = some c →
    (ecc ≠ .uncorrectable → ∃ t, exec (.seatDescriptorArrive n ecc) s = .next t ∧ (t.findCmd c.uid).map (·.place) = some (.seatQ n) ∧
      (t.seat n).rxSeq = (s.seat n).rxSeq + 1 ∧
      Keeps [.fuses, .deal, .ports, .disp, .vault, .lats, .trngs, .guard, .cers, .joker, .shuffle] s t) ∧
    (ecc = .uncorrectable → c.isCall = false → c.retract = none → ∃ t, exec (.seatDescriptorArrive n ecc) s = .next t ∧
      Rising t c.uid n Status.abortedScrubbed [] ∧
      Keeps [.fuses, .deal, .ports, .disp, .vault, .lats, .trngs, .guard, .cers, .joker, .shuffle] s t)) ∧
  (∀ (s : State) (n i : Nat) (ecc : Decoded), s.power.on = true → s.hasSeat n = true → s.linkUp n = true →
    s.seats.fetching.contains (n, i) = true → ecc ≠ .uncorrectable → s.unsettled (.slot i) = false → (s.slot i).st = .head →
    s.runPoisoned i (s.slot i).run = false → s.cacheEntry n (s.slot i).hand i (s.slot i).gen = none → s.cacheFill n + (s.slot i).run ≤ 65536 →
    ∃ t e, exec (.keyFetchComplete n i ecc) s = .next t ∧ t.seats.cache = s.seats.cache ++ [e] ∧ e.seat = n ∧ e.hand = (s.slot i).hand ∧ e.slot = i ∧
      e.gen = (s.slot i).gen ∧ e.key = s.slot i ∧ e.uses = 0 ∧ e.blocks = 0 ∧ t.seats.fetching.contains (n, i) = false ∧
      Keeps [.fuses, .power, .deal, .ports, .disp, .vault, .lats, .trngs, .guard, .cers, .joker] s t) ∧
  (∀ (s : State) (n k : Nat) (e : Engine) (c : Cmd), s.power.on = true → s.hasSeat n = true → k < (siteOfEngine e).count →
    (s.tile (siteTile n (siteOfEngine e) k)).st = .scrubbing → s.xct.cmds = [c] → c.place = .scrubbing n (siteOfEngine e) k → c.isCall = false →
    c.retract = none → s.seatIn n .inService = true → ∃ t, exec (.engineScrubComplete n e k) s = .next t ∧
      (t.tile (siteTile n (siteOfEngine e) k)).st = .running ∧ (s.tile (siteTile n (siteOfEngine e) k)).scrubEnd ≤ t.now ∧
      Rising t c.uid n c.status c.payload ∧
      Keeps [.fuses, .deal, .ports, .disp, .vault, .lats, .trngs, .guard, .cers, .joker, .shuffle] s t)

/-- Antes at a guard shell (04 R110; 11 R306, R307, R309): a taken ante opens its window from its table entry and demands its tiles at its start time;
a window that ends leaves the list. `Keeps` names the units an act leaves as they were. Completes: anteTake, anteWindowEnd. It rests on choices of the
model: log 2. -/
def Obligations.AnteRowsAct : Prop :=
  (∀ (s : State) (die : Nat) (f : AnteFlit), s.power.on = true → s.hasDie die = true → (die = 0 ∨ s.linkUp die = true) → s.disp.flits.find? (fun f => f.die = die) = some f →
    Machine.Part.anteFlitOk die f.bytes = true → ∃ t, exec (.anteTake die) s = .next t ∧ t.disp.flits = s.disp.flits.erase f ∧
      t.now = max s.now (s.cycleOf (field f.bytes 4 4) - nsec 20) ∧
      (t.lat die).windows = { group := field f.bytes 0 1, cls := field f.bytes 1 1, units := s.anteEntry die (field f.bytes 0 1) (field f.bytes 1 1), from_ := max t.now (s.cycleOf (field f.bytes 4 4) - nsec 10), until_ := s.cycleOf (field f.bytes 4 4) + nsec 1500 } :: (s.lat die).windows ∧
      (∀ i, die ≠ 0 → i < groupTiles (field f.bytes 0 1) → (field f.bytes 2 2).testBit i = true →
        (s.tile (tileKey die (field f.bytes 0 1) i)).st ≠ .running → (s.tile (tileKey die (field f.bytes 0 1) i)).demand = none →
        (t.tile (tileKey die (field f.bytes 0 1) i)).demand = some (s.cycleOf (field f.bytes 4 4))) ∧
      Keeps [.fuses, .power, .deal, .ports, .vault, .trngs, .guard, .cers, .joker, .shuffle] s t) ∧
  (∀ (s : State) (die g : Nat) (peak : BitVec 8) (w : AnteWindow), s.power.on = true → s.hasDie die = true → g < 4 →
    ((s.lat die).windows.filter (fun w => w.group = g)).getLast? = some w → ∃ t, exec (.anteWindowEnd die g peak) s = .next t ∧
      (t.lat die).windows = (s.lat die).windows.erase w ∧ w.until_ ≤ t.now ∧
      Keeps [.fuses, .power, .deal, .ports, .disp, .vault, .trngs, .guard, .cers, .joker, .shuffle] s t)

/-- An ante entry stays within its bounds: what a window teaches is clamped between env_min and env_max (11 R309, R310). -/
def Obligations.AnteEntryBounded : Prop :=
  ∀ (p : Machine.Part) (die : Nat) (w : AnteWindow) (peak : Nat),
    anteMin die w.group w.cls ≤ (p.learnAnte die w peak).anteEntry die w.group w.cls ∧
    (p.learnAnte die w peak).anteEntry die w.group w.cls ≤ anteMax die w.group w.cls

/-- The lattice's measurements (11 R300 to R304, 16 R411): readings in bound show in their registers and report nothing; a second bad mean, a count
far off and a second bad resistance are witnesses of classes 2, 4 and 9. Calibration (11 R311 to R314): an accepted slice moves a trim by at most one
step and clears the refusals; a refused one keeps the trim and counts. `Keeps` names the units an act leaves as they were. Completes:
temperatureSample, tempRateCompute, slowVoltageMean, refclkMonitorWindow, shieldResistanceCheck, calibrationSlice. It rests on choices of the model:
log 34, 79. -/
def Obligations.LatticeRowsAct : Prop :=
  (∀ (s : State) (die : Nat) (l : List (BitVec 16)), s.power.on = true → s.hasDie die = true → s.goodDiodes die l ≠ [] →
    (∀ e ∈ s.goodDiodes die l, -200 ≤ e.2 ∧ e.2 ≤ 480) → (s.lat die).thermal = false → ∃ t, exec (.temperatureSample die l) s = .next t ∧
      (t.lat die).tj = BitVec.ofInt 16 (Machine.Part.greatestInt ((s.goodDiodes die l).map (·.2))) ∧
      (t.lat die).tmin = BitVec.ofInt 16 (Machine.Part.leastInt ((s.goodDiodes die l).map (·.2))) ∧ (t.lat die).diodes = l ∧
      (t.lat die).hotRun = 0 ∧ t.guard = s.guard ∧
      Keeps [.fuses, .power, .deal, .ports, .xct, .disp, .vault, .trngs, .guard, .part, .evr, .cers, .joker, .shuffle, .counts] s t) ∧
  (∀ (s : State) (die : Nat) (l : List (BitVec 16)), s.power.on = true → s.hasDie die = true → (∀ e ∈ s.goodDiodes die l, -200 ≤ e.2 ∧ e.2 ≤ 540) →
    s.goodDiodes die l ≠ [] → 480 < Machine.Part.greatestInt ((s.goodDiodes die l).map (·.2)) → 1 ≤ (s.lat die).hotRun →
    (s.lat die).thermal = false → ∃ t, exec (.temperatureSample die l) s = .next t ∧ (t.lat die).thermal = true ∧
      Keeps [.fuses, .deal, .ports, .trngs, .joker, .shuffle] s t) ∧
  (∀ (s : State) (die : Nat), s.power.on = true → s.hasDie die = true → s.goodDiodes die (s.lat die).diodes ≠ [] →
    (s.lat die).history.length < 25 → ∃ t, exec (.tempRateCompute die) s = .next t ∧ (t.lat die).meas = 0 ∧ (t.lat die).pred = 0 ∧
      (t.lat die).rateRun = 0 ∧ (t.lat die).history.length = (s.lat die).history.length + 1 ∧ t.guard = s.guard ∧
      Keeps [.fuses, .power, .deal, .ports, .xct, .disp, .vault, .seats, .guard, .part, .evr, .cers, .joker, .shuffle] s t) ∧
  (∀ (s : State) (die w mv : Nat), s.power.on = true → s.hasDie die = true → w < 8 → (die ≠ 0 ∨ w ≠ 6) → (s.sensor die 2 w).retired = false →
    Machine.Part.railNominal die w * 94 ≤ mv * 100 → mv * 100 ≤ Machine.Part.railNominal die w * 106 →
    exec (.slowVoltageMean die w mv) s = .next (after s (s.toPart.setLat die
      { s.lat die with badMeans := (s.lat die).badMeans.erase w, meanRun := (s.lat die).meanRun.erase w }))) ∧
  (∀ (s : State) (die w mv : Nat), s.power.on = true → s.hasDie die = true → w < 8 → (die ≠ 0 ∨ w ≠ 6) → (s.sensor die 2 w).retired = false →
    mv * 100 < Machine.Part.railNominal die w * 94 → w ∈ (s.lat die).badMeans → w ∉ (s.lat die).meanRun →
    exec (.slowVoltageMean die w mv) s = .next (after s ((s.toPart.setLat die { s.lat die with meanRun := w :: (s.lat die).meanRun }).latWitness
      die 2 w (min (Machine.Part.railNominal die w - mv) 0xFFFF)))) ∧
  (∀ (s : State) (count : Nat), s.power.on = true → s.power.xtalOk = true → (s.sensor 0 4 0).retired = false → 305023 ≤ count → count ≤ 305329 →
    exec (.refclkMonitorWindow count false) s = .next (after s (s.toPart.updLat 0 (fun l =>
      { l with refclk := BitVec.ofInt 16 (((count : Int) - 305176) * 1000000 / 305176) })))) ∧
  (∀ (s : State) (count : Nat), s.power.on = true → s.power.xtalOk = true → (s.sensor 0 4 0).retired = false →
    exec (.refclkMonitorWindow count true) s = .next (after s ((s.toPart.updLat 0 (fun l =>
      { l with refclk := BitVec.ofInt 16 (((count : Int) - 305176) * 1000000 / 305176) })).latWitness 0 4 0 0xFFFF))) ∧
  (∀ (s : State) (net mo : Nat), s.power.on = true → net < 24 →
    (Machine.Part.netOut (Config.netResistance net) (((s.lat 0).diodes.getD 0 0).toInt) mo = false →
      ∃ t, exec (.shieldResistanceCheck net mo) s = .next t ∧ (t.lat 0).shield.getLsbD net = false ∧
        (t.lat 0).badNets = (s.lat 0).badNets.erase net ∧ (t.lat 0).netRun = (s.lat 0).netRun.erase net ∧ t.guard = s.guard) ∧
    (Machine.Part.netOut (Config.netResistance net) (((s.lat 0).diodes.getD 0 0).toInt) mo = true → net ∉ (s.lat 0).badNets →
      ∃ t, exec (.shieldResistanceCheck net mo) s = .next t ∧ (t.lat 0).shield.getLsbD net = true ∧
        (t.lat 0).badNets = net :: (s.lat 0).badNets ∧ t.guard = s.guard) ∧
    (Machine.Part.netOut (Config.netResistance net) (((s.lat 0).diodes.getD 0 0).toInt) mo = true → net ∈ (s.lat 0).badNets →
      net ∉ (s.lat 0).netRun → exec (.shieldResistanceCheck net mo) s = .next (after s ((s.toPart.setLat 0 { s.lat 0 with
        shield := (s.lat 0).shield ||| BitVec.ofNat 24 (2 ^ net), netRun := net :: (s.lat 0).netRun }).latWitness 0 9 net (256 + net))))) ∧
  (∀ (s : State) (die cls i b : Nat) (d : Int), s.power.on = true → s.hasDie die = true → cls < 8 → i < Machine.Part.sensorCount die cls →
    (s.sensor die cls i).retired = false → Machine.Part.trimBound cls = some b →
    ((s.sensor die cls i).trim + max (-1) (min 1 d)).natAbs ≤ b → ∃ t, exec (.calibrationSlice die cls i d true) s = .next t ∧
      t.sensor die cls i = { trim := (s.sensor die cls i).trim + max (-1) (min 1 d), refusals := 0, retired := false } ∧ t.guard = s.guard ∧
      Keeps [.fuses, .power, .deal, .ports, .disp, .vault, .trngs, .guard, .cers, .joker, .shuffle] s t) ∧
  (∀ (s : State) (die cls i : Nat) (d : Int), s.power.on = true → s.hasDie die = true → cls < 8 → i < Machine.Part.sensorCount die cls →
    (s.sensor die cls i).retired = false → (s.sensor die cls i).refusals < 2 → ∃ t, exec (.calibrationSlice die cls i d false) s = .next t ∧
      t.sensor die cls i = { s.sensor die cls i with refusals := (s.sensor die cls i).refusals + 1 } ∧ t.guard = s.guard ∧
      Keeps [.fuses, .power, .deal, .ports, .disp, .vault, .trngs, .guard, .cers, .joker, .shuffle] s t)

/-- The noise sources and the DRBG (11 R316, R319): a reseed with a source in service serves for 10 ms; without one it is overdue; 100 ms later the
DRBG stops, with a class 0xA witness; a failed source restarts, the third failure in a second takes it out of service; a restored one serves. `Keeps`
names the units an act leaves as they were. Completes: drbgReseed, drbgStopped, trngSourceFail, trngSourceRestored. It rests on choices of the model:
log 2, 35, 71. -/
def Obligations.TrngRowsAct : Prop :=
  (∀ (s : State) (die : Nat), s.power.on = true → s.hasDie die = true → (s.trng die).drbg ≠ 0 → Machine.Part.anySource (s.trng die) = true →
    ∃ t, exec (.drbgReseed die) s = .next t ∧ (t.trng die).drbg = 1 ∧ (t.trng die).due = t.now + msec 10 ∧ (s.trng die).due ≤ t.now ∧
      Keeps [.fuses, .power, .deal, .ports, .xct, .disp, .vault, .lats, .guard, .part, .evr, .cers, .joker, .shuffle] s t) ∧
  (∀ (s : State) (die : Nat), s.power.on = true → s.hasDie die = true → (s.trng die).drbg = 1 → Machine.Part.anySource (s.trng die) = false →
    ∃ t, exec (.drbgReseed die) s = .next t ∧ t.trng die = { s.trng die with drbg := 2 } ∧
      Keeps [.fuses, .power, .deal, .ports, .xct, .disp, .vault, .lats, .guard, .part, .evr, .cers, .joker, .shuffle] s t) ∧
  (∀ (s : State) (die : Nat), s.power.on = true → s.hasDie die = true → ((s.trng die).drbg = 1 ∨ (s.trng die).drbg = 2) →
    Machine.Part.anySource (s.trng die) = false → ∃ q : Machine.Part, exec (.drbgStopped die) s = .next (after s (q.latWitness die 10 0xFF 0x00FF)) ∧
      q.trng die = { s.trng die with drbg := 3 } ∧ (s.trng die).due + msec 100 ≤ q.now) ∧
  (∀ (s : State) (die src : Nat) (test : TrngTest), s.power.on = true → s.hasDie die = true → src < 2 → Machine.Part.srcState (s.trng die) src ≠ 3 →
    s.recentFails die src < 2 → ∃ t, exec (.trngSourceFail die src test) s = .next t ∧ Machine.Part.srcState (t.trng die) src = 2 ∧
      t.guard = s.guard ∧
      Keeps [.fuses, .power, .deal, .ports, .disp, .vault, .guard, .cers, .joker, .shuffle] s t) ∧
  (∀ (s : State) (die src : Nat) (test : TrngTest), s.power.on = true → s.hasDie die = true → src < 2 → Machine.Part.srcState (s.trng die) src ≠ 3 →
    2 ≤ s.recentFails die src → ∃ q : Machine.Part, exec (.trngSourceFail die src test) s = .next (after s (q.latWitness die 10 src src)) ∧
      Machine.Part.srcState (q.trng die) src = 3) ∧
  (∀ (s : State) (die src : Nat), s.power.on = true → s.hasDie die = true → src < 2 → Machine.Part.srcState (s.trng die) src = 2 →
    ∃ t, exec (.trngSourceRestored die src) s = .next t ∧ Machine.Part.srcState (t.trng die) src = 1 ∧ t.guard = s.guard ∧
      Keeps [.fuses, .power, .deal, .ports, .disp, .vault, .lats, .guard, .cers, .joker, .shuffle] s t)

/-- The Joker port's rows (10 R289 to R295): a refused token gives its reason and a fresh challenge; a token opens its session; accesses act or are
denied; a session closes by its row, at its expiry and by TRST_N; the TAP's own instructions. `Keeps` names the units an act leaves as they were.
Completes: jokerAuth, jokerAccess, jokerClose, jokerExpiry, trstNLow, extest, bypass, idcode, samplePreload. It rests on choices of the model: log 2,
38, 39. -/
def Obligations.JokerRowsAct : Prop :=
  (∀ (s : State) b r, s.power.on = true → (s.power.life = 1 ∨ s.power.life = 2) → s.power.stage ≠ 8 → (s.setIr 0x10 0).tokenFault b = some r →
    ∃ t, exec (.jokerAuth b) s = .next t ∧ t.joker = { s.joker with ir := 0x10, dr := 0, code := jokerInvalid, reason := BitVec.ofNat 8 r, chal := (s.setIr 0x10 0).drawn 32 } ∧
      Keeps [.fuses, .power, .deal, .ports, .xct, .disp, .vault, .seats, .lats, .guard, .part, .evr, .shuffle] s t) ∧
  (∀ (s : State) b k, s.power.on = true → (s.power.life = 1 ∨ s.power.life = 2) → s.power.stage ≠ 8 → (s.setIr 0x10 0).tokenFault b = none →
    parseToken b = some k → ∃ q : Machine.Part, exec (.jokerAuth b) s = .next (after s (q.openJoker k)) ∧
      q.joker = { s.joker with ir := 0x10, dr := 0, code := Status.done, reason := 0, chal := (s.setIr 0x10 0).drawn 32 } ∧
      Keeps [.fuses, .power, .deal, .ports, .xct, .disp, .vault, .seats, .lats, .guard, .part, .evr, .shuffle] s (after s q) ∧
      ((k.scope = 1 ∨ k.scope = 2) → q.openJoker k = { q with joker := { q.joker with scope := BitVec.ofNat 3 k.scope, hand := BitVec.ofNat 8 k.hand, seats := k.seats, expiry := k.expiry } })) ∧
  (∀ (s : State) t write data, s.power.on = true → s.joker.scope ≠ 0 → s.joker.scope ≠ 5 → s.debugAllowed t write = false →
    ∃ u, exec (.jokerAccess t write data) s = .next u ∧ u.joker = { s.joker with ir := 0x11, dr := BitVec.ofNat 128 (Machine.Part.debugAddr t % 2 ^ 32 * 2 ^ 64 + Status.debugDenied.toNat * 65536), code := Status.debugDenied, reason := 0 } ∧
      Keeps [.fuses, .power, .deal, .ports, .disp, .vault, .lats, .trngs, .guard, .shuffle] s u) ∧
  (∀ (s : State) a data, s.power.on = true → s.joker.scope ≠ 0 → s.joker.scope ≠ 5 → s.debugAllowed (.reg a) false = true → ∃ u,
    exec (.jokerAccess (.reg a) false data) s = .next u ∧ u.joker.code = Status.done ∧ u.joker.ir = 0x11 ∧
      u.joker.dr = BitVec.ofNat 128 (a.toNat % 2 ^ 32 * 2 ^ 64 + (s.readReg a.toNat).2.toNat * 2 ^ 32) ∧
      Keeps [.fuses, .power, .deal, .ports, .disp, .vault, .lats, .trngs, .guard, .shuffle] s u) ∧
  (∀ (s : State) n k write data, s.power.on = true → s.joker.scope ≠ 0 → s.joker.scope ≠ 5 → s.debugAllowed (.halt n k) write = true →
    (s.core n k).run = .running → ∃ u, exec (.jokerAccess (.halt n k) write data) s = .next u ∧
      u.core n k = { s.core n k with run := .halted, regs := [] } ∧
      Keeps [.fuses, .power, .deal, .ports, .disp, .vault, .lats, .trngs, .guard, .shuffle] s u) ∧
  (∀ (s : State), s.power.on = true → (s.joker.scope = 1 ∨ s.joker.scope = 2) → ∃ t, exec .jokerClose s = .next t ∧
    t.joker = { s.joker with ir := 0x12, dr := 0, scope := 0, hand := 0, seats := 0, expiry := 0, next := none } ∧
    Keeps [.fuses, .power, .deal, .ports, .xct, .disp, .vault, .seats, .lats, .trngs, .guard, .part, .evr, .shuffle, .counts] s t) ∧
  (∀ (s : State), s.power.on = true → s.joker.scope = 4 → ∃ q : Machine.Part, exec .jokerClose s = .next (after s (q.zeroizeHand s.joker.hand.toNat)) ∧
    q.joker.scope = 5 ∧ q.joker.next = none) ∧
  (∀ (s : State), s.power.on = true → (s.joker.scope = 1 ∨ s.joker.scope = 2) → s.joker.expiry ≠ 0 → ∃ t, exec .jokerExpiry s = .next t ∧
    t.joker.scope = 0 ∧ t.now = max s.now (s.evr.opAt + msec 10 * (s.joker.expiry - s.evr.opBase)) ∧
    Keeps [.fuses, .power, .deal, .ports, .xct, .disp, .vault, .seats, .lats, .trngs, .guard, .part, .evr, .cers, .shuffle, .counts] s t) ∧
  (∀ (s : State), s.power.on = true → s.joker.scope ≠ 4 → s.joker.scope ≠ 5 → ∃ t, exec .trstNLow s = .next t ∧ t.joker.ir = 1 ∧ t.joker.scope = 0 ∧
      Keeps [.fuses, .deal, .ports, .lats, .trngs, .guard] s t) ∧
  (∀ (s : State), s.power.on = true → (s.power.life = 0 ∨ s.joker.scope = 1) → s.power.stage ≠ 8 → ∃ t, exec .extest s = .next t ∧ t.joker.ir = 0 ∧
    t.cera.active = false ∧ t.cerb.active = false ∧
      Keeps [.fuses, .deal, .ports, .disp, .vault, .lats, .trngs, .guard, .shuffle] s t) ∧
  (∀ (s : State), s.power.on = true → ∃ t, exec .bypass s = .next t ∧ t.joker = { s.joker with ir := 0xFF, dr := 0 } ∧
    Keeps [.fuses, .power, .deal, .ports, .xct, .disp, .vault, .seats, .lats, .trngs, .guard, .part, .evr, .shuffle, .counts] s t) ∧
  (∀ (s : State), s.power.on = true → s.fuses.variant = .xf2408 → ∃ t, exec .idcode s = .next t ∧
    t.joker = { s.joker with ir := 1, dr := BitVec.ofNat 128 (s.fuses.sirev.toNat % 16 * 2 ^ 28 + 0x024085A7) } ∧
    Keeps [.fuses, .power, .deal, .ports, .xct, .disp, .vault, .seats, .lats, .trngs, .guard, .part, .evr, .shuffle, .counts] s t) ∧
  (∀ (s : State), s.power.on = true → ∃ t, exec .samplePreload s = .next t ∧ t.joker.ir = 2 ∧ t.joker.dr.getLsbD 7 = !s.cera.present ∧
    t.joker.dr.getLsbD 19 = !s.cerb.present ∧ t.joker.scope = s.joker.scope ∧
    Keeps [.fuses, .power, .deal, .ports, .xct, .disp, .vault, .seats, .lats, .trngs, .guard, .part, .evr, .shuffle, .counts] s t)

/-- The recorder's commands and clocks (14 R371, R377 to R380): a read answers the records it finds; a freeze is recorded and holds ring copies for 10
s; a thaw ends it; an annotation answers its record's sequence; a notice goes again under its sequence; the operating time is saved. NOTICE_RESEND (03
R89): the kept notices from a sequence on go again, in order, each under its own sequence, with a byte that says whether earlier ones are lost.
`Keeps` names the units an act leaves as they were. Completes: noticeResend, eventRead, eventFreeze, eventThaw, timeAnnotate, evrFreezeSet,
evrFreezeClear, freezeTimeout, optimeSave. It rests on choices of the model: log 2, 21, 50. -/
def Obligations.RecorderRowsAct : Prop :=
  (∀ s o c b, HouseReady s o 0x9101 b c → b.length = 16 → field b 0 1 ≤ 3 → field b 1 3 = 0 → field b 4 4 ≠ 0 → field b 4 4 ≤ 256 →
    exec (.eventRead o b) s = .next (after s (s.toPart.answer c.uid Status.done
      (toBE 1 (if s.readGap (field b 0 1) (field b 8 8) (s.readRecs (field b 0 1) (field b 8 8) (field b 4 4)) then 1 else 0) ++ zeros 3 ++
        toBE 4 (s.readRecs (field b 0 1) (field b 8 8) (field b 4 4)).length ++
        (s.readRecs (field b 0 1) (field b 8 8) (field b 4 4)).flatMap Rec.bytes)))) ∧
  (∀ s o c, HouseReady s o 0x9102 [] c → ∃ q : Machine.Part, exec (.eventFreeze o []) s = .next (after s (q.answer c.uid Status.done)) ∧
    q.evr.thawAt = some (s.now + sec 10) ∧ Keeps [.fuses, .power, .deal, .disp, .vault, .lats, .trngs, .guard, .shuffle] s (after s q)) ∧
  (∀ s o c t0, HouseReady s o 0x9103 [] c → s.evr.thawAt = some t0 → ∃ q : Machine.Part,
    exec (.eventThaw o []) s = .next (after s (q.answer c.uid Status.done)) ∧ q.evr.thawAt = none ∧ q.evr.hold = [] ∧ q.evr.lost = 0 ∧
    Keeps [.fuses, .power, .deal, .disp, .vault, .lats, .trngs, .guard, .shuffle] s (after s q)) ∧
  (∀ s o c b, HouseReady s o 0x9104 b c → b.length = 16 → field b 8 4 ≤ 999999999 → field b 12 4 = 0 → ∃ q : Machine.Part,
    exec (.timeAnnotate o b) s = .next (after s (q.answer c.uid Status.done (toBE 8 s.evr.seq))) ∧
    (s.evr.seq < 2 ^ 48 - 1 → s.evr.fatal = false →
      ∃ r, Sparse.get? q.evr.kitty s.evr.kittyPtr = some r ∧ r.code = 0x0904 ∧ r.seq = s.evr.seq ∧ r.p3 = BitVec.ofNat 32 (field b 8 4)) ∧
    Keeps [.fuses, .power, .deal, .disp, .vault, .lats, .trngs, .guard, .shuffle] s (after s q)) ∧
  (∀ s, s.power.on = true → ∃ t, exec .evrFreezeSet s = .next t ∧ t.evr.thawAt = some (s.now + sec 10) ∧
    Keeps [.fuses, .power, .deal, .disp, .vault, .lats, .trngs, .guard, .shuffle] s t) ∧
  (∀ s t0, s.power.on = true → s.evr.thawAt = some t0 → ∃ t, exec .evrFreezeClear s = .next t ∧ t.evr.thawAt = none ∧ t.evr.hold = [] ∧
    Keeps [.fuses, .power, .deal, .disp, .vault, .lats, .trngs, .guard, .shuffle] s t) ∧
  (∀ s t0, s.power.on = true → s.evr.thawAt = some t0 → ∃ t, exec .freezeTimeout s = .next t ∧ t.evr.thawAt = none ∧ t.evr.hold = [] ∧
    t.now = max s.now t0 ∧ Keeps [.fuses, .power, .deal, .disp, .vault, .lats, .trngs, .guard, .shuffle] s t) ∧
  (∀ s, s.power.on = true → exec .optimeSave s = .next (after s { s.toPart with evr := { s.evr with opSaved := s.optime } })) ∧
  (∀ (s : State) o c b x, Ready s o 0x9201 b c → c.session?.bind s.findSession = some x → b.length = 4 → ∃ (q : Machine.Part) (lost : Byte),
    exec (.noticeResend o b) s = .next (after s (q.answer c.uid Status.done ([lost] ++
      ((x.kept.filter (fun n => (n.seq - BitVec.ofNat 32 (field b 0 4)).toNat < 2 ^ 31)).reverse).flatMap (fun n => n.notice.bytes n.seq)))) ∧
    q = { s.toPart with counts := q.counts } ∧
    lost = (if x.kept.getLast?.any (fun n => decide (1 ≤ (n.seq - BitVec.ofNat 32 (field b 0 4)).toNat) &&
      decide ((n.seq - BitVec.ofNat 32 (field b 0 4)).toNat < 2 ^ 31)) = true then 1 else 0))

/-- Shuffle (17 R432 to R438): a write that the drill section permits arms it; one that it does not is refused and recorded; disarming and the end of
the duration take it down and release its held frames. `Keeps` names the units an act leaves as they were. Completes: shuffleArm, shuffleDisarm,
shuffleExpire. It rests on choices of the model: log 2, 45. -/
def Obligations.ShuffleRowsAct : Prop :=
  (∀ (s : State) v, s.power.on = true → v.getLsbD 31 = true →
    s.shufflePermitted (v.toNat / 2 ^ 24 % 8) (v.toNat / 2 ^ 12 % 16) (v.toNat % 2 ^ 12) (s.deal.active.bind (·.drill)) = true →
    s.shuffle.en = false → ∃ t, exec (.shuffleArm v) s = .next t ∧ t.shuffle.en = true ∧ t.shuffle.target = BitVec.ofNat 3 (v.toNat / 2 ^ 24 % 8) ∧
      t.shuffle.actions = BitVec.ofNat 4 (v.toNat / 2 ^ 12 % 16) ∧ t.shuffle.expiry = s.now + sec (v.toNat % 2 ^ 12) ∧ t.shuffle.frames = 0 ∧
      t.shuffle.injected = 0 ∧
      Keeps [.fuses, .ports, .lats, .guard, .joker] s t) ∧
  (∀ (s : State) v, s.power.on = true → v.getLsbD 31 = true →
    s.shufflePermitted (v.toNat / 2 ^ 24 % 8) (v.toNat / 2 ^ 12 % 16) (v.toNat % 2 ^ 12) (s.deal.active.bind (·.drill)) = false →
    ∃ t, exec (.shuffleArm v) s = .next t ∧ t.shuffle = { s.shuffle with refused := true } ∧
      Keeps [.fuses, .power, .deal, .ports, .disp, .vault, .lats, .trngs, .guard, .cers, .joker] s t) ∧
  (∀ (s : State), s.power.on = true → s.shuffle.en = true → s.shuffle.held = [] → ∃ t, exec .shuffleDisarm s = .next t ∧
    t.shuffle = { s.shuffle with en := false, expiry := 0 } ∧
    Keeps [.fuses, .power, .deal, .ports, .disp, .vault, .lats, .trngs, .guard, .cers, .joker] s t) ∧
  (∀ (s : State), s.power.on = true → s.shuffle.en = true → s.shuffle.held = [] → ∃ t, exec .shuffleExpire s = .next t ∧
    t.shuffle = { s.shuffle with en := false, expiry := 0 } ∧ t.now = max s.now s.shuffle.expiry ∧
    Keeps [.fuses, .power, .deal, .ports, .disp, .vault, .lats, .trngs, .guard, .cers, .joker] s t)

/-- The ceremony commands (15 R397 to R402): one begins and locks its port; a step waits for a card; a quorum met at the end gives an authorisation;
an owner claim takes effect; its certificate is kept. `Keeps` names the units an act leaves as they were. Completes: cerBegin, cerStep, cerEnd,
cerCert. It rests on choices of the model: log 36, 37. -/
def Obligations.CeremonyCommandsAct : Prop :=
  (∀ (s : State) o c b x, HouseReady s o 0xA001 b c → c.session? = some x → b.length = 72 → field b 0 1 ≤ 1 → 1 ≤ field b 1 1 → field b 1 1 ≤ 3 →
    field b 3 1 ≤ 16 → allZero (slice b 4 4) = true → allZero (slice b (56 + field b 3 1) (16 - field b 3 1)) = true →
    (s.lapseOld (field b 0 1)).cerLocked (field b 0 1) = false →
    (s.lapseOld (field b 0 1)).cerPermitted (field b 1 1) (slice b 56 (field b 3 1)) none = true → ∃ (q : Machine.Part) (y : Ceremony),
      exec (.cerBegin o b) s = .next (after s (q.answer c.uid Status.done (toBE 4 s.cerNext.toNat ++ zeros 4 ++ y.challenge))) ∧
      (q.cerPort (field b 0 1)).cer = some y ∧ y.id = s.cerNext ∧ y.kind = field b 1 1 ∧ y.session = x ∧ y.counted = [] ∧
      y.challenge = s.drawn 32 ∧ Keeps [.fuses, .power, .deal, .ports, .disp, .vault, .lats, .guard, .joker, .shuffle] s (after s q)) ∧
  (∀ (s : State) o c b x port y, HouseReady s o 0xA002 b c → c.session? = some x → b.length = 8 → allZero (b.drop 4) = true →
    s.cerOf (field b 0 4) = some (port, y) → y.session = x → (s.cerPort port).step = none → (s.cerPort port).present = false →
    ∃ t, exec (.cerStep o b) s = .next t ∧ (t.cerPort port).step = some { uid := c.uid, started := s.now, stage := .awaiting } ∧
      (t.cerPort port).cer = some { y with steps := y.steps + 1, lastStep := s.now } ∧ (∀ d, t.findCmd c.uid = some d → d.place = .waiting) ∧
      Keeps [.fuses, .power, .deal, .ports, .disp, .vault, .lats, .trngs, .guard, .part, .evr, .joker, .shuffle, .counts] s t) ∧
  (∀ (s : State) o c b x port y, HouseReady s o 0xA002 b c → c.session? = some x → b.length = 8 → allZero (b.drop 4) = true →
    s.cerOf (field b 0 4) = some (port, y) → y.session = x → (s.cerPort port).step = none → (s.cerPort port).present = true →
    (s.cerPort port).active = false → s.extesting = false → ∃ t, exec (.cerStep o b) s = .next t ∧
      (t.cerPort port).step = some { uid := c.uid, started := s.now, stage := .selecting } ∧ (t.cerPort port).active = true ∧
      Keeps [.fuses, .deal, .ports, .vault, .lats, .trngs, .guard, .joker, .shuffle] s t) ∧
  (∀ (s : State) o c b x port y, HouseReady s o 0xA003 b c → c.session? = some x → b.length = 8 → allZero (b.drop 4) = true →
    s.cerOf (field b 0 4) = some (port, y) → y.session = x → (s.cerPort port).step = none → 2 ≤ y.kind → y.kind ≤ 4 →
    s.cerQuorum y ≤ y.counted.length → ∃ q : Machine.Part, exec (.cerEnd o b) s = .next (after s (q.answer c.uid Status.done
        (toBE 2 (y.counted.foldl (fun m i => m ||| 2 ^ i) 0) ++ zeros 6))) ∧
      (q.cerPort port).cer = none ∧ (q.cerPort port).auth = some { cer := y, granted := s.now } ∧ (q.cerPort port).active = false ∧
      Keeps [.fuses, .power, .deal, .ports, .xct, .disp, .vault, .seats, .lats, .trngs, .guard, .part, .evr, .joker, .shuffle, .counts] s (after s q)) ∧
  (∀ (s : State) o c b x port y, HouseReady s o 0xA003 b c → c.session? = some x → b.length = 8 → allZero (b.drop 4) = true →
    s.cerOf (field b 0 4) = some (port, y) → y.session = x → (s.cerPort port).step = none → y.kind = 5 → y.counted.length < s.cerQuorum y →
    exec (.cerEnd o b) s = .next (after s (s.toPart.answer c.uid CerStatus.quorumNotMet))) ∧
  (∀ (s : State) o c b x port y cert, HouseReady s o 0xA003 b c → c.session? = some x → b.length = 8 → allZero (b.drop 4) = true →
    s.cerOf (field b 0 4) = some (port, y) → y.session = x → (s.cerPort port).step = none → y.kind = 5 → s.cerQuorum y ≤ y.counted.length →
    y.cert = some cert → s.shieldWhole = true → ∃ t, exec (.cerEnd o b) s = .next t ∧ t.power.life = 1 ∧ t.deal.st = .noDeal ∧
      t.deal.key.isSome = true ∧ t.vault.st = .awaitingDeck ∧ t.vault.root = some (s.drawn 32) ∧ t.vault.rootTag = true ∧
      t.vault.incarnation = s.vault.incarnation + 1 ∧ t.idCert = some cert ∧ (t.cerPort port).cer = none ∧
      Keeps [.fuses, .ports, .lats, .joker, .shuffle] s t) ∧
  (∀ (s : State) o c b x port y, HouseReady s o 0xA004 b c → c.session? = some x → 8 ≤ b.length → field b 4 4 = (b.drop 8).length →
    (b.drop 8).length ≤ 4096 → s.cerOf (field b 0 4) = some (port, y) → y.session = x → (s.cerPort port).step = none → y.kind = 5 →
    Config.certKey (b.drop 8) = some identityPub → exec (.cerCert o b) s = .next (after s ((s.toPart.setCer port
      { s.cerPort port with cer := some { y with cert := some (b.drop 8) } }).answer c.uid Status.done)))

/-- The ceremony ports' events (15 R392 to R395, R398, R399, R403): insertion and removal show; a card that answers SELECT as a custodian not yet
counted gets the write command; removal in a write leaves its outcome unknown; each wait ends in its status; an idle ceremony is void; an
authorisation lapses. `Keeps` names the units an act leaves as they were. Completes: cardInserted, cardRemoved, cardResponse, cardWaitTimeExpired,
cardClockStop, cerStepCardTimeout, ceremonyIdleTimeout, authorisationLapse. It rests on choices of the model: log 2, 36, 37. -/
def Obligations.CardRowsAct : Prop :=
  (∀ (s : State) port, port < 2 → s.power.on = true → (s.cerPort port).present = false → (s.cerPort port).step = none →
    ∃ t, exec (.cardInserted port) s = .next t ∧ t.cerPort port = { s.cerPort port with present := true } ∧
      Keeps [.fuses, .power, .deal, .ports, .disp, .vault, .lats, .trngs, .guard, .joker, .shuffle] s t) ∧
  (∀ (s : State) port, port < 2 → s.power.on = true → (s.cerPort port).present = true → (s.cerPort port).step = none →
    ∃ t, exec (.cardRemoved port) s = .next t ∧ (t.cerPort port).present = false ∧ (t.cerPort port).active = false ∧ t.now = s.now + nsec 1500 ∧
      (t.cerPort port).cer = (s.cerPort port).cer ∧ Keeps [.fuses, .power, .deal, .ports, .disp, .vault, .lats, .trngs, .guard, .joker, .shuffle] s t) ∧
  (∀ (s : State) port y st, port < 2 → s.power.on = true → (s.cerPort port).present = true → (s.cerPort port).cer = some y → y.doomed = false →
    (s.cerPort port).step = some st → st.stage = .writing → ∃ q : Machine.Part,
      exec (.cardRemoved port) s = .next (after s (q.answer st.uid Status.cardOutcomeUnknown)) ∧ (q.cerPort port).step = none ∧
      (q.cerPort port).unknown = some (st.index.getD 0xFF, st.counter) ∧ (q.cerPort port).active = false) ∧
  (∀ (s : State) port y st k data, port < 2 → s.power.on = true → (s.cerPort port).cer = some y → (s.cerPort port).step = some st →
    st.stage = .selecting → data.length = 24 → (s.cerPort port).unknown = none → y.kind ≠ 4 →
    (((s.cerRegistry y).map (·.custodians)).getD []).find? (fun k => k.cardId = data.take 16) = some k → y.counted.contains k.index = false →
    exec (.cardResponse port data 0x9000 0) s = .next (after s (s.toPart.setCer port { s.cerPort port with
      step := some { st with stage := .writing, index := some k.index, counter := BitVec.ofNat 32 (field data 16 4) } }))) ∧
  (∀ (s : State) port y st data sw, port < 2 → s.power.on = true → (s.cerPort port).cer = some y → y.doomed = false →
    (s.cerPort port).step = some st → st.stage ≠ .awaiting → sw ≠ 0x9000 → ∃ q : Machine.Part, exec (.cardResponse port data sw 0) s =
      .next (after s (q.answer st.uid CerStatus.protocolError (toBE 2 sw.toNat))) ∧ (q.cerPort port).step = none ∧ (q.cerPort port).active = false ∧
      (q.cerPort port).cer = some y ∧
      Keeps [.fuses, .deal, .ports, .disp, .vault, .lats, .guard, .joker, .shuffle] s (after s q)) ∧
  (∀ (s : State) port y st, port < 2 → s.power.on = true → (s.cerPort port).cer = some y → y.doomed = false →
    (s.cerPort port).step = some st → st.stage ≠ .awaiting → ∃ q : Machine.Part, exec (.cardWaitTimeExpired port) s =
      .next (after s (q.answer st.uid CerStatus.timeout)) ∧ (q.cerPort port).step = none ∧ (q.cerPort port).active = false ∧
      (q.cerPort port).cer = some y ∧
      Keeps [.fuses, .deal, .ports, .disp, .vault, .lats, .trngs, .guard, .joker, .shuffle] s (after s q)) ∧
  (∀ (s : State) port st, port < 2 → s.power.on = true → (s.cerPort port).active = true → (s.cerPort port).clkstop = false →
    (s.cerPort port).step = some st → st.stage = .awaiting → ∃ t, exec (.cardClockStop port) s = .next t ∧
      t.cerPort port = { s.cerPort port with clkstop := true } ∧ t.now = s.now + 1860 * 2 * (s.cerPort port).div.toNat ∧
      Keeps [.fuses, .power, .deal, .ports, .xct, .disp, .vault, .seats, .lats, .trngs, .guard, .part, .evr, .joker, .shuffle, .counts] s t) ∧
  (∀ (s : State) port y st, port < 2 → s.power.on = true → (s.cerPort port).cer = some y → y.doomed = false →
    (s.cerPort port).step = some st → st.stage = .awaiting → (s.cerPort port).unknown = none → ∃ q : Machine.Part,
      exec (.cerStepCardTimeout port) s = .next (after s (q.answer st.uid CerStatus.timeout)) ∧ (q.cerPort port).step = none ∧
      (q.cerPort port).cer = some y ∧ st.started + sec 120 ≤ q.now) ∧
  (∀ (s : State) port y, port < 2 → s.power.on = true → (s.cerPort port).cer = some y → (s.cerPort port).step = none →
    ∃ t, exec (.ceremonyIdleTimeout port) s = .next t ∧ (t.cerPort port).cer = none ∧ (t.cerPort port).unknown = none ∧
      y.lastStep + sec 600 ≤ t.now ∧ Keeps [.fuses, .power, .deal, .ports, .disp, .vault, .lats, .trngs, .guard, .joker, .shuffle] s t) ∧
  (∀ (s : State) port a, port < 2 → s.power.on = true → (s.cerPort port).auth = some a → ∃ t, exec (.authorisationLapse port) s = .next t ∧
    (t.cerPort port).auth = none ∧ a.granted + sec 60 ≤ t.now ∧
    Keeps [.fuses, .power, .deal, .ports, .disp, .vault, .lats, .trngs, .guard, .joker, .shuffle] s t)

/-- Pairing and promotion (13 R350 to R352, R362): PAIR_BEGIN uses its authorisation and opens the exchange; the follow's message ends the lead's
exchange in a pairing of epoch 1; a wrong item or 1 s ends it refused; PROMOTE_CHALLENGE draws; PROMOTE raises the epoch and leads. `Keeps` names the
units an act leaves as they were. Completes: pairBegin, promoteChallenge, promote, pairingFrame, pairingTimeout. It rests on choices of the model: log
2, 40, 41. -/
def Obligations.PairingRowsAct : Prop :=
  (∀ (s : State) o c b x port a, HouseReady s o 0x8001 b c → c.session? = some x → b.length = 24 → field b 16 1 = 2 → allZero (b.drop 17) = true →
    s.pairFault x (b.take 16) = none → s.authOf 2 x = some (port, a) → ∃ t, exec (.pairBegin o b) s = .next t ∧
      t.part.exchange = some { uid := c.uid, peer := b.take 16, lead := false, start := s.now, sent := [], secret := [] } ∧
      (t.cerPort port).auth = none ∧ Keeps [.fuses, .power, .deal, .ports, .disp, .vault, .lats, .trngs, .guard, .joker, .shuffle] s t) ∧
  (∀ (s : State) o c b x port a, HouseReady s o 0x8001 b c → c.session? = some x → b.length = 24 → field b 16 1 = 1 → allZero (b.drop 17) = true →
    s.pairFault x (b.take 16) = none → s.authOf 2 x = some (port, a) → ∃ t e item, exec (.pairBegin o b) s = .next t ∧
      t.part.exchange = some e ∧ e.uid = c.uid ∧ e.lead = true ∧ e.peer = b.take 16 ∧ e.start = s.now ∧ t.part.pairTx = item :: s.part.pairTx ∧
      item = e.sent ++ identitySign ((s.draw 128).drawn 48) e.sent ∧
      Keeps [.fuses, .power, .deal, .ports, .disp, .vault, .lats, .guard, .joker, .shuffle] s t) ∧
  (∀ (s : State) o c b r, HouseReady s o 0x8001 b c → b.length = 24 → (field b 16 1 = 1 ∨ field b 16 1 = 2) → allZero (b.drop 17) = true →
    (∃ x, c.session? = some x ∧ s.pairFault x (b.take 16) = some r) → exec (.pairBegin o b) s = .next (after s (s.toPart.answer c.uid pairRefused (reason r)))) ∧
  (∀ (s : State) identity b e m, s.power.on = true → 2 ≤ s.part.link.toNat → s.part.exchange = some e → toBE 16 identity.toNat = e.peer →
    e.lead = true → parsePair b = some m → m.role = 2 → Machine.Part.pairOk e m (e.sent ++ m.body) = true → ∃ t k, exec (.pairingFrame identity b) s = .next t ∧
      k = pairKeys e.sent m.body (C25519.x25519 (e.secret.take 32) m.x ++ Kem.decaps (e.secret.drop 32) m.kem) ∧
      t.part.exchange = none ∧ t.part.pairing = some { id := pairingId k.th, peer := e.peer, cak := k.cak, k1 := k.k1, k2 := k.k2, epoch := 1, lead := none } ∧
      Keeps [.fuses, .deal, .ports, .lats, .guard, .cers, .joker] s t) ∧
  (∀ (s : State) identity b, s.power.on = true → 2 ≤ s.part.link.toNat → s.part.exchange = none →
    exec (.pairingFrame identity b) s = .next (after s (s.toPart.bump (regAddr 0 winPPORT 0x0120)))) ∧
  (∀ (s : State) e, s.power.on = true → s.part.exchange = some e → ∃ q : Machine.Part, exec .pairingTimeout s =
    .next (after s (q.answer e.uid pairRefused (reason 3))) ∧ q.part.exchange = none ∧ e.start + sec 1 ≤ q.now ∧
      Keeps [.fuses, .deal, .ports, .disp, .vault, .lats, .trngs, .guard, .cers, .joker, .shuffle] s (after s q)) ∧
  (∀ (s : State) o c, HouseReady s o 0x8100 [] c → ∃ q : Machine.Part, exec (.promoteChallenge o []) s =
    .next (after s (q.answer c.uid Status.done (s.drawn 32))) ∧ q.part = { s.part with challenge := s.drawn 32 } ∧
      Keeps [.fuses, .deal, .ports, .vault, .lats, .guard, .cers, .joker, .shuffle] s (after s q)) ∧
  (∀ (s : State) o c b, HouseReady s o 0x8101 b c → 136 ≤ b.length → s.promoteFault b = none → ∃ t, exec (.promote o b) s = .next t ∧
    t.part.lead = true ∧ t.leadEpoch = s.leadEpoch + 1 ∧ t.part.challenge = s.drawn 32 ∧
      Keeps [.fuses, .deal, .ports, .lats, .guard, .cers, .joker] s t) ∧
  (∀ (s : State) o c b r, HouseReady s o 0x8101 b c → 136 ≤ b.length → s.promoteFault b = some r → ∃ q : Machine.Part, exec (.promote o b) s =
    .next (after s (q.answer c.uid promoteRefused (reason r))) ∧ q.part = { s.part with challenge := s.drawn 32 } ∧ q.vault = s.vault ∧
      Keeps [.fuses, .deal, .ports, .lats, .guard, .cers, .joker] s (after s q))

/-- The partner link and its heartbeats (13 R349, R353 to R358, R361): the link comes up and goes down; dropped frames count; a heartbeat leaves each
10 µs; an accepted one ends a run of missed ones, and takes a part in Solo to Linking; the thirtieth missed one is the loss of the partner. Missed
heartbeats (13 R356): each 10 µs without one counts; the thirtieth in a row is the loss of the partner; a heartbeat that arrives resets the count.
`Keeps` names the units an act leaves as they were. Completes: heartbeatSend, heartbeat, heartbeatMissed, mirrorFrameResend, partnerLinkUp,
partnerLinkDown, partnerPortFrame. It rests on choices of the model: log 2, 41, 42. -/
def Obligations.PartnerLinkActs : Prop :=
  (∀ (s : State), s.power.on = true → s.part.enabled = true → s.part.link.toNat < 2 → s.power.life = 1 →
    exec .partnerLinkUp s = .next (after s { s.toPart with part := { s.part with link := 2 } })) ∧
  (∀ (s : State), s.power.on = true → s.part.exchange = none → exec .partnerLinkDown s =
    .next (after s { s.toPart with ppAssocs := [], part := { s.part with link := if s.part.enabled then 1 else 0 } })) ∧
  (∀ (s : State), s.power.on = true → 2 ≤ s.part.link.toNat → ∃ t, exec (.partnerPortFrame .fcs) s = .next t ∧
    t = after s { s.toPart with counts := t.counts } ∧ t.count (regAddr 0 winPPORT 0x0110) = s.count (regAddr 0 winPPORT 0x0110) + 1 ∧
    t.count (regAddr 0 winPPORT 0x0120) = s.count (regAddr 0 winPPORT 0x0120) + 1) ∧
  (∀ (s : State), s.power.on = true → s.toPart.paired = true → s.part.link = 3 → s.part.enabled = true → s.shufflesPartner 1 = false →
    s.part.st ≠ .resync → s.part.st ≠ .mirrored → ∃ t, exec .heartbeatSend s = .next t ∧ t.now = max s.now s.part.beatDue ∧
      t.part = { s.part with beatDue := t.now + usec 10, beatOut := s.part.beatOut + 1 } ∧
      (∃ f, t.ptx = f :: s.ptx ∧ f.seq = s.part.beatOut + 1 ∧ f.msg = none ∧ f.beat = some t.toPart.ownBeat ∧ f.ack = s.part.recvSeq ∧
        f.held = s.part.heldSeq ∧ f.corrupt = false ∧ f.wire = t.toPart.mirrorWire f) ∧
      Keeps [.fuses, .power, .deal, .ports, .xct, .disp, .vault, .seats, .lats, .trngs, .guard, .evr, .cers, .joker, .shuffle, .counts] s t) ∧
  (∀ (s : State) h b, MirrorArrives s h → s.part.beatIn < h.seq.toNat → s.part.st = .solo → s.part.oneWay = false → ∃ t,
    exec (.heartbeat h b) s = .next t ∧ t.part.st = .linking ∧ t.part.missed = 0 ∧ t.part.beatIn = h.seq.toNat ∧ t.part.beatAt = s.now ∧
    t.part.peerEpoch = b.epoch.toNat ∧
      Keeps [.fuses, .ports, .lats, .trngs, .guard, .cers, .joker] s t) ∧
  (∀ (s : State) h b, MirrorArrives s h → h.seq.toNat ≤ s.part.beatIn → exec (.heartbeat h b) s = .next s) ∧
  (∀ (s : State), s.power.on = true → s.toPart.paired = true → s.part.missed < 29 → ∃ t, exec .heartbeatMissed s = .next t ∧
    t.part = { s.part with missed := s.part.missed + 1 } ∧ s.part.beatAt + usec 10 * (s.part.missed + 1) ≤ t.now ∧
    Keeps [.fuses, .power, .deal, .ports, .xct, .disp, .vault, .seats, .lats, .trngs, .guard, .evr, .cers, .joker, .shuffle, .counts] s t) ∧
  (∀ (s : State), s.power.on = true → 29 ≤ s.part.missed → (s.part.st = .mirrored ∨ s.part.st = .resync) → ∃ t,
    exec .heartbeatMissed s = .next t ∧ t.part.st = .solo ∧ t.part.leadInSolo = s.part.lead ∧ t.deal.peerKnown = false ∧
      Keeps [.fuses, .ports, .lats, .trngs, .guard, .cers, .joker] s t) ∧
  (∀ (s : State) seq n m at_, s.power.on = true → s.toPart.paired = true → s.part.link = 3 → s.shufflesPartner 1 = false →
    s.part.sentMsgs.find? (fun e => e.1 = BitVec.toNat seq) = some (n, m, at_) → ∃ t, exec (.mirrorFrameResend seq) s = .next t ∧
      (∃ f, t.ptx = f :: s.ptx ∧ f.seq = n ∧ f.msg = some m ∧ f.beat = none ∧ f.ack = s.part.recvSeq ∧ f.held = s.part.heldSeq ∧
        f.corrupt = false ∧ f.wire = t.toPart.mirrorWire f) ∧ at_ + 300 * s.part.rtt.toNat + usec 20 ≤ t.now ∧
      Keeps [.fuses, .power, .deal, .ports, .xct, .disp, .vault, .seats, .lats, .trngs, .guard, .evr, .cers, .joker, .shuffle] s t) ∧
  (∀ (s : State), s.power.on = true → s.toPart.paired = true → s.part.missed < 29 → ∃ t, exec .heartbeatMissed s = .next t ∧
    t.part.missed = s.part.missed + 1 ∧ t.part.st = s.part.st ∧ s.part.beatAt + usec 10 * (s.part.missed + 1) ≤ t.now ∧
      Keeps [.fuses, .ports, .lats, .trngs, .guard, .cers, .joker] s t) ∧
  (∀ (s : State), s.power.on = true → s.part.missed = 29 → (s.part.st = .mirrored ∨ s.part.st = .resync) → ∃ t,
    exec .heartbeatMissed s = .next t ∧ t.part.st = .solo ∧ t.part.missed = 30 ∧ s.part.beatAt + usec 300 ≤ t.now ∧
      Keeps [.fuses, .ports, .lats, .trngs, .guard, .cers, .joker] s t) ∧
  (∀ (s : State) h b, MirrorArrives s h → s.part.beatIn < h.seq.toNat → ∃ t, exec (.heartbeat h b) s = .next t ∧ t.part.missed = 0 ∧
      Keeps [.fuses, .ports, .lats, .trngs, .guard, .cers, .joker] s t)

/-- The frames of the mirror order (13 R353, R354, R358 to R365, R367): the next frame takes its acknowledgement and Held, and acts by its type; a
frame that fails its checks is counted and does nothing; the rejoin ends Mirrored. `Keeps` names the units an act leaves as they were. Completes:
mutation, forward, leaseRequest, repairRequest, repairData, resyncMap, resyncObject, resyncComplete, event. It rests on choices of the model: log 42,
43, 44, 77. -/
def Obligations.MirrorFramesAct : Prop :=
  (∀ (s : State) h b, NextFrame s h → exec (.mutation h b) s = .next (after s ((framed s h).takeMutation h.seq.toNat b))) ∧
  (∀ (s : State) h b, NextFrame s h → exec (.forward h b) s = .next (after s ((framed s h).takeForward b))) ∧
  (∀ (s : State) h b, NextFrame s h → exec (.leaseRequest h b) s = .next (after s ((framed s h).takeLeaseRequest b))) ∧
  (∀ (s : State) h b, NextFrame s h → b.length = 8 → exec (.repairRequest h b) s = .next (after s ((framed s h).takeRepairRequest b))) ∧
  (∀ (s : State) h b, NextFrame s h → b.length = 72 → exec (.repairData h b) s = .next (after s ((framed s h).takeRepairData b))) ∧
  (∀ (s : State) h b, NextFrame s h → exec (.resyncMap h b) s = .next (after s ((framed s h).takeMap b))) ∧
  (∀ (s : State) h b, NextFrame s h → exec (.resyncObject h b) s = .next (after s ((framed s h).takeObject h.seq.toNat b))) ∧
  (∀ (s : State) h b, NextFrame s h → exec (.event h b) s = .next (after s ((framed s h).takeEvent b))) ∧
  (∀ (s : State) h b, s.power.on = true → s.part.link = 3 → s.part.enabled = true → s.toPart.paired = true → s.shufflesPartner 0 = false →
    (h.version ≠ 1 ∨ h.reserved = true ∨ h.tagOk = false) →
    exec (.mutation h b) s = .next (after s (s.toPart.bump (regAddr 0 winPART 0x0110)))) ∧
  (∀ (s : State) h b, NextFrame s h → s.part.st = .resync → s.part.todo = [] → 8 ≤ b.length → field b 0 1 ≤ 2 → (b.drop 8).length ≤ 8192 →
    s.part.maps.contains (field b 0 1) = true → ∃ t, exec (.resyncMap h b) s = .next t ∧
      (∀ i, i < 8 * (b.drop 8).length → (byteAt (b.drop 8) (i / 8)).getLsbD (7 - i % 8) = true →
        Machine.Part.objAt (field b 0 1) (field b 4 4 + i) ∈ t.part.peerMap) ∧ t.part.recvSeq = h.seq.toNat ∧
      Keeps [.fuses, .ports, .lats, .trngs, .guard, .cers, .joker] s t) ∧
  (∀ (s : State) h b, NextFrame s h → b.length = 8 → s.part.lead = true → (s.part.st = .mirrored ∨ s.part.st = .resync) →
    exec (.leaseRequest h b) s = .next (after s ((framed s h).mutate (.lease (field b 0 4) true) 0 none [.ctr (field b 0 4)] true))) ∧
  (∀ (s : State), s.power.on = true → s.resyncDone = true → ∃ t, exec .resyncComplete s = .next t ∧ t.part.st = .mirrored ∧ t.part.soloMap = [] ∧
    t.part.settled = [] ∧ t.part.full = false ∧ t.leadEpoch = (if s.part.pairing.isSome = true then max s.leadEpoch s.part.peerEpoch else 0) ∧
      Keeps [.fuses, .deal, .ports, .lats, .trngs, .guard, .cers, .joker] s t)

/-- GUARD_READMIT (12 R345): only the house hand may issue it; its block is a Seat number and seven reserved bytes; it answers by the Seat's state. -/
def Obligations.GuardReadmitAnswers : Prop :=
  (∀ s o c b, Ready s o 0x1201 b c → c.hand ≠ 0 → exec (.guardReadmit o b) s = .next (after s (s.toPart.answer c.uid Status.accessFault))) ∧
  (∀ s o c b, HouseReady s o 0x1201 b c → (b.length ≠ 8 ∨ allZero (b.drop 1) = false) →
    exec (.guardReadmit o b) s = .next (after s (s.toPart.answer c.uid Status.lengthMismatch))) ∧
  (∀ s o c b, HouseReady s o 0x1201 b c → b.length = 8 → allZero (b.drop 1) = true → s.hasSeat (field b 0 1) = false →
    exec (.guardReadmit o b) s = .next (after s (s.toPart.answer c.uid Status.accessFault))) ∧
  (∀ s o c b, HouseReady s o 0x1201 b c → b.length = 8 → allZero (b.drop 1) = true → s.hasSeat (field b 0 1) = true →
    s.seatIn (field b 0 1) .selfTest = true → ∃ left, exec (.guardReadmit o b) s =
      .next (after s (s.toPart.answer c.uid Status.busyDraining (busyPayload 4 left)))) ∧
  (∀ s o c b, HouseReady s o 0x1201 b c → b.length = 8 → allZero (b.drop 1) = true → s.hasSeat (field b 0 1) = true →
    s.seatIn (field b 0 1) .selfTest = false → (s.seat (field b 0 1)).parked = false →
    exec (.guardReadmit o b) s = .next (after s (s.toPart.answer c.uid 0x0703))) ∧
  (∀ s o c b, HouseReady s o 0x1201 b c → b.length = 8 → allZero (b.drop 1) = true → s.hasSeat (field b 0 1) = true →
    s.seatIn (field b 0 1) .selfTest = false → (s.seat (field b 0 1)).parked = true → ∃ q : Machine.Part,
      exec (.guardReadmit o b) s = .next (after s (q.answer c.uid Status.done)) ∧ (q.seat (field b 0 1)).parked = false ∧
      (s.power.life = 1 → s.joker.scope ≠ 3 → s.seatIn (field b 0 1) .shed = true → ∃ t, exec (.seatReadmit (field b 0 1)) (after s q) = .next t ∧
        t.seatIn (field b 0 1) .selfTest = true))

/-- While the Deal is Staging, Cutting or Teardown, DEAL_STAGE, DEAL_CUT and DEAL_DISCARD answer DEAL_CUT_PENDING and do nothing; DEAL_QUERY is
answered in every state (02 R45). -/
def Obligations.CutPendingTurnsAway : Prop :=
  (∀ s o b c, HouseReady s o 0x1101 b c → (s.deal.st = .staging ∨ s.deal.st = .cutting ∨ s.deal.st = .teardown) →
    exec (.dealStage o b) s = .next (after s (s.toPart.answer c.uid Status.dealCutPending))) ∧
  (∀ s o c b, HouseReady s o 0x1102 b c → b.length = 8 → (s.deal.st = .staging ∨ s.deal.st = .cutting ∨ s.deal.st = .teardown) →
    exec (.dealCut o b) s = .next (after s (s.toPart.answer c.uid Status.dealCutPending))) ∧
  (∀ s o c, HouseReady s o 0x1103 [] c → (s.deal.st = .staging ∨ s.deal.st = .cutting ∨ s.deal.st = .teardown) →
    exec (.dealDiscard o []) s = .next (after s (s.toPart.answer c.uid Status.dealCutPending))) ∧
  (∀ s o c, HouseReady s o 0x1104 [] c → ∃ payload, exec (.dealQuery o []) s = .next (after s (s.toPart.answer c.uid Status.done payload)))

/-- A freeze (14 R377): EVENT_FREEZE and a write of 1 stop ring writes for 10 s from the last request; EVENT_THAW, a write of 0, the end of the 10 s
and power loss end it. `Keeps` names the units an act leaves as they were. -/
def Obligations.FreezeStopsRing : Prop :=
  (∀ (p : Machine.Part) code sev flags die p1 p2 p3, p.evr.thawAt.isSome = true → (p.create code sev flags die p1 p2 p3).evr.ring = p.evr.ring) ∧
  (∀ s o c, HouseReady s o 0x9102 [] c → ∃ t, exec (.eventFreeze o []) s = .next t ∧ t.evr.thawAt = some (s.now + sec 10) ∧
      Keeps [.fuses, .deal, .ports, .vault, .lats, .trngs, .guard, .cers, .joker, .shuffle] s t) ∧
  (∀ s, s.power.on = true → ∃ t, exec .evrFreezeSet s = .next t ∧ t.evr.thawAt = some (s.now + sec 10) ∧
      Keeps [.fuses, .power, .deal, .ports, .disp, .vault, .lats, .trngs, .guard, .cers, .joker, .shuffle] s t) ∧
  (∀ s o c, HouseReady s o 0x9103 [] c → ∃ t, exec (.eventThaw o []) s = .next t ∧ t.evr.thawAt = none ∧
      Keeps [.fuses, .deal, .ports, .vault, .lats, .trngs, .guard, .cers, .joker, .shuffle] s t) ∧
  (∀ s, s.power.on = true → ∃ t, exec .evrFreezeClear s = .next t ∧ t.evr.thawAt = none ∧
      Keeps [.fuses, .power, .deal, .ports, .disp, .vault, .lats, .trngs, .guard, .cers, .joker, .shuffle] s t) ∧
  (∀ s, s.power.on = true → ∃ t, exec .freezeTimeout s = .next t ∧ t.evr.thawAt = none ∧ (∀ t0, s.evr.thawAt = some t0 → t0 ≤ t.now) ∧
      Keeps [.fuses, .power, .deal, .ports, .disp, .vault, .lats, .trngs, .guard, .cers, .joker, .shuffle] s t) ∧
  (∀ s orderly, s.power.on = true → ∃ t, exec (.powerFail orderly) s = .next t ∧ t.evr.thawAt = none)

/-- A part in Mirrored or Resync that hears of its partner in Solo enters Solo at once, and leaves it only on a heartbeat that reports the partner in
Linking (17 R437). `Keeps` names the units an act leaves as they were. -/
def Obligations.OneWayLoss : Prop :=
  (∀ (s : State) h b, MirrorArrives s h → s.part.beatIn < h.seq.toNat → (s.part.st = .mirrored ∨ s.part.st = .resync) → b.state = 4 →
    ∃ t, exec (.heartbeat h b) s = .next t ∧ t.part.st = .solo ∧ t.part.oneWay = true ∧
      Keeps [.fuses, .ports, .lats, .trngs, .guard, .cers, .joker] s t) ∧
  (∀ (s : State) h b, MirrorArrives s h → s.part.beatIn < h.seq.toNat → s.part.st = .solo → s.part.oneWay = true → b.state ≠ 1 →
    ∃ t, exec (.heartbeat h b) s = .next t ∧ t.part.st = .solo ∧ t.part.oneWay = true ∧
      Keeps [.fuses, .ports, .lats, .trngs, .guard, .cers, .joker] s t) ∧
  (∀ (s : State) h b, MirrorArrives s h → s.part.beatIn < h.seq.toNat → s.part.st = .solo → s.part.oneWay = true → b.state = 1 →
    ∃ t, exec (.heartbeat h b) s = .next t ∧ t.part.st = .linking ∧ t.part.oneWay = false ∧
      Keeps [.fuses, .ports, .lats, .trngs, .guard, .cers, .joker] s t)

/-- The independence groups and their light (12 R326): the classes stand in groups A to G, class 0xB in none; a group is lit while a witness of
severity 3 or more of it lies within the last second. -/
def Obligations.GroupsLit : Prop :=
  (∀ cls g, groupOf cls = some g ↔ (g = 0 ∧ (cls = 1 ∨ cls = 2)) ∨ (g = 1 ∧ (cls = 3 ∨ cls = 4)) ∨ (g = 2 ∧ (cls = 5 ∨ cls = 6)) ∨
    (g = 3 ∧ (cls = 7 ∨ cls = 8)) ∨ (g = 4 ∧ cls = 9) ∨ (g = 5 ∧ cls = 10) ∨ (g = 6 ∧ (cls = 13 ∨ cls = 14 ∨ cls = 15))) ∧
  (∀ (p : Machine.Part) g, p.litGroups.testBit g = true ↔ ∃ w ∈ p.guard.seen, groupOf w.cls = some g ∧ 3 ≤ w.sev ∧ p.now ≤ w.at_ + sec 1)

/-- A slice that would take a trim beyond its bound leaves the trim, counts and writes its record (11 R313). -/
def Obligations.TrimStaysInBound : Prop :=
  ∀ (s : State) die cls i b d, s.power.on = true → s.hasDie die = true → cls < 8 → i < Machine.Part.sensorCount die cls →
    (s.sensor die cls i).retired = false → Machine.Part.trimBound cls = some b → b < ((s.sensor die cls i).trim + max (-1) (min 1 d)).natAbs →
    ∃ t, exec (.calibrationSlice die cls i d true) s = .next t ∧ (t.sensor die cls i).trim = (s.sensor die cls i).trim ∧
      t.count (regAddr die (if die = 0 then winLAT else swinLAT) 0x0120) = s.count (regAddr die (if die = 0 then winLAT else swinLAT) 0x0120) + 1 ∧
      ((s.sensor die cls i).refusals < 2 → ∃ q : Machine.Part, q = { s.toPart with counts := q.counts } ∧
        t.evr = (q.record 0x0740 1 die (BitVec.ofNat 32 (i % 65536 * 256 + cls * 16))
          (BitVec.ofNat 32 (Machine.Part.trimCode die cls i 0).toNat)
          (BitVec.ofNat 32 (Machine.Part.trimCode die cls i ((s.sensor die cls i).trim + max (-1) (min 1 d))).toNat)).evr)

/-- The replay window (03 R82): a recorded request ID, and one that is 0 or below the window, is answered REPLAY_REJECTED and does nothing; one above
H, or within the window and not recorded, that passes the other checks is accepted and recorded. -/
def Obligations.ReplayWindowHolds : Prop :=
  (∀ (p : Machine.Part) x hand ordered path code (request : BitVec 64) params, x.st = .open_ → x.recorded.any (fun e => e.1 = request.toNat) = true →
    let q := p.countAnswer Status.replayRejected
    ∃ r, p.accept x hand ordered path code request params =
        { q with xct := { q.xct with replies := q.xct.replies ++ [r], nextDone := q.xct.nextDone + 1 } } ∧
      r.session = x.id ∧ r.request = request ∧ r.status = Status.replayRejected ∧ r.payload = Machine.Part.replayPayload x request.toNat) ∧
  (∀ (p : Machine.Part) x hand ordered path code (request : BitVec 64) params, x.st = .open_ → x.recorded.any (fun e => e.1 = request.toNat) = false →
    (request = 0 ∨ request.toNat + x.window ≤ x.reqHigh) →
    let q := p.countAnswer Status.replayRejected
    ∃ r, p.accept x hand ordered path code request params =
        { q with xct := { q.xct with replies := q.xct.replies ++ [r], nextDone := q.xct.nextDone + 1 } } ∧
      r.session = x.id ∧ r.request = request ∧ r.status = Status.replayRejected ∧ r.payload = [2, 0, 0, 0]) ∧
  (∀ (p : Machine.Part) x hand path code (request : BitVec 64) params, p.findSession x.id = some x → x.st = .open_ →
    x.recorded.any (fun e => e.1 = request.toNat) = false → request ≠ 0 → x.reqHigh < request.toNat + x.window → 1 ≤ x.window →
    p.unanswered x.id < x.credit → (∀ n, p.inflightLimit x.hand = some n → p.handInFlight x.hand < n) → p.firstAnswer x hand code = none → p.busy x.hand code params = none →
    ∃ c, (p.accept x hand false path code request params).xct.cmds = p.xct.cmds ++ [c] ∧ c.origin = .host x.id request ∧ c.code = code ∧
      c.params = params ∧ ∃ y, (p.accept x hand false path code request params).findSession x.id = some y ∧
        (request.toNat, none) ∈ y.recorded ∧ y.reqHigh = max x.reqHigh request.toNat)

/-- Deciphering undoes enciphering in CBC, whatever the block cipher and its inverse (06, 07: the chaining of TDEA_CBC and LANE_CBC). Counter mode is
its own inverse for a message of any length, and keeps its length (07, LANE_CTR and GCM's cipher). It rests on choices of the model: log 5. -/
def Obligations.ModesInvert : Prop :=
  (∀ (n : Nat) (f g : Bytes → Bytes) (iv m : Bytes), 0 < n → (∀ b, b.length = n → (f b).length = n ∧ g (f b) = b) → iv.length = n →
    m.length % n = 0 → cbcDec n g iv (cbcEnc n f iv m) = m ∧ (cbcEnc n f iv m).length = m.length) ∧
  (∀ (f : Bytes → Bytes) (bits : Nat) (iv m : Bytes), (∀ b, (f b).length = 16) →
    ctrCrypt f bits iv (ctrCrypt f bits iv m) = m ∧ (ctrCrypt f bits iv m).length = m.length)

/-- FF1 at radix 10 keeps the number of digits, answers digits, and its decryption undoes its encryption, whatever the block cipher and the tweak (06,
FF1_ENCRYPT and FF1_DECRYPT). It rests on choices of the model: log 5. -/
def Obligations.Ff1Inverts : Prop :=
  ∀ (f : Bytes → Bytes) (tweak : Bytes) (d : List Nat), (∀ x ∈ d, x < 10) → ff1Dec f tweak (ff1Enc f tweak d) = d ∧
    (ff1Enc f tweak d).length = d.length ∧ ∀ x ∈ ff1Enc f tweak d, x < 10

/-- The command at the front of the queue acts on the state with the queue's rest. With nothing waiting the block idles: only its clock moves, by one
Dealer cycle (the model's choice, log 1). It rests on choices of the model: log 1. -/
def Obligations.StepRunsFront : Prop :=
  (∀ (c : Instr) (s : State), step { s with pending := c :: s.pending } = exec c s) ∧
  (∀ s : State, s.pending = [] → step s = .next (after s { s.toPart with now := s.now + 2 }))

/-- Every command that names only units the part has runs to a next state, on every state of the XF2408; none is refused. No command touches the
queue. -/
def Obligations.EveryCommandRuns : Prop :=
  ((∀ (c : Instr) (s : State), c.wf = true → s.fuses.variant = .xf2408 →
    (∀ die cls i d ok, c = .calibrationSlice die cls i d ok → cls < 8 ∧ i < Machine.Part.sensorCount die cls) → ∃ t, exec c s = .next t) ∧
  ∀ (c : Instr) (s : State) (r : Refusal), exec c s ≠ .refused r) ∧
  (∀ (c : Instr) (s t : State), exec c s = .next t → t.pending = s.pending)

/-- A Seat that the variant does not have is never valid (00 R1): rows of every family that names one fault, on the XF2402 and XF2404 for the Seats
they lack. -/
def Obligations.AbsentSeatFaults : Prop :=
  ∀ (s : State) (n : Nat), s.hasSeat n = false →
    (∀ u e, exec (.trickStart n u e) s = .fault .absentUnit) ∧ (∀ l e, exec (.laneCommandResident n l e) s = .fault .absentUnit) ∧
    (∀ k e, exec (.pkeJobStart n k e) s = .fault .absentUnit) ∧ (∀ k e, exec (.digestJobStart n k e) s = .fault .absentUnit) ∧
    (∀ k, exec (.appletInvoke n k) s = .fault .absentUnit) ∧ (∀ g i, exec (.tileWakeComplete n g i) s = .fault .absentUnit) ∧
    (∀ e, exec (.seatDescriptorArrive n e) s = .fault .absentUnit) ∧ (∀ k e, exec (.keyFetchComplete n k e) s = .fault .absentUnit) ∧
    exec (.seatEpochFlip n) s = .fault .absentUnit ∧ exec (.privateSeatRelease n) s = .fault .absentUnit ∧
    exec (.seatReadmit n) s = .fault .absentUnit ∧ exec (.linkRetrain n) s = .fault .absentUnit

/-- Without main power nothing acts but the start, and what the battery's domain watches (16 R408, R409; 12 R340, R341; log 6). It rests on choices of
the model: log 6. -/
def Obligations.PowerOffInert : Prop :=
  ∀ (c : Instr) (s t : State), s.power.on = false → exec c s = .next t → (∀ f, c ≠ .powerUp f) → (∀ k i m, c ≠ .offWitness k i m) →
    c ≠ .vbatLoss → (∀ v, c ≠ .vbatReturn v) → (∀ v, c ≠ .batteryLow v) → c ≠ .osc32Fail → c ≠ .osc32Restart → t = s

/-- What every step keeps: the memories' canonical form, what is fused into the part, and a clock that never runs back. -/
def Obligations.StepKeeps : Prop :=
  ∀ s t : State, step s = .next t → (MemoryWf s → MemoryWf t) ∧ t.fuses = s.fuses ∧ s.now ≤ t.now

/-- The registers whose reset the manual states read so at reset, on the Dealer and on every Seat of the XF2408 (the register tables of 01 to 17). The
memories are in canonical form at reset, and nothing waits. -/
def Obligations.ResetRegisters : Prop :=
  ((∀ e ∈ ([(0x010004, 0), (0x010008, 0), (0x01000C, 0), (0x010010, 0), (0x010014, 0), (0x010018, 0), (0x01001C, 0), (0x010020, 0), (0x010024, 0),
      (0x020000, 0x30), (0x020004, 0), (0x020008, 0), (0x02000C, 0xB4C5), (0x020010, 0), (0x030000, 0x30), (0x03000C, 0xB4C5), (0x040000, 0),
      (0x050000, 0), (0x050004, 0), (0x060000, 0), (0x060004, 0x10190), (0x060008, 6), (0x060010, 0), (0x060014, 0), (0x060020, 1),
      (0x060024, 100), (0x060030, 0), (0x060034, 0), (0x070000, 0), (0x070008, 0), (0x080000, 0), (0x090004, 0), (0x090008, 0), (0x0A0000, 0),
      (0x0A0004, 1), (0x0B0000, 0), (0x0B0004, 0), (0x0B0008, 0x8000), (0x0B000C, 0)] : List (Nat × Nat)),
    (State.reset.readReg e.1).2.toNat = e.2) ∧
  (∀ e ∈ ([(0x0C0000, 0), (0x0C0004, 0), (0x0C0008, 0), (0x0C0010, 0), (0x0C0020, 0x100), (0x0C0028, 0), (0x0C0030, 0), (0x0C0034, 0), (0x0D0000, 0),
      (0x0D0004, 0x11407), (0x0D0008, 0), (0x0E0004, 0x11407), (0x0F0000, 0), (0x0F0010, 0), (0x0F0014, 0), (0x100000, 0), (0x100004, 0),
      (0x100008, 0), (0x10000C, 0x10000), (0x100010, 0x1010001), (0x100014, 0), (0x100018, 0), (0x10001C, 0), (0x110000, 0x10000),
      (0x110004, 0), (0x110008, 0), (0x11000C, 2), (0x110010, 0), (0x120000, 0), (0x120030, 0), (0x130000, 0), (0x130004, 0x33B0051),
      (0x130010, 0)] : List (Nat × Nat)),
    (State.reset.readReg e.1).2.toNat = e.2) ∧
  ∀ n, 1 ≤ n → n ≤ 7 → ∀ e ∈ ([(0x000004, 3), (0x000010, 0), (0x000014, 0), (0x000018, 0), (0x010000, 0), (0x010004, 0), (0x030000, 0), (0x040000, 0),
      (0x040004, 0), (0x050000, 0), (0x060000, 0), (0x060004, 0), (0x060028, 0), (0x070000, 0), (0x080000, 0), (0x080004, 0), (0x080008, 0),
      (0x090000, 0), (0x090004, 0), (0x0A0000, 0), (0x0B0000, 0), (0x0B0004, 0x33B0051), (0x0C0000, 0), (0x0C0004, 0), (0x0C0008, 0),
      (0x0D0004, 0)] : List (Nat × Nat)),
    (State.reset.readReg (n * 0x1000000 + e.1)).2.toNat = e.2) ∧
  (MemoryWf State.reset ∧ State.reset.pending = [])
end

