-- ==== Sys2Proof/Laws/Bytes.lean ====
section
/-! SUPPORT. What the byte operations answer: lengths, and a field read back from where it was written. -/

namespace Sys2Proof.Machine

@[simp] theorem toBE_length (n v : Nat) : (toBE n v).length = n := by
  induction n generalizing v with
  | zero => rfl
  | succ n ih => simp [toBE, ih]

@[simp] theorem zeros_length (n : Nat) : (zeros n).length = n := List.length_replicate

@[simp] theorem padTo_length (n : Nat) (b : Bytes) : (padTo n b).length = n := by
  simp [padTo]

@[simp] theorem xorBytes_length (a b : Bytes) : (xorBytes a b).length = min a.length b.length := List.length_zipWith

theorem be_append_byte (b : Bytes) (x : Byte) : be (b ++ [x]) = be b * 256 + x.toNat := by
  simp [be]

/-- A number written as a big-endian field reads back, cut to the field's width. -/
theorem be_toBE (n v : Nat) : be (toBE n v) = v % 256 ^ n := by
  induction n generalizing v with
  | zero => simp [toBE, be, Nat.mod_one]
  | succ n ih =>
    have e : v % 256 ^ (n + 1) = v % 256 + 256 * (v / 256 % 256 ^ n) := by rw [Nat.pow_succ', Nat.mod_mul]
    rw [toBE, be_append_byte, ih, BitVec.toNat_ofNat, e]
    omega

/-- A field reads back from between what stands before and after it. -/
theorem field_toBE (a c : Bytes) (n v : Nat) : field (a ++ (toBE n v ++ c)) a.length n = v % 256 ^ n := by
  have h : (toBE n v ++ c).take n = toBE n v := by
    have e := List.take_left (l₁ := toBE n v) (l₂ := c)
    rwa [toBE_length] at e
  rw [field, slice, List.drop_left, h, be_toBE]

end Sys2Proof.Machine
end

