-- ==== Sys2Proof/Laws/Hash.lean ====
section
/-! SUPPORT. The lengths the digests answer (09 R248), whatever the message. -/

namespace Sys2Proof.Machine

theorem sha2_round_length (h : Sha2) (v : List Nat) (kw : Nat × Nat) (e : v.length = 8) : (h.round v kw).length = 8 := by
  unfold Sha2.round
  split
  · rfl
  · exact e

theorem sha2_rounds_length (h : Sha2) (l : List (Nat × Nat)) (v : List Nat) (e : v.length = 8) : (l.foldl h.round v).length = 8 := by
  induction l generalizing v with
  | nil => exact e
  | cons a l ih => exact ih _ (sha2_round_length h v a e)

theorem sha2_compress_length (h : Sha2) (v : List Nat) (b : Bytes) (e : v.length = 8) : (h.compress v b).length = 8 := by
  simp only [Sha2.compress, List.length_zipWith, e, sha2_rounds_length h _ v e, Nat.min_self]

theorem sha2_blocks_length (h : Sha2) (l : List Bytes) (v : List Nat) (e : v.length = 8) : (l.foldl h.compress v).length = 8 := by
  induction l generalizing v with
  | nil => exact e
  | cons a l ih => exact ih _ (sha2_compress_length h v a e)

theorem flatMap_toBE_length (n : Nat) (l : List Nat) : (l.flatMap (toBE n)).length = l.length * n := by
  induction l with
  | nil => simp
  | cons a l ih => simp [ih, Nat.succ_mul, Nat.add_comm]

/-- A SHA-2 digest has the length asked for, up to the eight words of its state. -/
theorem sha2_hash_length (h : Sha2) (iv : List Nat) (len : Nat) (m : Bytes) (e : iv.length = 8) (le : len ≤ 8 * (h.w / 8)) :
    (h.hash iv len m).length = len := by
  rw [Sha2.hash, List.length_take, flatMap_toBE_length, sha2_blocks_length h _ _ e, Nat.min_eq_left le]

@[simp] theorem sha224_length (m : Bytes) : (sha224 m).length = 28 :=
  sha2_hash_length _ _ _ _ rfl (by decide)

@[simp] theorem sha256_length (m : Bytes) : (sha256 m).length = 32 :=
  sha2_hash_length _ _ _ _ rfl (by decide)

@[simp] theorem sha384_length (m : Bytes) : (sha384 m).length = 48 :=
  sha2_hash_length _ _ _ _ rfl (by decide)

@[simp] theorem sha512_length (m : Bytes) : (sha512 m).length = 64 :=
  sha2_hash_length _ _ _ _ rfl (by decide)

theorem hmacSha384_length (key m : Bytes) : (hmacSha384 key m).length = 48 := sha384_length _

/-! ### The sponge -/

theorem keccak_round_length (s : List Nat) (rc : Nat) : (Keccak.round s rc).length = 25 := by
  unfold Keccak.round
  dsimp only
  split
  all_goals
    rename_i h
    have n := congrArg List.length h
    rw [List.length_map, List.length_range] at n
    exact n.symm

theorem keccak_rounds_length (l s : List Nat) (e : s.length = 25) : (l.foldl Keccak.round s).length = 25 := by
  induction l generalizing s with
  | nil => exact e
  | cons a l ih => exact ih _ (keccak_round_length s a)

theorem keccak_absorb_length (l : List Bytes) (s : List Nat) (e : s.length = 25) : (l.foldl Keccak.absorb s).length = 25 := by
  induction l generalizing s with
  | nil => exact e
  | cons a l ih => exact ih _ (keccak_rounds_length _ _ (by simp))

theorem keccak_squeeze_length (rate f : Nat) (s : List Nat) (e : s.length = 25) (h : rate ≤ 200) :
    (Keccak.squeeze rate f s).length = f * rate := by
  induction f generalizing s with
  | zero => simp [Keccak.squeeze]
  | succ f ih =>
    have t : (Keccak.toBytes s).length = 200 := by
      have g : ∀ l : List Nat, (Keccak.toBytes l).length = 8 * l.length := by
        intro l; induction l with
        | nil => rfl
        | cons a l ih => simp only [Keccak.toBytes, List.flatMap_cons, List.length_append, List.length_reverse, toBE_length, List.length_cons] at ih ⊢; omega
      rw [g, e]
    have n := ih (Keccak.permute s) (keccak_rounds_length _ _ e)
    rw [Keccak.squeeze, List.length_append, List.length_take, t, n, Nat.min_eq_left h, Nat.succ_mul, Nat.add_comm]

/-- The sponge answers as many bytes as are asked for. -/
theorem keccak_sponge_length (rate : Nat) (suffix : Byte) (len : Nat) (m : Bytes) (h : rate ≤ 200) (hp : 0 < rate) :
    (Keccak.sponge rate suffix len m).length = len := by
  have d := Nat.div_add_mod len rate
  have l := Nat.mod_lt len hp
  rw [Keccak.sponge, List.length_take, keccak_squeeze_length _ _ _ (keccak_absorb_length _ _ (by simp)) h, Nat.min_eq_left]
  rw [Nat.succ_mul, Nat.mul_comm]; omega

@[simp] theorem shake128_length (n : Nat) (m : Bytes) : (shake128 n m).length = n := keccak_sponge_length _ _ _ _ (by decide) (by decide)
@[simp] theorem shake256_length (n : Nat) (m : Bytes) : (shake256 n m).length = n := keccak_sponge_length _ _ _ _ (by decide) (by decide)

end Sys2Proof.Machine
end

