-- ==== Sys2Proof/Laws/Noted.lean ====
section
/-! SUPPORT. Everything the recorder's operations can do (14 R370 to R390): one relation, kept by records, notices and events. -/

namespace Sys2Proof.Laws

open Sys2Proof.Machine

/-- A session without its waiting notices. -/
def bare (x : Session) : Session := { x with waiting := [] }

/-- q is p after recording and raising notices: only the recorder, the counts, the records to forward, the notices waiting for sessions and
the applet queues may have changed. -/
structure Noted (p q : Machine.Part) : Prop where
  eq : q = { p with evr := q.evr, counts := q.counts, part := { p.part with evOut := q.part.evOut }, xct := { p.xct with sessions := q.xct.sessions }, seats := { p.seats with appNotices := q.seats.appNotices } }
  sess : q.xct.sessions.map bare = p.xct.sessions.map bare

namespace Noted

variable {p q r : Machine.Part}

theorem refl (p : Machine.Part) : Noted p p := ⟨rfl, rfl⟩

theorem trans (h : Noted p q) (k : Noted q r) : Noted p r := by
  refine ⟨?_, k.sess.trans h.sess⟩
  have e := k.eq
  rw [h.eq] at e
  exact e

theorem of_evr (p : Machine.Part) (e : EvrUnit) : Noted p (p.setEvr e) := ⟨rfl, rfl⟩

theorem of_bump (p : Machine.Part) (a n : Nat) : Noted p (p.bump a n) := ⟨rfl, rfl⟩

theorem setEvr (h : Noted p q) (e : EvrUnit) : Noted p (q.setEvr e) := h.trans (of_evr q e)

theorem bump (h : Noted p q) (a n : Nat) : Noted p (q.bump a n) := h.trans (of_bump q a n)

theorem fuses (h : Noted p q) : q.fuses = p.fuses := by rw [h.eq]
theorem now (h : Noted p q) : q.now = p.now := by rw [h.eq]
theorem draws (h : Noted p q) : q.draws = p.draws := by rw [h.eq]
theorem power (h : Noted p q) : q.power = p.power := by rw [h.eq]
theorem deal (h : Noted p q) : q.deal = p.deal := by rw [h.eq]
theorem hpa (h : Noted p q) : q.hpa = p.hpa := by rw [h.eq]
theorem hpb (h : Noted p q) : q.hpb = p.hpb := by rw [h.eq]
theorem ha0 (h : Noted p q) : q.ha0 = p.ha0 := by rw [h.eq]
theorem ha1 (h : Noted p q) : q.ha1 = p.ha1 := by rw [h.eq]
theorem hb0 (h : Noted p q) : q.hb0 = p.hb0 := by rw [h.eq]
theorem hb1 (h : Noted p q) : q.hb1 = p.hb1 := by rw [h.eq]
theorem cmds (h : Noted p q) : q.xct.cmds = p.xct.cmds := by rw [h.eq]
theorem streams (h : Noted p q) : q.xct.streams = p.xct.streams := by rw [h.eq]
theorem replies (h : Noted p q) : q.xct.replies = p.xct.replies := by rw [h.eq]
theorem disp (h : Noted p q) : q.disp = p.disp := by rw [h.eq]
theorem vault (h : Noted p q) : q.vault = p.vault := by rw [h.eq]
theorem lats (h : Noted p q) : q.lats = p.lats := by rw [h.eq]
theorem trngs (h : Noted p q) : q.trngs = p.trngs := by rw [h.eq]
theorem guard (h : Noted p q) : q.guard = p.guard := by rw [h.eq]
theorem cera (h : Noted p q) : q.cera = p.cera := by rw [h.eq]
theorem cerb (h : Noted p q) : q.cerb = p.cerb := by rw [h.eq]
theorem registry (h : Noted p q) : q.registry = p.registry := by rw [h.eq]
theorem joker (h : Noted p q) : q.joker = p.joker := by rw [h.eq]
theorem shuffle (h : Noted p q) : q.shuffle = p.shuffle := by rw [h.eq]
theorem latches (h : Noted p q) : q.latches = p.latches := by rw [h.eq]
theorem tx (h : Noted p q) : q.tx = p.tx := by rw [h.eq]
theorem ptx (h : Noted p q) : q.ptx = p.ptx := by rw [h.eq]
theorem seats (h : Noted p q) : q.seats = { p.seats with appNotices := q.seats.appNotices } := congrArg Machine.Part.seats h.eq
theorem part (h : Noted p q) : q.part = { p.part with evOut := q.part.evOut } := congrArg Machine.Part.part h.eq
theorem xct (h : Noted p q) : q.xct = { p.xct with sessions := q.xct.sessions } := congrArg Machine.Part.xct h.eq

end Noted

theorem Noted.ite {p x y : Machine.Part} {b : Prop} [Decidable b] (hx : Noted p x) (hy : Noted p y) : Noted p (if b then x else y) := by
  split
  · exact hx
  · exact hy

theorem ringCopy_noted (p : Machine.Part) (r : Rec) (t : Bool) : Noted p (p.ringCopy r t) := by
  unfold Part.ringCopy
  have h : Noted p (p.setEvr (ringOrHold p.evr r)) := .of_evr _ _
  simp only
  generalize p.setEvr (ringOrHold p.evr r) = q at h ⊢
  exact h.trans (.ite (.bump (.ite (.bump (.ite (.of_evr _ _) (.refl _)) _ _) (.ite (.of_evr _ _) (.refl _))) _ _)
    (.ite (.bump (.ite (.of_evr _ _) (.refl _)) _ _) (.ite (.of_evr _ _) (.refl _))))

theorem tookSeq_noted (p : Machine.Part) : Noted p p.tookSeq := (Noted.of_evr p _).bump _ _

theorem forwardLater_noted (p : Machine.Part) (r : Rec) : Noted p (p.forwardLater r) := by
  unfold Part.forwardLater
  split
  · exact ⟨rfl, rfl⟩
  · exact .refl p

theorem pinnedFull_noted (p : Machine.Part) : Noted p p.pinnedFullRec :=
  ((tookSeq_noted p).trans (forwardLater_noted _ _)).trans (ringCopy_noted _ _ _)

theorem kittyCopy_noted (p : Machine.Part) (r : Rec) : Noted p (p.kittyCopy r) := by
  unfold Part.kittyCopy
  exact .ite (.refl p) (.bump (.of_evr p _) _ _)

/-- The kitty's copy, where one is due, and the ring's. -/
theorem copies_noted (p : Machine.Part) (r : Rec) (k : Bool) : Noted p ((if k = true then p.kittyCopy r else p).ringCopy r) :=
  (Noted.ite (kittyCopy_noted p r) (.refl p)).trans (ringCopy_noted _ _ _)

theorem store_noted (p : Machine.Part) (r : Rec) (k : Bool) : Noted p (p.store r k) := by
  unfold Part.store
  have h : Noted p (p.tookSeq.forwardLater r) := (tookSeq_noted p).trans (forwardLater_noted _ r)
  simp only
  generalize p.tookSeq.forwardLater r = q at h ⊢
  split
  · split
    · exact .ite (((h.setEvr _).trans (copies_noted _ _ k)).trans (pinnedFull_noted _)) ((h.setEvr _).trans (copies_noted _ _ k))
    · exact (h.bump _ _).trans (copies_noted _ _ k)
  · exact h.trans (copies_noted _ _ k)

theorem toSessions_noted (p : Machine.Part) (sel : Session → Bool) (n : Notice) : Noted p (p.toSessions sel n) := by
  refine ⟨rfl, ?_⟩
  simp only [Part.toSessions, List.map_map]
  apply List.map_congr_left
  intro x _
  simp only [Function.comp, bare]
  split <;> rfl

theorem queueApplet_noted (p : Machine.Part) (k h : Nat) (n : Notice) : Noted p (p.queueApplet k h n) := by
  unfold Part.queueApplet
  apply Noted.ite
  · exact ⟨rfl, rfl⟩
  · exact ⟨rfl, rfl⟩

theorem foldl_noted {α : Type} (f : Machine.Part → α → Machine.Part) (hf : ∀ p a, Noted p (f p a)) (l : List α) (p : Machine.Part) :
    Noted p (l.foldl f p) := by
  induction l generalizing p with
  | nil => exact .refl p
  | cons a r ih => exact (hf p a).trans (ih _)

theorem toApplets_noted (p : Machine.Part) (h : Nat) (n : Notice) : Noted p (p.toApplets h n) := by
  unfold Part.toApplets
  split
  · exact foldl_noted _ (fun p k => queueApplet_noted p k h n) _ _
  · exact .refl p

theorem raise_noted (p : Machine.Part) (n : Notice) (l : List (BitVec 32)) : Noted p (p.raise n l) := by
  unfold Part.raise
  have h : Noted p (p.bump (regAddr 0 winNTC 0x0100)) := .of_bump p _ _
  simp only
  generalize p.bump (regAddr 0 winNTC 0x0100) = q at h ⊢
  split
  · exact h.trans (toSessions_noted _ _ _)
  · repeat' first
      | with_reducible exact h
      | with_reducible apply Noted.ite
      | with_reducible apply Noted.bump
      | with_reducible apply Noted.setEvr
      | with_reducible refine Noted.trans ?_ (toApplets_noted _ _ _)
      | with_reducible refine Noted.trans ?_ (toSessions_noted _ _ _)

theorem notice_noted (p : Machine.Part) (a : Nat) (c : BitVec 16) (b h : Nat) (body : Bytes) (l : List (BitVec 32)) :
    Noted p (p.notice a c b h body l) := raise_noted p _ l

theorem create_noted (p : Machine.Part) (c : BitVec 16) (v : Nat) (f : Byte) (d : Nat) (x y z : Word) (k : Bool) :
    Noted p (p.create c v f d x y z k) := by
  unfold Part.create
  simp only
  split
  · exact .of_bump p _ _
  · have h := (Noted.of_evr p _).trans (store_noted (p.setEvr { p.evr with supp := Sparse.erase p.evr.supp (Part.bucketKey d c) })
      (p.makeRec c v f (BitVec.ofNat 8 d) x y z (Sparse.get 0 p.evr.supp (Part.bucketKey d c))) k)
    split
    · exact h.trans (notice_noted _ _ _ _ _ _ _)
    · exact h

theorem suppress_noted (p : Machine.Part) (d : Nat) (c : BitVec 16) : Noted p (p.suppress d c) := by
  unfold Part.suppress
  simp only
  split
  · exact ((Noted.of_evr p _).bump _ _).bump _ _
  · exact (Noted.of_evr p _).bump _ _

/-- A record changes what the recorder may change, and nothing else (R372, R375). -/
theorem record_noted (p : Machine.Part) (c : BitVec 16) (v d : Nat) (x y z : Word) : Noted p (p.record c v d x y z) := by
  unfold Part.record
  split
  · exact create_noted _ _ _ _ _ _ _ _ _
  · split
    · exact (Noted.of_evr p _).trans (create_noted _ _ _ _ _ _ _ _ _)
    · exact suppress_noted p d c

/-- An event is a record and a notice (R386, R389). -/
theorem event_noted (p : Machine.Part) (a : Nat) (c : BitVec 16) (v d h x y z : Nat) : Noted p (p.event a c v d h x y z) :=
  (record_noted p c v d _ _ _).trans (notice_noted _ _ _ _ _ _ _)

end Sys2Proof.Laws
end

