-- ==== Sys2Proof/Laws/Serve.lean ====
section
/-! SUPPORT. What serving a ready command does: one lemma for the guard, one for the house hand. -/

namespace Sys2Proof.Laws

open Sys2Proof.Machine Sys2Proof.Safety

/-- With main power on, an act of the part is its function. -/
theorem powered_on {s : State} (h : s.power.on = true) (f : Part → Part) : powered s f = .next (after s (f s.toPart)) := by
  simp [powered, h, after]

/-- With main power off, an act of the part does nothing. -/
theorem powered_off {s : State} (h : s.power.on = false) (f : Part → Part) : powered s f = .next s := by
  simp [powered, h]

/-- Serving a ready command is the row's own act on it. -/
theorem serve_ready {s : State} {o : Origin} {code : Nat} {b : Bytes} {c : Cmd} (h : Ready s o code b c) (f : Part → Cmd → Part) :
    s.toPart.serve o code b f = f s.toPart c := by
  simp [Part.serve, h.found, h.head, h.free]

theorem powered_serve {s : State} {o : Origin} {code : Nat} {b : Bytes} {c : Cmd} (h : Ready s o code b c) (f : Part → Cmd → Part) :
    powered s (fun p => p.serve o code b f) = .next (after s (f s.toPart c)) := by
  rw [powered_on h.on, serve_ready h]

/-- A house-hand command passes the house-hand check. -/
theorem houseOnly_house {p : Part} {c : Cmd} (h : c.hand = 0) (f : Part → Part) : p.houseOnly c f = f p := by
  simp [Part.houseOnly, h]

theorem powered_house {s : State} {o : Origin} {code : Nat} {b : Bytes} {c : Cmd} (h : HouseReady s o code b c) (f : Part → Cmd → Part → Part) :
    powered s (fun p => p.serve o code b (fun p c => p.houseOnly c (f p c))) = .next (after s (f s.toPart c s.toPart)) := by
  rw [powered_serve h.toReady, houseOnly_house h.house]

end Sys2Proof.Laws
end

