-- ==== Sys2Proof/Laws/Sparse.lean ====
section
/-! SUPPORT. Sparse tables and the memory: what reads back after each operation, and that each keeps the canonical form. -/

namespace Sys2Proof.Machine

namespace Sparse

variable {α : Type}

@[simp] theorem get_put_same (d : α) (l : List (Nat × α)) (a : Nat) (v : α) : get d (put l a v) a = v := by
  induction l with
  | nil => simp [put, get]
  | cons e l ih =>
    obtain ⟨k, w⟩ := e
    simp only [put]
    split
    · simp [get]
    · split
      · simp [get]
      · rename_i h1 h2
        simp [get, ih, Ne.symm h2]

theorem get_put_other (d : α) (l : List (Nat × α)) (a b : Nat) (v : α) (h : b ≠ a) : get d (put l a v) b = get d l b := by
  induction l with
  | nil => simp [put, get, Ne.symm h]
  | cons e l ih =>
    obtain ⟨k, w⟩ := e
    simp only [put]
    split
    · simp [get, Ne.symm h]
    · split
      · rename_i h1 h2
        subst h2
        simp [get, Ne.symm h]
      · simp [get, ih]

@[simp] theorem get?_put_same (l : List (Nat × α)) (a : Nat) (v : α) : get? (put l a v) a = some v := by
  induction l with
  | nil => simp [put, get?]
  | cons e l ih =>
    obtain ⟨k, w⟩ := e
    simp only [put]
    split
    · simp [get?]
    · split
      · simp [get?]
      · rename_i h1 h2
        simp [get?, ih, Ne.symm h2]

theorem get?_put_other (l : List (Nat × α)) (a b : Nat) (v : α) (h : b ≠ a) : get? (put l a v) b = get? l b := by
  induction l with
  | nil => simp [put, get?, Ne.symm h]
  | cons e l ih =>
    obtain ⟨k, w⟩ := e
    simp only [put]
    split
    · simp [get?, Ne.symm h]
    · split
      · rename_i h1 h2
        subst h2
        simp [get?, Ne.symm h]
      · simp [get?, ih]

/-- Filtering by key keeps what the kept keys read. -/
theorem get_filter (d : α) (l : List (Nat × α)) (f : Nat → Bool) (a : Nat) :
    get d (l.filter (fun e => f e.1)) a = if f a then get d l a else d := by
  induction l with
  | nil => simp [get]
  | cons e l ih =>
    obtain ⟨k, w⟩ := e
    by_cases hk : f k = true
    · simp only [List.filter_cons, hk, if_true, get]
      split
      · rename_i h; subst h; simp [hk]
      · exact ih
    · have hk' : f k = false := by simpa using hk
      simp only [List.filter_cons, hk', get]
      by_cases h : k = a
      · subst h; simpa [hk'] using ih
      · simpa [h] using ih

theorem get_erase (d : α) (l : List (Nat × α)) (a b : Nat) : get d (erase l a) b = if b = a then d else get d l b := by
  have h := get_filter d l (fun k => !(k == a)) b
  rw [erase, h]
  by_cases e : b = a <;> simp [e]

variable [DecidableEq α]

@[simp] theorem get_set_same (d : α) (l : List (Nat × α)) (a : Nat) (v : α) : get d (set d l a v) a = v := by
  unfold set
  split
  · rename_i h; rw [get_erase, if_pos rfl, h]
  · exact get_put_same d l a v

theorem get_set_other (d : α) (l : List (Nat × α)) (a b : Nat) (v : α) (h : b ≠ a) : get d (set d l a v) b = get d l b := by
  unfold set
  split
  · rw [get_erase, if_neg h]
  · exact get_put_other d l a b v h

/-! ### The canonical form -/

theorem rising_iff (l : List Nat) : rising l = true ↔ l.Pairwise (· < ·) := by
  induction l with
  | nil => simp [rising]
  | cons a l ih =>
    cases l with
    | nil => simp [rising]
    | cons b r =>
      rw [rising, Bool.and_eq_true, ih, decide_eq_true_eq]
      constructor
      · rintro ⟨h, k⟩
        refine List.pairwise_cons.2 ⟨?_, k⟩
        intro x hx
        rcases List.mem_cons.1 hx with rfl | hx
        · exact h
        · exact Nat.lt_trans h ((List.pairwise_cons.1 k).1 x hx)
      · intro k
        exact ⟨(List.pairwise_cons.1 k).1 b List.mem_cons_self, (List.pairwise_cons.1 k).2⟩

theorem wf_iff (d : α) (l : List (Nat × α)) : wf d l = true ↔ (l.map Prod.fst).Pairwise (· < ·) ∧ ∀ e ∈ l, e.2 ≠ d := by
  simp [wf, rising_iff]

theorem wf_filter (d : α) (l : List (Nat × α)) (f : Nat × α → Bool) (h : wf d l = true) : wf d (l.filter f) = true := by
  rw [wf_iff] at h ⊢
  exact ⟨h.1.sublist (List.Sublist.map _ List.filter_sublist), fun e he => h.2 e (List.mem_of_mem_filter he)⟩

omit [DecidableEq α] in
theorem mem_put (l : List (Nat × α)) (a : Nat) (v : α) : ∀ e ∈ put l a v, e = (a, v) ∨ e ∈ l := by
  induction l with
  | nil => simp [put]
  | cons e l ih =>
    obtain ⟨k, w⟩ := e
    intro x hx
    simp only [put] at hx
    split at hx
    · rcases List.mem_cons.1 hx with rfl | hx
      · exact .inl rfl
      · exact .inr hx
    · split at hx
      · rcases List.mem_cons.1 hx with rfl | hx
        · exact .inl rfl
        · exact .inr (List.mem_cons_of_mem _ hx)
      · rcases List.mem_cons.1 hx with rfl | hx
        · exact .inr List.mem_cons_self
        · rcases ih x hx with h | h
          · exact .inl h
          · exact .inr (List.mem_cons_of_mem _ h)

theorem wf_put (d : α) (l : List (Nat × α)) (a : Nat) (v : α) (hv : v ≠ d) (h : wf d l = true) : wf d (put l a v) = true := by
  induction l with
  | nil => simp [put, wf, rising, hv]
  | cons e l ih =>
    obtain ⟨k, w⟩ := e
    rw [wf_iff] at h
    have hl : wf d l = true := (wf_iff d l).2 ⟨(List.pairwise_cons.1 h.1).2, fun e he => h.2 e (List.mem_cons_of_mem _ he)⟩
    have hk := (List.pairwise_cons.1 h.1).1
    simp only [put]
    split
    · rename_i lt
      refine (wf_iff _ _).2 ⟨List.pairwise_cons.2 ⟨?_, h.1⟩, ?_⟩
      · intro x hx
        rcases List.mem_cons.1 hx with rfl | hx
        · exact lt
        · exact Nat.lt_trans lt (hk x hx)
      · intro e he
        rcases List.mem_cons.1 he with rfl | he
        · exact hv
        · exact h.2 e he
    · split
      · rename_i eq
        subst eq
        refine (wf_iff _ _).2 ⟨List.pairwise_cons.2 ⟨hk, (List.pairwise_cons.1 h.1).2⟩, ?_⟩
        intro e he
        rcases List.mem_cons.1 he with rfl | he
        · exact hv
        · exact h.2 e (List.mem_cons_of_mem _ he)
      · rename_i n1 n2
        have ih := (wf_iff _ _).1 (ih hl)
        refine (wf_iff _ _).2 ⟨List.pairwise_cons.2 ⟨?_, ih.1⟩, ?_⟩
        · intro x hx
          obtain ⟨e, he, rfl⟩ := List.mem_map.1 hx
          rcases mem_put l a v e he with rfl | he
          · show k < a; omega
          · exact hk _ (List.mem_map_of_mem he)
        · intro e he
          rcases List.mem_cons.1 he with rfl | he
          · exact h.2 _ List.mem_cons_self
          · exact ih.2 e he

theorem wf_set (d : α) (l : List (Nat × α)) (a : Nat) (v : α) (h : wf d l = true) : wf d (set d l a v) = true := by
  unfold set
  split
  · exact wf_filter d l _ h
  · rename_i hv; exact wf_put d l a v hv h

end Sparse

namespace Memory

@[simp] theorem read_write_same (m : List Host.Cell) (a : Nat) (b : Byte) : read (write m a b) a = b := Sparse.get_set_same 0 m a b

theorem read_write_other (m : List Host.Cell) (a x : Nat) (b : Byte) (h : x ≠ a) : read (write m a b) x = read m x :=
  Sparse.get_set_other 0 m a x b h

theorem wf_write (m : List Host.Cell) (a : Nat) (b : Byte) (h : wf m = true) : wf (write m a b) = true := Sparse.wf_set 0 m a b h

theorem wf_writeBytes (m : List Host.Cell) (a : Nat) (d : Bytes) (h : wf m = true) : wf (writeBytes m a d) = true := by
  induction d generalizing m a with
  | nil => exact h
  | cons b d ih => exact ih _ _ (wf_write m a b h)

theorem wf_clear (m : List Host.Cell) (a n : Nat) (h : wf m = true) : wf (clear m a n) = true := Sparse.wf_filter 0 m _ h

theorem wf_filter (m : List Host.Cell) (f : Host.Cell → Bool) (h : wf m = true) : wf (m.filter f) = true := Sparse.wf_filter 0 m f h

/-- Bytes below or above what is stored read as before. -/
theorem read_writeBytes_outside (m : List Host.Cell) (a x : Nat) (d : Bytes) (h : x < a ∨ a + d.length ≤ x) :
    read (writeBytes m a d) x = read m x := by
  induction d generalizing m a with
  | nil => rfl
  | cons b d ih =>
    rw [List.length_cons] at h
    rw [writeBytes, ih _ _ (by omega), read_write_other _ _ _ _ (by omega)]

/-- The bytes stored read back. -/
theorem readBytes_writeBytes (m : List Host.Cell) (a : Nat) (d : Bytes) : readBytes (writeBytes m a d) a d.length = d := by
  induction d generalizing m a with
  | nil => rfl
  | cons b d ih =>
    rw [List.length_cons, readBytes, writeBytes, ih, read_writeBytes_outside _ _ _ _ (by omega), read_write_same]

/-- A cleared range reads zero; the rest reads as before. -/
theorem read_clear (m : List Host.Cell) (a n x : Nat) : read (clear m a n) x = if a ≤ x ∧ x < a + n then 0 else read m x := by
  have h := Sparse.get_filter (0 : Byte) m (fun k => !(decide (a ≤ k) && decide (k < a + n))) x
  unfold read clear
  rw [h]
  by_cases h1 : a ≤ x <;> by_cases h2 : x < a + n <;> simp [h1, h2]

theorem wf_nil : wf [] = true := rfl

end Memory

end Sys2Proof.Machine
end

