-- ==== Sys2Proof/Laws/State.lean ====
section
/-! SUPPORT. What each update of the part leaves in each field of State: one lemma for each field and update. -/

namespace Sys2Proof.Machine.Part

variable (p : Machine.Part)

/-! ### setVault -/

@[simp] theorem setVault_fuses (v : VaultUnit) : (p.setVault v).fuses = p.fuses := rfl
@[simp] theorem setVault_now (v : VaultUnit) : (p.setVault v).now = p.now := rfl
@[simp] theorem setVault_draws (v : VaultUnit) : (p.setVault v).draws = p.draws := rfl
@[simp] theorem setVault_power (v : VaultUnit) : (p.setVault v).power = p.power := rfl
@[simp] theorem setVault_deal (v : VaultUnit) : (p.setVault v).deal = p.deal := rfl
@[simp] theorem setVault_hpa (v : VaultUnit) : (p.setVault v).hpa = p.hpa := rfl
@[simp] theorem setVault_hpb (v : VaultUnit) : (p.setVault v).hpb = p.hpb := rfl
@[simp] theorem setVault_ha0 (v : VaultUnit) : (p.setVault v).ha0 = p.ha0 := rfl
@[simp] theorem setVault_ha1 (v : VaultUnit) : (p.setVault v).ha1 = p.ha1 := rfl
@[simp] theorem setVault_hb0 (v : VaultUnit) : (p.setVault v).hb0 = p.hb0 := rfl
@[simp] theorem setVault_hb1 (v : VaultUnit) : (p.setVault v).hb1 = p.hb1 := rfl
@[simp] theorem setVault_xct (v : VaultUnit) : (p.setVault v).xct = p.xct := rfl
@[simp] theorem setVault_disp (v : VaultUnit) : (p.setVault v).disp = p.disp := rfl
@[simp] theorem setVault_seats (v : VaultUnit) : (p.setVault v).seats = p.seats := rfl
@[simp] theorem setVault_lats (v : VaultUnit) : (p.setVault v).lats = p.lats := rfl
@[simp] theorem setVault_trngs (v : VaultUnit) : (p.setVault v).trngs = p.trngs := rfl
@[simp] theorem setVault_guard (v : VaultUnit) : (p.setVault v).guard = p.guard := rfl
@[simp] theorem setVault_part (v : VaultUnit) : (p.setVault v).part = p.part := rfl
@[simp] theorem setVault_evr (v : VaultUnit) : (p.setVault v).evr = p.evr := rfl
@[simp] theorem setVault_cera (v : VaultUnit) : (p.setVault v).cera = p.cera := rfl
@[simp] theorem setVault_cerb (v : VaultUnit) : (p.setVault v).cerb = p.cerb := rfl
@[simp] theorem setVault_cerNext (v : VaultUnit) : (p.setVault v).cerNext = p.cerNext := rfl
@[simp] theorem setVault_registry (v : VaultUnit) : (p.setVault v).registry = p.registry := rfl
@[simp] theorem setVault_idCert (v : VaultUnit) : (p.setVault v).idCert = p.idCert := rfl
@[simp] theorem setVault_joker (v : VaultUnit) : (p.setVault v).joker = p.joker := rfl
@[simp] theorem setVault_shuffle (v : VaultUnit) : (p.setVault v).shuffle = p.shuffle := rfl
@[simp] theorem setVault_counts (v : VaultUnit) : (p.setVault v).counts = p.counts := rfl
@[simp] theorem setVault_latches (v : VaultUnit) : (p.setVault v).latches = p.latches := rfl
@[simp] theorem setVault_saturated (v : VaultUnit) : (p.setVault v).saturated = p.saturated := rfl
@[simp] theorem setVault_ppAssocs (v : VaultUnit) : (p.setVault v).ppAssocs = p.ppAssocs := rfl
@[simp] theorem setVault_tx (v : VaultUnit) : (p.setVault v).tx = p.tx := rfl
@[simp] theorem setVault_ipTx (v : VaultUnit) : (p.setVault v).ipTx = p.ipTx := rfl
@[simp] theorem setVault_ptx (v : VaultUnit) : (p.setVault v).ptx = p.ptx := rfl
@[simp] theorem setVault_vault (v : VaultUnit) : (p.setVault v).vault = v := rfl

/-! ### setDeal -/

@[simp] theorem setDeal_fuses (x : DealUnit) : (p.setDeal x).fuses = p.fuses := rfl
@[simp] theorem setDeal_now (x : DealUnit) : (p.setDeal x).now = p.now := rfl
@[simp] theorem setDeal_draws (x : DealUnit) : (p.setDeal x).draws = p.draws := rfl
@[simp] theorem setDeal_power (x : DealUnit) : (p.setDeal x).power = p.power := rfl
@[simp] theorem setDeal_hpa (x : DealUnit) : (p.setDeal x).hpa = p.hpa := rfl
@[simp] theorem setDeal_hpb (x : DealUnit) : (p.setDeal x).hpb = p.hpb := rfl
@[simp] theorem setDeal_ha0 (x : DealUnit) : (p.setDeal x).ha0 = p.ha0 := rfl
@[simp] theorem setDeal_ha1 (x : DealUnit) : (p.setDeal x).ha1 = p.ha1 := rfl
@[simp] theorem setDeal_hb0 (x : DealUnit) : (p.setDeal x).hb0 = p.hb0 := rfl
@[simp] theorem setDeal_hb1 (x : DealUnit) : (p.setDeal x).hb1 = p.hb1 := rfl
@[simp] theorem setDeal_xct (x : DealUnit) : (p.setDeal x).xct = p.xct := rfl
@[simp] theorem setDeal_disp (x : DealUnit) : (p.setDeal x).disp = p.disp := rfl
@[simp] theorem setDeal_vault (x : DealUnit) : (p.setDeal x).vault = p.vault := rfl
@[simp] theorem setDeal_seats (x : DealUnit) : (p.setDeal x).seats = p.seats := rfl
@[simp] theorem setDeal_lats (x : DealUnit) : (p.setDeal x).lats = p.lats := rfl
@[simp] theorem setDeal_trngs (x : DealUnit) : (p.setDeal x).trngs = p.trngs := rfl
@[simp] theorem setDeal_guard (x : DealUnit) : (p.setDeal x).guard = p.guard := rfl
@[simp] theorem setDeal_part (x : DealUnit) : (p.setDeal x).part = p.part := rfl
@[simp] theorem setDeal_evr (x : DealUnit) : (p.setDeal x).evr = p.evr := rfl
@[simp] theorem setDeal_cera (x : DealUnit) : (p.setDeal x).cera = p.cera := rfl
@[simp] theorem setDeal_cerb (x : DealUnit) : (p.setDeal x).cerb = p.cerb := rfl
@[simp] theorem setDeal_cerNext (x : DealUnit) : (p.setDeal x).cerNext = p.cerNext := rfl
@[simp] theorem setDeal_registry (x : DealUnit) : (p.setDeal x).registry = p.registry := rfl
@[simp] theorem setDeal_idCert (x : DealUnit) : (p.setDeal x).idCert = p.idCert := rfl
@[simp] theorem setDeal_joker (x : DealUnit) : (p.setDeal x).joker = p.joker := rfl
@[simp] theorem setDeal_shuffle (x : DealUnit) : (p.setDeal x).shuffle = p.shuffle := rfl
@[simp] theorem setDeal_counts (x : DealUnit) : (p.setDeal x).counts = p.counts := rfl
@[simp] theorem setDeal_latches (x : DealUnit) : (p.setDeal x).latches = p.latches := rfl
@[simp] theorem setDeal_saturated (x : DealUnit) : (p.setDeal x).saturated = p.saturated := rfl
@[simp] theorem setDeal_ppAssocs (x : DealUnit) : (p.setDeal x).ppAssocs = p.ppAssocs := rfl
@[simp] theorem setDeal_tx (x : DealUnit) : (p.setDeal x).tx = p.tx := rfl
@[simp] theorem setDeal_ipTx (x : DealUnit) : (p.setDeal x).ipTx = p.ipTx := rfl
@[simp] theorem setDeal_ptx (x : DealUnit) : (p.setDeal x).ptx = p.ptx := rfl
@[simp] theorem setDeal_deal (x : DealUnit) : (p.setDeal x).deal = x := rfl

/-! ### setDisp -/

@[simp] theorem setDisp_fuses (d : DispUnit) : (p.setDisp d).fuses = p.fuses := rfl
@[simp] theorem setDisp_now (d : DispUnit) : (p.setDisp d).now = p.now := rfl
@[simp] theorem setDisp_draws (d : DispUnit) : (p.setDisp d).draws = p.draws := rfl
@[simp] theorem setDisp_power (d : DispUnit) : (p.setDisp d).power = p.power := rfl
@[simp] theorem setDisp_deal (d : DispUnit) : (p.setDisp d).deal = p.deal := rfl
@[simp] theorem setDisp_hpa (d : DispUnit) : (p.setDisp d).hpa = p.hpa := rfl
@[simp] theorem setDisp_hpb (d : DispUnit) : (p.setDisp d).hpb = p.hpb := rfl
@[simp] theorem setDisp_ha0 (d : DispUnit) : (p.setDisp d).ha0 = p.ha0 := rfl
@[simp] theorem setDisp_ha1 (d : DispUnit) : (p.setDisp d).ha1 = p.ha1 := rfl
@[simp] theorem setDisp_hb0 (d : DispUnit) : (p.setDisp d).hb0 = p.hb0 := rfl
@[simp] theorem setDisp_hb1 (d : DispUnit) : (p.setDisp d).hb1 = p.hb1 := rfl
@[simp] theorem setDisp_xct (d : DispUnit) : (p.setDisp d).xct = p.xct := rfl
@[simp] theorem setDisp_vault (d : DispUnit) : (p.setDisp d).vault = p.vault := rfl
@[simp] theorem setDisp_seats (d : DispUnit) : (p.setDisp d).seats = p.seats := rfl
@[simp] theorem setDisp_lats (d : DispUnit) : (p.setDisp d).lats = p.lats := rfl
@[simp] theorem setDisp_trngs (d : DispUnit) : (p.setDisp d).trngs = p.trngs := rfl
@[simp] theorem setDisp_guard (d : DispUnit) : (p.setDisp d).guard = p.guard := rfl
@[simp] theorem setDisp_part (d : DispUnit) : (p.setDisp d).part = p.part := rfl
@[simp] theorem setDisp_evr (d : DispUnit) : (p.setDisp d).evr = p.evr := rfl
@[simp] theorem setDisp_cera (d : DispUnit) : (p.setDisp d).cera = p.cera := rfl
@[simp] theorem setDisp_cerb (d : DispUnit) : (p.setDisp d).cerb = p.cerb := rfl
@[simp] theorem setDisp_cerNext (d : DispUnit) : (p.setDisp d).cerNext = p.cerNext := rfl
@[simp] theorem setDisp_registry (d : DispUnit) : (p.setDisp d).registry = p.registry := rfl
@[simp] theorem setDisp_idCert (d : DispUnit) : (p.setDisp d).idCert = p.idCert := rfl
@[simp] theorem setDisp_joker (d : DispUnit) : (p.setDisp d).joker = p.joker := rfl
@[simp] theorem setDisp_shuffle (d : DispUnit) : (p.setDisp d).shuffle = p.shuffle := rfl
@[simp] theorem setDisp_counts (d : DispUnit) : (p.setDisp d).counts = p.counts := rfl
@[simp] theorem setDisp_latches (d : DispUnit) : (p.setDisp d).latches = p.latches := rfl
@[simp] theorem setDisp_saturated (d : DispUnit) : (p.setDisp d).saturated = p.saturated := rfl
@[simp] theorem setDisp_ppAssocs (d : DispUnit) : (p.setDisp d).ppAssocs = p.ppAssocs := rfl
@[simp] theorem setDisp_tx (d : DispUnit) : (p.setDisp d).tx = p.tx := rfl
@[simp] theorem setDisp_ipTx (d : DispUnit) : (p.setDisp d).ipTx = p.ipTx := rfl
@[simp] theorem setDisp_ptx (d : DispUnit) : (p.setDisp d).ptx = p.ptx := rfl
@[simp] theorem setDisp_disp (d : DispUnit) : (p.setDisp d).disp = d := rfl

/-! ### setPower -/

@[simp] theorem setPower_fuses (x : Power) : (p.setPower x).fuses = p.fuses := rfl
@[simp] theorem setPower_now (x : Power) : (p.setPower x).now = p.now := rfl
@[simp] theorem setPower_draws (x : Power) : (p.setPower x).draws = p.draws := rfl
@[simp] theorem setPower_deal (x : Power) : (p.setPower x).deal = p.deal := rfl
@[simp] theorem setPower_hpa (x : Power) : (p.setPower x).hpa = p.hpa := rfl
@[simp] theorem setPower_hpb (x : Power) : (p.setPower x).hpb = p.hpb := rfl
@[simp] theorem setPower_ha0 (x : Power) : (p.setPower x).ha0 = p.ha0 := rfl
@[simp] theorem setPower_ha1 (x : Power) : (p.setPower x).ha1 = p.ha1 := rfl
@[simp] theorem setPower_hb0 (x : Power) : (p.setPower x).hb0 = p.hb0 := rfl
@[simp] theorem setPower_hb1 (x : Power) : (p.setPower x).hb1 = p.hb1 := rfl
@[simp] theorem setPower_xct (x : Power) : (p.setPower x).xct = p.xct := rfl
@[simp] theorem setPower_disp (x : Power) : (p.setPower x).disp = p.disp := rfl
@[simp] theorem setPower_vault (x : Power) : (p.setPower x).vault = p.vault := rfl
@[simp] theorem setPower_seats (x : Power) : (p.setPower x).seats = p.seats := rfl
@[simp] theorem setPower_lats (x : Power) : (p.setPower x).lats = p.lats := rfl
@[simp] theorem setPower_trngs (x : Power) : (p.setPower x).trngs = p.trngs := rfl
@[simp] theorem setPower_guard (x : Power) : (p.setPower x).guard = p.guard := rfl
@[simp] theorem setPower_part (x : Power) : (p.setPower x).part = p.part := rfl
@[simp] theorem setPower_evr (x : Power) : (p.setPower x).evr = p.evr := rfl
@[simp] theorem setPower_cera (x : Power) : (p.setPower x).cera = p.cera := rfl
@[simp] theorem setPower_cerb (x : Power) : (p.setPower x).cerb = p.cerb := rfl
@[simp] theorem setPower_cerNext (x : Power) : (p.setPower x).cerNext = p.cerNext := rfl
@[simp] theorem setPower_registry (x : Power) : (p.setPower x).registry = p.registry := rfl
@[simp] theorem setPower_idCert (x : Power) : (p.setPower x).idCert = p.idCert := rfl
@[simp] theorem setPower_joker (x : Power) : (p.setPower x).joker = p.joker := rfl
@[simp] theorem setPower_shuffle (x : Power) : (p.setPower x).shuffle = p.shuffle := rfl
@[simp] theorem setPower_counts (x : Power) : (p.setPower x).counts = p.counts := rfl
@[simp] theorem setPower_latches (x : Power) : (p.setPower x).latches = p.latches := rfl
@[simp] theorem setPower_saturated (x : Power) : (p.setPower x).saturated = p.saturated := rfl
@[simp] theorem setPower_ppAssocs (x : Power) : (p.setPower x).ppAssocs = p.ppAssocs := rfl
@[simp] theorem setPower_tx (x : Power) : (p.setPower x).tx = p.tx := rfl
@[simp] theorem setPower_ipTx (x : Power) : (p.setPower x).ipTx = p.ipTx := rfl
@[simp] theorem setPower_ptx (x : Power) : (p.setPower x).ptx = p.ptx := rfl
@[simp] theorem setPower_power (x : Power) : (p.setPower x).power = x := rfl

/-! ### setGuard -/

@[simp] theorem setGuard_fuses (g : GuardUnit) : (p.setGuard g).fuses = p.fuses := rfl
@[simp] theorem setGuard_now (g : GuardUnit) : (p.setGuard g).now = p.now := rfl
@[simp] theorem setGuard_draws (g : GuardUnit) : (p.setGuard g).draws = p.draws := rfl
@[simp] theorem setGuard_power (g : GuardUnit) : (p.setGuard g).power = p.power := rfl
@[simp] theorem setGuard_deal (g : GuardUnit) : (p.setGuard g).deal = p.deal := rfl
@[simp] theorem setGuard_hpa (g : GuardUnit) : (p.setGuard g).hpa = p.hpa := rfl
@[simp] theorem setGuard_hpb (g : GuardUnit) : (p.setGuard g).hpb = p.hpb := rfl
@[simp] theorem setGuard_ha0 (g : GuardUnit) : (p.setGuard g).ha0 = p.ha0 := rfl
@[simp] theorem setGuard_ha1 (g : GuardUnit) : (p.setGuard g).ha1 = p.ha1 := rfl
@[simp] theorem setGuard_hb0 (g : GuardUnit) : (p.setGuard g).hb0 = p.hb0 := rfl
@[simp] theorem setGuard_hb1 (g : GuardUnit) : (p.setGuard g).hb1 = p.hb1 := rfl
@[simp] theorem setGuard_xct (g : GuardUnit) : (p.setGuard g).xct = p.xct := rfl
@[simp] theorem setGuard_disp (g : GuardUnit) : (p.setGuard g).disp = p.disp := rfl
@[simp] theorem setGuard_vault (g : GuardUnit) : (p.setGuard g).vault = p.vault := rfl
@[simp] theorem setGuard_seats (g : GuardUnit) : (p.setGuard g).seats = p.seats := rfl
@[simp] theorem setGuard_lats (g : GuardUnit) : (p.setGuard g).lats = p.lats := rfl
@[simp] theorem setGuard_trngs (g : GuardUnit) : (p.setGuard g).trngs = p.trngs := rfl
@[simp] theorem setGuard_part (g : GuardUnit) : (p.setGuard g).part = p.part := rfl
@[simp] theorem setGuard_evr (g : GuardUnit) : (p.setGuard g).evr = p.evr := rfl
@[simp] theorem setGuard_cera (g : GuardUnit) : (p.setGuard g).cera = p.cera := rfl
@[simp] theorem setGuard_cerb (g : GuardUnit) : (p.setGuard g).cerb = p.cerb := rfl
@[simp] theorem setGuard_cerNext (g : GuardUnit) : (p.setGuard g).cerNext = p.cerNext := rfl
@[simp] theorem setGuard_registry (g : GuardUnit) : (p.setGuard g).registry = p.registry := rfl
@[simp] theorem setGuard_idCert (g : GuardUnit) : (p.setGuard g).idCert = p.idCert := rfl
@[simp] theorem setGuard_joker (g : GuardUnit) : (p.setGuard g).joker = p.joker := rfl
@[simp] theorem setGuard_shuffle (g : GuardUnit) : (p.setGuard g).shuffle = p.shuffle := rfl
@[simp] theorem setGuard_counts (g : GuardUnit) : (p.setGuard g).counts = p.counts := rfl
@[simp] theorem setGuard_latches (g : GuardUnit) : (p.setGuard g).latches = p.latches := rfl
@[simp] theorem setGuard_saturated (g : GuardUnit) : (p.setGuard g).saturated = p.saturated := rfl
@[simp] theorem setGuard_ppAssocs (g : GuardUnit) : (p.setGuard g).ppAssocs = p.ppAssocs := rfl
@[simp] theorem setGuard_tx (g : GuardUnit) : (p.setGuard g).tx = p.tx := rfl
@[simp] theorem setGuard_ipTx (g : GuardUnit) : (p.setGuard g).ipTx = p.ipTx := rfl
@[simp] theorem setGuard_ptx (g : GuardUnit) : (p.setGuard g).ptx = p.ptx := rfl
@[simp] theorem setGuard_guard (g : GuardUnit) : (p.setGuard g).guard = g := rfl

/-! ### setShuffle -/

@[simp] theorem setShuffle_fuses (x : Shuffle) : (p.setShuffle x).fuses = p.fuses := rfl
@[simp] theorem setShuffle_now (x : Shuffle) : (p.setShuffle x).now = p.now := rfl
@[simp] theorem setShuffle_draws (x : Shuffle) : (p.setShuffle x).draws = p.draws := rfl
@[simp] theorem setShuffle_power (x : Shuffle) : (p.setShuffle x).power = p.power := rfl
@[simp] theorem setShuffle_deal (x : Shuffle) : (p.setShuffle x).deal = p.deal := rfl
@[simp] theorem setShuffle_hpa (x : Shuffle) : (p.setShuffle x).hpa = p.hpa := rfl
@[simp] theorem setShuffle_hpb (x : Shuffle) : (p.setShuffle x).hpb = p.hpb := rfl
@[simp] theorem setShuffle_ha0 (x : Shuffle) : (p.setShuffle x).ha0 = p.ha0 := rfl
@[simp] theorem setShuffle_ha1 (x : Shuffle) : (p.setShuffle x).ha1 = p.ha1 := rfl
@[simp] theorem setShuffle_hb0 (x : Shuffle) : (p.setShuffle x).hb0 = p.hb0 := rfl
@[simp] theorem setShuffle_hb1 (x : Shuffle) : (p.setShuffle x).hb1 = p.hb1 := rfl
@[simp] theorem setShuffle_xct (x : Shuffle) : (p.setShuffle x).xct = p.xct := rfl
@[simp] theorem setShuffle_disp (x : Shuffle) : (p.setShuffle x).disp = p.disp := rfl
@[simp] theorem setShuffle_vault (x : Shuffle) : (p.setShuffle x).vault = p.vault := rfl
@[simp] theorem setShuffle_seats (x : Shuffle) : (p.setShuffle x).seats = p.seats := rfl
@[simp] theorem setShuffle_lats (x : Shuffle) : (p.setShuffle x).lats = p.lats := rfl
@[simp] theorem setShuffle_trngs (x : Shuffle) : (p.setShuffle x).trngs = p.trngs := rfl
@[simp] theorem setShuffle_guard (x : Shuffle) : (p.setShuffle x).guard = p.guard := rfl
@[simp] theorem setShuffle_part (x : Shuffle) : (p.setShuffle x).part = p.part := rfl
@[simp] theorem setShuffle_evr (x : Shuffle) : (p.setShuffle x).evr = p.evr := rfl
@[simp] theorem setShuffle_cera (x : Shuffle) : (p.setShuffle x).cera = p.cera := rfl
@[simp] theorem setShuffle_cerb (x : Shuffle) : (p.setShuffle x).cerb = p.cerb := rfl
@[simp] theorem setShuffle_cerNext (x : Shuffle) : (p.setShuffle x).cerNext = p.cerNext := rfl
@[simp] theorem setShuffle_registry (x : Shuffle) : (p.setShuffle x).registry = p.registry := rfl
@[simp] theorem setShuffle_idCert (x : Shuffle) : (p.setShuffle x).idCert = p.idCert := rfl
@[simp] theorem setShuffle_joker (x : Shuffle) : (p.setShuffle x).joker = p.joker := rfl
@[simp] theorem setShuffle_counts (x : Shuffle) : (p.setShuffle x).counts = p.counts := rfl
@[simp] theorem setShuffle_latches (x : Shuffle) : (p.setShuffle x).latches = p.latches := rfl
@[simp] theorem setShuffle_saturated (x : Shuffle) : (p.setShuffle x).saturated = p.saturated := rfl
@[simp] theorem setShuffle_ppAssocs (x : Shuffle) : (p.setShuffle x).ppAssocs = p.ppAssocs := rfl
@[simp] theorem setShuffle_tx (x : Shuffle) : (p.setShuffle x).tx = p.tx := rfl
@[simp] theorem setShuffle_ipTx (x : Shuffle) : (p.setShuffle x).ipTx = p.ipTx := rfl
@[simp] theorem setShuffle_ptx (x : Shuffle) : (p.setShuffle x).ptx = p.ptx := rfl
@[simp] theorem setShuffle_shuffle (x : Shuffle) : (p.setShuffle x).shuffle = x := rfl

/-! ### setJoker -/

@[simp] theorem setJoker_fuses (x : Joker) : (p.setJoker x).fuses = p.fuses := rfl
@[simp] theorem setJoker_now (x : Joker) : (p.setJoker x).now = p.now := rfl
@[simp] theorem setJoker_draws (x : Joker) : (p.setJoker x).draws = p.draws := rfl
@[simp] theorem setJoker_power (x : Joker) : (p.setJoker x).power = p.power := rfl
@[simp] theorem setJoker_deal (x : Joker) : (p.setJoker x).deal = p.deal := rfl
@[simp] theorem setJoker_hpa (x : Joker) : (p.setJoker x).hpa = p.hpa := rfl
@[simp] theorem setJoker_hpb (x : Joker) : (p.setJoker x).hpb = p.hpb := rfl
@[simp] theorem setJoker_ha0 (x : Joker) : (p.setJoker x).ha0 = p.ha0 := rfl
@[simp] theorem setJoker_ha1 (x : Joker) : (p.setJoker x).ha1 = p.ha1 := rfl
@[simp] theorem setJoker_hb0 (x : Joker) : (p.setJoker x).hb0 = p.hb0 := rfl
@[simp] theorem setJoker_hb1 (x : Joker) : (p.setJoker x).hb1 = p.hb1 := rfl
@[simp] theorem setJoker_xct (x : Joker) : (p.setJoker x).xct = p.xct := rfl
@[simp] theorem setJoker_disp (x : Joker) : (p.setJoker x).disp = p.disp := rfl
@[simp] theorem setJoker_vault (x : Joker) : (p.setJoker x).vault = p.vault := rfl
@[simp] theorem setJoker_seats (x : Joker) : (p.setJoker x).seats = p.seats := rfl
@[simp] theorem setJoker_lats (x : Joker) : (p.setJoker x).lats = p.lats := rfl
@[simp] theorem setJoker_trngs (x : Joker) : (p.setJoker x).trngs = p.trngs := rfl
@[simp] theorem setJoker_guard (x : Joker) : (p.setJoker x).guard = p.guard := rfl
@[simp] theorem setJoker_part (x : Joker) : (p.setJoker x).part = p.part := rfl
@[simp] theorem setJoker_evr (x : Joker) : (p.setJoker x).evr = p.evr := rfl
@[simp] theorem setJoker_cera (x : Joker) : (p.setJoker x).cera = p.cera := rfl
@[simp] theorem setJoker_cerb (x : Joker) : (p.setJoker x).cerb = p.cerb := rfl
@[simp] theorem setJoker_cerNext (x : Joker) : (p.setJoker x).cerNext = p.cerNext := rfl
@[simp] theorem setJoker_registry (x : Joker) : (p.setJoker x).registry = p.registry := rfl
@[simp] theorem setJoker_idCert (x : Joker) : (p.setJoker x).idCert = p.idCert := rfl
@[simp] theorem setJoker_shuffle (x : Joker) : (p.setJoker x).shuffle = p.shuffle := rfl
@[simp] theorem setJoker_counts (x : Joker) : (p.setJoker x).counts = p.counts := rfl
@[simp] theorem setJoker_latches (x : Joker) : (p.setJoker x).latches = p.latches := rfl
@[simp] theorem setJoker_saturated (x : Joker) : (p.setJoker x).saturated = p.saturated := rfl
@[simp] theorem setJoker_ppAssocs (x : Joker) : (p.setJoker x).ppAssocs = p.ppAssocs := rfl
@[simp] theorem setJoker_tx (x : Joker) : (p.setJoker x).tx = p.tx := rfl
@[simp] theorem setJoker_ipTx (x : Joker) : (p.setJoker x).ipTx = p.ipTx := rfl
@[simp] theorem setJoker_ptx (x : Joker) : (p.setJoker x).ptx = p.ptx := rfl
@[simp] theorem setJoker_joker (x : Joker) : (p.setJoker x).joker = x := rfl

/-! ### setPart -/

@[simp] theorem setPart_fuses (x : PartUnit) : (p.setPart x).fuses = p.fuses := rfl
@[simp] theorem setPart_now (x : PartUnit) : (p.setPart x).now = p.now := rfl
@[simp] theorem setPart_draws (x : PartUnit) : (p.setPart x).draws = p.draws := rfl
@[simp] theorem setPart_power (x : PartUnit) : (p.setPart x).power = p.power := rfl
@[simp] theorem setPart_deal (x : PartUnit) : (p.setPart x).deal = p.deal := rfl
@[simp] theorem setPart_hpa (x : PartUnit) : (p.setPart x).hpa = p.hpa := rfl
@[simp] theorem setPart_hpb (x : PartUnit) : (p.setPart x).hpb = p.hpb := rfl
@[simp] theorem setPart_ha0 (x : PartUnit) : (p.setPart x).ha0 = p.ha0 := rfl
@[simp] theorem setPart_ha1 (x : PartUnit) : (p.setPart x).ha1 = p.ha1 := rfl
@[simp] theorem setPart_hb0 (x : PartUnit) : (p.setPart x).hb0 = p.hb0 := rfl
@[simp] theorem setPart_hb1 (x : PartUnit) : (p.setPart x).hb1 = p.hb1 := rfl
@[simp] theorem setPart_xct (x : PartUnit) : (p.setPart x).xct = p.xct := rfl
@[simp] theorem setPart_disp (x : PartUnit) : (p.setPart x).disp = p.disp := rfl
@[simp] theorem setPart_vault (x : PartUnit) : (p.setPart x).vault = p.vault := rfl
@[simp] theorem setPart_seats (x : PartUnit) : (p.setPart x).seats = p.seats := rfl
@[simp] theorem setPart_lats (x : PartUnit) : (p.setPart x).lats = p.lats := rfl
@[simp] theorem setPart_trngs (x : PartUnit) : (p.setPart x).trngs = p.trngs := rfl
@[simp] theorem setPart_guard (x : PartUnit) : (p.setPart x).guard = p.guard := rfl
@[simp] theorem setPart_evr (x : PartUnit) : (p.setPart x).evr = p.evr := rfl
@[simp] theorem setPart_cera (x : PartUnit) : (p.setPart x).cera = p.cera := rfl
@[simp] theorem setPart_cerb (x : PartUnit) : (p.setPart x).cerb = p.cerb := rfl
@[simp] theorem setPart_cerNext (x : PartUnit) : (p.setPart x).cerNext = p.cerNext := rfl
@[simp] theorem setPart_registry (x : PartUnit) : (p.setPart x).registry = p.registry := rfl
@[simp] theorem setPart_idCert (x : PartUnit) : (p.setPart x).idCert = p.idCert := rfl
@[simp] theorem setPart_joker (x : PartUnit) : (p.setPart x).joker = p.joker := rfl
@[simp] theorem setPart_shuffle (x : PartUnit) : (p.setPart x).shuffle = p.shuffle := rfl
@[simp] theorem setPart_counts (x : PartUnit) : (p.setPart x).counts = p.counts := rfl
@[simp] theorem setPart_latches (x : PartUnit) : (p.setPart x).latches = p.latches := rfl
@[simp] theorem setPart_saturated (x : PartUnit) : (p.setPart x).saturated = p.saturated := rfl
@[simp] theorem setPart_ppAssocs (x : PartUnit) : (p.setPart x).ppAssocs = p.ppAssocs := rfl
@[simp] theorem setPart_tx (x : PartUnit) : (p.setPart x).tx = p.tx := rfl
@[simp] theorem setPart_ipTx (x : PartUnit) : (p.setPart x).ipTx = p.ipTx := rfl
@[simp] theorem setPart_ptx (x : PartUnit) : (p.setPart x).ptx = p.ptx := rfl
@[simp] theorem setPart_part (x : PartUnit) : (p.setPart x).part = x := rfl

/-! ### setEvr -/

@[simp] theorem setEvr_fuses (e : EvrUnit) : (p.setEvr e).fuses = p.fuses := rfl
@[simp] theorem setEvr_now (e : EvrUnit) : (p.setEvr e).now = p.now := rfl
@[simp] theorem setEvr_draws (e : EvrUnit) : (p.setEvr e).draws = p.draws := rfl
@[simp] theorem setEvr_power (e : EvrUnit) : (p.setEvr e).power = p.power := rfl
@[simp] theorem setEvr_deal (e : EvrUnit) : (p.setEvr e).deal = p.deal := rfl
@[simp] theorem setEvr_hpa (e : EvrUnit) : (p.setEvr e).hpa = p.hpa := rfl
@[simp] theorem setEvr_hpb (e : EvrUnit) : (p.setEvr e).hpb = p.hpb := rfl
@[simp] theorem setEvr_ha0 (e : EvrUnit) : (p.setEvr e).ha0 = p.ha0 := rfl
@[simp] theorem setEvr_ha1 (e : EvrUnit) : (p.setEvr e).ha1 = p.ha1 := rfl
@[simp] theorem setEvr_hb0 (e : EvrUnit) : (p.setEvr e).hb0 = p.hb0 := rfl
@[simp] theorem setEvr_hb1 (e : EvrUnit) : (p.setEvr e).hb1 = p.hb1 := rfl
@[simp] theorem setEvr_xct (e : EvrUnit) : (p.setEvr e).xct = p.xct := rfl
@[simp] theorem setEvr_disp (e : EvrUnit) : (p.setEvr e).disp = p.disp := rfl
@[simp] theorem setEvr_vault (e : EvrUnit) : (p.setEvr e).vault = p.vault := rfl
@[simp] theorem setEvr_seats (e : EvrUnit) : (p.setEvr e).seats = p.seats := rfl
@[simp] theorem setEvr_lats (e : EvrUnit) : (p.setEvr e).lats = p.lats := rfl
@[simp] theorem setEvr_trngs (e : EvrUnit) : (p.setEvr e).trngs = p.trngs := rfl
@[simp] theorem setEvr_guard (e : EvrUnit) : (p.setEvr e).guard = p.guard := rfl
@[simp] theorem setEvr_part (e : EvrUnit) : (p.setEvr e).part = p.part := rfl
@[simp] theorem setEvr_cera (e : EvrUnit) : (p.setEvr e).cera = p.cera := rfl
@[simp] theorem setEvr_cerb (e : EvrUnit) : (p.setEvr e).cerb = p.cerb := rfl
@[simp] theorem setEvr_cerNext (e : EvrUnit) : (p.setEvr e).cerNext = p.cerNext := rfl
@[simp] theorem setEvr_registry (e : EvrUnit) : (p.setEvr e).registry = p.registry := rfl
@[simp] theorem setEvr_idCert (e : EvrUnit) : (p.setEvr e).idCert = p.idCert := rfl
@[simp] theorem setEvr_joker (e : EvrUnit) : (p.setEvr e).joker = p.joker := rfl
@[simp] theorem setEvr_shuffle (e : EvrUnit) : (p.setEvr e).shuffle = p.shuffle := rfl
@[simp] theorem setEvr_counts (e : EvrUnit) : (p.setEvr e).counts = p.counts := rfl
@[simp] theorem setEvr_latches (e : EvrUnit) : (p.setEvr e).latches = p.latches := rfl
@[simp] theorem setEvr_saturated (e : EvrUnit) : (p.setEvr e).saturated = p.saturated := rfl
@[simp] theorem setEvr_ppAssocs (e : EvrUnit) : (p.setEvr e).ppAssocs = p.ppAssocs := rfl
@[simp] theorem setEvr_tx (e : EvrUnit) : (p.setEvr e).tx = p.tx := rfl
@[simp] theorem setEvr_ipTx (e : EvrUnit) : (p.setEvr e).ipTx = p.ipTx := rfl
@[simp] theorem setEvr_ptx (e : EvrUnit) : (p.setEvr e).ptx = p.ptx := rfl
@[simp] theorem setEvr_evr (e : EvrUnit) : (p.setEvr e).evr = e := rfl

/-! ### atTime -/

@[simp] theorem atTime_fuses (t : Nat) : (p.atTime t).fuses = p.fuses := rfl
@[simp] theorem atTime_draws (t : Nat) : (p.atTime t).draws = p.draws := rfl
@[simp] theorem atTime_power (t : Nat) : (p.atTime t).power = p.power := rfl
@[simp] theorem atTime_deal (t : Nat) : (p.atTime t).deal = p.deal := rfl
@[simp] theorem atTime_hpa (t : Nat) : (p.atTime t).hpa = p.hpa := rfl
@[simp] theorem atTime_hpb (t : Nat) : (p.atTime t).hpb = p.hpb := rfl
@[simp] theorem atTime_ha0 (t : Nat) : (p.atTime t).ha0 = p.ha0 := rfl
@[simp] theorem atTime_ha1 (t : Nat) : (p.atTime t).ha1 = p.ha1 := rfl
@[simp] theorem atTime_hb0 (t : Nat) : (p.atTime t).hb0 = p.hb0 := rfl
@[simp] theorem atTime_hb1 (t : Nat) : (p.atTime t).hb1 = p.hb1 := rfl
@[simp] theorem atTime_xct (t : Nat) : (p.atTime t).xct = p.xct := rfl
@[simp] theorem atTime_disp (t : Nat) : (p.atTime t).disp = p.disp := rfl
@[simp] theorem atTime_vault (t : Nat) : (p.atTime t).vault = p.vault := rfl
@[simp] theorem atTime_seats (t : Nat) : (p.atTime t).seats = p.seats := rfl
@[simp] theorem atTime_lats (t : Nat) : (p.atTime t).lats = p.lats := rfl
@[simp] theorem atTime_trngs (t : Nat) : (p.atTime t).trngs = p.trngs := rfl
@[simp] theorem atTime_guard (t : Nat) : (p.atTime t).guard = p.guard := rfl
@[simp] theorem atTime_part (t : Nat) : (p.atTime t).part = p.part := rfl
@[simp] theorem atTime_evr (t : Nat) : (p.atTime t).evr = p.evr := rfl
@[simp] theorem atTime_cera (t : Nat) : (p.atTime t).cera = p.cera := rfl
@[simp] theorem atTime_cerb (t : Nat) : (p.atTime t).cerb = p.cerb := rfl
@[simp] theorem atTime_cerNext (t : Nat) : (p.atTime t).cerNext = p.cerNext := rfl
@[simp] theorem atTime_registry (t : Nat) : (p.atTime t).registry = p.registry := rfl
@[simp] theorem atTime_idCert (t : Nat) : (p.atTime t).idCert = p.idCert := rfl
@[simp] theorem atTime_joker (t : Nat) : (p.atTime t).joker = p.joker := rfl
@[simp] theorem atTime_shuffle (t : Nat) : (p.atTime t).shuffle = p.shuffle := rfl
@[simp] theorem atTime_counts (t : Nat) : (p.atTime t).counts = p.counts := rfl
@[simp] theorem atTime_latches (t : Nat) : (p.atTime t).latches = p.latches := rfl
@[simp] theorem atTime_saturated (t : Nat) : (p.atTime t).saturated = p.saturated := rfl
@[simp] theorem atTime_ppAssocs (t : Nat) : (p.atTime t).ppAssocs = p.ppAssocs := rfl
@[simp] theorem atTime_tx (t : Nat) : (p.atTime t).tx = p.tx := rfl
@[simp] theorem atTime_ipTx (t : Nat) : (p.atTime t).ipTx = p.ipTx := rfl
@[simp] theorem atTime_ptx (t : Nat) : (p.atTime t).ptx = p.ptx := rfl
@[simp] theorem atTime_now (t : Nat) : (p.atTime t).now = max p.now t := rfl

/-! ### wait -/

@[simp] theorem wait_fuses (d : Nat) : (p.wait d).fuses = p.fuses := rfl
@[simp] theorem wait_draws (d : Nat) : (p.wait d).draws = p.draws := rfl
@[simp] theorem wait_power (d : Nat) : (p.wait d).power = p.power := rfl
@[simp] theorem wait_deal (d : Nat) : (p.wait d).deal = p.deal := rfl
@[simp] theorem wait_hpa (d : Nat) : (p.wait d).hpa = p.hpa := rfl
@[simp] theorem wait_hpb (d : Nat) : (p.wait d).hpb = p.hpb := rfl
@[simp] theorem wait_ha0 (d : Nat) : (p.wait d).ha0 = p.ha0 := rfl
@[simp] theorem wait_ha1 (d : Nat) : (p.wait d).ha1 = p.ha1 := rfl
@[simp] theorem wait_hb0 (d : Nat) : (p.wait d).hb0 = p.hb0 := rfl
@[simp] theorem wait_hb1 (d : Nat) : (p.wait d).hb1 = p.hb1 := rfl
@[simp] theorem wait_xct (d : Nat) : (p.wait d).xct = p.xct := rfl
@[simp] theorem wait_disp (d : Nat) : (p.wait d).disp = p.disp := rfl
@[simp] theorem wait_vault (d : Nat) : (p.wait d).vault = p.vault := rfl
@[simp] theorem wait_seats (d : Nat) : (p.wait d).seats = p.seats := rfl
@[simp] theorem wait_lats (d : Nat) : (p.wait d).lats = p.lats := rfl
@[simp] theorem wait_trngs (d : Nat) : (p.wait d).trngs = p.trngs := rfl
@[simp] theorem wait_guard (d : Nat) : (p.wait d).guard = p.guard := rfl
@[simp] theorem wait_part (d : Nat) : (p.wait d).part = p.part := rfl
@[simp] theorem wait_evr (d : Nat) : (p.wait d).evr = p.evr := rfl
@[simp] theorem wait_cera (d : Nat) : (p.wait d).cera = p.cera := rfl
@[simp] theorem wait_cerb (d : Nat) : (p.wait d).cerb = p.cerb := rfl
@[simp] theorem wait_cerNext (d : Nat) : (p.wait d).cerNext = p.cerNext := rfl
@[simp] theorem wait_registry (d : Nat) : (p.wait d).registry = p.registry := rfl
@[simp] theorem wait_idCert (d : Nat) : (p.wait d).idCert = p.idCert := rfl
@[simp] theorem wait_joker (d : Nat) : (p.wait d).joker = p.joker := rfl
@[simp] theorem wait_shuffle (d : Nat) : (p.wait d).shuffle = p.shuffle := rfl
@[simp] theorem wait_counts (d : Nat) : (p.wait d).counts = p.counts := rfl
@[simp] theorem wait_latches (d : Nat) : (p.wait d).latches = p.latches := rfl
@[simp] theorem wait_saturated (d : Nat) : (p.wait d).saturated = p.saturated := rfl
@[simp] theorem wait_ppAssocs (d : Nat) : (p.wait d).ppAssocs = p.ppAssocs := rfl
@[simp] theorem wait_tx (d : Nat) : (p.wait d).tx = p.tx := rfl
@[simp] theorem wait_ipTx (d : Nat) : (p.wait d).ipTx = p.ipTx := rfl
@[simp] theorem wait_ptx (d : Nat) : (p.wait d).ptx = p.ptx := rfl
@[simp] theorem wait_now (d : Nat) : (p.wait d).now = p.now + d := rfl

/-! ### draw -/

@[simp] theorem draw_fuses (n : Nat) : (p.draw n).fuses = p.fuses := rfl
@[simp] theorem draw_now (n : Nat) : (p.draw n).now = p.now := rfl
@[simp] theorem draw_power (n : Nat) : (p.draw n).power = p.power := rfl
@[simp] theorem draw_deal (n : Nat) : (p.draw n).deal = p.deal := rfl
@[simp] theorem draw_hpa (n : Nat) : (p.draw n).hpa = p.hpa := rfl
@[simp] theorem draw_hpb (n : Nat) : (p.draw n).hpb = p.hpb := rfl
@[simp] theorem draw_ha0 (n : Nat) : (p.draw n).ha0 = p.ha0 := rfl
@[simp] theorem draw_ha1 (n : Nat) : (p.draw n).ha1 = p.ha1 := rfl
@[simp] theorem draw_hb0 (n : Nat) : (p.draw n).hb0 = p.hb0 := rfl
@[simp] theorem draw_hb1 (n : Nat) : (p.draw n).hb1 = p.hb1 := rfl
@[simp] theorem draw_xct (n : Nat) : (p.draw n).xct = p.xct := rfl
@[simp] theorem draw_disp (n : Nat) : (p.draw n).disp = p.disp := rfl
@[simp] theorem draw_vault (n : Nat) : (p.draw n).vault = p.vault := rfl
@[simp] theorem draw_seats (n : Nat) : (p.draw n).seats = p.seats := rfl
@[simp] theorem draw_lats (n : Nat) : (p.draw n).lats = p.lats := rfl
@[simp] theorem draw_trngs (n : Nat) : (p.draw n).trngs = p.trngs := rfl
@[simp] theorem draw_guard (n : Nat) : (p.draw n).guard = p.guard := rfl
@[simp] theorem draw_part (n : Nat) : (p.draw n).part = p.part := rfl
@[simp] theorem draw_evr (n : Nat) : (p.draw n).evr = p.evr := rfl
@[simp] theorem draw_cera (n : Nat) : (p.draw n).cera = p.cera := rfl
@[simp] theorem draw_cerb (n : Nat) : (p.draw n).cerb = p.cerb := rfl
@[simp] theorem draw_cerNext (n : Nat) : (p.draw n).cerNext = p.cerNext := rfl
@[simp] theorem draw_registry (n : Nat) : (p.draw n).registry = p.registry := rfl
@[simp] theorem draw_idCert (n : Nat) : (p.draw n).idCert = p.idCert := rfl
@[simp] theorem draw_joker (n : Nat) : (p.draw n).joker = p.joker := rfl
@[simp] theorem draw_shuffle (n : Nat) : (p.draw n).shuffle = p.shuffle := rfl
@[simp] theorem draw_counts (n : Nat) : (p.draw n).counts = p.counts := rfl
@[simp] theorem draw_latches (n : Nat) : (p.draw n).latches = p.latches := rfl
@[simp] theorem draw_saturated (n : Nat) : (p.draw n).saturated = p.saturated := rfl
@[simp] theorem draw_ppAssocs (n : Nat) : (p.draw n).ppAssocs = p.ppAssocs := rfl
@[simp] theorem draw_tx (n : Nat) : (p.draw n).tx = p.tx := rfl
@[simp] theorem draw_ipTx (n : Nat) : (p.draw n).ipTx = p.ipTx := rfl
@[simp] theorem draw_ptx (n : Nat) : (p.draw n).ptx = p.ptx := rfl
@[simp] theorem draw_draws (n : Nat) : (p.draw n).draws = p.draws + n := rfl

/-! ### setLat -/

@[simp] theorem setLat_fuses (die : Nat) (x : Lat) : (p.setLat die x).fuses = p.fuses := rfl
@[simp] theorem setLat_now (die : Nat) (x : Lat) : (p.setLat die x).now = p.now := rfl
@[simp] theorem setLat_draws (die : Nat) (x : Lat) : (p.setLat die x).draws = p.draws := rfl
@[simp] theorem setLat_power (die : Nat) (x : Lat) : (p.setLat die x).power = p.power := rfl
@[simp] theorem setLat_deal (die : Nat) (x : Lat) : (p.setLat die x).deal = p.deal := rfl
@[simp] theorem setLat_hpa (die : Nat) (x : Lat) : (p.setLat die x).hpa = p.hpa := rfl
@[simp] theorem setLat_hpb (die : Nat) (x : Lat) : (p.setLat die x).hpb = p.hpb := rfl
@[simp] theorem setLat_ha0 (die : Nat) (x : Lat) : (p.setLat die x).ha0 = p.ha0 := rfl
@[simp] theorem setLat_ha1 (die : Nat) (x : Lat) : (p.setLat die x).ha1 = p.ha1 := rfl
@[simp] theorem setLat_hb0 (die : Nat) (x : Lat) : (p.setLat die x).hb0 = p.hb0 := rfl
@[simp] theorem setLat_hb1 (die : Nat) (x : Lat) : (p.setLat die x).hb1 = p.hb1 := rfl
@[simp] theorem setLat_xct (die : Nat) (x : Lat) : (p.setLat die x).xct = p.xct := rfl
@[simp] theorem setLat_disp (die : Nat) (x : Lat) : (p.setLat die x).disp = p.disp := rfl
@[simp] theorem setLat_vault (die : Nat) (x : Lat) : (p.setLat die x).vault = p.vault := rfl
@[simp] theorem setLat_seats (die : Nat) (x : Lat) : (p.setLat die x).seats = p.seats := rfl
@[simp] theorem setLat_trngs (die : Nat) (x : Lat) : (p.setLat die x).trngs = p.trngs := rfl
@[simp] theorem setLat_guard (die : Nat) (x : Lat) : (p.setLat die x).guard = p.guard := rfl
@[simp] theorem setLat_part (die : Nat) (x : Lat) : (p.setLat die x).part = p.part := rfl
@[simp] theorem setLat_evr (die : Nat) (x : Lat) : (p.setLat die x).evr = p.evr := rfl
@[simp] theorem setLat_cera (die : Nat) (x : Lat) : (p.setLat die x).cera = p.cera := rfl
@[simp] theorem setLat_cerb (die : Nat) (x : Lat) : (p.setLat die x).cerb = p.cerb := rfl
@[simp] theorem setLat_cerNext (die : Nat) (x : Lat) : (p.setLat die x).cerNext = p.cerNext := rfl
@[simp] theorem setLat_registry (die : Nat) (x : Lat) : (p.setLat die x).registry = p.registry := rfl
@[simp] theorem setLat_idCert (die : Nat) (x : Lat) : (p.setLat die x).idCert = p.idCert := rfl
@[simp] theorem setLat_joker (die : Nat) (x : Lat) : (p.setLat die x).joker = p.joker := rfl
@[simp] theorem setLat_shuffle (die : Nat) (x : Lat) : (p.setLat die x).shuffle = p.shuffle := rfl
@[simp] theorem setLat_counts (die : Nat) (x : Lat) : (p.setLat die x).counts = p.counts := rfl
@[simp] theorem setLat_latches (die : Nat) (x : Lat) : (p.setLat die x).latches = p.latches := rfl
@[simp] theorem setLat_saturated (die : Nat) (x : Lat) : (p.setLat die x).saturated = p.saturated := rfl
@[simp] theorem setLat_ppAssocs (die : Nat) (x : Lat) : (p.setLat die x).ppAssocs = p.ppAssocs := rfl
@[simp] theorem setLat_tx (die : Nat) (x : Lat) : (p.setLat die x).tx = p.tx := rfl
@[simp] theorem setLat_ipTx (die : Nat) (x : Lat) : (p.setLat die x).ipTx = p.ipTx := rfl
@[simp] theorem setLat_ptx (die : Nat) (x : Lat) : (p.setLat die x).ptx = p.ptx := rfl
@[simp] theorem setLat_lats (die : Nat) (x : Lat) : (p.setLat die x).lats = Sparse.set {} p.lats die x := rfl

/-! ### setTrng -/

@[simp] theorem setTrng_fuses (die : Nat) (x : Trng) : (p.setTrng die x).fuses = p.fuses := rfl
@[simp] theorem setTrng_now (die : Nat) (x : Trng) : (p.setTrng die x).now = p.now := rfl
@[simp] theorem setTrng_draws (die : Nat) (x : Trng) : (p.setTrng die x).draws = p.draws := rfl
@[simp] theorem setTrng_power (die : Nat) (x : Trng) : (p.setTrng die x).power = p.power := rfl
@[simp] theorem setTrng_deal (die : Nat) (x : Trng) : (p.setTrng die x).deal = p.deal := rfl
@[simp] theorem setTrng_hpa (die : Nat) (x : Trng) : (p.setTrng die x).hpa = p.hpa := rfl
@[simp] theorem setTrng_hpb (die : Nat) (x : Trng) : (p.setTrng die x).hpb = p.hpb := rfl
@[simp] theorem setTrng_ha0 (die : Nat) (x : Trng) : (p.setTrng die x).ha0 = p.ha0 := rfl
@[simp] theorem setTrng_ha1 (die : Nat) (x : Trng) : (p.setTrng die x).ha1 = p.ha1 := rfl
@[simp] theorem setTrng_hb0 (die : Nat) (x : Trng) : (p.setTrng die x).hb0 = p.hb0 := rfl
@[simp] theorem setTrng_hb1 (die : Nat) (x : Trng) : (p.setTrng die x).hb1 = p.hb1 := rfl
@[simp] theorem setTrng_xct (die : Nat) (x : Trng) : (p.setTrng die x).xct = p.xct := rfl
@[simp] theorem setTrng_disp (die : Nat) (x : Trng) : (p.setTrng die x).disp = p.disp := rfl
@[simp] theorem setTrng_vault (die : Nat) (x : Trng) : (p.setTrng die x).vault = p.vault := rfl
@[simp] theorem setTrng_seats (die : Nat) (x : Trng) : (p.setTrng die x).seats = p.seats := rfl
@[simp] theorem setTrng_lats (die : Nat) (x : Trng) : (p.setTrng die x).lats = p.lats := rfl
@[simp] theorem setTrng_guard (die : Nat) (x : Trng) : (p.setTrng die x).guard = p.guard := rfl
@[simp] theorem setTrng_part (die : Nat) (x : Trng) : (p.setTrng die x).part = p.part := rfl
@[simp] theorem setTrng_evr (die : Nat) (x : Trng) : (p.setTrng die x).evr = p.evr := rfl
@[simp] theorem setTrng_cera (die : Nat) (x : Trng) : (p.setTrng die x).cera = p.cera := rfl
@[simp] theorem setTrng_cerb (die : Nat) (x : Trng) : (p.setTrng die x).cerb = p.cerb := rfl
@[simp] theorem setTrng_cerNext (die : Nat) (x : Trng) : (p.setTrng die x).cerNext = p.cerNext := rfl
@[simp] theorem setTrng_registry (die : Nat) (x : Trng) : (p.setTrng die x).registry = p.registry := rfl
@[simp] theorem setTrng_idCert (die : Nat) (x : Trng) : (p.setTrng die x).idCert = p.idCert := rfl
@[simp] theorem setTrng_joker (die : Nat) (x : Trng) : (p.setTrng die x).joker = p.joker := rfl
@[simp] theorem setTrng_shuffle (die : Nat) (x : Trng) : (p.setTrng die x).shuffle = p.shuffle := rfl
@[simp] theorem setTrng_counts (die : Nat) (x : Trng) : (p.setTrng die x).counts = p.counts := rfl
@[simp] theorem setTrng_latches (die : Nat) (x : Trng) : (p.setTrng die x).latches = p.latches := rfl
@[simp] theorem setTrng_saturated (die : Nat) (x : Trng) : (p.setTrng die x).saturated = p.saturated := rfl
@[simp] theorem setTrng_ppAssocs (die : Nat) (x : Trng) : (p.setTrng die x).ppAssocs = p.ppAssocs := rfl
@[simp] theorem setTrng_tx (die : Nat) (x : Trng) : (p.setTrng die x).tx = p.tx := rfl
@[simp] theorem setTrng_ipTx (die : Nat) (x : Trng) : (p.setTrng die x).ipTx = p.ipTx := rfl
@[simp] theorem setTrng_ptx (die : Nat) (x : Trng) : (p.setTrng die x).ptx = p.ptx := rfl
@[simp] theorem setTrng_trngs (die : Nat) (x : Trng) : (p.setTrng die x).trngs = Sparse.set {} p.trngs die x := rfl

/-! ### bump -/

@[simp] theorem bump_fuses (a n : Nat) : (p.bump a n).fuses = p.fuses := rfl
@[simp] theorem bump_now (a n : Nat) : (p.bump a n).now = p.now := rfl
@[simp] theorem bump_draws (a n : Nat) : (p.bump a n).draws = p.draws := rfl
@[simp] theorem bump_power (a n : Nat) : (p.bump a n).power = p.power := rfl
@[simp] theorem bump_deal (a n : Nat) : (p.bump a n).deal = p.deal := rfl
@[simp] theorem bump_hpa (a n : Nat) : (p.bump a n).hpa = p.hpa := rfl
@[simp] theorem bump_hpb (a n : Nat) : (p.bump a n).hpb = p.hpb := rfl
@[simp] theorem bump_ha0 (a n : Nat) : (p.bump a n).ha0 = p.ha0 := rfl
@[simp] theorem bump_ha1 (a n : Nat) : (p.bump a n).ha1 = p.ha1 := rfl
@[simp] theorem bump_hb0 (a n : Nat) : (p.bump a n).hb0 = p.hb0 := rfl
@[simp] theorem bump_hb1 (a n : Nat) : (p.bump a n).hb1 = p.hb1 := rfl
@[simp] theorem bump_xct (a n : Nat) : (p.bump a n).xct = p.xct := rfl
@[simp] theorem bump_disp (a n : Nat) : (p.bump a n).disp = p.disp := rfl
@[simp] theorem bump_vault (a n : Nat) : (p.bump a n).vault = p.vault := rfl
@[simp] theorem bump_seats (a n : Nat) : (p.bump a n).seats = p.seats := rfl
@[simp] theorem bump_lats (a n : Nat) : (p.bump a n).lats = p.lats := rfl
@[simp] theorem bump_trngs (a n : Nat) : (p.bump a n).trngs = p.trngs := rfl
@[simp] theorem bump_guard (a n : Nat) : (p.bump a n).guard = p.guard := rfl
@[simp] theorem bump_part (a n : Nat) : (p.bump a n).part = p.part := rfl
@[simp] theorem bump_evr (a n : Nat) : (p.bump a n).evr = p.evr := rfl
@[simp] theorem bump_cera (a n : Nat) : (p.bump a n).cera = p.cera := rfl
@[simp] theorem bump_cerb (a n : Nat) : (p.bump a n).cerb = p.cerb := rfl
@[simp] theorem bump_cerNext (a n : Nat) : (p.bump a n).cerNext = p.cerNext := rfl
@[simp] theorem bump_registry (a n : Nat) : (p.bump a n).registry = p.registry := rfl
@[simp] theorem bump_idCert (a n : Nat) : (p.bump a n).idCert = p.idCert := rfl
@[simp] theorem bump_joker (a n : Nat) : (p.bump a n).joker = p.joker := rfl
@[simp] theorem bump_shuffle (a n : Nat) : (p.bump a n).shuffle = p.shuffle := rfl
@[simp] theorem bump_latches (a n : Nat) : (p.bump a n).latches = p.latches := rfl
@[simp] theorem bump_saturated (a n : Nat) : (p.bump a n).saturated = p.saturated := rfl
@[simp] theorem bump_ppAssocs (a n : Nat) : (p.bump a n).ppAssocs = p.ppAssocs := rfl
@[simp] theorem bump_tx (a n : Nat) : (p.bump a n).tx = p.tx := rfl
@[simp] theorem bump_ipTx (a n : Nat) : (p.bump a n).ipTx = p.ipTx := rfl
@[simp] theorem bump_ptx (a n : Nat) : (p.bump a n).ptx = p.ptx := rfl
@[simp] theorem bump_counts (a n : Nat) : (p.bump a n).counts = Sparse.set 0 p.counts a (p.count a + BitVec.ofNat 64 n) := rfl

/-! ### setSessions -/

@[simp] theorem setSessions_fuses (l : List Session) : (p.setSessions l).fuses = p.fuses := rfl
@[simp] theorem setSessions_now (l : List Session) : (p.setSessions l).now = p.now := rfl
@[simp] theorem setSessions_draws (l : List Session) : (p.setSessions l).draws = p.draws := rfl
@[simp] theorem setSessions_power (l : List Session) : (p.setSessions l).power = p.power := rfl
@[simp] theorem setSessions_deal (l : List Session) : (p.setSessions l).deal = p.deal := rfl
@[simp] theorem setSessions_hpa (l : List Session) : (p.setSessions l).hpa = p.hpa := rfl
@[simp] theorem setSessions_hpb (l : List Session) : (p.setSessions l).hpb = p.hpb := rfl
@[simp] theorem setSessions_ha0 (l : List Session) : (p.setSessions l).ha0 = p.ha0 := rfl
@[simp] theorem setSessions_ha1 (l : List Session) : (p.setSessions l).ha1 = p.ha1 := rfl
@[simp] theorem setSessions_hb0 (l : List Session) : (p.setSessions l).hb0 = p.hb0 := rfl
@[simp] theorem setSessions_hb1 (l : List Session) : (p.setSessions l).hb1 = p.hb1 := rfl
@[simp] theorem setSessions_disp (l : List Session) : (p.setSessions l).disp = p.disp := rfl
@[simp] theorem setSessions_vault (l : List Session) : (p.setSessions l).vault = p.vault := rfl
@[simp] theorem setSessions_seats (l : List Session) : (p.setSessions l).seats = p.seats := rfl
@[simp] theorem setSessions_lats (l : List Session) : (p.setSessions l).lats = p.lats := rfl
@[simp] theorem setSessions_trngs (l : List Session) : (p.setSessions l).trngs = p.trngs := rfl
@[simp] theorem setSessions_guard (l : List Session) : (p.setSessions l).guard = p.guard := rfl
@[simp] theorem setSessions_part (l : List Session) : (p.setSessions l).part = p.part := rfl
@[simp] theorem setSessions_evr (l : List Session) : (p.setSessions l).evr = p.evr := rfl
@[simp] theorem setSessions_cera (l : List Session) : (p.setSessions l).cera = p.cera := rfl
@[simp] theorem setSessions_cerb (l : List Session) : (p.setSessions l).cerb = p.cerb := rfl
@[simp] theorem setSessions_cerNext (l : List Session) : (p.setSessions l).cerNext = p.cerNext := rfl
@[simp] theorem setSessions_registry (l : List Session) : (p.setSessions l).registry = p.registry := rfl
@[simp] theorem setSessions_idCert (l : List Session) : (p.setSessions l).idCert = p.idCert := rfl
@[simp] theorem setSessions_joker (l : List Session) : (p.setSessions l).joker = p.joker := rfl
@[simp] theorem setSessions_shuffle (l : List Session) : (p.setSessions l).shuffle = p.shuffle := rfl
@[simp] theorem setSessions_counts (l : List Session) : (p.setSessions l).counts = p.counts := rfl
@[simp] theorem setSessions_latches (l : List Session) : (p.setSessions l).latches = p.latches := rfl
@[simp] theorem setSessions_saturated (l : List Session) : (p.setSessions l).saturated = p.saturated := rfl
@[simp] theorem setSessions_ppAssocs (l : List Session) : (p.setSessions l).ppAssocs = p.ppAssocs := rfl
@[simp] theorem setSessions_tx (l : List Session) : (p.setSessions l).tx = p.tx := rfl
@[simp] theorem setSessions_ipTx (l : List Session) : (p.setSessions l).ipTx = p.ipTx := rfl
@[simp] theorem setSessions_ptx (l : List Session) : (p.setSessions l).ptx = p.ptx := rfl
@[simp] theorem setSessions_xct_incs (l : List Session) : (p.setSessions l).xct.incs = p.xct.incs := rfl
@[simp] theorem setSessions_xct_retired (l : List Session) : (p.setSessions l).xct.retired = p.xct.retired := rfl
@[simp] theorem setSessions_xct_hellos (l : List Session) : (p.setSessions l).xct.hellos = p.xct.hellos := rfl
@[simp] theorem setSessions_xct_cmds (l : List Session) : (p.setSessions l).xct.cmds = p.xct.cmds := rfl
@[simp] theorem setSessions_xct_replies (l : List Session) : (p.setSessions l).xct.replies = p.xct.replies := rfl
@[simp] theorem setSessions_xct_streams (l : List Session) : (p.setSessions l).xct.streams = p.xct.streams := rfl
@[simp] theorem setSessions_xct_nextUid (l : List Session) : (p.setSessions l).xct.nextUid = p.xct.nextUid := rfl
@[simp] theorem setSessions_xct_nextDone (l : List Session) : (p.setSessions l).xct.nextDone = p.xct.nextDone := rfl
@[simp] theorem setSessions_xct_lastIn (l : List Session) : (p.setSessions l).xct.lastIn = p.xct.lastIn := rfl
@[simp] theorem setSessions_xct_inbox (l : List Session) : (p.setSessions l).xct.inbox = p.xct.inbox := rfl
@[simp] theorem setSessions_xct_tamperList (l : List Session) : (p.setSessions l).xct.tamperList = p.xct.tamperList := rfl
@[simp] theorem setSessions_xct_claimCert (l : List Session) : (p.setSessions l).xct.claimCert = p.xct.claimCert := rfl
@[simp] theorem setSessions_xct_sessions (l : List Session) : (p.setSessions l).xct.sessions = l := rfl

/-! ### setCmds -/

@[simp] theorem setCmds_fuses (l : List Cmd) : (p.setCmds l).fuses = p.fuses := rfl
@[simp] theorem setCmds_now (l : List Cmd) : (p.setCmds l).now = p.now := rfl
@[simp] theorem setCmds_draws (l : List Cmd) : (p.setCmds l).draws = p.draws := rfl
@[simp] theorem setCmds_power (l : List Cmd) : (p.setCmds l).power = p.power := rfl
@[simp] theorem setCmds_deal (l : List Cmd) : (p.setCmds l).deal = p.deal := rfl
@[simp] theorem setCmds_hpa (l : List Cmd) : (p.setCmds l).hpa = p.hpa := rfl
@[simp] theorem setCmds_hpb (l : List Cmd) : (p.setCmds l).hpb = p.hpb := rfl
@[simp] theorem setCmds_ha0 (l : List Cmd) : (p.setCmds l).ha0 = p.ha0 := rfl
@[simp] theorem setCmds_ha1 (l : List Cmd) : (p.setCmds l).ha1 = p.ha1 := rfl
@[simp] theorem setCmds_hb0 (l : List Cmd) : (p.setCmds l).hb0 = p.hb0 := rfl
@[simp] theorem setCmds_hb1 (l : List Cmd) : (p.setCmds l).hb1 = p.hb1 := rfl
@[simp] theorem setCmds_disp (l : List Cmd) : (p.setCmds l).disp = p.disp := rfl
@[simp] theorem setCmds_vault (l : List Cmd) : (p.setCmds l).vault = p.vault := rfl
@[simp] theorem setCmds_seats (l : List Cmd) : (p.setCmds l).seats = p.seats := rfl
@[simp] theorem setCmds_lats (l : List Cmd) : (p.setCmds l).lats = p.lats := rfl
@[simp] theorem setCmds_trngs (l : List Cmd) : (p.setCmds l).trngs = p.trngs := rfl
@[simp] theorem setCmds_guard (l : List Cmd) : (p.setCmds l).guard = p.guard := rfl
@[simp] theorem setCmds_part (l : List Cmd) : (p.setCmds l).part = p.part := rfl
@[simp] theorem setCmds_evr (l : List Cmd) : (p.setCmds l).evr = p.evr := rfl
@[simp] theorem setCmds_cera (l : List Cmd) : (p.setCmds l).cera = p.cera := rfl
@[simp] theorem setCmds_cerb (l : List Cmd) : (p.setCmds l).cerb = p.cerb := rfl
@[simp] theorem setCmds_cerNext (l : List Cmd) : (p.setCmds l).cerNext = p.cerNext := rfl
@[simp] theorem setCmds_registry (l : List Cmd) : (p.setCmds l).registry = p.registry := rfl
@[simp] theorem setCmds_idCert (l : List Cmd) : (p.setCmds l).idCert = p.idCert := rfl
@[simp] theorem setCmds_joker (l : List Cmd) : (p.setCmds l).joker = p.joker := rfl
@[simp] theorem setCmds_shuffle (l : List Cmd) : (p.setCmds l).shuffle = p.shuffle := rfl
@[simp] theorem setCmds_counts (l : List Cmd) : (p.setCmds l).counts = p.counts := rfl
@[simp] theorem setCmds_latches (l : List Cmd) : (p.setCmds l).latches = p.latches := rfl
@[simp] theorem setCmds_saturated (l : List Cmd) : (p.setCmds l).saturated = p.saturated := rfl
@[simp] theorem setCmds_ppAssocs (l : List Cmd) : (p.setCmds l).ppAssocs = p.ppAssocs := rfl
@[simp] theorem setCmds_tx (l : List Cmd) : (p.setCmds l).tx = p.tx := rfl
@[simp] theorem setCmds_ipTx (l : List Cmd) : (p.setCmds l).ipTx = p.ipTx := rfl
@[simp] theorem setCmds_ptx (l : List Cmd) : (p.setCmds l).ptx = p.ptx := rfl
@[simp] theorem setCmds_xct_sessions (l : List Cmd) : (p.setCmds l).xct.sessions = p.xct.sessions := rfl
@[simp] theorem setCmds_xct_incs (l : List Cmd) : (p.setCmds l).xct.incs = p.xct.incs := rfl
@[simp] theorem setCmds_xct_retired (l : List Cmd) : (p.setCmds l).xct.retired = p.xct.retired := rfl
@[simp] theorem setCmds_xct_hellos (l : List Cmd) : (p.setCmds l).xct.hellos = p.xct.hellos := rfl
@[simp] theorem setCmds_xct_replies (l : List Cmd) : (p.setCmds l).xct.replies = p.xct.replies := rfl
@[simp] theorem setCmds_xct_streams (l : List Cmd) : (p.setCmds l).xct.streams = p.xct.streams := rfl
@[simp] theorem setCmds_xct_nextUid (l : List Cmd) : (p.setCmds l).xct.nextUid = p.xct.nextUid := rfl
@[simp] theorem setCmds_xct_nextDone (l : List Cmd) : (p.setCmds l).xct.nextDone = p.xct.nextDone := rfl
@[simp] theorem setCmds_xct_lastIn (l : List Cmd) : (p.setCmds l).xct.lastIn = p.xct.lastIn := rfl
@[simp] theorem setCmds_xct_inbox (l : List Cmd) : (p.setCmds l).xct.inbox = p.xct.inbox := rfl
@[simp] theorem setCmds_xct_tamperList (l : List Cmd) : (p.setCmds l).xct.tamperList = p.xct.tamperList := rfl
@[simp] theorem setCmds_xct_claimCert (l : List Cmd) : (p.setCmds l).xct.claimCert = p.xct.claimCert := rfl
@[simp] theorem setCmds_xct_cmds (l : List Cmd) : (p.setCmds l).xct.cmds = l := rfl

/-! ### setStreams -/

@[simp] theorem setStreams_fuses (l : List Stream) : (p.setStreams l).fuses = p.fuses := rfl
@[simp] theorem setStreams_now (l : List Stream) : (p.setStreams l).now = p.now := rfl
@[simp] theorem setStreams_draws (l : List Stream) : (p.setStreams l).draws = p.draws := rfl
@[simp] theorem setStreams_power (l : List Stream) : (p.setStreams l).power = p.power := rfl
@[simp] theorem setStreams_deal (l : List Stream) : (p.setStreams l).deal = p.deal := rfl
@[simp] theorem setStreams_hpa (l : List Stream) : (p.setStreams l).hpa = p.hpa := rfl
@[simp] theorem setStreams_hpb (l : List Stream) : (p.setStreams l).hpb = p.hpb := rfl
@[simp] theorem setStreams_ha0 (l : List Stream) : (p.setStreams l).ha0 = p.ha0 := rfl
@[simp] theorem setStreams_ha1 (l : List Stream) : (p.setStreams l).ha1 = p.ha1 := rfl
@[simp] theorem setStreams_hb0 (l : List Stream) : (p.setStreams l).hb0 = p.hb0 := rfl
@[simp] theorem setStreams_hb1 (l : List Stream) : (p.setStreams l).hb1 = p.hb1 := rfl
@[simp] theorem setStreams_disp (l : List Stream) : (p.setStreams l).disp = p.disp := rfl
@[simp] theorem setStreams_vault (l : List Stream) : (p.setStreams l).vault = p.vault := rfl
@[simp] theorem setStreams_seats (l : List Stream) : (p.setStreams l).seats = p.seats := rfl
@[simp] theorem setStreams_lats (l : List Stream) : (p.setStreams l).lats = p.lats := rfl
@[simp] theorem setStreams_trngs (l : List Stream) : (p.setStreams l).trngs = p.trngs := rfl
@[simp] theorem setStreams_guard (l : List Stream) : (p.setStreams l).guard = p.guard := rfl
@[simp] theorem setStreams_part (l : List Stream) : (p.setStreams l).part = p.part := rfl
@[simp] theorem setStreams_evr (l : List Stream) : (p.setStreams l).evr = p.evr := rfl
@[simp] theorem setStreams_cera (l : List Stream) : (p.setStreams l).cera = p.cera := rfl
@[simp] theorem setStreams_cerb (l : List Stream) : (p.setStreams l).cerb = p.cerb := rfl
@[simp] theorem setStreams_cerNext (l : List Stream) : (p.setStreams l).cerNext = p.cerNext := rfl
@[simp] theorem setStreams_registry (l : List Stream) : (p.setStreams l).registry = p.registry := rfl
@[simp] theorem setStreams_idCert (l : List Stream) : (p.setStreams l).idCert = p.idCert := rfl
@[simp] theorem setStreams_joker (l : List Stream) : (p.setStreams l).joker = p.joker := rfl
@[simp] theorem setStreams_shuffle (l : List Stream) : (p.setStreams l).shuffle = p.shuffle := rfl
@[simp] theorem setStreams_counts (l : List Stream) : (p.setStreams l).counts = p.counts := rfl
@[simp] theorem setStreams_latches (l : List Stream) : (p.setStreams l).latches = p.latches := rfl
@[simp] theorem setStreams_saturated (l : List Stream) : (p.setStreams l).saturated = p.saturated := rfl
@[simp] theorem setStreams_ppAssocs (l : List Stream) : (p.setStreams l).ppAssocs = p.ppAssocs := rfl
@[simp] theorem setStreams_tx (l : List Stream) : (p.setStreams l).tx = p.tx := rfl
@[simp] theorem setStreams_ipTx (l : List Stream) : (p.setStreams l).ipTx = p.ipTx := rfl
@[simp] theorem setStreams_ptx (l : List Stream) : (p.setStreams l).ptx = p.ptx := rfl
@[simp] theorem setStreams_xct_sessions (l : List Stream) : (p.setStreams l).xct.sessions = p.xct.sessions := rfl
@[simp] theorem setStreams_xct_incs (l : List Stream) : (p.setStreams l).xct.incs = p.xct.incs := rfl
@[simp] theorem setStreams_xct_retired (l : List Stream) : (p.setStreams l).xct.retired = p.xct.retired := rfl
@[simp] theorem setStreams_xct_hellos (l : List Stream) : (p.setStreams l).xct.hellos = p.xct.hellos := rfl
@[simp] theorem setStreams_xct_cmds (l : List Stream) : (p.setStreams l).xct.cmds = p.xct.cmds := rfl
@[simp] theorem setStreams_xct_replies (l : List Stream) : (p.setStreams l).xct.replies = p.xct.replies := rfl
@[simp] theorem setStreams_xct_nextUid (l : List Stream) : (p.setStreams l).xct.nextUid = p.xct.nextUid := rfl
@[simp] theorem setStreams_xct_nextDone (l : List Stream) : (p.setStreams l).xct.nextDone = p.xct.nextDone := rfl
@[simp] theorem setStreams_xct_lastIn (l : List Stream) : (p.setStreams l).xct.lastIn = p.xct.lastIn := rfl
@[simp] theorem setStreams_xct_inbox (l : List Stream) : (p.setStreams l).xct.inbox = p.xct.inbox := rfl
@[simp] theorem setStreams_xct_tamperList (l : List Stream) : (p.setStreams l).xct.tamperList = p.xct.tamperList := rfl
@[simp] theorem setStreams_xct_claimCert (l : List Stream) : (p.setStreams l).xct.claimCert = p.xct.claimCert := rfl
@[simp] theorem setStreams_xct_streams (l : List Stream) : (p.setStreams l).xct.streams = l := rfl

/-! ### setSeat -/

@[simp] theorem setSeat_fuses (n : Nat) (x : Seat) : (p.setSeat n x).fuses = p.fuses := rfl
@[simp] theorem setSeat_now (n : Nat) (x : Seat) : (p.setSeat n x).now = p.now := rfl
@[simp] theorem setSeat_draws (n : Nat) (x : Seat) : (p.setSeat n x).draws = p.draws := rfl
@[simp] theorem setSeat_power (n : Nat) (x : Seat) : (p.setSeat n x).power = p.power := rfl
@[simp] theorem setSeat_deal (n : Nat) (x : Seat) : (p.setSeat n x).deal = p.deal := rfl
@[simp] theorem setSeat_hpa (n : Nat) (x : Seat) : (p.setSeat n x).hpa = p.hpa := rfl
@[simp] theorem setSeat_hpb (n : Nat) (x : Seat) : (p.setSeat n x).hpb = p.hpb := rfl
@[simp] theorem setSeat_ha0 (n : Nat) (x : Seat) : (p.setSeat n x).ha0 = p.ha0 := rfl
@[simp] theorem setSeat_ha1 (n : Nat) (x : Seat) : (p.setSeat n x).ha1 = p.ha1 := rfl
@[simp] theorem setSeat_hb0 (n : Nat) (x : Seat) : (p.setSeat n x).hb0 = p.hb0 := rfl
@[simp] theorem setSeat_hb1 (n : Nat) (x : Seat) : (p.setSeat n x).hb1 = p.hb1 := rfl
@[simp] theorem setSeat_xct (n : Nat) (x : Seat) : (p.setSeat n x).xct = p.xct := rfl
@[simp] theorem setSeat_disp (n : Nat) (x : Seat) : (p.setSeat n x).disp = p.disp := rfl
@[simp] theorem setSeat_vault (n : Nat) (x : Seat) : (p.setSeat n x).vault = p.vault := rfl
@[simp] theorem setSeat_lats (n : Nat) (x : Seat) : (p.setSeat n x).lats = p.lats := rfl
@[simp] theorem setSeat_trngs (n : Nat) (x : Seat) : (p.setSeat n x).trngs = p.trngs := rfl
@[simp] theorem setSeat_guard (n : Nat) (x : Seat) : (p.setSeat n x).guard = p.guard := rfl
@[simp] theorem setSeat_part (n : Nat) (x : Seat) : (p.setSeat n x).part = p.part := rfl
@[simp] theorem setSeat_evr (n : Nat) (x : Seat) : (p.setSeat n x).evr = p.evr := rfl
@[simp] theorem setSeat_cera (n : Nat) (x : Seat) : (p.setSeat n x).cera = p.cera := rfl
@[simp] theorem setSeat_cerb (n : Nat) (x : Seat) : (p.setSeat n x).cerb = p.cerb := rfl
@[simp] theorem setSeat_cerNext (n : Nat) (x : Seat) : (p.setSeat n x).cerNext = p.cerNext := rfl
@[simp] theorem setSeat_registry (n : Nat) (x : Seat) : (p.setSeat n x).registry = p.registry := rfl
@[simp] theorem setSeat_idCert (n : Nat) (x : Seat) : (p.setSeat n x).idCert = p.idCert := rfl
@[simp] theorem setSeat_joker (n : Nat) (x : Seat) : (p.setSeat n x).joker = p.joker := rfl
@[simp] theorem setSeat_shuffle (n : Nat) (x : Seat) : (p.setSeat n x).shuffle = p.shuffle := rfl
@[simp] theorem setSeat_counts (n : Nat) (x : Seat) : (p.setSeat n x).counts = p.counts := rfl
@[simp] theorem setSeat_latches (n : Nat) (x : Seat) : (p.setSeat n x).latches = p.latches := rfl
@[simp] theorem setSeat_saturated (n : Nat) (x : Seat) : (p.setSeat n x).saturated = p.saturated := rfl
@[simp] theorem setSeat_ppAssocs (n : Nat) (x : Seat) : (p.setSeat n x).ppAssocs = p.ppAssocs := rfl
@[simp] theorem setSeat_tx (n : Nat) (x : Seat) : (p.setSeat n x).tx = p.tx := rfl
@[simp] theorem setSeat_ipTx (n : Nat) (x : Seat) : (p.setSeat n x).ipTx = p.ipTx := rfl
@[simp] theorem setSeat_ptx (n : Nat) (x : Seat) : (p.setSeat n x).ptx = p.ptx := rfl
@[simp] theorem setSeat_seats_tiles (n : Nat) (x : Seat) : (p.setSeat n x).seats.tiles = p.seats.tiles := rfl
@[simp] theorem setSeat_seats_tus (n : Nat) (x : Seat) : (p.setSeat n x).seats.tus = p.seats.tus := rfl
@[simp] theorem setSeat_seats_lanes (n : Nat) (x : Seat) : (p.setSeat n x).seats.lanes = p.seats.lanes := rfl
@[simp] theorem setSeat_seats_pkes (n : Nat) (x : Seat) : (p.setSeat n x).seats.pkes = p.seats.pkes := rfl
@[simp] theorem setSeat_seats_dgsts (n : Nat) (x : Seat) : (p.setSeat n x).seats.dgsts = p.seats.dgsts := rfl
@[simp] theorem setSeat_seats_cores (n : Nat) (x : Seat) : (p.setSeat n x).seats.cores = p.seats.cores := rfl
@[simp] theorem setSeat_seats_sram (n : Nat) (x : Seat) : (p.setSeat n x).seats.sram = p.seats.sram := rfl
@[simp] theorem setSeat_seats_cache (n : Nat) (x : Seat) : (p.setSeat n x).seats.cache = p.seats.cache := rfl
@[simp] theorem setSeat_seats_fetching (n : Nat) (x : Seat) : (p.setSeat n x).seats.fetching = p.seats.fetching := rfl
@[simp] theorem setSeat_seats_turn (n : Nat) (x : Seat) : (p.setSeat n x).seats.turn = p.seats.turn := rfl
@[simp] theorem setSeat_seats_sgrdSel (n : Nat) (x : Seat) : (p.setSeat n x).seats.sgrdSel = p.seats.sgrdSel := rfl
@[simp] theorem setSeat_seats_sgrdLast (n : Nat) (x : Seat) : (p.setSeat n x).seats.sgrdLast = p.seats.sgrdLast := rfl
@[simp] theorem setSeat_seats_appNotices (n : Nat) (x : Seat) : (p.setSeat n x).seats.appNotices = p.seats.appNotices := rfl
@[simp] theorem setSeat_seats_seats (n : Nat) (x : Seat) : (p.setSeat n x).seats.seats = Sparse.set {} p.seats.seats n x := rfl

/-! ### setTile -/

@[simp] theorem setTile_fuses (k : Nat) (x : Tile) : (p.setTile k x).fuses = p.fuses := rfl
@[simp] theorem setTile_now (k : Nat) (x : Tile) : (p.setTile k x).now = p.now := rfl
@[simp] theorem setTile_draws (k : Nat) (x : Tile) : (p.setTile k x).draws = p.draws := rfl
@[simp] theorem setTile_power (k : Nat) (x : Tile) : (p.setTile k x).power = p.power := rfl
@[simp] theorem setTile_deal (k : Nat) (x : Tile) : (p.setTile k x).deal = p.deal := rfl
@[simp] theorem setTile_hpa (k : Nat) (x : Tile) : (p.setTile k x).hpa = p.hpa := rfl
@[simp] theorem setTile_hpb (k : Nat) (x : Tile) : (p.setTile k x).hpb = p.hpb := rfl
@[simp] theorem setTile_ha0 (k : Nat) (x : Tile) : (p.setTile k x).ha0 = p.ha0 := rfl
@[simp] theorem setTile_ha1 (k : Nat) (x : Tile) : (p.setTile k x).ha1 = p.ha1 := rfl
@[simp] theorem setTile_hb0 (k : Nat) (x : Tile) : (p.setTile k x).hb0 = p.hb0 := rfl
@[simp] theorem setTile_hb1 (k : Nat) (x : Tile) : (p.setTile k x).hb1 = p.hb1 := rfl
@[simp] theorem setTile_xct (k : Nat) (x : Tile) : (p.setTile k x).xct = p.xct := rfl
@[simp] theorem setTile_disp (k : Nat) (x : Tile) : (p.setTile k x).disp = p.disp := rfl
@[simp] theorem setTile_vault (k : Nat) (x : Tile) : (p.setTile k x).vault = p.vault := rfl
@[simp] theorem setTile_lats (k : Nat) (x : Tile) : (p.setTile k x).lats = p.lats := rfl
@[simp] theorem setTile_trngs (k : Nat) (x : Tile) : (p.setTile k x).trngs = p.trngs := rfl
@[simp] theorem setTile_guard (k : Nat) (x : Tile) : (p.setTile k x).guard = p.guard := rfl
@[simp] theorem setTile_part (k : Nat) (x : Tile) : (p.setTile k x).part = p.part := rfl
@[simp] theorem setTile_evr (k : Nat) (x : Tile) : (p.setTile k x).evr = p.evr := rfl
@[simp] theorem setTile_cera (k : Nat) (x : Tile) : (p.setTile k x).cera = p.cera := rfl
@[simp] theorem setTile_cerb (k : Nat) (x : Tile) : (p.setTile k x).cerb = p.cerb := rfl
@[simp] theorem setTile_cerNext (k : Nat) (x : Tile) : (p.setTile k x).cerNext = p.cerNext := rfl
@[simp] theorem setTile_registry (k : Nat) (x : Tile) : (p.setTile k x).registry = p.registry := rfl
@[simp] theorem setTile_idCert (k : Nat) (x : Tile) : (p.setTile k x).idCert = p.idCert := rfl
@[simp] theorem setTile_joker (k : Nat) (x : Tile) : (p.setTile k x).joker = p.joker := rfl
@[simp] theorem setTile_shuffle (k : Nat) (x : Tile) : (p.setTile k x).shuffle = p.shuffle := rfl
@[simp] theorem setTile_counts (k : Nat) (x : Tile) : (p.setTile k x).counts = p.counts := rfl
@[simp] theorem setTile_latches (k : Nat) (x : Tile) : (p.setTile k x).latches = p.latches := rfl
@[simp] theorem setTile_saturated (k : Nat) (x : Tile) : (p.setTile k x).saturated = p.saturated := rfl
@[simp] theorem setTile_ppAssocs (k : Nat) (x : Tile) : (p.setTile k x).ppAssocs = p.ppAssocs := rfl
@[simp] theorem setTile_tx (k : Nat) (x : Tile) : (p.setTile k x).tx = p.tx := rfl
@[simp] theorem setTile_ipTx (k : Nat) (x : Tile) : (p.setTile k x).ipTx = p.ipTx := rfl
@[simp] theorem setTile_ptx (k : Nat) (x : Tile) : (p.setTile k x).ptx = p.ptx := rfl
@[simp] theorem setTile_seats_seats (k : Nat) (x : Tile) : (p.setTile k x).seats.seats = p.seats.seats := rfl
@[simp] theorem setTile_seats_tus (k : Nat) (x : Tile) : (p.setTile k x).seats.tus = p.seats.tus := rfl
@[simp] theorem setTile_seats_lanes (k : Nat) (x : Tile) : (p.setTile k x).seats.lanes = p.seats.lanes := rfl
@[simp] theorem setTile_seats_pkes (k : Nat) (x : Tile) : (p.setTile k x).seats.pkes = p.seats.pkes := rfl
@[simp] theorem setTile_seats_dgsts (k : Nat) (x : Tile) : (p.setTile k x).seats.dgsts = p.seats.dgsts := rfl
@[simp] theorem setTile_seats_cores (k : Nat) (x : Tile) : (p.setTile k x).seats.cores = p.seats.cores := rfl
@[simp] theorem setTile_seats_sram (k : Nat) (x : Tile) : (p.setTile k x).seats.sram = p.seats.sram := rfl
@[simp] theorem setTile_seats_cache (k : Nat) (x : Tile) : (p.setTile k x).seats.cache = p.seats.cache := rfl
@[simp] theorem setTile_seats_fetching (k : Nat) (x : Tile) : (p.setTile k x).seats.fetching = p.seats.fetching := rfl
@[simp] theorem setTile_seats_turn (k : Nat) (x : Tile) : (p.setTile k x).seats.turn = p.seats.turn := rfl
@[simp] theorem setTile_seats_sgrdSel (k : Nat) (x : Tile) : (p.setTile k x).seats.sgrdSel = p.seats.sgrdSel := rfl
@[simp] theorem setTile_seats_sgrdLast (k : Nat) (x : Tile) : (p.setTile k x).seats.sgrdLast = p.seats.sgrdLast := rfl
@[simp] theorem setTile_seats_appNotices (k : Nat) (x : Tile) : (p.setTile k x).seats.appNotices = p.seats.appNotices := rfl
@[simp] theorem setTile_seats_tiles (k : Nat) (x : Tile) : (p.setTile k x).seats.tiles = Sparse.set {} p.seats.tiles k x := rfl

/-! ### setTu -/

@[simp] theorem setTu_fuses (n k : Nat) (j : Option Job) : (p.setTu n k j).fuses = p.fuses := rfl
@[simp] theorem setTu_now (n k : Nat) (j : Option Job) : (p.setTu n k j).now = p.now := rfl
@[simp] theorem setTu_draws (n k : Nat) (j : Option Job) : (p.setTu n k j).draws = p.draws := rfl
@[simp] theorem setTu_power (n k : Nat) (j : Option Job) : (p.setTu n k j).power = p.power := rfl
@[simp] theorem setTu_deal (n k : Nat) (j : Option Job) : (p.setTu n k j).deal = p.deal := rfl
@[simp] theorem setTu_hpa (n k : Nat) (j : Option Job) : (p.setTu n k j).hpa = p.hpa := rfl
@[simp] theorem setTu_hpb (n k : Nat) (j : Option Job) : (p.setTu n k j).hpb = p.hpb := rfl
@[simp] theorem setTu_ha0 (n k : Nat) (j : Option Job) : (p.setTu n k j).ha0 = p.ha0 := rfl
@[simp] theorem setTu_ha1 (n k : Nat) (j : Option Job) : (p.setTu n k j).ha1 = p.ha1 := rfl
@[simp] theorem setTu_hb0 (n k : Nat) (j : Option Job) : (p.setTu n k j).hb0 = p.hb0 := rfl
@[simp] theorem setTu_hb1 (n k : Nat) (j : Option Job) : (p.setTu n k j).hb1 = p.hb1 := rfl
@[simp] theorem setTu_xct (n k : Nat) (j : Option Job) : (p.setTu n k j).xct = p.xct := rfl
@[simp] theorem setTu_disp (n k : Nat) (j : Option Job) : (p.setTu n k j).disp = p.disp := rfl
@[simp] theorem setTu_vault (n k : Nat) (j : Option Job) : (p.setTu n k j).vault = p.vault := rfl
@[simp] theorem setTu_lats (n k : Nat) (j : Option Job) : (p.setTu n k j).lats = p.lats := rfl
@[simp] theorem setTu_trngs (n k : Nat) (j : Option Job) : (p.setTu n k j).trngs = p.trngs := rfl
@[simp] theorem setTu_guard (n k : Nat) (j : Option Job) : (p.setTu n k j).guard = p.guard := rfl
@[simp] theorem setTu_part (n k : Nat) (j : Option Job) : (p.setTu n k j).part = p.part := rfl
@[simp] theorem setTu_evr (n k : Nat) (j : Option Job) : (p.setTu n k j).evr = p.evr := rfl
@[simp] theorem setTu_cera (n k : Nat) (j : Option Job) : (p.setTu n k j).cera = p.cera := rfl
@[simp] theorem setTu_cerb (n k : Nat) (j : Option Job) : (p.setTu n k j).cerb = p.cerb := rfl
@[simp] theorem setTu_cerNext (n k : Nat) (j : Option Job) : (p.setTu n k j).cerNext = p.cerNext := rfl
@[simp] theorem setTu_registry (n k : Nat) (j : Option Job) : (p.setTu n k j).registry = p.registry := rfl
@[simp] theorem setTu_idCert (n k : Nat) (j : Option Job) : (p.setTu n k j).idCert = p.idCert := rfl
@[simp] theorem setTu_joker (n k : Nat) (j : Option Job) : (p.setTu n k j).joker = p.joker := rfl
@[simp] theorem setTu_shuffle (n k : Nat) (j : Option Job) : (p.setTu n k j).shuffle = p.shuffle := rfl
@[simp] theorem setTu_counts (n k : Nat) (j : Option Job) : (p.setTu n k j).counts = p.counts := rfl
@[simp] theorem setTu_latches (n k : Nat) (j : Option Job) : (p.setTu n k j).latches = p.latches := rfl
@[simp] theorem setTu_saturated (n k : Nat) (j : Option Job) : (p.setTu n k j).saturated = p.saturated := rfl
@[simp] theorem setTu_ppAssocs (n k : Nat) (j : Option Job) : (p.setTu n k j).ppAssocs = p.ppAssocs := rfl
@[simp] theorem setTu_tx (n k : Nat) (j : Option Job) : (p.setTu n k j).tx = p.tx := rfl
@[simp] theorem setTu_ipTx (n k : Nat) (j : Option Job) : (p.setTu n k j).ipTx = p.ipTx := rfl
@[simp] theorem setTu_ptx (n k : Nat) (j : Option Job) : (p.setTu n k j).ptx = p.ptx := rfl
@[simp] theorem setTu_seats_seats (n k : Nat) (j : Option Job) : (p.setTu n k j).seats.seats = p.seats.seats := rfl
@[simp] theorem setTu_seats_tiles (n k : Nat) (j : Option Job) : (p.setTu n k j).seats.tiles = p.seats.tiles := rfl
@[simp] theorem setTu_seats_lanes (n k : Nat) (j : Option Job) : (p.setTu n k j).seats.lanes = p.seats.lanes := rfl
@[simp] theorem setTu_seats_pkes (n k : Nat) (j : Option Job) : (p.setTu n k j).seats.pkes = p.seats.pkes := rfl
@[simp] theorem setTu_seats_dgsts (n k : Nat) (j : Option Job) : (p.setTu n k j).seats.dgsts = p.seats.dgsts := rfl
@[simp] theorem setTu_seats_cores (n k : Nat) (j : Option Job) : (p.setTu n k j).seats.cores = p.seats.cores := rfl
@[simp] theorem setTu_seats_sram (n k : Nat) (j : Option Job) : (p.setTu n k j).seats.sram = p.seats.sram := rfl
@[simp] theorem setTu_seats_cache (n k : Nat) (j : Option Job) : (p.setTu n k j).seats.cache = p.seats.cache := rfl
@[simp] theorem setTu_seats_fetching (n k : Nat) (j : Option Job) : (p.setTu n k j).seats.fetching = p.seats.fetching := rfl
@[simp] theorem setTu_seats_turn (n k : Nat) (j : Option Job) : (p.setTu n k j).seats.turn = p.seats.turn := rfl
@[simp] theorem setTu_seats_sgrdSel (n k : Nat) (j : Option Job) : (p.setTu n k j).seats.sgrdSel = p.seats.sgrdSel := rfl
@[simp] theorem setTu_seats_sgrdLast (n k : Nat) (j : Option Job) : (p.setTu n k j).seats.sgrdLast = p.seats.sgrdLast := rfl
@[simp] theorem setTu_seats_appNotices (n k : Nat) (j : Option Job) : (p.setTu n k j).seats.appNotices = p.seats.appNotices := rfl

/-! ### setLane -/

@[simp] theorem setLane_fuses (n k : Nat) (x : Lane) : (p.setLane n k x).fuses = p.fuses := rfl
@[simp] theorem setLane_now (n k : Nat) (x : Lane) : (p.setLane n k x).now = p.now := rfl
@[simp] theorem setLane_draws (n k : Nat) (x : Lane) : (p.setLane n k x).draws = p.draws := rfl
@[simp] theorem setLane_power (n k : Nat) (x : Lane) : (p.setLane n k x).power = p.power := rfl
@[simp] theorem setLane_deal (n k : Nat) (x : Lane) : (p.setLane n k x).deal = p.deal := rfl
@[simp] theorem setLane_hpa (n k : Nat) (x : Lane) : (p.setLane n k x).hpa = p.hpa := rfl
@[simp] theorem setLane_hpb (n k : Nat) (x : Lane) : (p.setLane n k x).hpb = p.hpb := rfl
@[simp] theorem setLane_ha0 (n k : Nat) (x : Lane) : (p.setLane n k x).ha0 = p.ha0 := rfl
@[simp] theorem setLane_ha1 (n k : Nat) (x : Lane) : (p.setLane n k x).ha1 = p.ha1 := rfl
@[simp] theorem setLane_hb0 (n k : Nat) (x : Lane) : (p.setLane n k x).hb0 = p.hb0 := rfl
@[simp] theorem setLane_hb1 (n k : Nat) (x : Lane) : (p.setLane n k x).hb1 = p.hb1 := rfl
@[simp] theorem setLane_xct (n k : Nat) (x : Lane) : (p.setLane n k x).xct = p.xct := rfl
@[simp] theorem setLane_disp (n k : Nat) (x : Lane) : (p.setLane n k x).disp = p.disp := rfl
@[simp] theorem setLane_vault (n k : Nat) (x : Lane) : (p.setLane n k x).vault = p.vault := rfl
@[simp] theorem setLane_lats (n k : Nat) (x : Lane) : (p.setLane n k x).lats = p.lats := rfl
@[simp] theorem setLane_trngs (n k : Nat) (x : Lane) : (p.setLane n k x).trngs = p.trngs := rfl
@[simp] theorem setLane_guard (n k : Nat) (x : Lane) : (p.setLane n k x).guard = p.guard := rfl
@[simp] theorem setLane_part (n k : Nat) (x : Lane) : (p.setLane n k x).part = p.part := rfl
@[simp] theorem setLane_evr (n k : Nat) (x : Lane) : (p.setLane n k x).evr = p.evr := rfl
@[simp] theorem setLane_cera (n k : Nat) (x : Lane) : (p.setLane n k x).cera = p.cera := rfl
@[simp] theorem setLane_cerb (n k : Nat) (x : Lane) : (p.setLane n k x).cerb = p.cerb := rfl
@[simp] theorem setLane_cerNext (n k : Nat) (x : Lane) : (p.setLane n k x).cerNext = p.cerNext := rfl
@[simp] theorem setLane_registry (n k : Nat) (x : Lane) : (p.setLane n k x).registry = p.registry := rfl
@[simp] theorem setLane_idCert (n k : Nat) (x : Lane) : (p.setLane n k x).idCert = p.idCert := rfl
@[simp] theorem setLane_joker (n k : Nat) (x : Lane) : (p.setLane n k x).joker = p.joker := rfl
@[simp] theorem setLane_shuffle (n k : Nat) (x : Lane) : (p.setLane n k x).shuffle = p.shuffle := rfl
@[simp] theorem setLane_counts (n k : Nat) (x : Lane) : (p.setLane n k x).counts = p.counts := rfl
@[simp] theorem setLane_latches (n k : Nat) (x : Lane) : (p.setLane n k x).latches = p.latches := rfl
@[simp] theorem setLane_saturated (n k : Nat) (x : Lane) : (p.setLane n k x).saturated = p.saturated := rfl
@[simp] theorem setLane_ppAssocs (n k : Nat) (x : Lane) : (p.setLane n k x).ppAssocs = p.ppAssocs := rfl
@[simp] theorem setLane_tx (n k : Nat) (x : Lane) : (p.setLane n k x).tx = p.tx := rfl
@[simp] theorem setLane_ipTx (n k : Nat) (x : Lane) : (p.setLane n k x).ipTx = p.ipTx := rfl
@[simp] theorem setLane_ptx (n k : Nat) (x : Lane) : (p.setLane n k x).ptx = p.ptx := rfl
@[simp] theorem setLane_seats_seats (n k : Nat) (x : Lane) : (p.setLane n k x).seats.seats = p.seats.seats := rfl
@[simp] theorem setLane_seats_tiles (n k : Nat) (x : Lane) : (p.setLane n k x).seats.tiles = p.seats.tiles := rfl
@[simp] theorem setLane_seats_tus (n k : Nat) (x : Lane) : (p.setLane n k x).seats.tus = p.seats.tus := rfl
@[simp] theorem setLane_seats_pkes (n k : Nat) (x : Lane) : (p.setLane n k x).seats.pkes = p.seats.pkes := rfl
@[simp] theorem setLane_seats_dgsts (n k : Nat) (x : Lane) : (p.setLane n k x).seats.dgsts = p.seats.dgsts := rfl
@[simp] theorem setLane_seats_cores (n k : Nat) (x : Lane) : (p.setLane n k x).seats.cores = p.seats.cores := rfl
@[simp] theorem setLane_seats_sram (n k : Nat) (x : Lane) : (p.setLane n k x).seats.sram = p.seats.sram := rfl
@[simp] theorem setLane_seats_cache (n k : Nat) (x : Lane) : (p.setLane n k x).seats.cache = p.seats.cache := rfl
@[simp] theorem setLane_seats_fetching (n k : Nat) (x : Lane) : (p.setLane n k x).seats.fetching = p.seats.fetching := rfl
@[simp] theorem setLane_seats_turn (n k : Nat) (x : Lane) : (p.setLane n k x).seats.turn = p.seats.turn := rfl
@[simp] theorem setLane_seats_sgrdSel (n k : Nat) (x : Lane) : (p.setLane n k x).seats.sgrdSel = p.seats.sgrdSel := rfl
@[simp] theorem setLane_seats_sgrdLast (n k : Nat) (x : Lane) : (p.setLane n k x).seats.sgrdLast = p.seats.sgrdLast := rfl
@[simp] theorem setLane_seats_appNotices (n k : Nat) (x : Lane) : (p.setLane n k x).seats.appNotices = p.seats.appNotices := rfl
@[simp] theorem setLane_seats_lanes (n k : Nat) (x : Lane) : (p.setLane n k x).seats.lanes = Sparse.set {} p.seats.lanes (laneKey n k) x := rfl

/-! ### setPke -/

@[simp] theorem setPke_fuses (n k : Nat) (x : PkeCore) : (p.setPke n k x).fuses = p.fuses := rfl
@[simp] theorem setPke_now (n k : Nat) (x : PkeCore) : (p.setPke n k x).now = p.now := rfl
@[simp] theorem setPke_draws (n k : Nat) (x : PkeCore) : (p.setPke n k x).draws = p.draws := rfl
@[simp] theorem setPke_power (n k : Nat) (x : PkeCore) : (p.setPke n k x).power = p.power := rfl
@[simp] theorem setPke_deal (n k : Nat) (x : PkeCore) : (p.setPke n k x).deal = p.deal := rfl
@[simp] theorem setPke_hpa (n k : Nat) (x : PkeCore) : (p.setPke n k x).hpa = p.hpa := rfl
@[simp] theorem setPke_hpb (n k : Nat) (x : PkeCore) : (p.setPke n k x).hpb = p.hpb := rfl
@[simp] theorem setPke_ha0 (n k : Nat) (x : PkeCore) : (p.setPke n k x).ha0 = p.ha0 := rfl
@[simp] theorem setPke_ha1 (n k : Nat) (x : PkeCore) : (p.setPke n k x).ha1 = p.ha1 := rfl
@[simp] theorem setPke_hb0 (n k : Nat) (x : PkeCore) : (p.setPke n k x).hb0 = p.hb0 := rfl
@[simp] theorem setPke_hb1 (n k : Nat) (x : PkeCore) : (p.setPke n k x).hb1 = p.hb1 := rfl
@[simp] theorem setPke_xct (n k : Nat) (x : PkeCore) : (p.setPke n k x).xct = p.xct := rfl
@[simp] theorem setPke_disp (n k : Nat) (x : PkeCore) : (p.setPke n k x).disp = p.disp := rfl
@[simp] theorem setPke_vault (n k : Nat) (x : PkeCore) : (p.setPke n k x).vault = p.vault := rfl
@[simp] theorem setPke_lats (n k : Nat) (x : PkeCore) : (p.setPke n k x).lats = p.lats := rfl
@[simp] theorem setPke_trngs (n k : Nat) (x : PkeCore) : (p.setPke n k x).trngs = p.trngs := rfl
@[simp] theorem setPke_guard (n k : Nat) (x : PkeCore) : (p.setPke n k x).guard = p.guard := rfl
@[simp] theorem setPke_part (n k : Nat) (x : PkeCore) : (p.setPke n k x).part = p.part := rfl
@[simp] theorem setPke_evr (n k : Nat) (x : PkeCore) : (p.setPke n k x).evr = p.evr := rfl
@[simp] theorem setPke_cera (n k : Nat) (x : PkeCore) : (p.setPke n k x).cera = p.cera := rfl
@[simp] theorem setPke_cerb (n k : Nat) (x : PkeCore) : (p.setPke n k x).cerb = p.cerb := rfl
@[simp] theorem setPke_cerNext (n k : Nat) (x : PkeCore) : (p.setPke n k x).cerNext = p.cerNext := rfl
@[simp] theorem setPke_registry (n k : Nat) (x : PkeCore) : (p.setPke n k x).registry = p.registry := rfl
@[simp] theorem setPke_idCert (n k : Nat) (x : PkeCore) : (p.setPke n k x).idCert = p.idCert := rfl
@[simp] theorem setPke_joker (n k : Nat) (x : PkeCore) : (p.setPke n k x).joker = p.joker := rfl
@[simp] theorem setPke_shuffle (n k : Nat) (x : PkeCore) : (p.setPke n k x).shuffle = p.shuffle := rfl
@[simp] theorem setPke_counts (n k : Nat) (x : PkeCore) : (p.setPke n k x).counts = p.counts := rfl
@[simp] theorem setPke_latches (n k : Nat) (x : PkeCore) : (p.setPke n k x).latches = p.latches := rfl
@[simp] theorem setPke_saturated (n k : Nat) (x : PkeCore) : (p.setPke n k x).saturated = p.saturated := rfl
@[simp] theorem setPke_ppAssocs (n k : Nat) (x : PkeCore) : (p.setPke n k x).ppAssocs = p.ppAssocs := rfl
@[simp] theorem setPke_tx (n k : Nat) (x : PkeCore) : (p.setPke n k x).tx = p.tx := rfl
@[simp] theorem setPke_ipTx (n k : Nat) (x : PkeCore) : (p.setPke n k x).ipTx = p.ipTx := rfl
@[simp] theorem setPke_ptx (n k : Nat) (x : PkeCore) : (p.setPke n k x).ptx = p.ptx := rfl
@[simp] theorem setPke_seats_seats (n k : Nat) (x : PkeCore) : (p.setPke n k x).seats.seats = p.seats.seats := rfl
@[simp] theorem setPke_seats_tiles (n k : Nat) (x : PkeCore) : (p.setPke n k x).seats.tiles = p.seats.tiles := rfl
@[simp] theorem setPke_seats_tus (n k : Nat) (x : PkeCore) : (p.setPke n k x).seats.tus = p.seats.tus := rfl
@[simp] theorem setPke_seats_lanes (n k : Nat) (x : PkeCore) : (p.setPke n k x).seats.lanes = p.seats.lanes := rfl
@[simp] theorem setPke_seats_dgsts (n k : Nat) (x : PkeCore) : (p.setPke n k x).seats.dgsts = p.seats.dgsts := rfl
@[simp] theorem setPke_seats_cores (n k : Nat) (x : PkeCore) : (p.setPke n k x).seats.cores = p.seats.cores := rfl
@[simp] theorem setPke_seats_sram (n k : Nat) (x : PkeCore) : (p.setPke n k x).seats.sram = p.seats.sram := rfl
@[simp] theorem setPke_seats_cache (n k : Nat) (x : PkeCore) : (p.setPke n k x).seats.cache = p.seats.cache := rfl
@[simp] theorem setPke_seats_fetching (n k : Nat) (x : PkeCore) : (p.setPke n k x).seats.fetching = p.seats.fetching := rfl
@[simp] theorem setPke_seats_turn (n k : Nat) (x : PkeCore) : (p.setPke n k x).seats.turn = p.seats.turn := rfl
@[simp] theorem setPke_seats_sgrdSel (n k : Nat) (x : PkeCore) : (p.setPke n k x).seats.sgrdSel = p.seats.sgrdSel := rfl
@[simp] theorem setPke_seats_sgrdLast (n k : Nat) (x : PkeCore) : (p.setPke n k x).seats.sgrdLast = p.seats.sgrdLast := rfl
@[simp] theorem setPke_seats_appNotices (n k : Nat) (x : PkeCore) : (p.setPke n k x).seats.appNotices = p.seats.appNotices := rfl
@[simp] theorem setPke_seats_pkes (n k : Nat) (x : PkeCore) : (p.setPke n k x).seats.pkes = Sparse.set {} p.seats.pkes (pkeKey n k) x := rfl

/-! ### setDgst -/

@[simp] theorem setDgst_fuses (n k : Nat) (x : Dgst) : (p.setDgst n k x).fuses = p.fuses := rfl
@[simp] theorem setDgst_now (n k : Nat) (x : Dgst) : (p.setDgst n k x).now = p.now := rfl
@[simp] theorem setDgst_draws (n k : Nat) (x : Dgst) : (p.setDgst n k x).draws = p.draws := rfl
@[simp] theorem setDgst_power (n k : Nat) (x : Dgst) : (p.setDgst n k x).power = p.power := rfl
@[simp] theorem setDgst_deal (n k : Nat) (x : Dgst) : (p.setDgst n k x).deal = p.deal := rfl
@[simp] theorem setDgst_hpa (n k : Nat) (x : Dgst) : (p.setDgst n k x).hpa = p.hpa := rfl
@[simp] theorem setDgst_hpb (n k : Nat) (x : Dgst) : (p.setDgst n k x).hpb = p.hpb := rfl
@[simp] theorem setDgst_ha0 (n k : Nat) (x : Dgst) : (p.setDgst n k x).ha0 = p.ha0 := rfl
@[simp] theorem setDgst_ha1 (n k : Nat) (x : Dgst) : (p.setDgst n k x).ha1 = p.ha1 := rfl
@[simp] theorem setDgst_hb0 (n k : Nat) (x : Dgst) : (p.setDgst n k x).hb0 = p.hb0 := rfl
@[simp] theorem setDgst_hb1 (n k : Nat) (x : Dgst) : (p.setDgst n k x).hb1 = p.hb1 := rfl
@[simp] theorem setDgst_xct (n k : Nat) (x : Dgst) : (p.setDgst n k x).xct = p.xct := rfl
@[simp] theorem setDgst_disp (n k : Nat) (x : Dgst) : (p.setDgst n k x).disp = p.disp := rfl
@[simp] theorem setDgst_vault (n k : Nat) (x : Dgst) : (p.setDgst n k x).vault = p.vault := rfl
@[simp] theorem setDgst_lats (n k : Nat) (x : Dgst) : (p.setDgst n k x).lats = p.lats := rfl
@[simp] theorem setDgst_trngs (n k : Nat) (x : Dgst) : (p.setDgst n k x).trngs = p.trngs := rfl
@[simp] theorem setDgst_guard (n k : Nat) (x : Dgst) : (p.setDgst n k x).guard = p.guard := rfl
@[simp] theorem setDgst_part (n k : Nat) (x : Dgst) : (p.setDgst n k x).part = p.part := rfl
@[simp] theorem setDgst_evr (n k : Nat) (x : Dgst) : (p.setDgst n k x).evr = p.evr := rfl
@[simp] theorem setDgst_cera (n k : Nat) (x : Dgst) : (p.setDgst n k x).cera = p.cera := rfl
@[simp] theorem setDgst_cerb (n k : Nat) (x : Dgst) : (p.setDgst n k x).cerb = p.cerb := rfl
@[simp] theorem setDgst_cerNext (n k : Nat) (x : Dgst) : (p.setDgst n k x).cerNext = p.cerNext := rfl
@[simp] theorem setDgst_registry (n k : Nat) (x : Dgst) : (p.setDgst n k x).registry = p.registry := rfl
@[simp] theorem setDgst_idCert (n k : Nat) (x : Dgst) : (p.setDgst n k x).idCert = p.idCert := rfl
@[simp] theorem setDgst_joker (n k : Nat) (x : Dgst) : (p.setDgst n k x).joker = p.joker := rfl
@[simp] theorem setDgst_shuffle (n k : Nat) (x : Dgst) : (p.setDgst n k x).shuffle = p.shuffle := rfl
@[simp] theorem setDgst_counts (n k : Nat) (x : Dgst) : (p.setDgst n k x).counts = p.counts := rfl
@[simp] theorem setDgst_latches (n k : Nat) (x : Dgst) : (p.setDgst n k x).latches = p.latches := rfl
@[simp] theorem setDgst_saturated (n k : Nat) (x : Dgst) : (p.setDgst n k x).saturated = p.saturated := rfl
@[simp] theorem setDgst_ppAssocs (n k : Nat) (x : Dgst) : (p.setDgst n k x).ppAssocs = p.ppAssocs := rfl
@[simp] theorem setDgst_tx (n k : Nat) (x : Dgst) : (p.setDgst n k x).tx = p.tx := rfl
@[simp] theorem setDgst_ipTx (n k : Nat) (x : Dgst) : (p.setDgst n k x).ipTx = p.ipTx := rfl
@[simp] theorem setDgst_ptx (n k : Nat) (x : Dgst) : (p.setDgst n k x).ptx = p.ptx := rfl
@[simp] theorem setDgst_seats_seats (n k : Nat) (x : Dgst) : (p.setDgst n k x).seats.seats = p.seats.seats := rfl
@[simp] theorem setDgst_seats_tiles (n k : Nat) (x : Dgst) : (p.setDgst n k x).seats.tiles = p.seats.tiles := rfl
@[simp] theorem setDgst_seats_tus (n k : Nat) (x : Dgst) : (p.setDgst n k x).seats.tus = p.seats.tus := rfl
@[simp] theorem setDgst_seats_lanes (n k : Nat) (x : Dgst) : (p.setDgst n k x).seats.lanes = p.seats.lanes := rfl
@[simp] theorem setDgst_seats_pkes (n k : Nat) (x : Dgst) : (p.setDgst n k x).seats.pkes = p.seats.pkes := rfl
@[simp] theorem setDgst_seats_cores (n k : Nat) (x : Dgst) : (p.setDgst n k x).seats.cores = p.seats.cores := rfl
@[simp] theorem setDgst_seats_sram (n k : Nat) (x : Dgst) : (p.setDgst n k x).seats.sram = p.seats.sram := rfl
@[simp] theorem setDgst_seats_cache (n k : Nat) (x : Dgst) : (p.setDgst n k x).seats.cache = p.seats.cache := rfl
@[simp] theorem setDgst_seats_fetching (n k : Nat) (x : Dgst) : (p.setDgst n k x).seats.fetching = p.seats.fetching := rfl
@[simp] theorem setDgst_seats_turn (n k : Nat) (x : Dgst) : (p.setDgst n k x).seats.turn = p.seats.turn := rfl
@[simp] theorem setDgst_seats_sgrdSel (n k : Nat) (x : Dgst) : (p.setDgst n k x).seats.sgrdSel = p.seats.sgrdSel := rfl
@[simp] theorem setDgst_seats_sgrdLast (n k : Nat) (x : Dgst) : (p.setDgst n k x).seats.sgrdLast = p.seats.sgrdLast := rfl
@[simp] theorem setDgst_seats_appNotices (n k : Nat) (x : Dgst) : (p.setDgst n k x).seats.appNotices = p.seats.appNotices := rfl
@[simp] theorem setDgst_seats_dgsts (n k : Nat) (x : Dgst) : (p.setDgst n k x).seats.dgsts = Sparse.set {} p.seats.dgsts (dgstKey n k) x := rfl

/-! ### setCore -/

@[simp] theorem setCore_fuses (n k : Nat) (x : Core) : (p.setCore n k x).fuses = p.fuses := rfl
@[simp] theorem setCore_now (n k : Nat) (x : Core) : (p.setCore n k x).now = p.now := rfl
@[simp] theorem setCore_draws (n k : Nat) (x : Core) : (p.setCore n k x).draws = p.draws := rfl
@[simp] theorem setCore_power (n k : Nat) (x : Core) : (p.setCore n k x).power = p.power := rfl
@[simp] theorem setCore_deal (n k : Nat) (x : Core) : (p.setCore n k x).deal = p.deal := rfl
@[simp] theorem setCore_hpa (n k : Nat) (x : Core) : (p.setCore n k x).hpa = p.hpa := rfl
@[simp] theorem setCore_hpb (n k : Nat) (x : Core) : (p.setCore n k x).hpb = p.hpb := rfl
@[simp] theorem setCore_ha0 (n k : Nat) (x : Core) : (p.setCore n k x).ha0 = p.ha0 := rfl
@[simp] theorem setCore_ha1 (n k : Nat) (x : Core) : (p.setCore n k x).ha1 = p.ha1 := rfl
@[simp] theorem setCore_hb0 (n k : Nat) (x : Core) : (p.setCore n k x).hb0 = p.hb0 := rfl
@[simp] theorem setCore_hb1 (n k : Nat) (x : Core) : (p.setCore n k x).hb1 = p.hb1 := rfl
@[simp] theorem setCore_xct (n k : Nat) (x : Core) : (p.setCore n k x).xct = p.xct := rfl
@[simp] theorem setCore_disp (n k : Nat) (x : Core) : (p.setCore n k x).disp = p.disp := rfl
@[simp] theorem setCore_vault (n k : Nat) (x : Core) : (p.setCore n k x).vault = p.vault := rfl
@[simp] theorem setCore_lats (n k : Nat) (x : Core) : (p.setCore n k x).lats = p.lats := rfl
@[simp] theorem setCore_trngs (n k : Nat) (x : Core) : (p.setCore n k x).trngs = p.trngs := rfl
@[simp] theorem setCore_guard (n k : Nat) (x : Core) : (p.setCore n k x).guard = p.guard := rfl
@[simp] theorem setCore_part (n k : Nat) (x : Core) : (p.setCore n k x).part = p.part := rfl
@[simp] theorem setCore_evr (n k : Nat) (x : Core) : (p.setCore n k x).evr = p.evr := rfl
@[simp] theorem setCore_cera (n k : Nat) (x : Core) : (p.setCore n k x).cera = p.cera := rfl
@[simp] theorem setCore_cerb (n k : Nat) (x : Core) : (p.setCore n k x).cerb = p.cerb := rfl
@[simp] theorem setCore_cerNext (n k : Nat) (x : Core) : (p.setCore n k x).cerNext = p.cerNext := rfl
@[simp] theorem setCore_registry (n k : Nat) (x : Core) : (p.setCore n k x).registry = p.registry := rfl
@[simp] theorem setCore_idCert (n k : Nat) (x : Core) : (p.setCore n k x).idCert = p.idCert := rfl
@[simp] theorem setCore_joker (n k : Nat) (x : Core) : (p.setCore n k x).joker = p.joker := rfl
@[simp] theorem setCore_shuffle (n k : Nat) (x : Core) : (p.setCore n k x).shuffle = p.shuffle := rfl
@[simp] theorem setCore_counts (n k : Nat) (x : Core) : (p.setCore n k x).counts = p.counts := rfl
@[simp] theorem setCore_latches (n k : Nat) (x : Core) : (p.setCore n k x).latches = p.latches := rfl
@[simp] theorem setCore_saturated (n k : Nat) (x : Core) : (p.setCore n k x).saturated = p.saturated := rfl
@[simp] theorem setCore_ppAssocs (n k : Nat) (x : Core) : (p.setCore n k x).ppAssocs = p.ppAssocs := rfl
@[simp] theorem setCore_tx (n k : Nat) (x : Core) : (p.setCore n k x).tx = p.tx := rfl
@[simp] theorem setCore_ipTx (n k : Nat) (x : Core) : (p.setCore n k x).ipTx = p.ipTx := rfl
@[simp] theorem setCore_ptx (n k : Nat) (x : Core) : (p.setCore n k x).ptx = p.ptx := rfl
@[simp] theorem setCore_seats_seats (n k : Nat) (x : Core) : (p.setCore n k x).seats.seats = p.seats.seats := rfl
@[simp] theorem setCore_seats_tiles (n k : Nat) (x : Core) : (p.setCore n k x).seats.tiles = p.seats.tiles := rfl
@[simp] theorem setCore_seats_tus (n k : Nat) (x : Core) : (p.setCore n k x).seats.tus = p.seats.tus := rfl
@[simp] theorem setCore_seats_lanes (n k : Nat) (x : Core) : (p.setCore n k x).seats.lanes = p.seats.lanes := rfl
@[simp] theorem setCore_seats_pkes (n k : Nat) (x : Core) : (p.setCore n k x).seats.pkes = p.seats.pkes := rfl
@[simp] theorem setCore_seats_dgsts (n k : Nat) (x : Core) : (p.setCore n k x).seats.dgsts = p.seats.dgsts := rfl
@[simp] theorem setCore_seats_sram (n k : Nat) (x : Core) : (p.setCore n k x).seats.sram = p.seats.sram := rfl
@[simp] theorem setCore_seats_cache (n k : Nat) (x : Core) : (p.setCore n k x).seats.cache = p.seats.cache := rfl
@[simp] theorem setCore_seats_fetching (n k : Nat) (x : Core) : (p.setCore n k x).seats.fetching = p.seats.fetching := rfl
@[simp] theorem setCore_seats_turn (n k : Nat) (x : Core) : (p.setCore n k x).seats.turn = p.seats.turn := rfl
@[simp] theorem setCore_seats_sgrdSel (n k : Nat) (x : Core) : (p.setCore n k x).seats.sgrdSel = p.seats.sgrdSel := rfl
@[simp] theorem setCore_seats_sgrdLast (n k : Nat) (x : Core) : (p.setCore n k x).seats.sgrdLast = p.seats.sgrdLast := rfl
@[simp] theorem setCore_seats_appNotices (n k : Nat) (x : Core) : (p.setCore n k x).seats.appNotices = p.seats.appNotices := rfl
@[simp] theorem setCore_seats_cores (n k : Nat) (x : Core) : (p.setCore n k x).seats.cores = Sparse.set {} p.seats.cores (coreKey n k) x := rfl

/-! ### setCache -/

@[simp] theorem setCache_fuses (l : List CacheEntry) : (p.setCache l).fuses = p.fuses := rfl
@[simp] theorem setCache_now (l : List CacheEntry) : (p.setCache l).now = p.now := rfl
@[simp] theorem setCache_draws (l : List CacheEntry) : (p.setCache l).draws = p.draws := rfl
@[simp] theorem setCache_power (l : List CacheEntry) : (p.setCache l).power = p.power := rfl
@[simp] theorem setCache_deal (l : List CacheEntry) : (p.setCache l).deal = p.deal := rfl
@[simp] theorem setCache_hpa (l : List CacheEntry) : (p.setCache l).hpa = p.hpa := rfl
@[simp] theorem setCache_hpb (l : List CacheEntry) : (p.setCache l).hpb = p.hpb := rfl
@[simp] theorem setCache_ha0 (l : List CacheEntry) : (p.setCache l).ha0 = p.ha0 := rfl
@[simp] theorem setCache_ha1 (l : List CacheEntry) : (p.setCache l).ha1 = p.ha1 := rfl
@[simp] theorem setCache_hb0 (l : List CacheEntry) : (p.setCache l).hb0 = p.hb0 := rfl
@[simp] theorem setCache_hb1 (l : List CacheEntry) : (p.setCache l).hb1 = p.hb1 := rfl
@[simp] theorem setCache_xct (l : List CacheEntry) : (p.setCache l).xct = p.xct := rfl
@[simp] theorem setCache_disp (l : List CacheEntry) : (p.setCache l).disp = p.disp := rfl
@[simp] theorem setCache_vault (l : List CacheEntry) : (p.setCache l).vault = p.vault := rfl
@[simp] theorem setCache_lats (l : List CacheEntry) : (p.setCache l).lats = p.lats := rfl
@[simp] theorem setCache_trngs (l : List CacheEntry) : (p.setCache l).trngs = p.trngs := rfl
@[simp] theorem setCache_guard (l : List CacheEntry) : (p.setCache l).guard = p.guard := rfl
@[simp] theorem setCache_part (l : List CacheEntry) : (p.setCache l).part = p.part := rfl
@[simp] theorem setCache_evr (l : List CacheEntry) : (p.setCache l).evr = p.evr := rfl
@[simp] theorem setCache_cera (l : List CacheEntry) : (p.setCache l).cera = p.cera := rfl
@[simp] theorem setCache_cerb (l : List CacheEntry) : (p.setCache l).cerb = p.cerb := rfl
@[simp] theorem setCache_cerNext (l : List CacheEntry) : (p.setCache l).cerNext = p.cerNext := rfl
@[simp] theorem setCache_registry (l : List CacheEntry) : (p.setCache l).registry = p.registry := rfl
@[simp] theorem setCache_idCert (l : List CacheEntry) : (p.setCache l).idCert = p.idCert := rfl
@[simp] theorem setCache_joker (l : List CacheEntry) : (p.setCache l).joker = p.joker := rfl
@[simp] theorem setCache_shuffle (l : List CacheEntry) : (p.setCache l).shuffle = p.shuffle := rfl
@[simp] theorem setCache_counts (l : List CacheEntry) : (p.setCache l).counts = p.counts := rfl
@[simp] theorem setCache_latches (l : List CacheEntry) : (p.setCache l).latches = p.latches := rfl
@[simp] theorem setCache_saturated (l : List CacheEntry) : (p.setCache l).saturated = p.saturated := rfl
@[simp] theorem setCache_ppAssocs (l : List CacheEntry) : (p.setCache l).ppAssocs = p.ppAssocs := rfl
@[simp] theorem setCache_tx (l : List CacheEntry) : (p.setCache l).tx = p.tx := rfl
@[simp] theorem setCache_ipTx (l : List CacheEntry) : (p.setCache l).ipTx = p.ipTx := rfl
@[simp] theorem setCache_ptx (l : List CacheEntry) : (p.setCache l).ptx = p.ptx := rfl
@[simp] theorem setCache_seats_seats (l : List CacheEntry) : (p.setCache l).seats.seats = p.seats.seats := rfl
@[simp] theorem setCache_seats_tiles (l : List CacheEntry) : (p.setCache l).seats.tiles = p.seats.tiles := rfl
@[simp] theorem setCache_seats_tus (l : List CacheEntry) : (p.setCache l).seats.tus = p.seats.tus := rfl
@[simp] theorem setCache_seats_lanes (l : List CacheEntry) : (p.setCache l).seats.lanes = p.seats.lanes := rfl
@[simp] theorem setCache_seats_pkes (l : List CacheEntry) : (p.setCache l).seats.pkes = p.seats.pkes := rfl
@[simp] theorem setCache_seats_dgsts (l : List CacheEntry) : (p.setCache l).seats.dgsts = p.seats.dgsts := rfl
@[simp] theorem setCache_seats_cores (l : List CacheEntry) : (p.setCache l).seats.cores = p.seats.cores := rfl
@[simp] theorem setCache_seats_sram (l : List CacheEntry) : (p.setCache l).seats.sram = p.seats.sram := rfl
@[simp] theorem setCache_seats_fetching (l : List CacheEntry) : (p.setCache l).seats.fetching = p.seats.fetching := rfl
@[simp] theorem setCache_seats_turn (l : List CacheEntry) : (p.setCache l).seats.turn = p.seats.turn := rfl
@[simp] theorem setCache_seats_sgrdSel (l : List CacheEntry) : (p.setCache l).seats.sgrdSel = p.seats.sgrdSel := rfl
@[simp] theorem setCache_seats_sgrdLast (l : List CacheEntry) : (p.setCache l).seats.sgrdLast = p.seats.sgrdLast := rfl
@[simp] theorem setCache_seats_appNotices (l : List CacheEntry) : (p.setCache l).seats.appNotices = p.seats.appNotices := rfl
@[simp] theorem setCache_seats_cache (l : List CacheEntry) : (p.setCache l).seats.cache = l := rfl

/-! ### setSram -/

@[simp] theorem setSram_fuses (m : List Host.Cell) : (p.setSram m).fuses = p.fuses := rfl
@[simp] theorem setSram_now (m : List Host.Cell) : (p.setSram m).now = p.now := rfl
@[simp] theorem setSram_draws (m : List Host.Cell) : (p.setSram m).draws = p.draws := rfl
@[simp] theorem setSram_power (m : List Host.Cell) : (p.setSram m).power = p.power := rfl
@[simp] theorem setSram_deal (m : List Host.Cell) : (p.setSram m).deal = p.deal := rfl
@[simp] theorem setSram_hpa (m : List Host.Cell) : (p.setSram m).hpa = p.hpa := rfl
@[simp] theorem setSram_hpb (m : List Host.Cell) : (p.setSram m).hpb = p.hpb := rfl
@[simp] theorem setSram_ha0 (m : List Host.Cell) : (p.setSram m).ha0 = p.ha0 := rfl
@[simp] theorem setSram_ha1 (m : List Host.Cell) : (p.setSram m).ha1 = p.ha1 := rfl
@[simp] theorem setSram_hb0 (m : List Host.Cell) : (p.setSram m).hb0 = p.hb0 := rfl
@[simp] theorem setSram_hb1 (m : List Host.Cell) : (p.setSram m).hb1 = p.hb1 := rfl
@[simp] theorem setSram_xct (m : List Host.Cell) : (p.setSram m).xct = p.xct := rfl
@[simp] theorem setSram_disp (m : List Host.Cell) : (p.setSram m).disp = p.disp := rfl
@[simp] theorem setSram_vault (m : List Host.Cell) : (p.setSram m).vault = p.vault := rfl
@[simp] theorem setSram_lats (m : List Host.Cell) : (p.setSram m).lats = p.lats := rfl
@[simp] theorem setSram_trngs (m : List Host.Cell) : (p.setSram m).trngs = p.trngs := rfl
@[simp] theorem setSram_guard (m : List Host.Cell) : (p.setSram m).guard = p.guard := rfl
@[simp] theorem setSram_part (m : List Host.Cell) : (p.setSram m).part = p.part := rfl
@[simp] theorem setSram_evr (m : List Host.Cell) : (p.setSram m).evr = p.evr := rfl
@[simp] theorem setSram_cera (m : List Host.Cell) : (p.setSram m).cera = p.cera := rfl
@[simp] theorem setSram_cerb (m : List Host.Cell) : (p.setSram m).cerb = p.cerb := rfl
@[simp] theorem setSram_cerNext (m : List Host.Cell) : (p.setSram m).cerNext = p.cerNext := rfl
@[simp] theorem setSram_registry (m : List Host.Cell) : (p.setSram m).registry = p.registry := rfl
@[simp] theorem setSram_idCert (m : List Host.Cell) : (p.setSram m).idCert = p.idCert := rfl
@[simp] theorem setSram_joker (m : List Host.Cell) : (p.setSram m).joker = p.joker := rfl
@[simp] theorem setSram_shuffle (m : List Host.Cell) : (p.setSram m).shuffle = p.shuffle := rfl
@[simp] theorem setSram_counts (m : List Host.Cell) : (p.setSram m).counts = p.counts := rfl
@[simp] theorem setSram_latches (m : List Host.Cell) : (p.setSram m).latches = p.latches := rfl
@[simp] theorem setSram_saturated (m : List Host.Cell) : (p.setSram m).saturated = p.saturated := rfl
@[simp] theorem setSram_ppAssocs (m : List Host.Cell) : (p.setSram m).ppAssocs = p.ppAssocs := rfl
@[simp] theorem setSram_tx (m : List Host.Cell) : (p.setSram m).tx = p.tx := rfl
@[simp] theorem setSram_ipTx (m : List Host.Cell) : (p.setSram m).ipTx = p.ipTx := rfl
@[simp] theorem setSram_ptx (m : List Host.Cell) : (p.setSram m).ptx = p.ptx := rfl
@[simp] theorem setSram_seats_seats (m : List Host.Cell) : (p.setSram m).seats.seats = p.seats.seats := rfl
@[simp] theorem setSram_seats_tiles (m : List Host.Cell) : (p.setSram m).seats.tiles = p.seats.tiles := rfl
@[simp] theorem setSram_seats_tus (m : List Host.Cell) : (p.setSram m).seats.tus = p.seats.tus := rfl
@[simp] theorem setSram_seats_lanes (m : List Host.Cell) : (p.setSram m).seats.lanes = p.seats.lanes := rfl
@[simp] theorem setSram_seats_pkes (m : List Host.Cell) : (p.setSram m).seats.pkes = p.seats.pkes := rfl
@[simp] theorem setSram_seats_dgsts (m : List Host.Cell) : (p.setSram m).seats.dgsts = p.seats.dgsts := rfl
@[simp] theorem setSram_seats_cores (m : List Host.Cell) : (p.setSram m).seats.cores = p.seats.cores := rfl
@[simp] theorem setSram_seats_cache (m : List Host.Cell) : (p.setSram m).seats.cache = p.seats.cache := rfl
@[simp] theorem setSram_seats_fetching (m : List Host.Cell) : (p.setSram m).seats.fetching = p.seats.fetching := rfl
@[simp] theorem setSram_seats_turn (m : List Host.Cell) : (p.setSram m).seats.turn = p.seats.turn := rfl
@[simp] theorem setSram_seats_sgrdSel (m : List Host.Cell) : (p.setSram m).seats.sgrdSel = p.seats.sgrdSel := rfl
@[simp] theorem setSram_seats_sgrdLast (m : List Host.Cell) : (p.setSram m).seats.sgrdLast = p.seats.sgrdLast := rfl
@[simp] theorem setSram_seats_appNotices (m : List Host.Cell) : (p.setSram m).seats.appNotices = p.seats.appNotices := rfl
@[simp] theorem setSram_seats_sram (m : List Host.Cell) : (p.setSram m).seats.sram = m := rfl

/-! ### setSlot -/

@[simp] theorem setSlot_fuses (i : Nat) (x : Slot) : (p.setSlot i x).fuses = p.fuses := rfl
@[simp] theorem setSlot_now (i : Nat) (x : Slot) : (p.setSlot i x).now = p.now := rfl
@[simp] theorem setSlot_draws (i : Nat) (x : Slot) : (p.setSlot i x).draws = p.draws := rfl
@[simp] theorem setSlot_power (i : Nat) (x : Slot) : (p.setSlot i x).power = p.power := rfl
@[simp] theorem setSlot_deal (i : Nat) (x : Slot) : (p.setSlot i x).deal = p.deal := rfl
@[simp] theorem setSlot_hpa (i : Nat) (x : Slot) : (p.setSlot i x).hpa = p.hpa := rfl
@[simp] theorem setSlot_hpb (i : Nat) (x : Slot) : (p.setSlot i x).hpb = p.hpb := rfl
@[simp] theorem setSlot_ha0 (i : Nat) (x : Slot) : (p.setSlot i x).ha0 = p.ha0 := rfl
@[simp] theorem setSlot_ha1 (i : Nat) (x : Slot) : (p.setSlot i x).ha1 = p.ha1 := rfl
@[simp] theorem setSlot_hb0 (i : Nat) (x : Slot) : (p.setSlot i x).hb0 = p.hb0 := rfl
@[simp] theorem setSlot_hb1 (i : Nat) (x : Slot) : (p.setSlot i x).hb1 = p.hb1 := rfl
@[simp] theorem setSlot_xct (i : Nat) (x : Slot) : (p.setSlot i x).xct = p.xct := rfl
@[simp] theorem setSlot_disp (i : Nat) (x : Slot) : (p.setSlot i x).disp = p.disp := rfl
@[simp] theorem setSlot_seats (i : Nat) (x : Slot) : (p.setSlot i x).seats = p.seats := rfl
@[simp] theorem setSlot_lats (i : Nat) (x : Slot) : (p.setSlot i x).lats = p.lats := rfl
@[simp] theorem setSlot_trngs (i : Nat) (x : Slot) : (p.setSlot i x).trngs = p.trngs := rfl
@[simp] theorem setSlot_guard (i : Nat) (x : Slot) : (p.setSlot i x).guard = p.guard := rfl
@[simp] theorem setSlot_part (i : Nat) (x : Slot) : (p.setSlot i x).part = p.part := rfl
@[simp] theorem setSlot_evr (i : Nat) (x : Slot) : (p.setSlot i x).evr = p.evr := rfl
@[simp] theorem setSlot_cera (i : Nat) (x : Slot) : (p.setSlot i x).cera = p.cera := rfl
@[simp] theorem setSlot_cerb (i : Nat) (x : Slot) : (p.setSlot i x).cerb = p.cerb := rfl
@[simp] theorem setSlot_cerNext (i : Nat) (x : Slot) : (p.setSlot i x).cerNext = p.cerNext := rfl
@[simp] theorem setSlot_registry (i : Nat) (x : Slot) : (p.setSlot i x).registry = p.registry := rfl
@[simp] theorem setSlot_idCert (i : Nat) (x : Slot) : (p.setSlot i x).idCert = p.idCert := rfl
@[simp] theorem setSlot_joker (i : Nat) (x : Slot) : (p.setSlot i x).joker = p.joker := rfl
@[simp] theorem setSlot_shuffle (i : Nat) (x : Slot) : (p.setSlot i x).shuffle = p.shuffle := rfl
@[simp] theorem setSlot_counts (i : Nat) (x : Slot) : (p.setSlot i x).counts = p.counts := rfl
@[simp] theorem setSlot_latches (i : Nat) (x : Slot) : (p.setSlot i x).latches = p.latches := rfl
@[simp] theorem setSlot_saturated (i : Nat) (x : Slot) : (p.setSlot i x).saturated = p.saturated := rfl
@[simp] theorem setSlot_ppAssocs (i : Nat) (x : Slot) : (p.setSlot i x).ppAssocs = p.ppAssocs := rfl
@[simp] theorem setSlot_tx (i : Nat) (x : Slot) : (p.setSlot i x).tx = p.tx := rfl
@[simp] theorem setSlot_ipTx (i : Nat) (x : Slot) : (p.setSlot i x).ipTx = p.ipTx := rfl
@[simp] theorem setSlot_ptx (i : Nat) (x : Slot) : (p.setSlot i x).ptx = p.ptx := rfl
@[simp] theorem setSlot_vault_st (i : Nat) (x : Slot) : (p.setSlot i x).vault.st = p.vault.st := rfl
@[simp] theorem setSlot_vault_incarnation (i : Nat) (x : Slot) : (p.setSlot i x).vault.incarnation = p.vault.incarnation := rfl
@[simp] theorem setSlot_vault_torn (i : Nat) (x : Slot) : (p.setSlot i x).vault.torn = p.vault.torn := rfl
@[simp] theorem setSlot_vault_ctrs (i : Nat) (x : Slot) : (p.setSlot i x).vault.ctrs = p.vault.ctrs := rfl
@[simp] theorem setSlot_vault_app (i : Nat) (x : Slot) : (p.setSlot i x).vault.app = p.vault.app := rfl
@[simp] theorem setSlot_vault_ctxs (i : Nat) (x : Slot) : (p.setSlot i x).vault.ctxs = p.vault.ctxs := rfl
@[simp] theorem setSlot_vault_poisoned (i : Nat) (x : Slot) : (p.setSlot i x).vault.poisoned = p.vault.poisoned := rfl
@[simp] theorem setSlot_vault_minors (i : Nat) (x : Slot) : (p.setSlot i x).vault.minors = p.vault.minors := rfl
@[simp] theorem setSlot_vault_majors (i : Nat) (x : Slot) : (p.setSlot i x).vault.majors = p.vault.majors := rfl
@[simp] theorem setSlot_vault_sweeps (i : Nat) (x : Slot) : (p.setSlot i x).vault.sweeps = p.vault.sweeps := rfl
@[simp] theorem setSlot_vault_swept (i : Nat) (x : Slot) : (p.setSlot i x).vault.swept = p.vault.swept := rfl
@[simp] theorem setSlot_vault_lineKey (i : Nat) (x : Slot) : (p.setSlot i x).vault.lineKey = p.vault.lineKey := rfl
@[simp] theorem setSlot_vault_macKey (i : Nat) (x : Slot) : (p.setSlot i x).vault.macKey = p.vault.macKey := rfl
@[simp] theorem setSlot_vault_reenc (i : Nat) (x : Slot) : (p.setSlot i x).vault.reenc = p.vault.reenc := rfl
@[simp] theorem setSlot_vault_leases (i : Nat) (x : Slot) : (p.setSlot i x).vault.leases = p.vault.leases := rfl
@[simp] theorem setSlot_vault_muts (i : Nat) (x : Slot) : (p.setSlot i x).vault.muts = p.vault.muts := rfl
@[simp] theorem setSlot_vault_nextMut (i : Nat) (x : Slot) : (p.setSlot i x).vault.nextMut = p.vault.nextMut := rfl
@[simp] theorem setSlot_vault_journal (i : Nat) (x : Slot) : (p.setSlot i x).vault.journal = p.vault.journal := rfl
@[simp] theorem setSlot_vault_deckVer (i : Nat) (x : Slot) : (p.setSlot i x).vault.deckVer = p.vault.deckVer := rfl
@[simp] theorem setSlot_vault_deckStart (i : Nat) (x : Slot) : (p.setSlot i x).vault.deckStart = p.vault.deckStart := rfl
@[simp] theorem setSlot_vault_deckEnd (i : Nat) (x : Slot) : (p.setSlot i x).vault.deckEnd = p.vault.deckEnd := rfl
@[simp] theorem setSlot_vault_snapshot (i : Nat) (x : Slot) : (p.setSlot i x).vault.snapshot = p.vault.snapshot := rfl
@[simp] theorem setSlot_vault_completed (i : Nat) (x : Slot) : (p.setSlot i x).vault.completed = p.vault.completed := rfl
@[simp] theorem setSlot_vault_deckLoaded (i : Nat) (x : Slot) : (p.setSlot i x).vault.deckLoaded = p.vault.deckLoaded := rfl
@[simp] theorem setSlot_vault_replayNext (i : Nat) (x : Slot) : (p.setSlot i x).vault.replayNext = p.vault.replayNext := rfl
@[simp] theorem setSlot_vault_replayOf (i : Nat) (x : Slot) : (p.setSlot i x).vault.replayOf = p.vault.replayOf := rfl
@[simp] theorem setSlot_vault_replaySolo (i : Nat) (x : Slot) : (p.setSlot i x).vault.replaySolo = p.vault.replaySolo := rfl
@[simp] theorem setSlot_vault_ktk (i : Nat) (x : Slot) : (p.setSlot i x).vault.ktk = p.vault.ktk := rfl
@[simp] theorem setSlot_vault_root (i : Nat) (x : Slot) : (p.setSlot i x).vault.root = p.vault.root := rfl
@[simp] theorem setSlot_vault_rootTag (i : Nat) (x : Slot) : (p.setSlot i x).vault.rootTag = p.vault.rootTag := rfl
@[simp] theorem setSlot_vault_offErase (i : Nat) (x : Slot) : (p.setSlot i x).vault.offErase = p.vault.offErase := rfl
@[simp] theorem setSlot_vault_leaseWaits (i : Nat) (x : Slot) : (p.setSlot i x).vault.leaseWaits = p.vault.leaseWaits := rfl
@[simp] theorem setSlot_vault_slots (i : Nat) (x : Slot) : (p.setSlot i x).vault.slots = Sparse.put p.vault.slots i x := rfl

/-! ### setCtr -/

@[simp] theorem setCtr_fuses (i : Nat) (x : Counter) : (p.setCtr i x).fuses = p.fuses := rfl
@[simp] theorem setCtr_now (i : Nat) (x : Counter) : (p.setCtr i x).now = p.now := rfl
@[simp] theorem setCtr_draws (i : Nat) (x : Counter) : (p.setCtr i x).draws = p.draws := rfl
@[simp] theorem setCtr_power (i : Nat) (x : Counter) : (p.setCtr i x).power = p.power := rfl
@[simp] theorem setCtr_deal (i : Nat) (x : Counter) : (p.setCtr i x).deal = p.deal := rfl
@[simp] theorem setCtr_hpa (i : Nat) (x : Counter) : (p.setCtr i x).hpa = p.hpa := rfl
@[simp] theorem setCtr_hpb (i : Nat) (x : Counter) : (p.setCtr i x).hpb = p.hpb := rfl
@[simp] theorem setCtr_ha0 (i : Nat) (x : Counter) : (p.setCtr i x).ha0 = p.ha0 := rfl
@[simp] theorem setCtr_ha1 (i : Nat) (x : Counter) : (p.setCtr i x).ha1 = p.ha1 := rfl
@[simp] theorem setCtr_hb0 (i : Nat) (x : Counter) : (p.setCtr i x).hb0 = p.hb0 := rfl
@[simp] theorem setCtr_hb1 (i : Nat) (x : Counter) : (p.setCtr i x).hb1 = p.hb1 := rfl
@[simp] theorem setCtr_xct (i : Nat) (x : Counter) : (p.setCtr i x).xct = p.xct := rfl
@[simp] theorem setCtr_disp (i : Nat) (x : Counter) : (p.setCtr i x).disp = p.disp := rfl
@[simp] theorem setCtr_seats (i : Nat) (x : Counter) : (p.setCtr i x).seats = p.seats := rfl
@[simp] theorem setCtr_lats (i : Nat) (x : Counter) : (p.setCtr i x).lats = p.lats := rfl
@[simp] theorem setCtr_trngs (i : Nat) (x : Counter) : (p.setCtr i x).trngs = p.trngs := rfl
@[simp] theorem setCtr_guard (i : Nat) (x : Counter) : (p.setCtr i x).guard = p.guard := rfl
@[simp] theorem setCtr_part (i : Nat) (x : Counter) : (p.setCtr i x).part = p.part := rfl
@[simp] theorem setCtr_evr (i : Nat) (x : Counter) : (p.setCtr i x).evr = p.evr := rfl
@[simp] theorem setCtr_cera (i : Nat) (x : Counter) : (p.setCtr i x).cera = p.cera := rfl
@[simp] theorem setCtr_cerb (i : Nat) (x : Counter) : (p.setCtr i x).cerb = p.cerb := rfl
@[simp] theorem setCtr_cerNext (i : Nat) (x : Counter) : (p.setCtr i x).cerNext = p.cerNext := rfl
@[simp] theorem setCtr_registry (i : Nat) (x : Counter) : (p.setCtr i x).registry = p.registry := rfl
@[simp] theorem setCtr_idCert (i : Nat) (x : Counter) : (p.setCtr i x).idCert = p.idCert := rfl
@[simp] theorem setCtr_joker (i : Nat) (x : Counter) : (p.setCtr i x).joker = p.joker := rfl
@[simp] theorem setCtr_shuffle (i : Nat) (x : Counter) : (p.setCtr i x).shuffle = p.shuffle := rfl
@[simp] theorem setCtr_counts (i : Nat) (x : Counter) : (p.setCtr i x).counts = p.counts := rfl
@[simp] theorem setCtr_latches (i : Nat) (x : Counter) : (p.setCtr i x).latches = p.latches := rfl
@[simp] theorem setCtr_saturated (i : Nat) (x : Counter) : (p.setCtr i x).saturated = p.saturated := rfl
@[simp] theorem setCtr_ppAssocs (i : Nat) (x : Counter) : (p.setCtr i x).ppAssocs = p.ppAssocs := rfl
@[simp] theorem setCtr_tx (i : Nat) (x : Counter) : (p.setCtr i x).tx = p.tx := rfl
@[simp] theorem setCtr_ipTx (i : Nat) (x : Counter) : (p.setCtr i x).ipTx = p.ipTx := rfl
@[simp] theorem setCtr_ptx (i : Nat) (x : Counter) : (p.setCtr i x).ptx = p.ptx := rfl
@[simp] theorem setCtr_vault_st (i : Nat) (x : Counter) : (p.setCtr i x).vault.st = p.vault.st := rfl
@[simp] theorem setCtr_vault_incarnation (i : Nat) (x : Counter) : (p.setCtr i x).vault.incarnation = p.vault.incarnation := rfl
@[simp] theorem setCtr_vault_slots (i : Nat) (x : Counter) : (p.setCtr i x).vault.slots = p.vault.slots := rfl
@[simp] theorem setCtr_vault_torn (i : Nat) (x : Counter) : (p.setCtr i x).vault.torn = p.vault.torn := rfl
@[simp] theorem setCtr_vault_app (i : Nat) (x : Counter) : (p.setCtr i x).vault.app = p.vault.app := rfl
@[simp] theorem setCtr_vault_ctxs (i : Nat) (x : Counter) : (p.setCtr i x).vault.ctxs = p.vault.ctxs := rfl
@[simp] theorem setCtr_vault_poisoned (i : Nat) (x : Counter) : (p.setCtr i x).vault.poisoned = p.vault.poisoned := rfl
@[simp] theorem setCtr_vault_minors (i : Nat) (x : Counter) : (p.setCtr i x).vault.minors = p.vault.minors := rfl
@[simp] theorem setCtr_vault_majors (i : Nat) (x : Counter) : (p.setCtr i x).vault.majors = p.vault.majors := rfl
@[simp] theorem setCtr_vault_sweeps (i : Nat) (x : Counter) : (p.setCtr i x).vault.sweeps = p.vault.sweeps := rfl
@[simp] theorem setCtr_vault_swept (i : Nat) (x : Counter) : (p.setCtr i x).vault.swept = p.vault.swept := rfl
@[simp] theorem setCtr_vault_lineKey (i : Nat) (x : Counter) : (p.setCtr i x).vault.lineKey = p.vault.lineKey := rfl
@[simp] theorem setCtr_vault_macKey (i : Nat) (x : Counter) : (p.setCtr i x).vault.macKey = p.vault.macKey := rfl
@[simp] theorem setCtr_vault_reenc (i : Nat) (x : Counter) : (p.setCtr i x).vault.reenc = p.vault.reenc := rfl
@[simp] theorem setCtr_vault_leases (i : Nat) (x : Counter) : (p.setCtr i x).vault.leases = p.vault.leases := rfl
@[simp] theorem setCtr_vault_muts (i : Nat) (x : Counter) : (p.setCtr i x).vault.muts = p.vault.muts := rfl
@[simp] theorem setCtr_vault_nextMut (i : Nat) (x : Counter) : (p.setCtr i x).vault.nextMut = p.vault.nextMut := rfl
@[simp] theorem setCtr_vault_journal (i : Nat) (x : Counter) : (p.setCtr i x).vault.journal = p.vault.journal := rfl
@[simp] theorem setCtr_vault_deckVer (i : Nat) (x : Counter) : (p.setCtr i x).vault.deckVer = p.vault.deckVer := rfl
@[simp] theorem setCtr_vault_deckStart (i : Nat) (x : Counter) : (p.setCtr i x).vault.deckStart = p.vault.deckStart := rfl
@[simp] theorem setCtr_vault_deckEnd (i : Nat) (x : Counter) : (p.setCtr i x).vault.deckEnd = p.vault.deckEnd := rfl
@[simp] theorem setCtr_vault_snapshot (i : Nat) (x : Counter) : (p.setCtr i x).vault.snapshot = p.vault.snapshot := rfl
@[simp] theorem setCtr_vault_completed (i : Nat) (x : Counter) : (p.setCtr i x).vault.completed = p.vault.completed := rfl
@[simp] theorem setCtr_vault_deckLoaded (i : Nat) (x : Counter) : (p.setCtr i x).vault.deckLoaded = p.vault.deckLoaded := rfl
@[simp] theorem setCtr_vault_replayNext (i : Nat) (x : Counter) : (p.setCtr i x).vault.replayNext = p.vault.replayNext := rfl
@[simp] theorem setCtr_vault_replayOf (i : Nat) (x : Counter) : (p.setCtr i x).vault.replayOf = p.vault.replayOf := rfl
@[simp] theorem setCtr_vault_replaySolo (i : Nat) (x : Counter) : (p.setCtr i x).vault.replaySolo = p.vault.replaySolo := rfl
@[simp] theorem setCtr_vault_ktk (i : Nat) (x : Counter) : (p.setCtr i x).vault.ktk = p.vault.ktk := rfl
@[simp] theorem setCtr_vault_root (i : Nat) (x : Counter) : (p.setCtr i x).vault.root = p.vault.root := rfl
@[simp] theorem setCtr_vault_rootTag (i : Nat) (x : Counter) : (p.setCtr i x).vault.rootTag = p.vault.rootTag := rfl
@[simp] theorem setCtr_vault_offErase (i : Nat) (x : Counter) : (p.setCtr i x).vault.offErase = p.vault.offErase := rfl
@[simp] theorem setCtr_vault_leaseWaits (i : Nat) (x : Counter) : (p.setCtr i x).vault.leaseWaits = p.vault.leaseWaits := rfl
@[simp] theorem setCtr_vault_ctrs (i : Nat) (x : Counter) : (p.setCtr i x).vault.ctrs = Sparse.set {} p.vault.ctrs i x := rfl

/-! ### setCtx -/

@[simp] theorem setCtx_fuses (k : Nat) (c : Ctx) : (p.setCtx k c).fuses = p.fuses := rfl
@[simp] theorem setCtx_now (k : Nat) (c : Ctx) : (p.setCtx k c).now = p.now := rfl
@[simp] theorem setCtx_draws (k : Nat) (c : Ctx) : (p.setCtx k c).draws = p.draws := rfl
@[simp] theorem setCtx_power (k : Nat) (c : Ctx) : (p.setCtx k c).power = p.power := rfl
@[simp] theorem setCtx_deal (k : Nat) (c : Ctx) : (p.setCtx k c).deal = p.deal := rfl
@[simp] theorem setCtx_hpa (k : Nat) (c : Ctx) : (p.setCtx k c).hpa = p.hpa := rfl
@[simp] theorem setCtx_hpb (k : Nat) (c : Ctx) : (p.setCtx k c).hpb = p.hpb := rfl
@[simp] theorem setCtx_ha0 (k : Nat) (c : Ctx) : (p.setCtx k c).ha0 = p.ha0 := rfl
@[simp] theorem setCtx_ha1 (k : Nat) (c : Ctx) : (p.setCtx k c).ha1 = p.ha1 := rfl
@[simp] theorem setCtx_hb0 (k : Nat) (c : Ctx) : (p.setCtx k c).hb0 = p.hb0 := rfl
@[simp] theorem setCtx_hb1 (k : Nat) (c : Ctx) : (p.setCtx k c).hb1 = p.hb1 := rfl
@[simp] theorem setCtx_xct (k : Nat) (c : Ctx) : (p.setCtx k c).xct = p.xct := rfl
@[simp] theorem setCtx_disp (k : Nat) (c : Ctx) : (p.setCtx k c).disp = p.disp := rfl
@[simp] theorem setCtx_seats (k : Nat) (c : Ctx) : (p.setCtx k c).seats = p.seats := rfl
@[simp] theorem setCtx_lats (k : Nat) (c : Ctx) : (p.setCtx k c).lats = p.lats := rfl
@[simp] theorem setCtx_trngs (k : Nat) (c : Ctx) : (p.setCtx k c).trngs = p.trngs := rfl
@[simp] theorem setCtx_guard (k : Nat) (c : Ctx) : (p.setCtx k c).guard = p.guard := rfl
@[simp] theorem setCtx_part (k : Nat) (c : Ctx) : (p.setCtx k c).part = p.part := rfl
@[simp] theorem setCtx_evr (k : Nat) (c : Ctx) : (p.setCtx k c).evr = p.evr := rfl
@[simp] theorem setCtx_cera (k : Nat) (c : Ctx) : (p.setCtx k c).cera = p.cera := rfl
@[simp] theorem setCtx_cerb (k : Nat) (c : Ctx) : (p.setCtx k c).cerb = p.cerb := rfl
@[simp] theorem setCtx_cerNext (k : Nat) (c : Ctx) : (p.setCtx k c).cerNext = p.cerNext := rfl
@[simp] theorem setCtx_registry (k : Nat) (c : Ctx) : (p.setCtx k c).registry = p.registry := rfl
@[simp] theorem setCtx_idCert (k : Nat) (c : Ctx) : (p.setCtx k c).idCert = p.idCert := rfl
@[simp] theorem setCtx_joker (k : Nat) (c : Ctx) : (p.setCtx k c).joker = p.joker := rfl
@[simp] theorem setCtx_shuffle (k : Nat) (c : Ctx) : (p.setCtx k c).shuffle = p.shuffle := rfl
@[simp] theorem setCtx_counts (k : Nat) (c : Ctx) : (p.setCtx k c).counts = p.counts := rfl
@[simp] theorem setCtx_latches (k : Nat) (c : Ctx) : (p.setCtx k c).latches = p.latches := rfl
@[simp] theorem setCtx_saturated (k : Nat) (c : Ctx) : (p.setCtx k c).saturated = p.saturated := rfl
@[simp] theorem setCtx_ppAssocs (k : Nat) (c : Ctx) : (p.setCtx k c).ppAssocs = p.ppAssocs := rfl
@[simp] theorem setCtx_tx (k : Nat) (c : Ctx) : (p.setCtx k c).tx = p.tx := rfl
@[simp] theorem setCtx_ipTx (k : Nat) (c : Ctx) : (p.setCtx k c).ipTx = p.ipTx := rfl
@[simp] theorem setCtx_ptx (k : Nat) (c : Ctx) : (p.setCtx k c).ptx = p.ptx := rfl
@[simp] theorem setCtx_vault_st (k : Nat) (c : Ctx) : (p.setCtx k c).vault.st = p.vault.st := rfl
@[simp] theorem setCtx_vault_incarnation (k : Nat) (c : Ctx) : (p.setCtx k c).vault.incarnation = p.vault.incarnation := rfl
@[simp] theorem setCtx_vault_slots (k : Nat) (c : Ctx) : (p.setCtx k c).vault.slots = p.vault.slots := rfl
@[simp] theorem setCtx_vault_torn (k : Nat) (c : Ctx) : (p.setCtx k c).vault.torn = p.vault.torn := rfl
@[simp] theorem setCtx_vault_ctrs (k : Nat) (c : Ctx) : (p.setCtx k c).vault.ctrs = p.vault.ctrs := rfl
@[simp] theorem setCtx_vault_app (k : Nat) (c : Ctx) : (p.setCtx k c).vault.app = p.vault.app := rfl
@[simp] theorem setCtx_vault_poisoned (k : Nat) (c : Ctx) : (p.setCtx k c).vault.poisoned = p.vault.poisoned := rfl
@[simp] theorem setCtx_vault_minors (k : Nat) (c : Ctx) : (p.setCtx k c).vault.minors = p.vault.minors := rfl
@[simp] theorem setCtx_vault_majors (k : Nat) (c : Ctx) : (p.setCtx k c).vault.majors = p.vault.majors := rfl
@[simp] theorem setCtx_vault_sweeps (k : Nat) (c : Ctx) : (p.setCtx k c).vault.sweeps = p.vault.sweeps := rfl
@[simp] theorem setCtx_vault_swept (k : Nat) (c : Ctx) : (p.setCtx k c).vault.swept = p.vault.swept := rfl
@[simp] theorem setCtx_vault_lineKey (k : Nat) (c : Ctx) : (p.setCtx k c).vault.lineKey = p.vault.lineKey := rfl
@[simp] theorem setCtx_vault_macKey (k : Nat) (c : Ctx) : (p.setCtx k c).vault.macKey = p.vault.macKey := rfl
@[simp] theorem setCtx_vault_reenc (k : Nat) (c : Ctx) : (p.setCtx k c).vault.reenc = p.vault.reenc := rfl
@[simp] theorem setCtx_vault_leases (k : Nat) (c : Ctx) : (p.setCtx k c).vault.leases = p.vault.leases := rfl
@[simp] theorem setCtx_vault_muts (k : Nat) (c : Ctx) : (p.setCtx k c).vault.muts = p.vault.muts := rfl
@[simp] theorem setCtx_vault_nextMut (k : Nat) (c : Ctx) : (p.setCtx k c).vault.nextMut = p.vault.nextMut := rfl
@[simp] theorem setCtx_vault_journal (k : Nat) (c : Ctx) : (p.setCtx k c).vault.journal = p.vault.journal := rfl
@[simp] theorem setCtx_vault_deckVer (k : Nat) (c : Ctx) : (p.setCtx k c).vault.deckVer = p.vault.deckVer := rfl
@[simp] theorem setCtx_vault_deckStart (k : Nat) (c : Ctx) : (p.setCtx k c).vault.deckStart = p.vault.deckStart := rfl
@[simp] theorem setCtx_vault_deckEnd (k : Nat) (c : Ctx) : (p.setCtx k c).vault.deckEnd = p.vault.deckEnd := rfl
@[simp] theorem setCtx_vault_snapshot (k : Nat) (c : Ctx) : (p.setCtx k c).vault.snapshot = p.vault.snapshot := rfl
@[simp] theorem setCtx_vault_completed (k : Nat) (c : Ctx) : (p.setCtx k c).vault.completed = p.vault.completed := rfl
@[simp] theorem setCtx_vault_deckLoaded (k : Nat) (c : Ctx) : (p.setCtx k c).vault.deckLoaded = p.vault.deckLoaded := rfl
@[simp] theorem setCtx_vault_replayNext (k : Nat) (c : Ctx) : (p.setCtx k c).vault.replayNext = p.vault.replayNext := rfl
@[simp] theorem setCtx_vault_replayOf (k : Nat) (c : Ctx) : (p.setCtx k c).vault.replayOf = p.vault.replayOf := rfl
@[simp] theorem setCtx_vault_replaySolo (k : Nat) (c : Ctx) : (p.setCtx k c).vault.replaySolo = p.vault.replaySolo := rfl
@[simp] theorem setCtx_vault_ktk (k : Nat) (c : Ctx) : (p.setCtx k c).vault.ktk = p.vault.ktk := rfl
@[simp] theorem setCtx_vault_root (k : Nat) (c : Ctx) : (p.setCtx k c).vault.root = p.vault.root := rfl
@[simp] theorem setCtx_vault_rootTag (k : Nat) (c : Ctx) : (p.setCtx k c).vault.rootTag = p.vault.rootTag := rfl
@[simp] theorem setCtx_vault_offErase (k : Nat) (c : Ctx) : (p.setCtx k c).vault.offErase = p.vault.offErase := rfl
@[simp] theorem setCtx_vault_leaseWaits (k : Nat) (c : Ctx) : (p.setCtx k c).vault.leaseWaits = p.vault.leaseWaits := rfl
@[simp] theorem setCtx_vault_ctxs (k : Nat) (c : Ctx) : (p.setCtx k c).vault.ctxs = Sparse.set {} p.vault.ctxs k c := rfl

/-! ### setHalf -/

@[simp] theorem setHalf_fuses (h : Half) (x : HalfSt) : (p.setHalf h x).fuses = p.fuses := by cases h <;> rfl
@[simp] theorem setHalf_now (h : Half) (x : HalfSt) : (p.setHalf h x).now = p.now := by cases h <;> rfl
@[simp] theorem setHalf_draws (h : Half) (x : HalfSt) : (p.setHalf h x).draws = p.draws := by cases h <;> rfl
@[simp] theorem setHalf_power (h : Half) (x : HalfSt) : (p.setHalf h x).power = p.power := by cases h <;> rfl
@[simp] theorem setHalf_deal (h : Half) (x : HalfSt) : (p.setHalf h x).deal = p.deal := by cases h <;> rfl
@[simp] theorem setHalf_hpa (h : Half) (x : HalfSt) : (p.setHalf h x).hpa = p.hpa := by cases h <;> rfl
@[simp] theorem setHalf_hpb (h : Half) (x : HalfSt) : (p.setHalf h x).hpb = p.hpb := by cases h <;> rfl
@[simp] theorem setHalf_xct (h : Half) (x : HalfSt) : (p.setHalf h x).xct = p.xct := by cases h <;> rfl
@[simp] theorem setHalf_disp (h : Half) (x : HalfSt) : (p.setHalf h x).disp = p.disp := by cases h <;> rfl
@[simp] theorem setHalf_vault (h : Half) (x : HalfSt) : (p.setHalf h x).vault = p.vault := by cases h <;> rfl
@[simp] theorem setHalf_seats (h : Half) (x : HalfSt) : (p.setHalf h x).seats = p.seats := by cases h <;> rfl
@[simp] theorem setHalf_lats (h : Half) (x : HalfSt) : (p.setHalf h x).lats = p.lats := by cases h <;> rfl
@[simp] theorem setHalf_trngs (h : Half) (x : HalfSt) : (p.setHalf h x).trngs = p.trngs := by cases h <;> rfl
@[simp] theorem setHalf_guard (h : Half) (x : HalfSt) : (p.setHalf h x).guard = p.guard := by cases h <;> rfl
@[simp] theorem setHalf_part (h : Half) (x : HalfSt) : (p.setHalf h x).part = p.part := by cases h <;> rfl
@[simp] theorem setHalf_evr (h : Half) (x : HalfSt) : (p.setHalf h x).evr = p.evr := by cases h <;> rfl
@[simp] theorem setHalf_cera (h : Half) (x : HalfSt) : (p.setHalf h x).cera = p.cera := by cases h <;> rfl
@[simp] theorem setHalf_cerb (h : Half) (x : HalfSt) : (p.setHalf h x).cerb = p.cerb := by cases h <;> rfl
@[simp] theorem setHalf_cerNext (h : Half) (x : HalfSt) : (p.setHalf h x).cerNext = p.cerNext := by cases h <;> rfl
@[simp] theorem setHalf_registry (h : Half) (x : HalfSt) : (p.setHalf h x).registry = p.registry := by cases h <;> rfl
@[simp] theorem setHalf_idCert (h : Half) (x : HalfSt) : (p.setHalf h x).idCert = p.idCert := by cases h <;> rfl
@[simp] theorem setHalf_joker (h : Half) (x : HalfSt) : (p.setHalf h x).joker = p.joker := by cases h <;> rfl
@[simp] theorem setHalf_shuffle (h : Half) (x : HalfSt) : (p.setHalf h x).shuffle = p.shuffle := by cases h <;> rfl
@[simp] theorem setHalf_counts (h : Half) (x : HalfSt) : (p.setHalf h x).counts = p.counts := by cases h <;> rfl
@[simp] theorem setHalf_latches (h : Half) (x : HalfSt) : (p.setHalf h x).latches = p.latches := by cases h <;> rfl
@[simp] theorem setHalf_saturated (h : Half) (x : HalfSt) : (p.setHalf h x).saturated = p.saturated := by cases h <;> rfl
@[simp] theorem setHalf_ppAssocs (h : Half) (x : HalfSt) : (p.setHalf h x).ppAssocs = p.ppAssocs := by cases h <;> rfl
@[simp] theorem setHalf_tx (h : Half) (x : HalfSt) : (p.setHalf h x).tx = p.tx := by cases h <;> rfl
@[simp] theorem setHalf_ipTx (h : Half) (x : HalfSt) : (p.setHalf h x).ipTx = p.ipTx := by cases h <;> rfl
@[simp] theorem setHalf_ptx (h : Half) (x : HalfSt) : (p.setHalf h x).ptx = p.ptx := by cases h <;> rfl

/-! ### setCer -/

@[simp] theorem setCer_fuses (port : Nat) (x : CerPort) : (p.setCer port x).fuses = p.fuses := by unfold setCer; split <;> rfl
@[simp] theorem setCer_now (port : Nat) (x : CerPort) : (p.setCer port x).now = p.now := by unfold setCer; split <;> rfl
@[simp] theorem setCer_draws (port : Nat) (x : CerPort) : (p.setCer port x).draws = p.draws := by unfold setCer; split <;> rfl
@[simp] theorem setCer_power (port : Nat) (x : CerPort) : (p.setCer port x).power = p.power := by unfold setCer; split <;> rfl
@[simp] theorem setCer_deal (port : Nat) (x : CerPort) : (p.setCer port x).deal = p.deal := by unfold setCer; split <;> rfl
@[simp] theorem setCer_hpa (port : Nat) (x : CerPort) : (p.setCer port x).hpa = p.hpa := by unfold setCer; split <;> rfl
@[simp] theorem setCer_hpb (port : Nat) (x : CerPort) : (p.setCer port x).hpb = p.hpb := by unfold setCer; split <;> rfl
@[simp] theorem setCer_ha0 (port : Nat) (x : CerPort) : (p.setCer port x).ha0 = p.ha0 := by unfold setCer; split <;> rfl
@[simp] theorem setCer_ha1 (port : Nat) (x : CerPort) : (p.setCer port x).ha1 = p.ha1 := by unfold setCer; split <;> rfl
@[simp] theorem setCer_hb0 (port : Nat) (x : CerPort) : (p.setCer port x).hb0 = p.hb0 := by unfold setCer; split <;> rfl
@[simp] theorem setCer_hb1 (port : Nat) (x : CerPort) : (p.setCer port x).hb1 = p.hb1 := by unfold setCer; split <;> rfl
@[simp] theorem setCer_xct (port : Nat) (x : CerPort) : (p.setCer port x).xct = p.xct := by unfold setCer; split <;> rfl
@[simp] theorem setCer_disp (port : Nat) (x : CerPort) : (p.setCer port x).disp = p.disp := by unfold setCer; split <;> rfl
@[simp] theorem setCer_vault (port : Nat) (x : CerPort) : (p.setCer port x).vault = p.vault := by unfold setCer; split <;> rfl
@[simp] theorem setCer_seats (port : Nat) (x : CerPort) : (p.setCer port x).seats = p.seats := by unfold setCer; split <;> rfl
@[simp] theorem setCer_lats (port : Nat) (x : CerPort) : (p.setCer port x).lats = p.lats := by unfold setCer; split <;> rfl
@[simp] theorem setCer_trngs (port : Nat) (x : CerPort) : (p.setCer port x).trngs = p.trngs := by unfold setCer; split <;> rfl
@[simp] theorem setCer_guard (port : Nat) (x : CerPort) : (p.setCer port x).guard = p.guard := by unfold setCer; split <;> rfl
@[simp] theorem setCer_part (port : Nat) (x : CerPort) : (p.setCer port x).part = p.part := by unfold setCer; split <;> rfl
@[simp] theorem setCer_evr (port : Nat) (x : CerPort) : (p.setCer port x).evr = p.evr := by unfold setCer; split <;> rfl
@[simp] theorem setCer_cerNext (port : Nat) (x : CerPort) : (p.setCer port x).cerNext = p.cerNext := by unfold setCer; split <;> rfl
@[simp] theorem setCer_registry (port : Nat) (x : CerPort) : (p.setCer port x).registry = p.registry := by unfold setCer; split <;> rfl
@[simp] theorem setCer_idCert (port : Nat) (x : CerPort) : (p.setCer port x).idCert = p.idCert := by unfold setCer; split <;> rfl
@[simp] theorem setCer_joker (port : Nat) (x : CerPort) : (p.setCer port x).joker = p.joker := by unfold setCer; split <;> rfl
@[simp] theorem setCer_shuffle (port : Nat) (x : CerPort) : (p.setCer port x).shuffle = p.shuffle := by unfold setCer; split <;> rfl
@[simp] theorem setCer_counts (port : Nat) (x : CerPort) : (p.setCer port x).counts = p.counts := by unfold setCer; split <;> rfl
@[simp] theorem setCer_latches (port : Nat) (x : CerPort) : (p.setCer port x).latches = p.latches := by unfold setCer; split <;> rfl
@[simp] theorem setCer_saturated (port : Nat) (x : CerPort) : (p.setCer port x).saturated = p.saturated := by unfold setCer; split <;> rfl
@[simp] theorem setCer_ppAssocs (port : Nat) (x : CerPort) : (p.setCer port x).ppAssocs = p.ppAssocs := by unfold setCer; split <;> rfl
@[simp] theorem setCer_tx (port : Nat) (x : CerPort) : (p.setCer port x).tx = p.tx := by unfold setCer; split <;> rfl
@[simp] theorem setCer_ipTx (port : Nat) (x : CerPort) : (p.setCer port x).ipTx = p.ipTx := by unfold setCer; split <;> rfl
@[simp] theorem setCer_ptx (port : Nat) (x : CerPort) : (p.setCer port x).ptx = p.ptx := by unfold setCer; split <;> rfl

@[simp] theorem setHalf_half (h : Half) (x : HalfSt) : (p.setHalf h x).half h = x := by cases h <;> rfl
theorem setHalf_other (h k : Half) (x : HalfSt) (e : k ≠ h) : (p.setHalf h x).half k = p.half k := by
  cases h <;> cases k <;> first | rfl | exact absurd rfl e
@[simp] theorem setCer_same (port : Nat) (x : CerPort) : (p.setCer port x).cerPort port = x := by
  unfold setCer cerPort; split <;> rfl

end Sys2Proof.Machine.Part
end

