-- ==== Sys2Proof/Tests/Slice0.lean ====
section
/-! SUPPORT. Small tests: ill-formed commands are refused, published and hand-computed results, and for every statement states and operands that
meet its hypotheses. -/

namespace Sys2Proof.Tests

open Sys2Proof.Machine Sys2Proof.Safety


set_option Elab.async false

/-! ### Small states -/

/-- A command's parameters: fields of the given sizes. -/
def fields (l : List (Nat × Nat)) : Bytes := l.flatMap (fun f => toBE f.1 f.2)

/-- Session 1 of the house hand and session 2 of hand 1, both open. -/
def houseSession : Session :=
  { id := 1, st := .open_, hand := 0, cert := zeros 48, sealOn := false, mgmt := true, credit := 64, window := 65536, idle := 60, swin := 64, slimit := 256 }
def handSession : Session := { houseSession with id := 2, hand := 1, mgmt := false }

/-- A registry of one custodian in which no operation needs a card. -/
def registry : Registry :=
  { deal := 0, joker := 0, promote := 0, pairing := 0, gap := 60, custodians := [{ index := 1, components := true, cardId := zeros 16, ecdsa := [], mldsa := [] }]
    fingerprint := zeros 48 }

/-- Hand 1 with slots 64 to 127, counters 64 to 127 and 64 KiB of applet data. -/
def handOne : HandEntry := { hand := 1, flags := 0, inst := 1, slotBase := 64, slotCount := 64, ctrBase := 64, ctrCount := 64, appSize := 64, appBase := 0 }

/-- Hand 1's Seats: all eight, weight 1 of every engine class. -/
def seatOne : SeatEntry := { hand := 1, mask := 0xFE, priv := false, trick := 1, lane := 1, pke := 1, digest := 1, inflight := 64 }

/-- Hand 1 may hold and use AES-256 and TDEA keys for everything. -/
def policyOne : List PolicyEntry :=
  [3, 5].map (fun t => { hand := 1, ktype := t, usages := 0xFFFF, flags := 0x3F, tdeaLimit := 20, usageLimit := 0 })

/-- An applet image of hand 1 and its Slot Guard maps: a core may read, write and run its memory, the call DMA may read and write it. -/
def imageOne : Image := { id := 9, hand := 1, code := zeros 8, data := [1, 2], zeroLen := 4, stackLen := 4096, entry := 0, budget := 1000 }
def mapsOne : List MapEntry :=
  [{ image := 9, hand := 1, master := 0, grants := 7, windows := [{ base := 0x10000, len := 0x10000, attrs := 7 }] },
   { image := 9, hand := 1, master := 1, grants := 0, windows := [{ base := 0x10000, len := 0x10000, attrs := 3 }] }]

def dealOne : Deal :=
  { serial := 1, hands := [handOne], seats := [seatOne], policy := policyOne, admission := [], maps := mapsOne, matrix := [], limits := [], routing := none
    partner := none, drill := none, registry := registry, images := [imageOne], digest := zeros 48, imageDigest := zeros 48 }

/-- The next Deal, of serial 2. -/
def dealTwo : Deal := { dealOne with serial := 2 }

/-- Keys of hand 1: AES-256 in slot 64, TDEA in slot 65, generation 1. -/
def aesKey : Slot :=
  { st := .head, hand := 1, gen := 1, ktype := 3, run := 1, usages := 0x13F, size := 32, material := (List.range 32).map (BitVec.ofNat 8) }
def tdeaKey : Slot :=
  { st := .head, hand := 1, gen := 1, ktype := 5, run := 1, usages := 0x3F, size := 24, material := (List.range 24).map (fun n => BitVec.ofNat 8 (7 * n + 1)) }

def seatUp : Seat := { st := .inService, link := 1, pll := true, power := true }

/-- The part in full service: started, dealt, the vault open, the Deal active and every Seat in service. -/
def base : State :=
  { power := { on := true, stage := 7, life := 1, fw := 1 }
    deal := { st := .idle, banks := ({ role := .active, image := zeros 64 }, { role := .mirror, image := zeros 64 }), mirror := true, active := some dealOne, recSerial := 1 }
    xct := { sessions := [houseSession, handSession] }
    vault := { st := .open_, incarnation := 1, deckLoaded := true, ktk := some (zeros 32), root := some (zeros 32), rootTag := true
               slots := [(64, aesKey), (65, tdeaKey)], journal := { sink := some (1, 9, 99) } }
    seats :=
      { seats := (List.range 7).map (fun n => (n + 1, seatUp))
        cache := [{ seat := 1, hand := 1, slot := 64, gen := 1, uses := 4096, blocks := 4096, key := aesKey },
                  { seat := 1, hand := 1, slot := 65, gen := 1, uses := 4096, blocks := 4096, key := tdeaKey }] }
    ha0 := { link := 3 }
    hpa := { msreq0 := false }
    registry := some registry
    trngs := (List.range 8).map (fun n => (n, { drbg := 1, src0 := 1, src1 := 1 })) }

/-- A command of session 1 (hand 0) or 2 (hand 1). -/
def cmd (code : Nat) (b : Bytes) (hand : Nat := 0) (place : Place := .dealer) (cls : Cls := .dealer) : Cmd :=
  { uid := 1, origin := .host (if hand = 0 then 1 else 2) 1, code := code, params := b, hand := hand, epoch := 0, cls := cls, ordered := false
    path := {}, stamp := 0, place := place }

def withCmd (s : State) (c : Cmd) : State := { s with xct := { s.xct with cmds := [c], nextUid := 2 } }

/-- The part with one Dealer command of the house hand, next to be served. -/
def serving (code : Nat) (b : Bytes) (hand : Nat := 0) : State := withCmd base (cmd code b hand)

/-- The part while the Deal of serial 2 takes over. -/
def cutting (c : Cut) : State :=
  let s := withCmd base (cmd 0x1102 [] 0 .waiting)
  { s with deal := { s.deal with st := .cutting, active := some dealTwo, olds := [(0, dealOne)], epoch := 1, cut := some c } }

/-- The part with a command of hand 1 on Seat 1, in a tile that runs. -/
def onSeat (code : Nat) (b : Bytes) (place : Place := .seatQ 1) (cls : Cls := .plain) : Cmd :=
  { cmd code b 1 place cls with seat := 1, dealSeq := 1 }

def seated (c : Cmd) (site : Site) (k : Nat) : State :=
  let s := withCmd base c
  { s with toPart := s.updTile (siteTile 1 site k) (fun x => { x with st := .running, since := 30 }) }

def job (prog : Nat) : Job := { uid := 1, prog := prog, start := 100, count := 50 }
def outcome : Outcome := { status := Status.done, payload := [1, 2, 3] }
def aesHandle : Bytes := handleBytes 1 1 64
def tdeaHandle : Bytes := handleBytes 1 1 65

def charged (r : Machine.Part.Charge) : Machine.Part := match r with
  | .ok q => q
  | _ => {}

def arrival : Arrival :=
  { half := .a0, fcsOk := true, fecFixed := 0, fecFailed := 0, secTag := true, icvOk := true, encap := .eth, csumZero := false, fragment := false
    udpPort := 0, dst := 0, vlan := none, stacked := false, wireLen := 64, srcMac := 0, src := 0, srcPort := 0, full := false }

/-- A frame of one command (03 R65). -/
def frame (code seq : Nat) (b : Bytes) : Bytes :=
  fields [(1, 1), (1, 0), (1, 32), (1, 0), (4, 1), (8, seq), (8, 1), (2, code), (2, 0), (4, b.length)] ++ b

/-- A bundle of two commands (03 R66). -/
def bundleFrame : Bytes :=
  let b := fields [(2, 2), (2, 0), (4, 0), (8, 1), (2, 0x1004), (2, 0), (4, 0), (8, 2), (2, 0x1104), (2, 0), (4, 0)]
  fields [(1, 1), (1, 0x04), (1, 32), (1, 0), (4, 1), (8, 1), (8, 0), (2, 0), (2, 0), (4, b.length)] ++ b

def notice : Notice := { source := 0, code := 0x0110, sev := 1, hand := 0, optime := 0, body := [] }
def inStream : Stream := { session := 1, id := 5, input := true, uid := 1, declared := none }
def outStream : Stream := { inStream with input := false, data := zeros 8 }

def withStream (y : Stream) : State :=
  let s := withCmd base (cmd 0x4001 [] 0 .queued)
  { s with xct := { s.xct with streams := [y] } }

/-- A Dealer command whose operand, n bytes, came by input stream 5. -/
def streamPars (n : Nat) : Bytes := fields [(4, 5), (4, 0), (8, n)]
def streaming (code : Nat) (image : Bytes) : State :=
  let s := serving code (streamPars image.length)
  { s with xct := { s.xct with streams := [{ inStream with data := image, declared := some image.length }] } }

def aReply : Reply := { session := 1, request := 3, code := 0x1004, status := Status.replayRejected, payload := [1, 0, 0, 0], path := {} }

def goCount (v : Machine.Verdict) : Nat := match v with
  | .go n _ => n
  | _ => 0

/-- Parameters of a lane command over one block (07 R188). -/
def lanePars (op : Nat) (iv : Bytes) : Bytes := aesHandle ++ zeros 8 ++ fields [(1, op), (1, 0), (2, 0), (4, 0), (4, 0), (4, 0), (8, 16), (8, 0)] ++ padTo 32 iv ++ zeros 16

def tdeaPars : Bytes := tdeaHandle ++ zeros 8 ++ fields [(4, 8), (4, 0)] ++ zeros 8
def trickDone : State :=
  let s := seated (onSeat 0x3051 [] (.engine 1 .tu 0)) .tu 0
  { s with toPart := s.setTu 1 0 (some { job 0x51 with out := some outcome }) }

/-- Lane B of Seat 1 with a seed and no command. -/
def laneOpen (code : Nat) (b : Bytes) : State :=
  let s := seated (onSeat code b) .lane 1
  { s with toPart := s.setLane 1 1 { seeded := true, seedDue := 100000 } }

def laneSeated (code : Nat) (b : Bytes) (j : LaneJob) : State :=
  let s := seated (onSeat code b (.engine 1 .lane 1)) .lane 1
  { s with toPart := s.setLane 1 1 { slots := [(11, j)], seeded := true, seedDue := 100000 } }

def laneJob (mode : Nat) : LaneJob := { uid := 1, mode := mode, chained := false, start := 100, count := 50 }

/-- LANE_XTS over one block, both keys the same. -/
def xtsPars : Bytes := aesHandle ++ aesHandle ++ fields [(1, 1), (1, 0), (2, 0), (4, 0), (4, 0), (4, 0), (8, 16), (8, 0)] ++ toBE 4 16 ++ zeros 28 ++ zeros 16
def xtsSeated : State := laneSeated 0x4005 xtsPars (laneJob 5)

/-- A saved lane context of hand 1: CBC, and a saved digest context: SHA-256. -/
def laneRecord : Bytes := [1, 2, 1, 0, 1] ++ zeros 123
def dgstRecord : Bytes := [2, 1, 0, 0, 1] ++ zeros 251

def withCtx (s : State) (r : Bytes) : State := { s with toPart := s.setCtx (Part.ctxKey 1 0) { gen := 1, used := true, data := r } }
def ticket : Bytes := toBE 1 1 ++ toBE 3 1 ++ toBE 2 1 ++ toBE 2 0

def pkeSeated (c : Cmd) (k : PkeCore) : State :=
  let s := seated c .pke 7
  { s with toPart := s.setPke 1 7 k }

/-- An Ed25519 verification under a key given in the block, of an empty message (08). -/
def verifyPars : Bytes := zeros 112
/-- An EC key generation into slot 70 (08 R225). -/
def rsaGenPars : Bytes := fields [(4, 70), (1, 0x20), (1, 8), (2, 0x50), (8, 0)]

def pkeDone : State := pkeSeated (onSeat 0x5004 verifyPars (.engine 1 .pke 7)) { bank0 := some { job 0x04 with out := some outcome } }
def keygenAt (stage candidate : Nat) (primes : List Nat) : State :=
  pkeSeated (onSeat 0x2003 rsaGenPars (.engine 1 .pke 7) .long) { bank1 := some (job 0x40), keygen := { stage := stage, candidate := candidate, primes := primes } }

def digestSeated (c : Cmd) (d : Dgst) : State :=
  let s := seated c .digest 1
  { s with toPart := s.setDgst 1 1 d }

/-- DGST_HASH of three bytes under SHA-256 (09 R250). -/
def hashPars : Bytes := zeros 8 ++ fields [(1, 1), (1, 0), (1, 0), (1, 0), (1, 0), (3, 0), (4, 0), (4, 0), (8, 3), (8, 0)] ++ zeros 72 ++ [97, 98, 99]

/-- Core 3 of Seat 1 with an applet of hand 1. -/
def coreOne : Core := { run := .running, hand := 1, image := 9, serial := 1, uid := some 1, started := 10 }
def invokePars : Bytes := fields [(4, 9), (4, 0), (4, 2), (4, 0)] ++ [5, 6]
def coreSeated (c : Core) (place : Place := .engine 1 .core 3) : State :=
  let s := withCmd base (onSeat 0x7001 invokePars place)
  { s with toPart := s.setCore 1 3 c }

/-- The same beside engine B as given. -/
def claimed (d : Dgst) : State :=
  let s := coreSeated coreOne
  { s with toPart := (s.setDgst 1 1 d).updTile (siteTile 1 .digest 1) (fun x => { x with st := .running }) }
def regJob : RegJob := { alg := 1, inject := 0, outLen := 1, len := 3, key := 0 }

/-- A call of the applet on core 3 of Seat 1, at the head of its Dealer order. -/
def callCmd (code : Nat) (b : Bytes) : Cmd := { cmd code b 1 with origin := .call 1 3 0x10000 }

/-- A Long job that meets a yield point while a Trump command waits and no other core is idle. -/
def trumpCmd : Cmd := onSeat 0x5004 verifyPars (.seatQ 1) .trump
def yielding : State :=
  let s := pkeSeated trumpCmd { bank1 := some (job 0x40) }
  let s : State := { s with now := 950, xct := { s.xct with cmds := [trumpCmd, { onSeat 0x2003 rsaGenPars (.engine 1 .pke 7) .long with uid := 2 }] } }
  let q := s.setPke 1 7 { bank1 := some { job 0x40 with uid := 2 }, keygen := { stage := 1, cycles := 850 } }
  { s with toPart := (List.range 7).foldl (fun (p : Machine.Part) k => p.setPke 1 k { bank0 := some (job 0x04) }) q }
def yielded : Machine.Part :=
  let j : Job := { job 0x40 with uid := 2 }
  let p : Machine.Part := (((yielding.atTime (j.start + j.elapsed + 850)).wait 256).setPke 1 7 { yielding.pke 1 7 with parked := true, bank1 := some { j with offset := 850 } }).bump
    (regAddr 1 (Part.pkeWin 7) 0x0120)
  charged (p.chargeAll 1 trumpCmd [])

/-- The part with one Dealer command of hand 1 and 64 values leased of counter 64. -/
def leased (code : Nat) (b : Bytes) : State :=
  let s := serving code b 1
  { s with vault := { s.vault with ctrs := [(64, { st := .live, hw := 100 })], leases := [{ ctr := 64, ranges := [(10, 74)], lastIssue := 0 }] } }

def eraseMut : Mutation := { id := 1, kind := .keyErase 64 1, hand := 1, owner := none, objs := [.slot 64], committed := true, confirms := [1] }
def ctrMut : Mutation :=
  { id := 1, kind := .ctrInit 64 9, hand := 1, owner := none, objs := [.ctr 64]
    formed := some { seq := 1, incarnation := 1, hand := 1, solo := false, fromPartner := false, epoch := 0, optime := 0, body := .counter 64 .live 9 } }

/-- The part with a house command that names its output stream 5. -/
def sinkFor (code : Nat) (b : Bytes) : State :=
  let s := serving code b
  { s with xct := { s.xct with streams := [outStream] } }

def snap : Snapshot := { uid := some 1, version := 1, start := 1, stop := 1, chain := zeros 48 }

/-- The part with a snapshot of command 1 in its making. -/
def snapping (x : Snapshot) : State :=
  let s := withCmd base (cmd 0x2201 [] 0 .waiting)
  { s with vault := { s.vault with snapshot := some x } }

/-- A journal whose sink's stream 5 has sent records 1 to 3. -/
def sunk : State :=
  let s := sinkFor 0x2205 (toBE 8 3)
  { s with vault := { s.vault with journal := { next := 4, sent := 3, sink := some (1, 5, 7), marks := [(3, 8)] } }
           xct := { s.xct with streams := [{ outStream with announced := 8 }] } }

def replaying : State :=
  let s := streaming 0x2206 []
  { s with vault := { s.vault with st := .awaitingDeck } }

/-- The house hand holds the part's CAK for connectivity association 3. -/
def keyed : State := { base with vault := { base.vault with slots := (3, { aesKey with hand := 0 }) :: base.vault.slots } }

/-- The part with one tile of Seat 7 as given, and with Seat 7 changed. -/
def tiled (g i : Nat) (x : Tile) : State := { base with toPart := base.setTile (tileKey 7 g i) x }
def linked (f : Seat → Seat) : State := { base with toPart := base.updSeat 7 f }

/-- A command whose response crosses the link of Seat 1. -/
def rising : State :=
  let s := withCmd base { onSeat 0x6001 hashPars (.up 1) with status := 5, payload := [1] }
  { s with toPart := s.updSeat 1 (fun x => { x with link := 1, txSeq := 0xFFFF }) }

/-- The Deal permits drills on every target. -/
def drilling : State :=
  { base with deal := { base.deal with active := some { dealOne with
      drill := some { targets := 0x0F, actions := 0xFF, duration := 10, dropFloor := 1, probCeil := 100 } } }, shuffle := { drop := 5 } }

/-- A ceremony of session 1 (15 R397). -/
def ceremony (kind : Nat) : Ceremony :=
  { id := 5, session := 1, kind := kind, m := 0, digest := [], context := [], challenge := zeros 32, registry := none }
def cerBeginPars : Bytes := fields [(1, 1), (1, 2), (1, 0), (1, 16), (4, 0)] ++ zeros 48 ++ List.replicate 16 1
def cerIdPars : Bytes := fields [(4, 5), (4, 0)]
def ceremonial (code kind : Nat) (present : Bool) : State :=
  { serving code cerIdPars with cerb := { cer := some (ceremony kind), present := present } }

/-- The owner claim of a Blank part, before its last command. -/
def claiming : State :=
  let s := serving 0xA003 cerIdPars
  { s with power := { s.power with life := 0 }, deal := {}
           cerb := { cer := some { ceremony 5 with registry := some registry, counted := [1], cert := some [1] } } }

/-- A ceremony step on port B. -/
def carded (st : CardStage) : State :=
  { withCmd base (cmd 0xA002 cerIdPars 0 .waiting) with
    cerb := { cer := some (ceremony 2), present := true, active := true, div := 375, step := some { uid := 1, started := 0, stage := st } } }

def pairPars (role : Nat) : Bytes := zeros 16 ++ toBE 1 role ++ zeros 7
def pairing (code : Nat) (b : Bytes) : State :=
  let s := serving code b
  { s with cerb := { auth := some { cer := ceremony 2, granted := 7 } }, part := { s.part with link := 2 } }
def exchanging : State :=
  let s := withCmd base (cmd 0x8001 (pairPars 2) 0 .waiting)
  { s with part := { s.part with link := 2, exchange := some { uid := 1, peer := zeros 16, lead := false, start := 3, sent := [], secret := [] } } }

/-- The part paired, its partner link secured. -/
def partnered (st : PairSt) : State :=
  { base with part := { base.part with
      link := 3, st := st, pairing := some { id := 3, peer := zeros 16, cak := [], k1 := [], k2 := [], epoch := 1, lead := some true } } }
def mirrorHdr : MirrorHdr := { version := 1, reserved := false, pairingId := 3, seq := 1, ack := 0, held := 0, tagOk := true }
def beat (st : Byte) : Beat := { serial := 1, digest := zeros 48, epoch := 1, role := 0, state := st, level := 3, sent := 0, echo := 0, delay := 0 }

def readmitting (st : SeatSt) (parked : Bool) : State :=
  let s := serving 0x1201 (toBE 1 7 ++ zeros 7)
  { s with toPart := s.updSeat 7 (fun x => { x with st := st, parked := parked }) }

/-- A house command while a cut runs. -/
def pending_ (code : Nat) (b : Bytes) : State :=
  let s := serving code b
  { s with deal := { s.deal with st := .teardown } }

def o1 : Origin := .host 1 1
def o2 : Origin := .host 2 1

/-! ### Hypotheses that are structures -/

theorem ready_of {s : State} {o : Origin} {code : Nat} {b : Bytes} {c : Cmd}
    (h : s.power.on = true ∧ s.toPart.findRow o code = some c ∧ c.params = b ∧ c.isCall = false ∧ s.toPart.isHead c = true ∧
      s.guard.dealerHold = none) : Ready s o code b c :=
  ⟨h.1, h.2.1, h.2.2.1, h.2.2.2.1, h.2.2.2.2.1, h.2.2.2.2.2⟩

theorem houseReady_of {s : State} {o : Origin} {code : Nat} {b : Bytes} {c : Cmd}
    (h : c.hand = 0 ∧ s.power.on = true ∧ s.toPart.findRow o code = some c ∧ c.params = b ∧ c.isCall = false ∧ s.toPart.isHead c = true ∧
      s.guard.dealerHold = none) : HouseReady s o code b c :=
  ⟨ready_of h.2, h.1⟩

theorem mirrorArrives_of {s : State} {h : MirrorHdr}
    (e : s.power.on = true ∧ s.part.link = 3 ∧ s.part.enabled = true ∧ s.toPart.paired = true ∧ s.toPart.shufflesPartner 0 = false ∧
      h.version = 1 ∧ h.reserved = false ∧ h.tagOk = true ∧ s.part.pairing.any (fun x => x.id == h.pairingId) = true) : MirrorArrives s h :=
  ⟨e.1, e.2.1, e.2.2.1, e.2.2.2.1, e.2.2.2.2.1, e.2.2.2.2.2.1, e.2.2.2.2.2.2.1, e.2.2.2.2.2.2.2.1, e.2.2.2.2.2.2.2.2⟩

theorem nextFrame_of {s : State} {h : MirrorHdr}
    (e : s.part.recvSeq + 1 = h.seq.toNat ∧ s.part.early = [] ∧ s.toPart.folding = false ∧ s.power.on = true ∧ s.part.link = 3 ∧
      s.part.enabled = true ∧ s.toPart.paired = true ∧ s.toPart.shufflesPartner 0 = false ∧ h.version = 1 ∧ h.reserved = false ∧
      h.tagOk = true ∧ s.part.pairing.any (fun x => x.id == h.pairingId) = true) : NextFrame s h :=
  ⟨mirrorArrives_of e.2.2.2, e.1, e.2.1, e.2.2.1⟩

theorem streamed_of {s : State} {c : Cmd} {image : Bytes}
    (h : c.params.length = 16 ∧ allZero (slice c.params 4 4) = true ∧ (s.toPart.streamOf c).map (·.data) = some image ∧
      field c.params 8 8 ≤ image.length) : Streamed s c image :=
  ⟨h.1, h.2.1, h.2.2.1, h.2.2.2⟩

theorem charged_ok (r : Machine.Part.Charge) (h : (match r with | .ok _ => true | _ => false) = true) : r = .ok (charged r) := by
  cases r <;> simp_all [charged]

/-! ### Well-formedness: for every check of every command, a term it refuses; and a well-formed term of every command -/

def bootFine : BootFindings :=
  { railLow := false, badSeats := 0, dealerTrngOk := true, badStacks := 0, badFirmware := 0, badDeal := 0, offSeconds := 0, badLogBlocks := [], kittyBad := false }

theorem test_ill_formed_refused_1 : ([.sessionClose (.call 0 0 0) [], .sessionClose (.call 1 4 0) [], .sessionStatus (.call 0 0 0) [],
    .sessionStatus (.call 1 4 0) [], .dealStage (.call 0 0 0) [], .dealStage (.call 1 4 0) [],
    .dealCut (.call 0 0 0) [], .dealCut (.call 1 4 0) [], .dealDiscard (.call 0 0 0) [],
    .dealDiscard (.call 1 4 0) [], .dealQuery (.call 0 0 0) [], .dealQuery (.call 1 4 0) [],
    .guardReadmit (.call 0 0 0) [], .guardReadmit (.call 1 4 0) [], .foldEnter (.call 0 0 0) [],
    .foldEnter (.call 1 4 0) [], .foldExit (.call 0 0 0) [], .foldExit (.call 1 4 0) [],
    .portCtl (.call 0 0 0) [], .portCtl (.call 1 4 0) [], .sysStatus (.call 0 0 0) [],
    .sysStatus (.call 1 4 0) [], .fwLoad (.call 0 0 0) [], .fwLoad (.call 1 4 0) []] : List Instr).all (fun i => !i.wf) = true := by
  decide

theorem test_ill_formed_refused_2 : ([.retire (.call 0 0 0) [], .retire (.call 1 4 0) [], .regRead (.call 0 0 0) [],
    .regRead (.call 1 4 0) [], .regWrite (.call 0 0 0) [], .regWrite (.call 1 4 0) [],
    .keyImport 0 0, .keyImport 8 0, .keyImport 1 16,
    .keyExport 0 0, .keyExport 8 0, .keyExport 1 16,
    .keyGenerate 0 0, .keyGenerate 8 0, .keyGenerate 1 8,
    .keyComponent 0 0, .keyComponent 8 0, .keyComponent 1 16,
    .keyErase (.call 0 0 0) [], .keyErase (.call 1 4 0) [], .keyAttrRead (.call 0 0 0) [],
    .keyAttrRead (.call 1 4 0) [], .keyGenRead (.call 0 0 0) [], .keyGenRead (.call 1 4 0) []] : List Instr).all (fun i => !i.wf) = true := by
  decide

theorem test_ill_formed_refused_3 : ([.ctrInit (.call 0 0 0) [], .ctrInit (.call 1 4 0) [], .ctrNext (.call 0 0 0) [],
    .ctrNext (.call 1 4 0) [], .ctrRead (.call 0 0 0) [], .ctrRead (.call 1 4 0) [],
    .deckSnapshot (.call 0 0 0) [], .deckSnapshot (.call 1 4 0) [], .deckCommit (.call 0 0 0) [],
    .deckCommit (.call 1 4 0) [], .deckLoad (.call 0 0 0) [], .deckLoad (.call 1 4 0) [],
    .journalAttach (.call 0 0 0) [], .journalAttach (.call 1 4 0) [], .journalAck (.call 0 0 0) [],
    .journalAck (.call 1 4 0) [], .journalReplay (.call 0 0 0) [], .journalReplay (.call 1 4 0) [],
    .vaultOpen (.call 0 0 0) [], .vaultOpen (.call 1 4 0) [], .pinTranslate 0 0,
    .pinTranslate 8 0, .pinTranslate 1 16, .pinVerify 0 0] : List Instr).all (fun i => !i.wf) = true := by
  decide

theorem test_ill_formed_refused_4 : ([.pinVerify 8 0, .pinVerify 1 16, .dukptPinTranslate 0 0,
    .dukptPinTranslate 8 0, .dukptPinTranslate 1 16, .dukptMac 0 0,
    .dukptMac 8 0, .dukptMac 1 16, .emvArqc 0 0,
    .emvArqc 8 0, .emvArqc 1 16, .emvScript 0 0,
    .emvScript 8 0, .emvScript 1 16, .macGenerate 0 0,
    .macGenerate 8 0, .macGenerate 1 16, .macVerify 0 0,
    .macVerify 8 0, .macVerify 1 16, .ff1Encrypt 0 0,
    .ff1Encrypt 8 0, .ff1Encrypt 1 16, .ff1Decrypt 0 0] : List Instr).all (fun i => !i.wf) = true := by
  decide

theorem test_ill_formed_refused_5 : ([.ff1Decrypt 8 0, .ff1Decrypt 1 16, .tdeaCbcEncrypt 0 0,
    .tdeaCbcEncrypt 8 0, .tdeaCbcEncrypt 1 16, .tdeaCbcDecrypt 0 0,
    .tdeaCbcDecrypt 8 0, .tdeaCbcDecrypt 1 16, .laneEcb 0 0 0,
    .laneEcb 8 0 0, .laneEcb 1 2 0, .laneEcb 1 0 12,
    .laneCbc 0 0 0, .laneCbc 8 0 0, .laneCbc 1 2 0,
    .laneCbc 1 0 12, .laneCtr 0 0 0, .laneCtr 8 0 0,
    .laneCtr 1 2 0, .laneCtr 1 0 12, .laneGcm 0 0 0,
    .laneGcm 8 0 0, .laneGcm 1 2 0, .laneGcm 1 0 12] : List Instr).all (fun i => !i.wf) = true := by
  decide

theorem test_ill_formed_refused_6 : ([.laneXts 0 0 0, .laneXts 8 0 0, .laneXts 1 2 0,
    .laneXts 1 0 12, .laneCmac 0 0 0, .laneCmac 8 0 0,
    .laneCmac 1 2 0, .laneCmac 1 0 12, .laneCtxExport 0 0 0,
    .laneCtxExport 8 0 0, .laneCtxExport 1 2 0, .laneCtxExport 1 0 12,
    .laneCtxImport 0 0 0, .laneCtxImport 8 0 0, .laneCtxImport 1 2 0,
    .laneCtxImport 1 0 12, .laneCtxDiscard 0 0 0, .laneCtxDiscard 8 0 0,
    .laneCtxDiscard 1 2 0, .laneCtxDiscard 1 0 12, .pkeEcdsaSign 0 0,
    .pkeEcdsaSign 8 0, .pkeEcdsaSign 1 8, .pkeEcdsaVerify 0 0] : List Instr).all (fun i => !i.wf) = true := by
  decide

theorem test_ill_formed_refused_7 : ([.pkeEcdsaVerify 8 0, .pkeEcdsaVerify 1 8, .pkeEd25519Sign 0 0,
    .pkeEd25519Sign 8 0, .pkeEd25519Sign 1 8, .pkeEd25519Verify 0 0,
    .pkeEd25519Verify 8 0, .pkeEd25519Verify 1 8, .pkeAgree 0 0,
    .pkeAgree 8 0, .pkeAgree 1 8, .pkeRsaSign 0 0,
    .pkeRsaSign 8 0, .pkeRsaSign 1 8, .pkeRsaPublic 0 0,
    .pkeRsaPublic 8 0, .pkeRsaPublic 1 8, .pkeRsaUnwrap 0 0,
    .pkeRsaUnwrap 8 0, .pkeRsaUnwrap 1 8, .pkeMldsaVerify 0 0,
    .pkeMldsaVerify 8 0, .pkeMldsaVerify 1 8, .dgstHash 0 0] : List Instr).all (fun i => !i.wf) = true := by
  decide

theorem test_ill_formed_refused_8 : ([.dgstHash 8 0, .dgstHash 1 2, .dgstCtxExport 0 0,
    .dgstCtxExport 8 0, .dgstCtxExport 1 2, .dgstCtxImport 0 0,
    .dgstCtxImport 8 0, .dgstCtxImport 1 2, .dgstCtxDiscard 0 0,
    .dgstCtxDiscard 8 0, .dgstCtxDiscard 1 2, .appletInvoke 0 0,
    .appletInvoke 8 0, .appletInvoke 1 4, .appdataRead (.call 0 0 0) [],
    .appdataRead (.call 1 4 0) [], .appdataWrite (.call 0 0 0) [], .appdataWrite (.call 1 4 0) [],
    .pairBegin (.call 0 0 0) [], .pairBegin (.call 1 4 0) [], .partStatus (.call 0 0 0) [],
    .partStatus (.call 1 4 0) [], .promoteChallenge (.call 0 0 0) [], .promoteChallenge (.call 1 4 0) []] : List Instr).all (fun i => !i.wf) = true := by
  decide

theorem test_ill_formed_refused_9 : ([.promote (.call 0 0 0) [], .promote (.call 1 4 0) [], .noticeResend (.call 0 0 0) [],
    .noticeResend (.call 1 4 0) [], .eventRead (.call 0 0 0) [], .eventRead (.call 1 4 0) [],
    .eventFreeze (.call 0 0 0) [], .eventFreeze (.call 1 4 0) [], .eventThaw (.call 0 0 0) [],
    .eventThaw (.call 1 4 0) [], .timeAnnotate (.call 0 0 0) [], .timeAnnotate (.call 1 4 0) [],
    .cerBegin (.call 0 0 0) [], .cerBegin (.call 1 4 0) [], .cerStep (.call 0 0 0) [],
    .cerStep (.call 1 4 0) [], .cerEnd (.call 0 0 0) [], .cerEnd (.call 1 4 0) [],
    .cerCert (.call 0 0 0) [], .cerCert (.call 1 4 0) [], .mkaFrameReceive .partner 4 true,
    .sakRenew .partner 4, .anteTake 8, .anteWindowEnd 8 0 0] : List Instr).all (fun i => !i.wf) = true := by
  decide

theorem test_ill_formed_refused_10 : ([.anteWindowEnd 0 4 0, .tileWakeComplete 0 0 0, .tileWakeComplete 8 0 0,
    .tileWakeComplete 1 0 16, .tileWakeComplete 1 1 2, .tileWakeComplete 1 2 8,
    .tileWakeComplete 1 3 2, .tileWakeComplete 1 4 0, .tileIdleEnter 0 0 0,
    .tileIdleEnter 8 0 0, .tileIdleEnter 1 0 16, .tileIdleEnter 1 1 2,
    .tileIdleEnter 1 2 8, .tileIdleEnter 1 3 2, .tileIdleEnter 1 4 0,
    .tileGateEnter 0 0 0, .tileGateEnter 8 0 0, .tileGateEnter 1 0 16,
    .tileGateEnter 1 1 2, .tileGateEnter 1 2 8, .tileGateEnter 1 3 2,
    .tileGateEnter 1 4 0, .tilePowerDownComplete 0 0 0, .tilePowerDownComplete 8 0 0] : List Instr).all (fun i => !i.wf) = true := by
  decide

theorem test_ill_formed_refused_11 : ([.tilePowerDownComplete 1 0 16, .tilePowerDownComplete 1 1 2, .tilePowerDownComplete 1 2 8,
    .tilePowerDownComplete 1 3 2, .tilePowerDownComplete 1 4 0, .linkFlitReceive 0 true 0 true .clean none,
    .linkFlitReceive 8 true 0 true .clean none, .linkRetrain 0, .linkRetrain 8,
    .linkRetrainComplete 0 true, .linkRetrainComplete 8 true, .seatDescriptorArrive 0 .clean,
    .seatDescriptorArrive 8 .clean, .keyFetchComplete 0 0 .clean, .keyFetchComplete 8 0 .clean,
    .keyFetchComplete 1 8388608 .clean, .trickStart 0 0 .clean, .trickStart 8 0 .clean,
    .trickStart 1 16 .clean, .trickComplete 0 0 true .clean, .trickComplete 8 0 true .clean,
    .trickComplete 1 16 true .clean, .laneCommandResident 0 0 .clean, .laneCommandResident 8 0 .clean] : List Instr).all (fun i => !i.wf) = true := by
  decide

theorem test_ill_formed_refused_12 : ([.laneCommandResident 1 2 .clean, .laneCommandComplete 0 0 0 .clean, .laneCommandComplete 8 0 0 .clean,
    .laneCommandComplete 1 2 0 .clean, .laneCommandComplete 1 0 12 .clean, .laneCompareFail 0 0,
    .laneCompareFail 8 0, .laneCompareFail 1 2, .laneReseedRequest 0 0,
    .laneReseedRequest 8 0, .laneReseedRequest 1 2, .laneMaskReseed 0 0,
    .laneMaskReseed 8 0, .laneMaskReseed 1 2, .pkeJobStart 0 0 .clean,
    .pkeJobStart 8 0 .clean, .pkeJobStart 1 8 .clean, .pkeJobComplete 0 0 true .clean,
    .pkeJobComplete 8 0 true .clean, .pkeJobComplete 1 8 true .clean, .pkeYieldPoint 0 0,
    .pkeYieldPoint 8 0, .pkeYieldPoint 1 8, .pkeLongResume 0 0] : List Instr).all (fun i => !i.wf) = true := by
  decide

theorem test_ill_formed_refused_13 : ([.pkeLongResume 8 0, .pkeLongResume 1 8, .keygenStepComplete 0 0,
    .keygenStepComplete 8 0, .keygenStepComplete 1 8, .digestJobStart 0 0 .clean,
    .digestJobStart 8 0 .clean, .digestJobStart 1 2 .clean, .digestJobComplete 0 0 .clean,
    .digestJobComplete 8 0 .clean, .digestJobComplete 1 2 .clean, .digestParityFault 0 0,
    .digestParityFault 8 0, .digestParityFault 1 2, .engineScrubComplete 0 .tu 0,
    .engineScrubComplete 8 .tu 0, .engineScrubComplete 1 .tu 16, .engineScrubComplete 1 .lane 2,
    .engineScrubComplete 1 .pke 8, .engineScrubComplete 1 .digest 2, .keyInvalidate 0 0,
    .keyInvalidate 8 0, .keyInvalidate 1 8388608, .keyEraseOrder 0 0] : List Instr).all (fun i => !i.wf) = true := by
  decide

theorem test_ill_formed_refused_14 : ([.keyEraseOrder 8 0, .keyEraseOrder 1 8388608, .eraseConfirm 0 0,
    .eraseConfirm 8 0, .eraseConfirm 1 8388608, .leaseGrant 1048576,
    .vaultReencryptComplete 3670016, .seatEpochFlip 0, .seatEpochFlip 8,
    .handTeardown 256, .teardownComplete 256, .privateSeatRelease 0,
    .privateSeatRelease 8, .witnessReport 8 0 0 0, .witnessReport 0 16 0 0,
    .holdEnd 8, .seatReadmit 0, .seatReadmit 8,
    .seatSelfTestComplete 0 true, .seatSelfTestComplete 8 true, .thermalReport 8 true,
    .temperatureSample 8 [], .tempRateCompute 8, .slowVoltageMean 8 0 0] : List Instr).all (fun i => !i.wf) = true := by
  decide

theorem test_ill_formed_refused_15 : ([.slowVoltageMean 0 8 0, .shieldResistanceCheck 24 0, .calibrationSlice 8 0 0 0 true,
    .calibrationSlice 0 10 0 0 true, .calibrationSlice 0 0 64 0 true, .drbgReseed 8,
    .drbgStopped 8, .trngSourceFail 8 0 .startUp, .trngSourceFail 0 2 .startUp,
    .trngSourceRestored 8 0, .trngSourceRestored 0 2, .trngOutRead 0 0,
    .trngOutRead 8 0, .trngOutRead 1 4, .trngOutTimeout 0 0,
    .trngOutTimeout 8 0, .trngOutTimeout 1 4, .appletInstanceStart 0 0,
    .appletInstanceStart 8 0, .appletInstanceStart 1 4, .appletEcall 0 0 0 0 0,
    .appletEcall 8 0 0 0 0, .appletEcall 1 4 0 0 0, .appletException 0 0 .breakpoint 0 0] : List Instr).all (fun i => !i.wf) = true := by
  decide

theorem test_ill_formed_refused_16 : ([.appletException 8 0 .breakpoint 0 0, .appletException 1 4 .breakpoint 0 0, .appletBudgetExpired 0 0,
    .appletBudgetExpired 8 0, .appletBudgetExpired 1 4, .coreDoorbell 0 0 0,
    .coreDoorbell 8 0 0, .coreDoorbell 1 4 0, .slotGuardViolation 0 0 0 .read 0 0 0,
    .slotGuardViolation 8 0 0 .read 0 0 0, .slotGuardViolation 1 0 4 .read 0 0 0, .slotGuardViolation 1 7 0 .read 0 0 0,
    .slotGuardStoreDrain 0 0 0 [], .slotGuardStoreDrain 8 0 0 [], .slotGuardStoreDrain 1 4 0 [],
    .ntcRaise 0 0 0, .ntcRaise 8 0 0, .ntcRaise 1 4 0,
    .dgstbClaim 0 0, .dgstbClaim 8 0, .dgstbClaim 1 4,
    .dgstbRelease 0 0, .dgstbRelease 8 0, .dgstbRelease 1 4] : List Instr).all (fun i => !i.wf) = true := by
  decide

theorem test_ill_formed_refused_17 : ([.dgstbClaimGrant 0, .dgstbClaimGrant 8, .dgstbClaimTimeout 0,
    .dgstbClaimTimeout 8, .dgstbGo 0 0 0 0 0, .dgstbGo 8 0 0 0 0,
    .dgstbGo 1 4 0 0 0, .dgstbData 0 0 0, .dgstbData 8 0 0,
    .dgstbData 1 4 0, .dgstbLast 0 0 0, .dgstbLast 8 0 0,
    .dgstbLast 1 4 0, .dgstbBlockDone 0, .dgstbBlockDone 8,
    .dgstbCmp 0 0 0 [], .dgstbCmp 8 0 0 [], .dgstbCmp 1 4 0 [],
    .jokerAccess (.sram 0 0 0) true 0, .jokerAccess (.sram 1 4 0) true 0, .jokerAccess (.halt 8 0) true 0,
    .jokerAccess (.halt 1 4) true 0, .jokerAccess (.resume 8 0) true 0, .jokerAccess (.resume 1 4) true 0] : List Instr).all (fun i => !i.wf) = true := by
  decide

theorem test_ill_formed_refused_18 : ([.jokerAccess (.step 0 0) true 0, .jokerAccess (.step 1 4) true 0, .jokerAccess (.coreReg 0 0 0) true 0,
    .jokerAccess (.coreReg 1 4 0) true 0, .jokerAccess (.coreReg 1 0 66) true 0, .cardInserted 2,
    .cardRemoved 2, .cardResponse 2 [] 0 0, .cardWaitTimeExpired 2,
    .cardClockStop 2, .cerStepCardTimeout 2, .ceremonyIdleTimeout 2,
    .authorisationLapse 2, .offWitness 16 0 0] : List Instr).all (fun i => !i.wf) = true := by
  decide

theorem test_well_formed_1 : ([.sessionHello arrival [], .sessionProve arrival 0 [], .sessionClose (.host 1 1) [],
    .sessionStatus (.host 1 1) [], .streamAck 0 [], .streamData 0 [],
    .dealStage (.host 1 1) [], .dealCut (.host 1 1) [], .dealDiscard (.host 1 1) [],
    .dealQuery (.host 1 1) [], .guardReadmit (.host 1 1) [], .foldEnter (.host 1 1) [],
    .foldExit (.host 1 1) [], .portCtl (.host 1 1) [], .sysStatus (.host 1 1) [],
    .fwLoad (.host 1 1) [], .retire (.host 1 1) [], .regRead (.host 1 1) [],
    .regWrite (.host 1 1) [], .keyImport 1 0, .keyExport 1 0,
    .keyGenerate 1 0, .keyComponent 1 0, .keyErase (.host 1 1) []] : List Instr).all Instr.wf = true := by
  decide

theorem test_well_formed_2 : ([.keyAttrRead (.host 1 1) [], .keyGenRead (.host 1 1) [], .ctrInit (.host 1 1) [],
    .ctrNext (.host 1 1) [], .ctrRead (.host 1 1) [], .deckSnapshot (.host 1 1) [],
    .deckCommit (.host 1 1) [], .deckLoad (.host 1 1) [], .journalAttach (.host 1 1) [],
    .journalAck (.host 1 1) [], .journalReplay (.host 1 1) [], .vaultOpen (.host 1 1) [],
    .pinTranslate 1 0, .pinVerify 1 0, .dukptPinTranslate 1 0,
    .dukptMac 1 0, .emvArqc 1 0, .emvScript 1 0,
    .macGenerate 1 0, .macVerify 1 0, .ff1Encrypt 1 0,
    .ff1Decrypt 1 0, .tdeaCbcEncrypt 1 0, .tdeaCbcDecrypt 1 0] : List Instr).all Instr.wf = true := by
  decide

theorem test_well_formed_3 : ([.laneEcb 1 0 0, .laneCbc 1 0 0, .laneCtr 1 0 0,
    .laneGcm 1 0 0, .laneXts 1 0 0, .laneCmac 1 0 0,
    .laneCtxExport 1 0 0, .laneCtxImport 1 0 0, .laneCtxDiscard 1 0 0,
    .pkeEcdsaSign 1 0, .pkeEcdsaVerify 1 0, .pkeEd25519Sign 1 0,
    .pkeEd25519Verify 1 0, .pkeAgree 1 0, .pkeRsaSign 1 0,
    .pkeRsaPublic 1 0, .pkeRsaUnwrap 1 0, .pkeMldsaVerify 1 0,
    .dgstHash 1 0, .dgstCtxExport 1 0, .dgstCtxImport 1 0,
    .dgstCtxDiscard 1 0, .appletInvoke 1 0, .appdataRead (.host 1 1) []] : List Instr).all Instr.wf = true := by
  decide

theorem test_well_formed_4 : ([.appdataWrite (.host 1 1) [], .pairBegin (.host 1 1) [], .partStatus (.host 1 1) [],
    .promoteChallenge (.host 1 1) [], .promote (.host 1 1) [], .noticeResend (.host 1 1) [],
    .eventRead (.host 1 1) [], .eventFreeze (.host 1 1) [], .eventThaw (.host 1 1) [],
    .timeAnnotate (.host 1 1) [], .cerBegin (.host 1 1) [], .cerStep (.host 1 1) [],
    .cerEnd (.host 1 1) [], .cerCert (.host 1 1) [], .hostFrameReceive arrival [],
    .mkaFrameReceive .partner 0 true, .sakRenew .partner 0, .ipServiceFrame .a0 .arp 0,
    .responseSend 0 0, .noticeFrameSend 0, .streamAckDelay 0 0,
    .streamOutputResend 0 0, .streamInputIdle 0 0, .sessionOfferTimeout 0] : List Instr).all Instr.wf = true := by
  decide

theorem test_well_formed_5 : ([.sessionIdleTimeout 0, .sessionClosingTimeout 0, .dispatchPass,
    .anteTake 0, .anteWindowEnd 0 0 0, .tileWakeComplete 1 0 0,
    .tileIdleEnter 1 0 0, .tileGateEnter 1 0 0, .tilePowerDownComplete 1 0 0,
    .linkFlitReceive 1 true 0 true .clean none, .linkRetrain 1, .linkRetrainComplete 1 true,
    .seatDescriptorArrive 1 .clean, .keyFetchComplete 1 0 .clean, .trickStart 1 0 .clean,
    .trickComplete 1 0 true .clean, .laneCommandResident 1 0 .clean, .laneCommandComplete 1 0 0 .clean,
    .laneCompareFail 1 0, .laneReseedRequest 1 0, .laneMaskReseed 1 0,
    .pkeJobStart 1 0 .clean, .pkeJobComplete 1 0 true .clean, .pkeYieldPoint 1 0] : List Instr).all Instr.wf = true := by
  decide

theorem test_well_formed_6 : ([.pkeLongResume 1 0, .keygenStepComplete 1 0, .digestJobStart 1 0 .clean,
    .digestJobComplete 1 0 .clean, .digestParityFault 1 0, .engineScrubComplete 1 .tu 0,
    .keyInvalidate 1 0, .keyEraseOrder 1 0, .eraseConfirm 1 0,
    .mutationCommit 0, .ackRootWrite, .journalDeferredRecord 0,
    .leaseGrant 0, .vaultReencryptComplete 0, .vaultPatrol [],
    .deckSnapshotComplete, .cutInstant, .seatEpochFlip 1,
    .cutDrainDeadline, .handTeardown 0, .teardownComplete 0,
    .dealMirrorCopyComplete, .cutComplete, .privateSeatRelease 1] : List Instr).all Instr.wf = true := by
  decide

theorem test_well_formed_7 : ([.witnessReport 0 0 0 0, .holdEnd 0, .seatReadmit 1,
    .seatSelfTestComplete 1 true, .thermalReport 0 true, .temperatureSample 0 [],
    .tempRateCompute 0, .slowVoltageMean 0 0 0, .refclkMonitorWindow 0 true,
    .shieldResistanceCheck 0 0, .calibrationSlice 0 0 0 0 true, .drbgReseed 0,
    .drbgStopped 0, .trngSourceFail 0 0 .startUp, .trngSourceRestored 0 0,
    .trngOutRead 1 0, .trngOutTimeout 1 0, .appletInstanceStart 1 0,
    .appletEcall 1 0 0 0 0, .appletException 1 0 .breakpoint 0 0, .appletBudgetExpired 1 0,
    .coreDoorbell 1 0 0, .slotGuardViolation 1 0 0 .read 0 0 0, .slotGuardStoreDrain 1 0 0 []] : List Instr).all Instr.wf = true := by
  decide

theorem test_well_formed_8 : ([.ntcRaise 1 0 0, .dgstbClaim 1 0, .dgstbRelease 1 0,
    .dgstbClaimGrant 1, .dgstbClaimTimeout 1, .dgstbGo 1 0 0 0 0,
    .dgstbData 1 0 0, .dgstbLast 1 0 0, .dgstbBlockDone 1,
    .dgstbCmp 1 0 0 [], .jokerAuth [], .jokerAccess (.reg 0) true 0,
    .jokerClose, .jokerExpiry, .trstNLow,
    .extest, .bypass, .idcode,
    .samplePreload, .pairingFrame 0 [], .heartbeatSend,
    .heartbeat mirrorHdr (beat 0), .heartbeatMissed, .mutation mirrorHdr []] : List Instr).all Instr.wf = true := by
  decide

theorem test_well_formed_9 : ([.forward mirrorHdr [], .leaseRequest mirrorHdr [], .repairRequest mirrorHdr [],
    .repairData mirrorHdr [], .resyncMap mirrorHdr [], .resyncObject mirrorHdr [],
    .resyncComplete, .event mirrorHdr [], .mirrorFrameResend 0,
    .evrFreezeSet, .evrFreezeClear, .freezeTimeout,
    .optimeSave, .cardInserted 0, .cardRemoved 0,
    .cardResponse 0 [] 0 0, .cardWaitTimeExpired 0, .cardClockStop 0,
    .cerStepCardTimeout 0, .ceremonyIdleTimeout 0, .authorisationLapse 0,
    .powerUp bootFine, .powerFail true, .offWitness 0 0 0] : List Instr).all Instr.wf = true := by
  decide

theorem test_well_formed_10 : ([.hostPortLinkUp .a0 true, .portTrainingRetry .a0, .hpxModeWrite true 0,
    .portDrainEnd .partner, .foldDrainLimit, .foldEntryComplete,
    .foldWakeComplete 0, .osc32Fail, .osc32Restart,
    .shuffleArm 0, .shuffleDisarm, .shuffleExpire,
    .hostPortLinkDown .a0, .partnerLinkUp, .partnerLinkDown,
    .pfcFrameReceive .a0 0, .partnerPortFrame .fcs, .vbatLoss,
    .vbatReturn 0, .batteryLow 0, .pairingTimeout,
    .dealStagingComplete] : List Instr).all Instr.wf = true := by
  decide


/-! ### Published vectors of the algorithms the manual names -/

def hexBytes (n v : Nat) : Bytes := toBE n v

/-- FIPS 197, appendices C.1 and C.3. -/
theorem test_aes128 : aesEnc (hexBytes 16 0x000102030405060708090a0b0c0d0e0f) (hexBytes 16 0x00112233445566778899aabbccddeeff) =
    hexBytes 16 0x69c4e0d86a7b0430d8cdb78070b4c55a := by decide +kernel
theorem test_aes256 : aesDec (hexBytes 32 0x000102030405060708090a0b0c0d0e0f101112131415161718191a1b1c1d1e1f)
    (hexBytes 16 0x8ea2b7ca516745bfeafc49904b496089) = hexBytes 16 0x00112233445566778899aabbccddeeff := by decide +kernel

/-- The worked example of DES: every key of the bundle equal. -/
theorem test_tdea : tdeaEnc (hexBytes 24 0x133457799BBCDFF1133457799BBCDFF1133457799BBCDFF1) (hexBytes 8 0x0123456789ABCDEF) =
    hexBytes 8 0x85E813540F0AB405 := by decide +kernel

/-- RFC 4493, example 1. -/
theorem test_cmac : cmac 16 (aesEnc (hexBytes 16 0x2b7e151628aed2a6abf7158809cf4f3c)) [] = hexBytes 16 0xbb1d6929e95937287fa37d129b756746 := by
  decide +kernel

/-- The GCM specification, test case 2. -/
theorem test_gcm : gcmSeal (zeros 16) (zeros 12) [] (zeros 16) =
    (hexBytes 16 0x0388dace60b6a392f328c2b971b2fe78, hexBytes 16 0xab6e47d42cec13bdf53a67b21257bddf) := by decide +kernel

/-- RFC 5649, section 6, the seven-byte key. -/
theorem test_kwp : kwpWrap (hexBytes 24 0x5840df6e29b02af1ab493b705bf16ea1ae8338f4dcc176a8) (hexBytes 7 0x466f7250617369) =
    hexBytes 16 0xafbeb0f07dfbf5419200f2ccb50bb24f := by decide +kernel

/-- SP 800-38G, FF1 sample 1. -/
theorem test_ff1 : ff1Enc (aesEnc (hexBytes 16 0x2B7E151628AED2A6ABF7158809CF4F3C)) [] [0, 1, 2, 3, 4, 5, 6, 7, 8, 9] = [2, 4, 3, 3, 4, 7, 7, 4, 8, 4] := by
  decide +kernel

/-- FIPS 180-4 and FIPS 202 examples. -/
theorem test_sha256 : sha256 [97, 98, 99] = hexBytes 32 0xba7816bf8f01cfea414140de5dae2223b00361a396177a9cb410ff61f20015ad := by decide +kernel
theorem test_sha3_256 : sha3 32 [] = hexBytes 32 0xa7ffc6f8bf1ed76651c14756a061d662f580ff4de43b49fa82d80a4b80f8434a := by decide +kernel

/-- Twice the base point of P-256. -/
theorem test_p256_double : (p256.mul 2 p256.g).map (·.1) = some 0x7cf27b188d034f7e8a52380304b51ac3c08969e277f21b35a60b48fc47669978 := by decide +kernel

/-- ISO 9564 format 0 of PIN 1234 under account number 43219876543210987. -/
theorem test_pin_field : xorBytes [0x04, 0x12, 0x34, 0xFF, 0xFF, 0xFF, 0xFF, 0xFF]
    (Pin.panField ([17, 0] ++ hexBytes 10 0x43219876543210987000)) = hexBytes 8 0x0412AC89ABCDEF67 := by decide +kernel

/-! ### One step each -/

def nextOf (r : Host.Outcome State Fault Refusal) : State := match r with
  | .next t => t
  | _ => State.reset

/-- The instruction register takes BYPASS (10 R289). -/
theorem test_bypass : (nextOf (exec .bypass base)).joker.ir = 0xFF := by decide +kernel

/-- An XF2402 has Seat 1 only (00 R1). -/
theorem test_absent_seat : (match exec (.seatDescriptorArrive 2 .clean) { base with fuses := { base.fuses with variant := .xf2402 } } with
    | .fault _ => true
    | _ => false) = true := by decide +kernel

/-- Counter 64 answers the next value of its lease, 10, and goes on from 11 (05 R143). -/
theorem test_ctr_next : (nextOf (exec (.ctrNext o2 (fields [(4, 64), (4, 1)])) (leased 0x2102 (fields [(4, 64), (4, 1)])))).vault.leases.map (·.ranges) = [[(11, 74)]] := by
  decide +kernel

/-- A step runs the command at the front and leaves the rest waiting. -/
theorem test_step_takes_front : (nextOf (step { base with pending := [.bypass, .idcode] })).pending = [.idcode] := by decide +kernel

/-- Before power comes a card's arrival changes nothing (16 R408). -/
theorem test_power_off : (nextOf (exec (.cardInserted 0) State.reset)).cera.present = false := by decide +kernel

/-- A card arrives at a powered part (15, CARD_INSERTED). -/
theorem test_card_inserted : (nextOf (exec (.cardInserted 0) base)).cera.present = true := by decide +kernel

/-- A freeze ends 10 s after the request, at 3.0 GHz (14 R377). -/
theorem test_evr_freeze : (nextOf (exec .evrFreezeSet base)).evr.thawAt = some 30000000000 := by decide +kernel

/-- Main power fails (16 R408). -/
theorem test_power_fail : (nextOf (exec (.powerFail false) base)).power.on = false := by decide +kernel
/-! ### States and operands that meet the hypotheses of each statement -/

/-- What StatusQueriesAnswer asks can be met, clause by clause. -/
theorem witness_StatusQueriesAnswer :
    (∃ (s : State) (o : Origin) (c : Cmd), HouseReady s o 0x1304 [] c) ∧
    (∃ (s : State) (o : Origin) (c : Cmd), HouseReady s o 0x1104 [] c) ∧
    (∃ (s : State) (o : Origin) (c : Cmd), Ready s o 0x8002 [] c) ∧
    (∃ (s : State) (o : Origin) (c : Cmd) (x : Session), Ready s o 0x1004 [] c ∧ c.session?.bind s.findSession = some x) :=
  ⟨⟨(serving 0x1304 []), o1, (cmd 0x1304 []), (houseReady_of (by decide +kernel))⟩,
   ⟨(serving 0x1104 []), o1, (cmd 0x1104 []), (houseReady_of (by decide +kernel))⟩,
   ⟨(serving 0x8002 [] 1), o2, (cmd 0x8002 [] 1), (ready_of (by decide +kernel))⟩,
   ⟨(serving 0x1004 []), o1, (cmd 0x1004 []), houseSession, (ready_of (by decide +kernel)), by decide +kernel⟩⟩

/-- What AnswerWaitsAtXct asks can be met, clause by clause. -/
theorem witness_AnswerWaitsAtXct :
    ∃ (s : State) (c : Cmd), s.findCmd c.uid = some c ∧ c.isCall = false ∧ c.retract = none :=
  ⟨(serving 0x1004 []), (cmd 0x1004 []), by decide +kernel⟩

/-- What DealCommandsAct asks can be met, clause by clause. -/
theorem witness_DealCommandsAct :
    (∃ (s : State) (o : Origin) (b : Bytes) (c : Cmd) (image : Bytes), HouseReady s o 0x1101 b c ∧ Streamed s c image ∧ s.cutPending = false) ∧
    (∃ (s : State) (o : Origin) (c : Cmd), HouseReady s o 0x1103 [] c ∧ s.deal.st = .armed) ∧
    (∃ (s : State) (o : Origin) (c : Cmd) (b : Bytes) (d : Deal), HouseReady s o 0x1102 b c ∧ b.length = 8 ∧ s.deal.st = .armed ∧ s.deal.staged = some d ∧ d.serial = field b 0 8 ∧ s.orderMet d.serial = true ∧ s.journalRoom true false (Part.cutBytes (s.tearList d)) = true) ∧
    (∃ (s : State) (u : Nat) (d : Deal), s.power.on = true ∧ s.deal.st = .staging ∧ s.deal.verdict = some (0, 0) ∧ s.deal.staged = some d ∧ s.deal.failed = false ∧ s.deal.stagingUid = some u) ∧
    (∃ (s : State) (u : Nat) (why : Nat) (sect : Nat), s.power.on = true ∧ s.deal.st = .staging ∧ s.deal.verdict = some (why, sect) ∧ why ≠ 0 ∧ s.deal.stagingUid = some u) :=
  ⟨⟨(streaming 0x1101 [1, 2, 3]), o1, (streamPars 3), (cmd 0x1101 (streamPars 3)), ([1, 2, 3]), (houseReady_of (by decide +kernel)), (streamed_of (by decide +kernel)), by decide +kernel⟩,
   ⟨((let s := serving 0x1103 []; { s with deal := { s.deal with st := .armed, staged := some dealTwo } })), o1, (cmd 0x1103 []), (houseReady_of (by decide +kernel)), by decide +kernel⟩,
   ⟨((let s := serving 0x1102 (toBE 8 2); { s with deal := { s.deal with st := .armed, staged := some dealTwo } })), o1, (cmd 0x1102 (toBE 8 2)), (toBE 8 2), dealTwo, (houseReady_of (by decide +kernel)), by decide +kernel⟩,
   ⟨((let s := withCmd base (cmd 0x1101 [] 0 .waiting); { s with deal := { s.deal with st := .staging, staged := some dealTwo, verdict := some (0, 0), stagingUid := some 1 } })), 1, dealTwo, by decide +kernel⟩,
   ⟨((let s := withCmd base (cmd 0x1101 [] 0 .waiting); { s with deal := { s.deal with st := .staging, verdict := some (1, 0), stagingUid := some 1 } })), 1, 1, 0, by decide +kernel⟩⟩

/-- What CutRowsAct asks can be met, clause by clause. -/
theorem witness_CutRowsAct :
    (∃ (s : State) (c : Cut) (new : Deal), s.power.on = true ∧ s.deal.cut = some c ∧ c.tc = none ∧ s.deal.staged = some new) ∧
    (∃ (s : State) (n : Nat) (c : Cut) (tc : Nat), s.power.on = true ∧ s.hasSeat n = true ∧ s.deal.cut = some c ∧ c.tc = some tc ∧ s.seatIn n .inService = true) ∧
    (∃ (s : State) (c : Cut) (tc : Nat), s.power.on = true ∧ s.deal.cut = some c ∧ c.tc = some tc ∧ c.deadline = false) ∧
    (∃ (s : State) (c : Cut) (tc : Nat) (h : Nat), s.power.on = true ∧ s.deal.cut = some c ∧ c.tc = some tc ∧ c.removed.any (fun e => e.hand == h) = true ∧ c.torn.contains h = false ∧ (s.doomedWork c).any (fun x => x.hand == h) = false) ∧
    (∃ (s : State) (c : Cut) (h : Nat) (e : Nat × Nat), s.power.on = true ∧ s.deal.cut = some c ∧ c.clearing.find? (fun x => x.1 == h) = some e) ∧
    (∃ (s : State) (c : Cut) (tc : Nat), s.power.on = true ∧ s.deal.cut = some c ∧ c.tc = some tc ∧ c.copied = false) ∧
    (∃ (s : State) (c : Cut) (tc : Nat), s.power.on = true ∧ s.deal.cut = some c ∧ c.tc = some tc ∧ c.copied = true ∧ c.removed.all (fun e => c.torn.contains e.hand) = true ∧ c.clearing = []) ∧
    (∃ (s : State) (n : Nat) (h : Nat), s.power.on = true ∧ s.hasSeat n = true ∧ (s.seat n).privFor = some h ∧ s.xct.cmds.any (fun c => (c.onSeat n || (c.place == .queued && (permittedMask (s.dealOf c.epoch) c.hand).testBit n)) && decide (c.epoch < s.deal.epoch) && c.hand != h && c.hand != 0) = false) :=
  ⟨⟨((let s := withCmd base (cmd 0x1102 [] 0 .waiting); { s with deal := { s.deal with st := .cutting, staged := some dealTwo, cut := some { uid := 1, t0 := 0 } } })), ({ uid := 1, t0 := 0 }), dealTwo, by decide +kernel⟩,
   ⟨(cutting { uid := 1, t0 := 0, tc := some 900 }), 7, ({ uid := 1, t0 := 0, tc := some 900 }), 900, by decide +kernel⟩,
   ⟨(cutting { uid := 1, t0 := 0, tc := some 900 }), ({ uid := 1, t0 := 0, tc := some 900 }), 900, by decide +kernel⟩,
   ⟨(cutting { uid := 1, t0 := 0, tc := some 900, removed := [handOne], gone := [1] }), ({ uid := 1, t0 := 0, tc := some 900, removed := [handOne], gone := [1] }), 900, 1, by decide +kernel⟩,
   ⟨(cutting { uid := 1, t0 := 0, tc := some 900, removed := [handOne], gone := [1], torn := [1], clearing := [(1, 5000)] }), ({ uid := 1, t0 := 0, tc := some 900, removed := [handOne], gone := [1], torn := [1], clearing := [(1, 5000)] }), 1, ((1, 5000)), by decide +kernel⟩,
   ⟨(cutting { uid := 1, t0 := 0, tc := some 900 }), ({ uid := 1, t0 := 0, tc := some 900 }), 900, by decide +kernel⟩,
   ⟨(cutting { uid := 1, t0 := 0, tc := some 900, copied := true, removed := [handOne], torn := [1] }), ({ uid := 1, t0 := 0, tc := some 900, copied := true, removed := [handOne], torn := [1] }), 900, by decide +kernel⟩,
   ⟨((base.updSeat 3 (fun x => { x with privFor := some 1 })) |> fun p => { base with toPart := p }), 3, 1, by decide +kernel⟩⟩

/-- What RegisterCommandsAct asks can be met, clause by clause. -/
theorem witness_RegisterCommandsAct :
    (∃ (s : State) (o : Origin) (c : Cmd) (b : Bytes), HouseReady s o 0x1601 b c ∧ b.length = 8 ∧ field b 0 4 % 4 = 0 ∧ 1 ≤ field b 4 4 ∧ field b 4 4 ≤ 64 ∧ s.hasDie (field b 0 4 / 2 ^ 24) = true ∧ field b 0 4 % 2 ^ 24 + 4 * field b 4 4 ≤ 2 ^ 24) ∧
    (∃ (s : State) (o : Origin) (c : Cmd) (b : Bytes), HouseReady s o 0x1602 b c ∧ b.length = 12 ∧ field b 0 4 % 4 = 0 ∧ s.hasDie (field b 0 4 / 2 ^ 24) = true ∧ appletOnly (field b 0 4) = false) :=
  ⟨⟨(serving 0x1601 (fields [(4, 0x060000), (4, 64)])), o1, (cmd 0x1601 (fields [(4, 0x060000), (4, 64)])), (fields [(4, 0x060000), (4, 64)]), (houseReady_of (by decide +kernel)), by decide +kernel⟩,
   ⟨(serving 0x1602 (fields [(4, 0x060008), (4, 3), (4, 15)])), o1, (cmd 0x1602 (fields [(4, 0x060008), (4, 3), (4, 15)])), (fields [(4, 0x060008), (4, 3), (4, 15)]), (houseReady_of (by decide +kernel)), by decide +kernel⟩⟩

/-- What RegisterRules asks can be met, clause by clause. -/
theorem witness_RegisterRules :
    (∃ (addr : Nat), isCountLo addr = true) ∧
    (∃ (p : Machine.Part) (v : Word) (m : Word), (((merged p.disp.longCap.toNat v m).toNat % 16) = 0 ∨ 8 < ((merged p.disp.longCap.toNat v m).toNat % 16))) ∧
    (∃ (p : Machine.Part) (v : Word) (m : Word), 1 ≤ ((merged p.disp.longCap.toNat v m).toNat % 16) ∧ ((merged p.disp.longCap.toNat v m).toNat % 16) ≤ 8) :=
  ⟨⟨0x050100, by decide +kernel⟩,
   ⟨base.toPart, 9, 15, by decide +kernel⟩,
   ⟨base.toPart, 3, 15, by decide +kernel⟩⟩

/-- What SystemCommandsAct asks can be met, clause by clause. -/
theorem witness_SystemCommandsAct :
    (∃ (s : State) (o : Origin) (c : Cmd) (b : Bytes), HouseReady s o 0x1201 b c ∧ b.length = 8 ∧ allZero (b.drop 1) = true ∧ s.hasSeat (field b 0 1) = true ∧ s.seatIn (field b 0 1) .selfTest = false ∧ (s.seat (field b 0 1)).parked = true) ∧
    (∃ (s : State) (o : Origin) (c : Cmd) (b : Bytes), HouseReady s o 0x1301 b c ∧ b.length = 8 ∧ 1 ≤ field b 0 4 ∧ field b 0 4 ≤ 60000 ∧ field b 4 4 = 0 ∧ s.power.fold = .running ∧ s.power.life = 1 ∧ s.vault.st = .open_ ∧ s.deal.st ≠ .cutting ∧ s.deal.st ≠ .teardown) ∧
    (∃ (s : State) (o : Origin) (c : Cmd), HouseReady s o 0x1302 [] c ∧ s.power.life = 1 ∧ s.power.fold = .folded) ∧
    (∃ (s : State) (o : Origin) (c : Cmd) (b : Bytes), HouseReady s o 0x1303 b c ∧ b.length = 8 ∧ field b 0 1 ≤ 3 ∧ field b 1 1 = 0 ∧ allZero (b.drop 2) = true ∧ s.power.life ≠ 3 ∧ (s.half (halfOf (field b 0 1))).draining = none ∧ (s.half (halfOf (field b 0 1))).enabled = true ∧ s.othersEnabled (halfOf (field b 0 1)) = true) ∧
    (∃ (s : State) (o : Origin) (c : Cmd) (b : Bytes), HouseReady s o 0x1303 b c ∧ b.length = 8 ∧ field b 0 1 ≤ 3 ∧ field b 1 1 = 1 ∧ allZero (b.drop 2) = true ∧ s.power.life ≠ 3 ∧ (s.half (halfOf (field b 0 1))).draining = none ∧ (s.half (halfOf (field b 0 1))).enabled = false) ∧
    (∃ (s : State) (o : Origin) (c : Cmd) (b : Bytes), HouseReady s o 0x1303 b c ∧ b.length = 8 ∧ field b 0 1 = 4 ∧ field b 1 1 = 0 ∧ allZero (b.drop 2) = true ∧ s.power.life ≠ 3 ∧ s.part.draining = none ∧ s.part.enabled = true) ∧
    (∃ (s : State) (o : Origin) (c : Cmd) (b : Bytes), HouseReady s o 0x1303 b c ∧ b.length = 8 ∧ field b 0 1 = 4 ∧ field b 1 1 = 1 ∧ allZero (b.drop 2) = true ∧ s.power.life ≠ 3 ∧ s.part.draining = none ∧ s.part.enabled = false) :=
  ⟨⟨((let s := serving 0x1201 (fields [(1, 7), (7, 0)]); { s with toPart := s.updSeat 7 (fun x => { x with st := .shed, parked := true }) })), o1, (cmd 0x1201 (fields [(1, 7), (7, 0)])), (fields [(1, 7), (7, 0)]), (houseReady_of (by decide +kernel)), by decide +kernel⟩,
   ⟨(serving 0x1301 (fields [(4, 60000), (4, 0)])), o1, (cmd 0x1301 (fields [(4, 60000), (4, 0)])), (fields [(4, 60000), (4, 0)]), (houseReady_of (by decide +kernel)), by decide +kernel⟩,
   ⟨((let s := serving 0x1302 []; { s with power := { s.power with fold := .folded } })), o1, (cmd 0x1302 []), (houseReady_of (by decide +kernel)), by decide +kernel⟩,
   ⟨((let s := serving 0x1303 (fields [(1, 0), (1, 0), (6, 0)]); { s with hb0 := { link := 3 } })), o1, (cmd 0x1303 (fields [(1, 0), (1, 0), (6, 0)])), (fields [(1, 0), (1, 0), (6, 0)]), (houseReady_of (by decide +kernel)), by decide +kernel⟩,
   ⟨((let s := serving 0x1303 (fields [(1, 3), (1, 1), (6, 0)]); { s with hb1 := { enabled := false } })), o1, (cmd 0x1303 (fields [(1, 3), (1, 1), (6, 0)])), (fields [(1, 3), (1, 1), (6, 0)]), (houseReady_of (by decide +kernel)), by decide +kernel⟩,
   ⟨(serving 0x1303 (fields [(1, 4), (1, 0), (6, 0)])), o1, (cmd 0x1303 (fields [(1, 4), (1, 0), (6, 0)])), (fields [(1, 4), (1, 0), (6, 0)]), (houseReady_of (by decide +kernel)), by decide +kernel⟩,
   ⟨((let s := serving 0x1303 (fields [(1, 4), (1, 1), (6, 0)]); { s with part := { s.part with enabled := false } })), o1, (cmd 0x1303 (fields [(1, 4), (1, 1), (6, 0)])), (fields [(1, 4), (1, 1), (6, 0)]), (houseReady_of (by decide +kernel)), by decide +kernel⟩⟩

/-- What FoldRowsAct asks can be met, clause by clause. -/
theorem witness_FoldRowsAct :
    (∃ (s : State), s.power.on = true ∧ s.power.fold = .entering ∧ s.power.drained = none) ∧
    (∃ (s : State) (td : Nat), s.power.on = true ∧ s.power.fold = .entering ∧ s.power.drained = some td ∧ s.power.retained = none) ∧
    (∃ (s : State), s.power.on = true ∧ s.power.fold = .waking) :=
  ⟨⟨((let s := withCmd base (cmd 0x3101 [] 1 .queued); { s with power := { s.power with fold := .entering, foldLimit := 1 } })), by decide +kernel⟩,
   ⟨({ base with power := { base.power with fold := .entering, drained := some 5 } }), 5, by decide +kernel⟩,
   ⟨({ base with power := { base.power with fold := .waking } }), by decide +kernel⟩⟩

/-- What GuardRowsAct asks can be met, clause by clause. -/
theorem witness_GuardRowsAct :
    (∃ (s : State) (die : Nat) (cls : Nat) (index : Nat) (mag : BitVec 16), s.power.on = true ∧ s.hasDie die = true ∧ cls ≤ 11 ∧ severity cls mag.toNat = 0 ∧ (cls < 10 → (s.sensor die cls index).retired = false)) ∧
    (∃ (s : State) (die : Nat) (cls : Nat) (index : Nat) (mag : BitVec 16), s.power.on = true ∧ s.hasDie die = true ∧ severity cls mag.toNat ≠ 0 ∧ (cls < 10 → (s.sensor die cls index).retired = false)) ∧
    (∃ (s : State) (t0 : Nat), s.power.on = true ∧ s.guard.dealerHold = some t0) ∧
    (∃ (s : State) (n : Nat) (e : Nat), s.power.on = true ∧ s.hasSeat n = true ∧ s.seatIn n .held = true ∧ (s.seat n).holdEnd = some e ∧ (s.lat n).thermal = false) ∧
    (∃ (s : State) (n : Nat), s.power.on = true ∧ s.hasSeat n = true ∧ s.seatIn n .shed = true ∧ (s.seat n).parked = false ∧ s.power.life = 1 ∧ ¬ (s.joker.scope = 3 ∧ s.joker.seats.getLsbD n = true)) ∧
    (∃ (s : State) (n : Nat), s.power.on = true ∧ s.hasSeat n = true ∧ s.seatIn n .selfTest = true) ∧
    (∃ (s : State) (n : Nat), s.power.on = true ∧ s.hasSeat n = true ∧ s.seatIn n .selfTest = true) ∧
    (∃ (s : State) (die : Nat), s.power.on = true ∧ s.hasDie die = true ∧ (s.lat die).thermal = true) ∧
    (∃ (s : State), s.power.on = true ∧ (s.lat 0).thermal = false ∧ s.power.life ≠ 3) :=
  ⟨⟨base, 7, 1, 4095, 0, by decide +kernel⟩,
   ⟨base, 0, 3, 0, 0xFFFF, by decide +kernel⟩,
   ⟨({ base with guard := { base.guard with dealerHold := some 900 } }), 900, by decide +kernel⟩,
   ⟨((let q := base.updSeat 7 (fun x => { x with st := .held, holdEnd := some 700 }); { base with toPart := q })), 7, 700, by decide +kernel⟩,
   ⟨((let q := base.updSeat 7 (fun x => { x with st := .shed }); { base with toPart := q })), 7, by decide +kernel⟩,
   ⟨((let q := base.updSeat 1 (fun x => { x with st := .selfTest, ecc1 := 5 }); { base with toPart := q })), 1, by decide +kernel⟩,
   ⟨((let q := base.updSeat 1 (fun x => { x with st := .selfTest, ecc1 := 5 }); { base with toPart := q })), 1, by decide +kernel⟩,
   ⟨((let q := base.updLat 0 (fun x => { x with thermal := true }); { base with toPart := q })), 0, by decide +kernel⟩,
   ⟨base, by decide +kernel⟩⟩

/-- What PowerRowsAct asks can be met, clause by clause. -/
theorem witness_PowerRowsAct :
    (∃ (s : State) (f : BootFindings) (bank : Bool) (v : Word), s.power.on = false ∧ f.railLow = false ∧ (s.badBanks f).bootBank = some (bank, v) ∧ s.rootCheck = none) ∧
    (∃ (s : State) (f : BootFindings) (bank : Bool) (v : Word), s.power.on = false ∧ f.railLow = false ∧ (s.badBanks f).bootBank = some (bank, v) ∧ s.rootCheck = none) ∧
    (∃ (s : State), s.power.on = true) ∧
    (∃ (s : State) (cls : Nat) (index : Nat) (mag : BitVec 16), s.power.on = false ∧ s.guard.vbatOk = true ∧ s.power.life ≠ 0 ∧ s.power.life ≠ 3 ∧ Part.watchedOff cls index = true ∧ severity cls mag.toNat ≠ 0) ∧
    (∃ (s : State), s.power.on = false) ∧
    (∃ (s : State), s.guard.vbatOk = false) ∧
    (∃ (s : State), s.power.on = false ∧ s.guard.vbatOk = true) ∧
    (∃ (s : State), s.power.xtalOk = true) ∧
    (∃ (s : State), s.power.xtalOk = false ∧ (s.power.on = true ∨ s.guard.vbatOk = true)) :=
  ⟨⟨State.reset, ({ railLow := false, badSeats := 0, dealerTrngOk := true, badStacks := 0, badFirmware := 0, badDeal := 0, offSeconds := 0, badLogBlocks := [], kittyBad := false }), false, 1, by decide +kernel⟩,
   ⟨State.reset, ({ railLow := false, badSeats := 0, dealerTrngOk := true, badStacks := 3, badFirmware := 2, badDeal := 3, offSeconds := 9, badLogBlocks := [(true, 3)], kittyBad := true }), false, 1, by decide +kernel⟩,
   ⟨base, by decide +kernel⟩,
   ⟨({ State.reset with power := { life := 1 } }), 9, 0, 0xFFFF, by decide +kernel⟩,
   ⟨({ State.reset with power := { life := 1 } }), by decide +kernel⟩,
   ⟨({ base with guard := { vbatOk := false } }), by decide +kernel⟩,
   ⟨State.reset, by decide +kernel⟩,
   ⟨({ base with power := { base.power with xtalOk := true } }), by decide +kernel⟩,
   ⟨base, by decide +kernel⟩⟩

/-- What PortRowsAct asks can be met, clause by clause. -/
theorem witness_PortRowsAct :
    (∃ (s : State) (h : Half), s.power.on = true ∧ 6 ≤ s.power.stage.toNat ∧ s.power.stage ≠ 8 ∧ ((s.takeMode h).half h).enabled = true ∧ (s.takeMode h).halfExists h = true) ∧
    (∃ (s : State) (h : Half), s.power.on = true ∧ (s.half h).up = true) ∧
    (∃ (s : State) (h : Half), s.power.on = true ∧ 6 ≤ s.power.stage.toNat ∧ s.power.stage ≠ 8 ∧ (s.half h).enabled = true ∧ s.halfExists h = true ∧ (s.half h).up = false) ∧
    (∃ (s : State), s.power.on = true) ∧
    (∃ (s : State) (h : Half) (t0 : Nat), s.power.on = true ∧ (s.half h).draining = some t0) ∧
    (∃ (s : State) (t0 : Nat), s.power.on = true ∧ s.part.draining = some t0 ∧ s.part.exchange = none) ∧
    (∃ (s : State) (h : Half) (ca : Nat), s.power.on = true ∧ s.portUp (.host h) = true ∧ ((s.half h).assocs.any (fun a => a.ca == ca) = true ∨ (s.half h).assocs.length < 4) ∧ s.cakOf (.host h) ca ≠ none) ∧
    (∃ (s : State) (h : Half) (ca : Nat), s.power.on = true ∧ s.portUp (.host h) = true ∧ (s.half h).assocs.any (fun a => a.ca == ca) = true) ∧
    (∃ (s : State) (h : Half) (k : IpService) (dst : BitVec 128), s.power.on = true ∧ (s.half h).link = 3 ∧ (s.half h).enabled = true ∧ s.ownAddress h k dst = true) ∧
    (∃ (s : State) (h : Half), s.power.on = true ∧ (s.half h).up = true) :=
  ⟨⟨({ base with power := { base.power with stage := 6 } }), .b0, by decide +kernel⟩,
   ⟨base, .a0, by decide +kernel⟩,
   ⟨({ base with power := { base.power with stage := 6 } }), .b0, by decide +kernel⟩,
   ⟨base, by decide +kernel⟩,
   ⟨({ base with ha0 := { link := 3, enabled := false, draining := some 70, retained := true } }), .a0, 70, by decide +kernel⟩,
   ⟨({ base with part := { base.part with enabled := false, draining := some 70 } }), 70, by decide +kernel⟩,
   ⟨keyed, .a0, 3, by decide +kernel⟩,
   ⟨({ base with ha0 := { link := 3, assocs := [{ ca := 3 }] } }), .a0, 3, by decide +kernel⟩,
   ⟨({ base with ha0 := { link := 3, ip4 := 77 } }), .a0, .arp, 77, by decide +kernel⟩,
   ⟨base, .a0, by decide +kernel⟩⟩

/-- What SessionRowsAct asks can be met, clause by clause. -/
theorem witness_SessionRowsAct :
    (∃ (s : State) (o : Origin) (c : Cmd) (id : BitVec 32), Ready s o 0x1003 [] c ∧ c.session? = some id) ∧
    (∃ (p : Machine.Part) (id : BitVec 32) (x : Session) (y : Session), p.findSession id = some x ∧ x.st = .open_ ∧ (p.startClosing id).findSession id = some y) ∧
    (∃ (s : State) (id : BitVec 32) (x : Session) (b : Bytes) (y : Machine.Stream), s.power.on = true ∧ s.findSession id = some x ∧ x.st ≠ .offered ∧ b.length = 16 ∧ s.findStream x.id (BitVec.ofNat 32 (field b 0 4)) = some y ∧ y.input = false ∧ field b 4 4 = 0 ∧ y.acked < field b 8 8 ∧ field b 8 8 ≤ y.announced ∧ s.shuffle.en = false) ∧
    (∃ (s : State) (id : BitVec 32) (x : Session) (b : Bytes) (y : Machine.Stream), s.power.on = true ∧ s.findSession id = some x ∧ x.st ≠ .offered ∧ 16 ≤ b.length ∧ field b 4 4 = 0 ∧ s.findStream x.id (BitVec.ofNat 32 (field b 0 4)) = some y ∧ y.input = true ∧ y.declared = none ∧ y.segs = [] ∧ field b 8 8 = y.acked ∧ (b.drop 16).length ≤ x.swin * 1024 ∧ s.shuffle.en = false) ∧
    (∃ (s : State) (id : BitVec 32) (sid : BitVec 32) (x : Session) (y : Machine.Stream), s.power.on = true ∧ s.shuffle.en = false ∧ s.findStream id sid = some y ∧ y.input = true ∧ y.announced < y.acked ∧ s.findSession id = some x ∧ s.canSend x.half = true) ∧
    (∃ (s : State) (id : BitVec 32) (sid : BitVec 32) (x : Session) (y : Machine.Stream), s.power.on = true ∧ s.shuffle.en = false ∧ s.findStream id sid = some y ∧ y.input = false ∧ y.acked < y.announced ∧ y.resends < 8 ∧ s.findSession id = some x ∧ s.canSend x.half = true) ∧
    (∃ (s : State) (id : BitVec 32) (sid : BitVec 32) (y : Machine.Stream) (c : Cmd), s.power.on = true ∧ s.findStream id sid = some y ∧ y.input = true ∧ y.ended ≠ some y.acked ∧ y.declared ≠ some y.acked ∧ s.findCmd y.uid = some c ∧ c.isCall = false ∧ c.place = .queued ∧ c.retract = none) ∧
    (∃ (s : State) (id : BitVec 32) (x : Session), s.power.on = true ∧ s.shuffle.en = false ∧ s.findSession id = some x ∧ x.st = .offered) ∧
    (∃ (s : State) (id : BitVec 32) (x : Session), s.power.on = true ∧ s.findSession id = some x ∧ x.st = .open_) ∧
    (∃ (s : State) (id : BitVec 32) (x : Session), s.power.on = true ∧ s.findSession id = some x ∧ x.st = .closing) :=
  ⟨⟨(serving 0x1003 []), o1, (cmd 0x1003 []), 1, (ready_of (by decide +kernel)), by decide +kernel⟩,
   ⟨((serving 0x1104 []).toPart), 1, houseSession, ((((serving 0x1104 []).toPart.startClosing 1).findSession 1).get (by decide +kernel)), by decide +kernel⟩,
   ⟨(withStream { outStream with announced := 8 }), 1, houseSession, (fields [(4, 5), (4, 0), (8, 8)]), ({ outStream with announced := 8 }), by decide +kernel⟩,
   ⟨(withStream inStream), 1, houseSession, (fields [(4, 5), (4, 0), (8, 0)] ++ [1, 2, 3]), inStream, by decide +kernel⟩,
   ⟨(withStream { inStream with acked := 3, data := [1, 2, 3], advAt := 9 }), 1, 5, houseSession, ({ inStream with acked := 3, data := [1, 2, 3], advAt := 9 }), by decide +kernel⟩,
   ⟨(withStream { outStream with announced := 8, resends := 7 }), 1, 5, houseSession, ({ outStream with announced := 8, resends := 7 }), by decide +kernel⟩,
   ⟨(withStream inStream), 1, 5, inStream, (cmd 0x4001 [] 0 .queued), by decide +kernel⟩,
   ⟨({ base with xct := { base.xct with sessions := [{ houseSession with st := .offered }] } }), 1, ({ houseSession with st := .offered }), by decide +kernel⟩,
   ⟨base, 1, houseSession, by decide +kernel⟩,
   ⟨({ base with xct := { base.xct with sessions := [{ houseSession with st := .closing }] } }), 1, ({ houseSession with st := .closing }), by decide +kernel⟩⟩

/-- What FrameRowsAct asks can be met, clause by clause. -/
theorem witness_FrameRowsAct :
    (∃ (s : State) (a : Arrival) (frame : Bytes) (body : Bytes) (x : Session), s.power.on = true ∧ s.guard.dealerHold = none ∧ (s.portChecks a frame.length).2 = true ∧ s.shuffle.en = false ∧ 32 ≤ frame.length ∧ (headerOf frame).readable = true ∧ (headerOf frame).segment = false ∧ (headerOf frame).session ≠ 0 ∧ (headerOf frame).status = 0 ∧ (headerOf frame).plen = body.length ∧ s.findSession (headerOf frame).session = some x ∧ x.st ≠ .offered ∧ Machine.Part.openFrame x (headerOf frame) frame a.secTag = some body ∧ Machine.Part.seqOk x (headerOf frame).seq = true ∧ (headerOf frame).seq < 2 ^ 64 - 1) ∧
    (∃ (s : State) (a : Arrival) (frame : Bytes) (body : Bytes) (x : Session), s.power.on = true ∧ s.guard.dealerHold = none ∧ (s.portChecks a frame.length).2 = true ∧ s.shuffle.en = false ∧ 32 ≤ frame.length ∧ (headerOf frame).readable = true ∧ (headerOf frame).segment = false ∧ (headerOf frame).session ≠ 0 ∧ (headerOf frame).status = 0 ∧ (headerOf frame).plen = body.length ∧ s.findSession (headerOf frame).session = some x ∧ x.st ≠ .offered ∧ Machine.Part.openFrame x (headerOf frame) frame a.secTag = some body ∧ Machine.Part.seqOk x (headerOf frame).seq = true ∧ (headerOf frame).seq < 2 ^ 64 - 1) ∧
    (∃ (s : State) (o : Origin) (b : Bytes) (c : Cmd) (code : Nat) (f : Origin → Bytes → Instr), (code, f) ∈ dealerRows ∧ s.power.on = true ∧ s.findRow o code = none ∧ (arrived s.toPart o code b).findRow o code = some c) ∧
    (∃ (s : State) (c : Cmd) (x : Session) (req : BitVec 64), s.power.on = true ∧ s.shuffle.en = false ∧ s.xct.replies.find? (fun r => r.session = x.id ∧ r.request = req) = none ∧ s.xct.cmds.find? (fun c => c.origin = .host x.id req ∧ c.place = .xct) = some c ∧ s.findSession x.id = some x ∧ x.st = .open_ ∧ x.seqOut < 2 ^ 64 - 2 ∧ s.mayLeave (Machine.Part.readyCmd c) = true ∧ x.waiting.any (fun w => w.code == 0x0330) = false) ∧
    (∃ (s : State) (r : Reply) (x : Session), s.power.on = true ∧ s.shuffle.en = false ∧ s.xct.replies.find? (fun e => e.session = x.id ∧ e.request = r.request) = some r ∧ r.bare = false ∧ s.findSession x.id = some x ∧ x.st = .open_ ∧ x.seqOut < 2 ^ 64 - 2 ∧ s.mayLeave (Machine.Part.readyReply r) = true) ∧
    (∃ (s : State) (x : Session) (n : Notice), s.power.on = true ∧ s.shuffle.en = false ∧ s.findSession x.id = some x ∧ x.st = .open_ ∧ x.waiting = [n] ∧ x.seqOut < 2 ^ 64 - 2 ∧ s.canSend x.half = true ∧ Machine.Part.reserve n.sev * tokenUnit ≤ refilled s.evr.budget 4000000 4000 s.now) :=
  ⟨⟨base, arrival, (frame 0x1004 1 []), ([]), houseSession, by decide +kernel⟩,
   ⟨base, arrival, bundleFrame, (bundleFrame.drop 32), houseSession, by decide +kernel⟩,
   ⟨base, o1, ([]), ({ cmd 0x1004 [] with stamp := 0 }), 0x1004, .sessionStatus, (by simp [dealerRows]), by decide +kernel⟩,
   ⟨(withCmd base { cmd 0x1004 [] 0 .xct with status := 7, payload := [1] }), ({ cmd 0x1004 [] 0 .xct with status := 7, payload := [1] }), houseSession, 1, by decide +kernel⟩,
   ⟨({ base with xct := { base.xct with replies := [aReply] } }), aReply, houseSession, by decide +kernel⟩,
   ⟨({ base with xct := { base.xct with sessions := [{ houseSession with waiting := [notice] }] } }), ({ houseSession with waiting := [notice] }), notice, by decide +kernel⟩⟩

/-- What TrickProgramsRun asks can be met, clause by clause. -/
theorem witness_TrickProgramsRun :
    ∃ (s : State) (n : Nat) (u : Nat) (prog : Nat) (i : Instr) (j : Job) (c : Cmd), (prog, i) ∈ [(0x01, Instr.pinTranslate n u), (0x02, .pinVerify n u), (0x11, .dukptPinTranslate n u), (0x12, .dukptMac n u), (0x21, .emvArqc n u), (0x22, .emvScript n u), (0x31, .macGenerate n u), (0x32, .macVerify n u), (0x41, .ff1Encrypt n u), (0x42, .ff1Decrypt n u), (0x51, .tdeaCbcEncrypt n u), (0x52, .tdeaCbcDecrypt n u), (0x81, .keyImport n u), (0x82, .keyExport n u), (0x84, .keyComponent n u)] ∧ s.power.on = true ∧ s.hasSeat n = true ∧ u < 16 ∧ s.tu n u = some j ∧ j.prog = prog ∧ j.out = none ∧ s.findCmd j.uid = some c :=
  ⟨((let s := seated (onSeat 0x3051 (tdeaHandle ++ zeros 8 ++ fields [(4, 8), (4, 0)] ++ zeros 8) (.engine 1 .tu 15)) .tu 15; { s with toPart := s.setTu 1 15 (some (job 0x51)) })), 1, 15, 0x51, (.tdeaCbcEncrypt 1 15), (job 0x51), (onSeat 0x3051 (tdeaHandle ++ zeros 8 ++ fields [(4, 8), (4, 0)] ++ zeros 8) (.engine 1 .tu 15)), (by simp), by decide +kernel⟩

/-- What TrickRowsAct asks can be met, clause by clause. -/
theorem witness_TrickRowsAct :
    (∃ (s : State) (n : Nat) (u : Nat) (ecc : Decoded) (c : Cmd), s.power.on = true ∧ s.hasSeat n = true ∧ u < 16 ∧ s.tileUp (siteTile n .tu u) = true ∧ s.tu n u = none ∧ s.seatIn n .inService = true ∧ s.drbgServes n = true ∧ s.nextFor n .tu (fun _ => true) = some c ∧ ecc = .uncorrectable ∧ handlesOf c.code c.params ≠ []) ∧
    (∃ (s : State) (n : Nat) (u : Nat) (ecc : Decoded) (c : Cmd) (count : Nat) (uses : List Machine.Part.KeyUse) (q : Machine.Part), s.power.on = true ∧ s.hasSeat n = true ∧ u < 16 ∧ s.tileUp (siteTile n .tu u) = true ∧ s.tu n u = none ∧ s.seatIn n .inService = true ∧ s.drbgServes n = true ∧ s.nextFor n .tu (fun _ => true) = some c ∧ ecc ≠ .uncorrectable ∧ (((s.atTime (s.tile (siteTile n .tu u)).since).keyRead n c ecc).1).tuCheck n c = .go count uses ∧ (((s.atTime (s.tile (siteTile n .tu u)).since).keyRead n c ecc).1).chargeAll n c uses = .ok q) ∧
    (∃ (s : State) (n : Nat) (u : Nat) (ecc : Decoded) (c : Cmd) (st : BitVec 16) (pl : Bytes), s.power.on = true ∧ s.hasSeat n = true ∧ u < 16 ∧ s.tileUp (siteTile n .tu u) = true ∧ s.tu n u = none ∧ s.seatIn n .inService = true ∧ s.drbgServes n = true ∧ s.nextFor n .tu (fun _ => true) = some c ∧ ecc ≠ .uncorrectable ∧ (((s.atTime (s.tile (siteTile n .tu u)).since).keyRead n c ecc).1).tuCheck n c = .refuse st pl ∧ s.findCmd c.uid = some c ∧ c.isCall = false ∧ c.retract = none) ∧
    (∃ (s : State) (n : Nat) (u : Nat) (ecc : Decoded) (j : Job) (o : Outcome) (c : Cmd), s.power.on = true ∧ s.hasSeat n = true ∧ u < 16 ∧ s.tu n u = some j ∧ j.out = some o ∧ s.findCmd j.uid = some c ∧ ecc ≠ .uncorrectable ∧ o.effect = .none ∧ j.prog ≠ 0x84 ∧ c.isCall = false ∧ c.retract = none) ∧
    (∃ (s : State) (n : Nat) (u : Nat) (ecc : Decoded) (j : Job) (o : Outcome) (c : Cmd), s.power.on = true ∧ s.hasSeat n = true ∧ u < 16 ∧ s.tu n u = some j ∧ j.out = some o ∧ s.findCmd j.uid = some c ∧ ecc ≠ .uncorrectable ∧ j.prog ≠ 0x84) ∧
    (∃ (s : State) (n : Nat) (u : Nat) (ecc : Decoded) (j : Job) (o : Outcome) (c : Cmd), s.power.on = true ∧ s.hasSeat n = true ∧ u < 16 ∧ s.tu n u = some j ∧ j.out = some o ∧ s.findCmd j.uid = some c ∧ ecc = .uncorrectable) ∧
    (∃ (b : Bytes) (key : Bytes) (d : Bytes), Machine.Part.tdeaCbc true b key = { status := Status.done, payload := d } ∧ b.length % 8 = 0 ∧ 24 ≤ b.length) :=
  ⟨⟨(seated (onSeat 0x3051 tdeaPars) .tu 15), 1, 15, .uncorrectable, (onSeat 0x3051 tdeaPars), by decide +kernel⟩,
   ⟨(seated (onSeat 0x3051 tdeaPars) .tu 15), 1, 15, .clean, (onSeat 0x3051 tdeaPars), (goCount (((seated (onSeat 0x3051 tdeaPars) .tu 15).atTime 30).tuCheck 1 (onSeat 0x3051 tdeaPars))), ([{ slot := 65, gen := 1, ktype := 5, uses := 1, blocks := 1 }]), _, by decide +kernel, by decide +kernel, by decide +kernel, by decide +kernel, by decide +kernel, by decide +kernel, by decide +kernel, by decide +kernel, by decide +kernel, by decide +kernel, (charged_ok _ (by decide +kernel))⟩,
   ⟨(seated (onSeat 0x3051 []) .tu 0), 1, 0, .single, (onSeat 0x3051 []), Status.lengthMismatch, ([]), by decide +kernel⟩,
   ⟨trickDone, 1, 0, .clean, ({ job 0x51 with out := some outcome }), outcome, (onSeat 0x3051 [] (.engine 1 .tu 0)), by decide +kernel⟩,
   ⟨trickDone, 1, 0, .double, ({ job 0x51 with out := some outcome }), outcome, (onSeat 0x3051 [] (.engine 1 .tu 0)), by decide +kernel⟩,
   ⟨trickDone, 1, 0, .uncorrectable, ({ job 0x51 with out := some outcome }), outcome, (onSeat 0x3051 [] (.engine 1 .tu 0)), by decide +kernel⟩,
   ⟨(zeros 32), Tests.tdeaKey.material, ((Machine.Part.tdeaCbc true (zeros 32) Tests.tdeaKey.material).payload), by decide +kernel⟩⟩

/-- What LaneModesRun asks can be met, clause by clause. -/
theorem witness_LaneModesRun :
    (∃ (s : State) (n : Nat) (l : Nat) (slot : Nat) (mode : Nat) (i : Instr) (j : LaneJob) (c : Cmd) (k : Slot) (key2 : Bytes), (mode, i) ∈ [(1, Instr.laneEcb n l slot), (2, .laneCbc n l slot), (3, .laneCtr n l slot), (4, .laneGcm n l slot), (5, .laneXts n l slot), (6, .laneCmac n l slot)] ∧ s.power.on = true ∧ s.hasSeat n = true ∧ l < 2 ∧ slot < 12 ∧ Sparse.get? (s.lane n l).slots slot = some j ∧ j.mode = mode ∧ j.out = none ∧ s.maskFresh n l = true ∧ s.findCmd j.uid = some c ∧ s.keyOf n c (slice c.params 0 8) = .ok k ∧ key2 = (match s.keyOf n c (slice c.params 8 8) with | .ok x => x.material | .error _ => []) ∧ mode = 5 ∧ k.material = key2) ∧
    (∃ (s : State) (n : Nat) (l : Nat) (slot : Nat) (mode : Nat) (i : Instr) (j : LaneJob) (c : Cmd) (k : Slot) (key2 : Bytes), (mode, i) ∈ [(1, Instr.laneEcb n l slot), (2, .laneCbc n l slot), (3, .laneCtr n l slot), (4, .laneGcm n l slot), (5, .laneXts n l slot), (6, .laneCmac n l slot)] ∧ s.power.on = true ∧ s.hasSeat n = true ∧ l < 2 ∧ slot < 12 ∧ Sparse.get? (s.lane n l).slots slot = some j ∧ j.mode = mode ∧ j.out = none ∧ s.maskFresh n l = true ∧ s.findCmd j.uid = some c ∧ s.keyOf n c (slice c.params 0 8) = .ok k ∧ key2 = (match s.keyOf n c (slice c.params 8 8) with | .ok x => x.material | .error _ => []) ∧ (mode = 5 → k.material ≠ key2)) :=
  ⟨⟨xtsSeated, 1, 1, 11, 5, (.laneXts 1 1 11), (laneJob 5), (onSeat 0x4005 xtsPars (.engine 1 .lane 1)), aesKey, aesKey.material, (by simp), by decide +kernel⟩,
   ⟨(laneSeated 0x4002 (lanePars 1 [9]) (laneJob 2)), 1, 1, 11, 2, (.laneCbc 1 1 11), (laneJob 2), (onSeat 0x4002 (lanePars 1 [9]) (.engine 1 .lane 1)), aesKey, ([]), (by simp), by decide +kernel⟩⟩

/-- What LaneRowsAct asks can be met, clause by clause. -/
theorem witness_LaneRowsAct :
    (∃ (s : State) (n : Nat) (l : Nat) (slot : Nat) (ecc : Decoded) (c : Cmd) (keys : List Slot) (q : Machine.Part), s.power.on = true ∧ s.hasSeat n = true ∧ l < 2 ∧ s.tileUp (siteTile n .lane l) = true ∧ s.seatIn n .inService = true ∧ Machine.Part.freeSlot (s.lane n l) = some slot ∧ s.nextFor n .lane (s.laneFit n) = some c ∧ Lane.modeOf c.code ≠ 0 ∧ (s.passTurn n c.hand .lane).laneCheck n c = .ok keys ∧ ecc ≠ .uncorrectable ∧ (Lane.req c.code c.params).resume = false ∧ ((Lane.req c.code c.params).mode = 4 → (Lane.req c.code c.params).op = 2) ∧ ((s.passTurn n c.hand .lane).keyRead n c ecc).1.chargeAll n c (Machine.Part.usesOf keys [0, 8] c.params [0, 0]) = .ok q) ∧
    (∃ (s : State) (n : Nat) (l : Nat) (slot : Nat) (c : Cmd) (st : BitVec 16) (pl : Bytes), s.power.on = true ∧ s.hasSeat n = true ∧ l < 2 ∧ s.tileUp (siteTile n .lane l) = true ∧ s.seatIn n .inService = true ∧ Machine.Part.freeSlot (s.lane n l) = some slot ∧ s.nextFor n .lane (s.laneFit n) = some c ∧ Lane.modeOf c.code ≠ 0 ∧ (s.passTurn n c.hand .lane).laneCheck n c = .error (st, pl) ∧ s.findCmd c.uid = some c ∧ c.isCall = false ∧ c.retract = none) ∧
    (∃ (s : State) (n : Nat) (l : Nat) (slot : Nat) (c : Cmd), s.power.on = true ∧ s.hasSeat n = true ∧ l < 2 ∧ s.tileUp (siteTile n .lane l) = true ∧ s.seatIn n .inService = true ∧ Machine.Part.freeSlot (s.lane n l) = some slot ∧ s.nextFor n .lane (s.laneFit n) = some c ∧ Lane.modeOf c.code = 0) ∧
    (∃ (s : State) (n : Nat) (l : Nat) (slot : Nat) (ecc : Decoded) (j : LaneJob) (o : Outcome) (c : Cmd), s.power.on = true ∧ s.hasSeat n = true ∧ l < 2 ∧ slot < 12 ∧ Sparse.get? (s.lane n l).slots slot = some j ∧ j.out = some o ∧ s.findCmd j.uid = some c ∧ o.effect = .none ∧ ecc ≠ .uncorrectable ∧ c.isCall = false ∧ c.retract = none ∧ (Lane.req c.code c.params).outId = 0) ∧
    (∃ (s : State) (n : Nat) (l : Nat) (slot : Nat) (ecc : Decoded) (j : LaneJob) (o : Outcome) (c : Cmd), s.power.on = true ∧ s.hasSeat n = true ∧ l < 2 ∧ slot < 12 ∧ Sparse.get? (s.lane n l).slots slot = some j ∧ j.out = some o ∧ s.findCmd j.uid = some c ∧ o.effect = .none ∧ ecc = .uncorrectable) ∧
    (∃ (s : State) (n : Nat) (l : Nat) (slot : Nat) (j : LaneJob) (c : Cmd), s.power.on = true ∧ s.hasSeat n = true ∧ l < 2 ∧ (s.lane n l).slots = [(slot, j)] ∧ s.findCmd j.uid = some c ∧ c.place = .engine n .lane l) ∧
    (∃ (s : State) (n : Nat) (l : Nat), s.power.on = true ∧ s.hasSeat n = true ∧ l < 2 ∧ s.tileUp (siteTile n .lane l) = true) ∧
    (∃ (s : State) (n : Nat) (l : Nat), s.power.on = true ∧ s.hasSeat n = true ∧ l < 2 ∧ s.tileUp (siteTile n .lane l) = true ∧ (s.lane n l).requested = true ∧ s.drbgServes n = true) ∧
    (∃ (s : State) (n : Nat) (l : Nat), s.power.on = true ∧ s.hasSeat n = true ∧ l < 2 ∧ s.tileUp (siteTile n .lane l) = true ∧ ((s.lane n l).requested = false ∨ s.drbgServes n = false)) ∧
    (∃ (s : State) (n : Nat) (l : Nat) (slot : Nat) (j : LaneJob) (c : Cmd), s.power.on = true ∧ s.hasSeat n = true ∧ l < 2 ∧ slot < 12 ∧ Sparse.get? (s.lane n l).slots slot = some j ∧ s.findCmd j.uid = some c ∧ c.uid = j.uid ∧ c.code = 0x4101 ∧ s.linkUp n = true ∧ c.isCall = false ∧ c.retract = none ∧ c.params.length = 16 ∧ allZero (slice c.params 8 8) = true ∧ s.ticketFault c.hand (ticketOf (c.params.take 8)) = none ∧ field (s.ctx (Machine.Part.ctxKey (ticketOf (c.params.take 8)).hand (ticketOf (c.params.take 8)).index)).data 0 1 = 1 ∧ (field (s.ctx (Machine.Part.ctxKey (ticketOf (c.params.take 8)).hand (ticketOf (c.params.take 8)).index)).data 1 1 = 2 ∨ field (s.ctx (Machine.Part.ctxKey (ticketOf (c.params.take 8)).hand (ticketOf (c.params.take 8)).index)).data 1 1 = 3)) ∧
    (∃ (s : State) (n : Nat) (l : Nat) (slot : Nat) (j : LaneJob) (c : Cmd) (g : Nat), s.power.on = true ∧ s.hasSeat n = true ∧ l < 2 ∧ slot < 12 ∧ Sparse.get? (s.lane n l).slots slot = some j ∧ s.findCmd j.uid = some c ∧ c.uid = j.uid ∧ c.code = 0x4102 ∧ s.linkUp n = true ∧ c.isCall = false ∧ c.retract = none ∧ c.params.length = 144 ∧ allZero (slice c.params 0 8) = true ∧ slice c.params 8 8 = [1, 0, 0, 0, 0, 0, 0, 128] ∧ Machine.Part.laneRecordOk (c.params.drop 16) = true ∧ (field (c.params.drop 16) 1 1 = 2 ∨ field (c.params.drop 16) 1 1 = 3) ∧ field (c.params.drop 16) 4 1 = c.hand ∧ s.freeRecord c.hand = some g) ∧
    (∃ (s : State) (n : Nat) (l : Nat) (slot : Nat) (j : LaneJob) (c : Cmd), s.power.on = true ∧ s.hasSeat n = true ∧ l < 2 ∧ slot < 12 ∧ Sparse.get? (s.lane n l).slots slot = some j ∧ s.findCmd j.uid = some c ∧ c.uid = j.uid ∧ c.code = 0x4103 ∧ s.linkUp n = true ∧ c.isCall = false ∧ c.retract = none ∧ c.params.length = 8 ∧ s.ticketFault c.hand (ticketOf c.params) = none ∧ field (s.ctx (Machine.Part.ctxKey (ticketOf c.params).hand (ticketOf c.params).index)).data 0 1 = 1) :=
  ⟨⟨(laneOpen 0x4002 (lanePars 1 [9])), 1, 1, 0, .clean, (onSeat 0x4002 (lanePars 1 [9])), ([aesKey]), _, by decide +kernel, by decide +kernel, by decide +kernel, by decide +kernel, by decide +kernel, by decide +kernel, by decide +kernel, by decide +kernel, by decide +kernel, by decide +kernel, by decide +kernel, by decide +kernel, (charged_ok _ (by decide +kernel))⟩,
   ⟨(laneOpen 0x4002 []), 1, 1, 0, (onSeat 0x4002 []), Status.lengthMismatch, ([]), by decide +kernel⟩,
   ⟨(seated (onSeat 0x4103 ticket) .lane 0), 1, 0, 0, (onSeat 0x4103 ticket), by decide +kernel⟩,
   ⟨(laneSeated 0x4001 (lanePars 1 []) { laneJob 1 with out := some outcome }), 1, 1, 11, .single, ({ laneJob 1 with out := some outcome }), outcome, (onSeat 0x4001 (lanePars 1 []) (.engine 1 .lane 1)), by decide +kernel⟩,
   ⟨(laneSeated 0x4001 (lanePars 1 []) { laneJob 1 with out := some outcome }), 1, 1, 11, .uncorrectable, ({ laneJob 1 with out := some outcome }), outcome, (onSeat 0x4001 (lanePars 1 []) (.engine 1 .lane 1)), by decide +kernel⟩,
   ⟨(laneSeated 0x4001 (lanePars 1 []) (laneJob 1)), 1, 1, 11, (laneJob 1), (onSeat 0x4001 (lanePars 1 []) (.engine 1 .lane 1)), by decide +kernel⟩,
   ⟨(seated (onSeat 0x4001 []) .lane 1), 1, 1, by decide +kernel⟩,
   ⟨((let s := seated (onSeat 0x4002 []) .lane 1; { s with toPart := s.setLane 1 1 { seeded := true, requested := true, seedDue := 8192 } })), 1, 1, by decide +kernel⟩,
   ⟨((let s := seated (onSeat 0x4002 []) .lane 1; { s with toPart := s.setLane 1 1 { seeded := true, seedDue := 8192 } })), 1, 1, by decide +kernel⟩,
   ⟨(withCtx (laneSeated 0x4101 (ticket ++ zeros 8) (laneJob 0)) laneRecord), 1, 1, 11, (laneJob 0), (onSeat 0x4101 (ticket ++ zeros 8) (.engine 1 .lane 1)), by decide +kernel⟩,
   ⟨(laneSeated 0x4102 (zeros 8 ++ [1, 0, 0, 0, 0, 0, 0, 128] ++ laneRecord) (laneJob 0)), 1, 1, 11, (laneJob 0), (onSeat 0x4102 (zeros 8 ++ [1, 0, 0, 0, 0, 0, 0, 128] ++ laneRecord) (.engine 1 .lane 1)), 0, by decide +kernel⟩,
   ⟨(withCtx (laneSeated 0x4103 ticket (laneJob 0)) laneRecord), 1, 1, 11, (laneJob 0), (onSeat 0x4103 ticket (.engine 1 .lane 1)), by decide +kernel⟩⟩

/-- What PkeOperationsRun asks can be met, clause by clause. -/
theorem witness_PkeOperationsRun :
    (∃ (s : State) (n : Nat) (k : Nat) (b : Nat) (op : Nat) (i : Instr) (j : Job) (c : Cmd), (op, i) ∈ [(0x01, Instr.pkeEcdsaSign n k), (0x02, .pkeEcdsaVerify n k), (0x03, .pkeEd25519Sign n k), (0x04, .pkeEd25519Verify n k), (0x11, .pkeAgree n k), (0x21, .pkeRsaSign n k), (0x22, .pkeRsaPublic n k), (0x23, .pkeRsaUnwrap n k), (0x31, .pkeMldsaVerify n k), (0x40, .keyGenerate n k)] ∧ s.power.on = true ∧ s.hasSeat n = true ∧ k < 8 ∧ Machine.Part.runningBank (s.pke n k) = some b ∧ Machine.Part.bank (s.pke n k) b = some j ∧ j.prog = op ∧ j.out = none ∧ s.findCmd j.uid = some c ∧ (op = 0x40 → field c.params 4 1 ≠ 0x20) ∧ (Machine.Part.drawsRandom c = true → s.drbgServes n = true)) ∧
    (∃ (s : State) (n : Nat) (k : Nat) (j : Job) (c : Cmd), s.power.on = true ∧ s.hasSeat n = true ∧ k < 8 ∧ (s.pke n k).bank0 = none ∧ (s.pke n k).bank1 = some j ∧ (s.pke n k).parked = false ∧ j.prog = 0x40 ∧ j.out = none ∧ s.findCmd j.uid = some c ∧ field c.params 4 1 = 0x20 ∧ (s.pke n k).keygen.stage = 0 ∧ s.drbgServes n = true) :=
  ⟨⟨(pkeSeated (onSeat 0x5004 verifyPars (.engine 1 .pke 7)) { bank0 := some (job 0x04) }), 1, 7, 0, 0x04, (.pkeEd25519Verify 1 7), (job 0x04), (onSeat 0x5004 verifyPars (.engine 1 .pke 7)), (by simp), by decide +kernel⟩,
   ⟨(pkeSeated (onSeat 0x2003 rsaGenPars (.engine 1 .pke 7) .long) { bank1 := some (job 0x40) }), 1, 7, (job 0x40), (onSeat 0x2003 rsaGenPars (.engine 1 .pke 7) .long), by decide +kernel⟩⟩

/-- What PkeRowsAct asks can be met, clause by clause. -/
theorem witness_PkeRowsAct :
    (∃ (s : State) (n : Nat) (k : Nat) (ecc : Decoded) (c : Cmd) (count : Nat) (uses : List Machine.Part.KeyUse) (q : Machine.Part), s.power.on = true ∧ s.hasSeat n = true ∧ k < 8 ∧ s.tileUp (siteTile n .pke k) = true ∧ s.engineBusy n .pke k = false ∧ s.seatIn n .inService = true ∧ s.nextFor n .pke (fun c => c.cls != .long || s.longCores n < s.disp.longCap.toNat) = some c ∧ (s.atTime (s.tile (siteTile n .pke k)).since).pkeCheck n c = .go count uses ∧ ecc ≠ .uncorrectable ∧ ((s.atTime (s.tile (siteTile n .pke k)).since).keyRead n c ecc).1.chargeAll n c uses = .ok q) ∧
    (∃ (s : State) (n : Nat) (k : Nat) (c : Cmd) (st : BitVec 16) (pl : Bytes), s.power.on = true ∧ s.hasSeat n = true ∧ k < 8 ∧ s.tileUp (siteTile n .pke k) = true ∧ s.engineBusy n .pke k = false ∧ s.seatIn n .inService = true ∧ s.nextFor n .pke (fun c => c.cls != .long || s.longCores n < s.disp.longCap.toNat) = some c ∧ (s.atTime (s.tile (siteTile n .pke k)).since).pkeCheck n c = .refuse st pl ∧ s.findCmd c.uid = some c ∧ c.isCall = false ∧ c.retract = none) ∧
    (∃ (s : State) (n : Nat) (k : Nat) (ecc : Decoded) (j : Job) (o : Outcome) (c : Cmd), s.power.on = true ∧ s.hasSeat n = true ∧ k < 8 ∧ (s.pke n k).bank0 = some j ∧ j.out = some o ∧ s.findCmd j.uid = some c ∧ (Machine.Part.drawsRandom c = true → s.drbgServes n = true) ∧ ecc ≠ .uncorrectable ∧ j.sound = true ∧ o.effect = .none ∧ c.isCall = false ∧ c.retract = none) ∧
    (∃ (s : State) (n : Nat) (k : Nat) (ecc : Decoded) (j : Job) (o : Outcome) (c : Cmd) (ok : Bool), s.power.on = true ∧ s.hasSeat n = true ∧ k < 8 ∧ (s.pke n k).bank0 = some j ∧ j.out = some o ∧ s.findCmd j.uid = some c ∧ (Machine.Part.drawsRandom c = true → s.drbgServes n = true) ∧ ecc ≠ .uncorrectable ∧ (ok && j.sound) = false ∧ (s.pke n k).bank1 = none) ∧
    (∃ (s : State) (n : Nat) (k : Nat) (ecc : Decoded) (j : Job) (o : Outcome) (c : Cmd), s.power.on = true ∧ s.hasSeat n = true ∧ k < 8 ∧ (s.pke n k).bank0 = some j ∧ j.out = some o ∧ s.findCmd j.uid = some c ∧ (Machine.Part.drawsRandom c = true → s.drbgServes n = true) ∧ ecc = .uncorrectable) ∧
    (∃ (s : State) (n : Nat) (k : Nat) (o : Nat) (count : Nat) (j : Job) (c : Cmd) (tr : Cmd) (uses : List Machine.Part.KeyUse) (q : Machine.Part), s.power.on = true ∧ s.hasSeat n = true ∧ k < 8 ∧ (s.pke n k).bank1 = some j ∧ (s.pke n k).parked = false ∧ (s.pke n k).bank0 = none ∧ (List.range 8).any (fun i => s.idleCore n i) = false ∧ s.seatIn n .inService = true ∧ s.findCmd j.uid = some c ∧ s.firstTrump n = some tr ∧ tr.cls = .trump ∧ s.nextYield c j (s.pke n k).keygen = some o ∧ (List.range k).any (fun i => s.yieldTime n i == s.yieldTime n k) = false ∧ ((((s.toPart.atTime (j.start + j.elapsed + o)).wait 256).setPke n k { s.pke n k with parked := true, bank1 := some { j with offset := o } }).bump (regAddr n (Machine.Part.pkeWin k) 0x0120)).pkeCheck n tr = .go count uses ∧ ((((s.toPart.atTime (j.start + j.elapsed + o)).wait 256).setPke n k { s.pke n k with parked := true, bank1 := some { j with offset := o } }).bump (regAddr n (Machine.Part.pkeWin k) 0x0120)).chargeAll n tr uses = .ok q) ∧
    (∃ (s : State) (n : Nat) (k : Nat) (j : Job), s.power.on = true ∧ s.hasSeat n = true ∧ k < 8 ∧ (s.pke n k).bank1 = some j ∧ (s.pke n k).parked = true ∧ (s.pke n k).bank0 = none ∧ (s.tile (siteTile n .pke k)).st ≠ .scrubbing) ∧
    (∃ (s : State) (n : Nat) (k : Nat) (m : Nat) (j : Job) (c : Cmd), s.power.on = true ∧ s.hasSeat n = true ∧ k < 8 ∧ (s.pke n k).bank1 = some j ∧ s.findCmd j.uid = some c ∧ (s.pke n k).parked = false ∧ s.drbgServes n = true ∧ m = field c.params 5 1 ∧ ((s.pke n k).keygen).stage = 1 ∧ Pk.keepCandidate (32 * m) ((s.pke n k).keygen).candidate ((s.pke n k).keygen).primes (s.drawn 2048) = false) :=
  ⟨⟨(seated (onSeat 0x5004 verifyPars) .pke 7), 1, 7, .clean, (onSeat 0x5004 verifyPars), (goCount ((seated (onSeat 0x5004 verifyPars) .pke 7).pkeCheck 1 (onSeat 0x5004 verifyPars))), ([]), _, by decide +kernel, by decide +kernel, by decide +kernel, by decide +kernel, by decide +kernel, by decide +kernel, by decide +kernel, by decide +kernel, by decide +kernel, (charged_ok _ (by decide +kernel))⟩,
   ⟨(seated (onSeat 0x5004 []) .pke 7), 1, 7, (onSeat 0x5004 []), Status.lengthMismatch, ([]), by decide +kernel⟩,
   ⟨pkeDone, 1, 7, .clean, ({ job 0x04 with out := some outcome }), outcome, (onSeat 0x5004 verifyPars (.engine 1 .pke 7)), by decide +kernel⟩,
   ⟨pkeDone, 1, 7, .clean, ({ job 0x04 with out := some outcome }), outcome, (onSeat 0x5004 verifyPars (.engine 1 .pke 7)), false, by decide +kernel⟩,
   ⟨pkeDone, 1, 7, .uncorrectable, ({ job 0x04 with out := some outcome }), outcome, (onSeat 0x5004 verifyPars (.engine 1 .pke 7)), by decide +kernel⟩,
   ⟨yielding, 1, 7, 850, (goCount (yielding.pkeCheck 1 trumpCmd)), ({ job 0x40 with uid := 2 }), ({ onSeat 0x2003 rsaGenPars (.engine 1 .pke 7) .long with uid := 2 }), trumpCmd, ([]), _, by decide +kernel, by decide +kernel, by decide +kernel, by decide +kernel, by decide +kernel, by decide +kernel, by decide +kernel, by decide +kernel, by decide +kernel, by decide +kernel, by decide +kernel, by decide +kernel, by decide +kernel, by decide +kernel, (charged_ok _ (by decide +kernel))⟩,
   ⟨(pkeSeated (onSeat 0x2003 rsaGenPars (.engine 1 .pke 7) .long) { bank1 := some (job 0x40), parked := true }), 1, 7, (job 0x40), by decide +kernel⟩,
   ⟨(keygenAt 1 65538 []), 1, 7, 8, (job 0x40), (onSeat 0x2003 rsaGenPars (.engine 1 .pke 7) .long), by decide +kernel⟩⟩

/-- What DigestCommandsRun asks can be met, clause by clause. -/
theorem witness_DigestCommandsRun :
    (∃ (s : State) (n : Nat) (e : Nat) (j : Job) (c : Cmd) (data : Bytes), s.power.on = true ∧ s.hasSeat n = true ∧ e < 2 ∧ (s.dgst n e).job = some j ∧ j.prog = 0x6001 ∧ j.out = none ∧ s.findCmd j.uid = some c ∧ s.digestFeed c (Dg.req c.params) = .whole data) ∧
    (∃ (s : State) (n : Nat) (e : Nat) (j : Job) (c : Cmd), s.power.on = true ∧ s.hasSeat n = true ∧ e < 2 ∧ (s.dgst n e).job = some j ∧ s.findCmd j.uid = some c ∧ c.uid = j.uid ∧ c.code = 0x6101 ∧ s.linkUp n = true ∧ c.isCall = false ∧ c.retract = none ∧ c.params.length = 16 ∧ allZero (slice c.params 8 8) = true ∧ s.ticketFault c.hand (ticketOf (c.params.take 8)) = none ∧ field (s.ctx (Machine.Part.ctxKey (ticketOf (c.params.take 8)).hand (ticketOf (c.params.take 8)).index)).data 0 1 = 2 ∧ field (s.ctx (Machine.Part.ctxKey (ticketOf (c.params.take 8)).hand (ticketOf (c.params.take 8)).index)).data 2 1 = 0) ∧
    (∃ (s : State) (n : Nat) (e : Nat) (j : Job) (c : Cmd) (g : Nat), s.power.on = true ∧ s.hasSeat n = true ∧ e < 2 ∧ (s.dgst n e).job = some j ∧ s.findCmd j.uid = some c ∧ c.uid = j.uid ∧ c.code = 0x6102 ∧ s.linkUp n = true ∧ c.isCall = false ∧ c.retract = none ∧ c.params.length = 272 ∧ allZero (slice c.params 0 8) = true ∧ slice c.params 8 8 = [1, 0, 0, 0, 0, 0, 1, 0] ∧ Dg.recordOk (c.params.drop 16) = true ∧ field (c.params.drop 16) 2 1 = 0 ∧ field (c.params.drop 16) 4 1 = c.hand ∧ s.freeRecord c.hand = some g) ∧
    (∃ (s : State) (n : Nat) (e : Nat) (j : Job) (c : Cmd), s.power.on = true ∧ s.hasSeat n = true ∧ e < 2 ∧ (s.dgst n e).job = some j ∧ s.findCmd j.uid = some c ∧ c.uid = j.uid ∧ c.code = 0x6103 ∧ s.linkUp n = true ∧ c.isCall = false ∧ c.retract = none ∧ c.params.length = 8 ∧ s.ticketFault c.hand (ticketOf c.params) = none ∧ field (s.ctx (Machine.Part.ctxKey (ticketOf c.params).hand (ticketOf c.params).index)).data 0 1 = 2) :=
  ⟨⟨(digestSeated (onSeat 0x6001 hashPars (.engine 1 .digest 1)) { job := some (job 0x6001) }), 1, 1, (job 0x6001), (onSeat 0x6001 hashPars (.engine 1 .digest 1)), ([97, 98, 99]), by decide +kernel⟩,
   ⟨(withCtx (digestSeated (onSeat 0x6101 (ticket ++ zeros 8) (.engine 1 .digest 1)) { job := some (job 0x6101) }) dgstRecord), 1, 1, (job 0x6101), (onSeat 0x6101 (ticket ++ zeros 8) (.engine 1 .digest 1)), by decide +kernel⟩,
   ⟨(digestSeated (onSeat 0x6102 (zeros 8 ++ [1, 0, 0, 0, 0, 0, 1, 0] ++ dgstRecord) (.engine 1 .digest 1)) { job := some (job 0x6102) }), 1, 1, (job 0x6102), (onSeat 0x6102 (zeros 8 ++ [1, 0, 0, 0, 0, 0, 1, 0] ++ dgstRecord) (.engine 1 .digest 1)), 0, by decide +kernel⟩,
   ⟨(withCtx (digestSeated (onSeat 0x6103 ticket (.engine 1 .digest 1)) { job := some (job 0x6103) }) dgstRecord), 1, 1, (job 0x6103), (onSeat 0x6103 ticket (.engine 1 .digest 1)), by decide +kernel⟩⟩

/-- What DigestRowsAct asks can be met, clause by clause. -/
theorem witness_DigestRowsAct :
    (∃ (s : State) (n : Nat) (e : Nat) (ecc : Decoded) (c : Cmd) (k : Option Slot) (q : Machine.Part), s.power.on = true ∧ s.hasSeat n = true ∧ e < 2 ∧ s.tileUp (siteTile n .digest e) = true ∧ (s.dgst n e).job = none ∧ (s.dgst n e).reg = none ∧ (s.dgst n e).claim = none ∧ (s.dgst n e).wanted = none ∧ s.seatIn n .inService = true ∧ s.nextFor n .digest (s.dgstFit n e) = some c ∧ c.code = 0x6001 ∧ (Dg.req c.params).resume = false ∧ (s.atTime (s.tile (siteTile n .digest e)).since).dgstCheck n c = .ok k ∧ ecc ≠ .uncorrectable ∧ ((s.atTime (s.tile (siteTile n .digest e)).since).keyRead n c ecc).1.chargeAll n c (Machine.Part.digestUses k c.params) = .ok q) ∧
    (∃ (s : State) (n : Nat) (e : Nat) (c : Cmd) (st : BitVec 16) (pl : Bytes), s.power.on = true ∧ s.hasSeat n = true ∧ e < 2 ∧ s.tileUp (siteTile n .digest e) = true ∧ (s.dgst n e).job = none ∧ (s.dgst n e).reg = none ∧ (s.dgst n e).claim = none ∧ (s.dgst n e).wanted = none ∧ s.seatIn n .inService = true ∧ s.nextFor n .digest (s.dgstFit n e) = some c ∧ c.code = 0x6001 ∧ (s.atTime (s.tile (siteTile n .digest e)).since).dgstCheck n c = .error (st, pl) ∧ s.findCmd c.uid = some c ∧ c.isCall = false ∧ c.retract = none) ∧
    (∃ (s : State) (n : Nat) (e : Nat) (ecc : Decoded) (j : Job) (o : Outcome) (c : Cmd), s.power.on = true ∧ s.hasSeat n = true ∧ e < 2 ∧ (s.dgst n e).job = some j ∧ j.out = some o ∧ o.effect = .none ∧ s.findCmd j.uid = some c ∧ ecc ≠ .uncorrectable ∧ c.isCall = false ∧ c.retract = none ∧ (allZero (slice c.params 0 8) = true ∨ s.drbgServes n = true) ∧ (o.status = Status.done ∨ o.status = DgStatus.mismatch)) ∧
    (∃ (s : State) (n : Nat) (e : Nat) (ecc : Decoded) (j : Job) (o : Outcome) (c : Cmd), s.power.on = true ∧ s.hasSeat n = true ∧ e < 2 ∧ (s.dgst n e).job = some j ∧ j.out = some o ∧ o.effect = .none ∧ s.findCmd j.uid = some c ∧ ecc = .uncorrectable) ∧
    (∃ (s : State) (n : Nat) (e : Nat) (j : Job), s.power.on = true ∧ s.hasSeat n = true ∧ e < 2 ∧ (s.dgst n e).job = some j) ∧
    (∃ (s : State) (n : Nat) (k : Nat), s.power.on = true ∧ s.hasSeat n = true ∧ k < 4 ∧ (s.core n k).run = .running ∧ (s.core n k).stalledAt = none ∧ (s.grantsOf (s.core n k)).getLsbD 0 = true ∧ (s.dgst n 1).claim = none ∧ (s.dgst n 1).wanted = none ∧ (s.dgst n 1).job = none ∧ s.tileUp (siteTile n .digest 1) = true) ∧
    (∃ (s : State) (n : Nat) (k : Nat), s.power.on = true ∧ s.hasSeat n = true ∧ k < 4 ∧ (s.core n k).run = .running ∧ (s.core n k).stalledAt = none ∧ (s.grantsOf (s.core n k)).getLsbD 0 = true ∧ (s.dgst n 1).claim = none ∧ (s.dgst n 1).wanted = none ∧ ((s.dgst n 1).job ≠ none ∨ s.tileUp (siteTile n .digest 1) = false)) ∧
    (∃ (s : State) (n : Nat) (k : Nat), s.power.on = true ∧ s.hasSeat n = true ∧ k < 4 ∧ (s.core n k).run = .running ∧ (s.core n k).stalledAt = none ∧ (s.grantsOf (s.core n k)).getLsbD 0 = true ∧ (s.dgst n 1).claim = some k ∧ (s.dgst n 1).reg = none) ∧
    (∃ (s : State) (n : Nat) (k : Nat) (ctrl : Word) (len : BitVec 64), s.power.on = true ∧ s.hasSeat n = true ∧ k < 4 ∧ (s.core n k).run = .running ∧ (s.core n k).stalledAt = none ∧ (s.grantsOf (s.core n k)).getLsbD 0 = true ∧ (s.dgst n 1).claim = some k ∧ (ctrl : Word).toNat / 256 % 4 = 0 ∧ 1 ≤ ctrl.toNat % 16 ∧ ctrl.toNat % 16 ≤ 8 ∧ (Dg.isShake (ctrl.toNat % 16) = false → ctrl.toNat / 65536 % 64 = 0) ∧ (len : BitVec 64).toNat ≤ 2 ^ 48 ∧ (s.core n k).uid.bind s.findCmd ≠ none ∧ (s.tile (siteTile n .digest 1)).st ≠ .scrubbing) ∧
    (∃ (s : State) (n : Nat) (k : Nat) (j : RegJob), s.power.on = true ∧ s.hasSeat n = true ∧ k < 4 ∧ (s.core n k).run = .running ∧ (s.core n k).stalledAt = none ∧ (s.grantsOf (s.core n k)).getLsbD 0 = true ∧ (s.dgst n 1).claim = some k ∧ (s.dgst n 1).reg = some j ∧ (s.dgst n 1).busy = false ∧ j.lastSeen = false ∧ j.fed.length + 4 ≤ j.len) ∧
    (∃ (s : State) (n : Nat) (k : Nat) (j : RegJob) (value : Word), s.power.on = true ∧ s.hasSeat n = true ∧ k < 4 ∧ (s.core n k).run = .running ∧ (s.core n k).stalledAt = none ∧ (s.grantsOf (s.core n k)).getLsbD 0 = true ∧ (s.dgst n 1).claim = some k ∧ (s.dgst n 1).reg = some j ∧ (s.dgst n 1).busy = false ∧ j.lastSeen = false ∧ value.toNat / 4 % 64 = 0 ∧ j.fed.length + value.toNat % 4 = j.len) ∧
    (∃ (s : State) (n : Nat) (k : Nat) (value : Word), s.power.on = true ∧ s.hasSeat n = true ∧ k < 4 ∧ (s.core n k).run = .running ∧ (s.core n k).stalledAt = none ∧ (s.grantsOf (s.core n k)).getLsbD 0 = true ∧ (s.dgst n 1).claim = some k ∧ (s.dgst n 1).done = true ∧ 4 ≤ (value : Word).toNat % 128 ∧ value.toNat % 128 ≤ (s.dgst n 1).output.length) ∧
    (∃ (s : State) (n : Nat) (k : Nat), s.power.on = true ∧ s.hasSeat n = true ∧ (s.dgst n 1).wanted = some k ∧ (s.dgst n 1).job = none ∧ (s.dgst n 1).claim = none ∧ s.tileUp (siteTile n .digest 1) = true) ∧
    (∃ (s : State) (n : Nat) (k : Nat), s.power.on = true ∧ s.hasSeat n = true ∧ (s.dgst n 1).claim = some k) ∧
    (∃ (s : State) (n : Nat) (k : Nat) (j : RegJob), s.power.on = true ∧ s.hasSeat n = true ∧ (s.dgst n 1).reg = some j ∧ (s.dgst n 1).claim = some k ∧ (s.dgst n 1).busy = true ∧ j.key = 0) :=
  ⟨⟨(seated (onSeat 0x6001 hashPars) .digest 1), 1, 1, .clean, (onSeat 0x6001 hashPars), none, _, by decide +kernel, by decide +kernel, by decide +kernel, by decide +kernel, by decide +kernel, by decide +kernel, by decide +kernel, by decide +kernel, by decide +kernel, by decide +kernel, by decide +kernel, by decide +kernel, by decide +kernel, by decide +kernel, (charged_ok _ (by decide +kernel))⟩,
   ⟨(seated (onSeat 0x6001 []) .digest 1), 1, 1, (onSeat 0x6001 []), Status.lengthMismatch, ([]), by decide +kernel⟩,
   ⟨(digestSeated (onSeat 0x6001 hashPars (.engine 1 .digest 1)) { job := some { job 0x6001 with out := some outcome } }), 1, 1, .clean, ({ job 0x6001 with out := some outcome }), outcome, (onSeat 0x6001 hashPars (.engine 1 .digest 1)), by decide +kernel⟩,
   ⟨(digestSeated (onSeat 0x6001 hashPars (.engine 1 .digest 1)) { job := some { job 0x6001 with out := some outcome } }), 1, 1, .uncorrectable, ({ job 0x6001 with out := some outcome }), outcome, (onSeat 0x6001 hashPars (.engine 1 .digest 1)), by decide +kernel⟩,
   ⟨(digestSeated (onSeat 0x6001 hashPars (.engine 1 .digest 1)) { job := some (job 0x6001) }), 1, 1, (job 0x6001), by decide +kernel⟩,
   ⟨(claimed {}), 1, 3, by decide +kernel⟩,
   ⟨(claimed { job := some (job 0x6001) }), 1, 3, by decide +kernel⟩,
   ⟨(claimed { claim := some 3 }), 1, 3, by decide +kernel⟩,
   ⟨(claimed { claim := some 3 }), 1, 3, 1, 4, by decide +kernel⟩,
   ⟨(claimed { claim := some 3, reg := some { regJob with len := 64, fed := zeros 60 } }), 1, 3, ({ regJob with len := 64, fed := zeros 60 }), by decide +kernel⟩,
   ⟨(claimed { claim := some 3, reg := some { regJob with fed := [] } }), 1, 3, ({ regJob with fed := [] }), 0x61626303, by decide +kernel⟩,
   ⟨(claimed { claim := some 3, done := true, output := zeros 32 }), 1, 3, 32, by decide +kernel⟩,
   ⟨(claimed { wanted := some 3 }), 1, 3, by decide +kernel⟩,
   ⟨((let s := coreSeated coreOne; { s with toPart := s.setDgst 1 1 { claim := some 3, reg := some { alg := 1, inject := 0, outLen := 1, len := 4, key := 0 } } })), 1, 3, by decide +kernel⟩,
   ⟨(claimed { claim := some 3, busy := true, due := 77, reg := some { regJob with fed := [97, 98, 99], lastSeen := true } }), 1, 3, ({ regJob with fed := [97, 98, 99], lastSeen := true }), by decide +kernel⟩⟩

/-- What AppletRowsAct asks can be met, clause by clause. -/
theorem witness_AppletRowsAct :
    (∃ (s : State) (n : Nat) (k : Nat) (c : Cmd) (i : Image), s.power.on = true ∧ s.hasSeat n = true ∧ k < 4 ∧ (s.core n k).run = .idle ∧ s.seatIn n .inService = true ∧ s.nextFor n .core (fun c => s.coreServes n k c.hand) = some c ∧ 16 ≤ c.params.length ∧ c.params.length = 16 + field c.params 8 4 ∧ field c.params 8 4 ≤ 8192 ∧ allZero (slice c.params 4 4) = true ∧ allZero (slice c.params 12 4) = true ∧ s.imageOf c.epoch c.hand (field c.params 0 4) = some i) ∧
    (∃ (s : State) (n : Nat) (k : Nat) (u : Nat) (c : Cmd) (i : Image), s.power.on = true ∧ s.hasSeat n = true ∧ k < 4 ∧ (s.core n k).run = .loading ∧ (s.core n k).uid = some u ∧ s.findCmd u = some c ∧ s.imageOf c.epoch c.hand (field c.params 0 4) = some i ∧ (s.linkUp n = true ∨ ((s.core n k).image = i.id ∧ (s.core n k).serial = ((s.dealOf c.epoch).map (·.serial)).getD 0))) ∧
    (∃ (s : State) (n : Nat) (k : Nat) (u : Nat) (c : Cmd) (a1 : BitVec 64), s.power.on = true ∧ s.hasSeat n = true ∧ k < 4 ∧ (s.core n k).run = .running ∧ (s.core n k).stalledAt = none ∧ (s.core n k).uid = some u ∧ (s.core n k).calls = [] ∧ s.findCmd u = some c ∧ a1.toNat ≤ 8192) ∧
    (∃ (s : State) (n : Nat) (k : Nat) (u : Nat) (c : Cmd), s.power.on = true ∧ s.hasSeat n = true ∧ k < 4 ∧ (s.core n k).run = .running ∧ (s.core n k).uid = some u ∧ s.findCmd u = some c ∧ c.isCall = false ∧ c.retract = none ∧ s.callsOf n k = [] ∧ s.seatIn n .inService = true) ∧
    (∃ (s : State) (n : Nat) (k : Nat) (u : Nat) (c : Cmd) (i : Image), s.power.on = true ∧ s.hasSeat n = true ∧ k < 4 ∧ (s.core n k).run = .running ∧ (s.core n k).uid = some u ∧ s.findCmd u = some c ∧ c.isCall = false ∧ c.retract = none ∧ s.callsOf n k = [] ∧ s.seatIn n .inService = true ∧ s.imageOf c.epoch c.hand (s.core n k).image = some i) ∧
    (∃ (s : State) (n : Nat) (k : Nat) (value : Word), s.power.on = true ∧ s.hasSeat n = true ∧ k < 4 ∧ (s.core n k).run = .running ∧ (s.core n k).stalledAt = none ∧ value.toNat % 32 = 0 ∧ guardAllowsAll (s.masterWindows n 4 k) .read value.toNat 32 = true ∧ guardAllowsAll (s.masterWindows n 4 k) .read (field (s.readSram n k value.toNat 32) 8 8) (field (s.readSram n k value.toNat 32) 4 4) = true ∧ (s.core n k).calls.length < 32 ∧ callCodes.contains (field (s.readSram n k value.toNat 32) 0 2) = true ∧ s.solo = false ∧ (vaultMutations.contains (field (s.readSram n k value.toNat 32) 0 2) = true → s.survivesBoth (s.core n k).hand.toNat = true) ∧ ((((s.core n k).uid.bind s.findCmd).map (·.epoch)).getD s.deal.epoch = s.deal.epoch → s.busyWrite (s.core n k).hand.toNat (field (s.readSram n k value.toNat 32) 0 2) (s.readSram n k (field (s.readSram n k value.toNat 32) 8 8) (field (s.readSram n k value.toNat 32) 4 4)) = none)) :=
  ⟨⟨(coreSeated {} (.seatQ 1)), 1, 3, (onSeat 0x7001 invokePars), imageOne, by decide +kernel⟩,
   ⟨(coreSeated { coreOne with run := .loading, image := 0 }), 1, 3, 1, (onSeat 0x7001 invokePars (.engine 1 .core 3)), imageOne, by decide +kernel⟩,
   ⟨(coreSeated coreOne), 1, 3, 1, (onSeat 0x7001 invokePars (.engine 1 .core 3)), 8192, by decide +kernel⟩,
   ⟨(coreSeated coreOne), 1, 3, 1, (onSeat 0x7001 invokePars (.engine 1 .core 3)), by decide +kernel⟩,
   ⟨(coreSeated coreOne), 1, 3, 1, (onSeat 0x7001 invokePars (.engine 1 .core 3)), imageOne, by decide +kernel⟩,
   ⟨((let s := coreSeated coreOne; { s with toPart := s.writeSram 1 3 0x10000 (fields [(2, 0x2006), (2, 0), (4, 8), (4, 0), (4, 0x10100)]) })), 1, 3, 0x10000, by decide +kernel⟩⟩

/-- What AppletServicesAct asks can be met, clause by clause. -/
theorem witness_AppletServicesAct :
    (∃ (s : State) (n : Nat) (k : Nat) (d : BitVec 32) (c : Cmd) (b : Bytes) (a : Nat), s.power.on = true ∧ s.guard.dealerHold = none ∧ s.findRow (.call n k d) 0x7101 = some c ∧ s.isHead c = true ∧ c.params = b ∧ b.length = 16 ∧ field b 8 4 ≠ 0 ∧ field b 8 4 ≤ 4096 ∧ allZero (slice b 12 4) = true ∧ s.appRange c (field b 0 8) (field b 8 4) = some a ∧ (c.hand = 0 ∨ s.vault.st = .open_) ∧ s.mustWait c = false ∧ s.unsettled (.app (a / 4096)) = false ∧ (List.range ((a % 64 + field b 8 4 + 63) / 64)).any (fun i => s.linePoisoned (appLine (a + 64 * i))) = false ∧ (c.epoch = s.deal.epoch → s.appTearing a = false)) ∧
    (∃ (s : State) (n : Nat) (k : Nat) (d : BitVec 32) (c : Cmd) (b : Bytes) (a : Nat), s.power.on = true ∧ s.guard.dealerHold = none ∧ s.findRow (.call n k d) 0x7102 = some c ∧ s.isHead c = true ∧ c.params = b ∧ b.length = 16 + field b 8 4 ∧ field b 8 4 ≠ 0 ∧ field b 8 4 ≤ 4096 ∧ allZero (slice b 12 4) = true ∧ s.appRange c (field b 0 8) (field b 8 4) = some a ∧ (c.hand = 0 ∨ s.vault.st = .open_) ∧ s.mustWait c = false ∧ s.unsettled (.app (a / 4096)) = false ∧ (List.range ((a % 64 + field b 8 4 + 63) / 64)).any (fun i => s.linePoisoned (appLine (a + 64 * i))) = false ∧ (c.epoch = s.deal.epoch → s.appTearing a = false) ∧ s.journalRefusal = none) ∧
    (∃ (s : State) (n : Nat) (k : Nat), s.power.on = true ∧ s.hasSeat n = true ∧ k < 4 ∧ (s.core n k).run = .running ∧ (s.core n k).stalledAt = none ∧ (s.grantsOf (s.core n k)).getLsbD 2 = true ∧ (∀ u, (s.core n k).lastRaise = some u → u + usec 10 ≤ s.now)) ∧
    (∃ (s : State) (n : Nat) (k : Nat), s.power.on = true ∧ s.hasSeat n = true ∧ k < 4 ∧ (s.core n k).run = .running ∧ (s.core n k).stalledAt = none ∧ (s.grantsOf (s.core n k)).getLsbD 1 = true ∧ s.drbgServes n = true) ∧
    (∃ (s : State) (n : Nat) (k : Nat), s.power.on = true ∧ s.hasSeat n = true ∧ k < 4 ∧ (s.core n k).run = .running ∧ (s.core n k).stalledAt = none ∧ (s.grantsOf (s.core n k)).getLsbD 1 = true ∧ s.drbgServes n = false) ∧
    (∃ (s : State) (n : Nat) (k : Nat) (u : Nat) (t0 : Nat) (c : Cmd), s.power.on = true ∧ s.hasSeat n = true ∧ k < 4 ∧ (s.core n k).stalledAt = some t0 ∧ s.drbgServes n = false ∧ (s.core n k).uid = some u ∧ s.findCmd u = some c ∧ c.isCall = false ∧ c.retract = none ∧ s.callsOf n k = [] ∧ s.seatIn n .inService = true) ∧
    (∃ (s : State) (n : Nat) (k : Nat) (u : Nat) (len : Nat) (a : Access) (addr : BitVec 32) (c : Cmd), s.power.on = true ∧ s.hasSeat n = true ∧ k < 4 ∧ (s.core n k).run = .running ∧ s.accessOk n k k a addr.toNat len = false ∧ guardConflict (s.masterWindows n k k) addr.toNat len = false ∧ (s.core n k).uid = some u ∧ s.findCmd u = some c ∧ c.isCall = false ∧ c.retract = none ∧ s.callsOf n k = [] ∧ s.seatIn n .inService = true) ∧
    (∃ (s : State) (n : Nat) (k : Nat) (addr : BitVec 32) (d : Bytes), s.power.on = true ∧ s.hasSeat n = true ∧ k < 4 ∧ (s.core n k).run = .running ∧ d ≠ [] ∧ guardConflict (s.masterWindows n k k) addr.toNat d.length = false ∧ guardAllowsAll (s.masterWindows n k k) .write addr.toNat d.length = true ∧ MemoryWf s) :=
  ⟨⟨(withCmd base (callCmd 0x7101 (fields [(8, 100), (4, 4096 - 100), (4, 0)]))), 1, 3, 0x10000, (callCmd 0x7101 (fields [(8, 100), (4, 4096 - 100), (4, 0)])), (fields [(8, 100), (4, 4096 - 100), (4, 0)]), 100, by decide +kernel⟩,
   ⟨(withCmd base (callCmd 0x7102 (fields [(8, 100), (4, 3), (4, 0)] ++ [1, 2, 3]))), 1, 3, 0x10000, (callCmd 0x7102 (fields [(8, 100), (4, 3), (4, 0)] ++ [1, 2, 3])), (fields [(8, 100), (4, 3), (4, 0)] ++ [1, 2, 3]), 100, by decide +kernel⟩,
   ⟨(coreSeated { coreOne with lastRaise := none }), 1, 3, by decide +kernel, by decide +kernel, by decide +kernel, by decide +kernel, by decide +kernel, by decide +kernel, (by intro u h; have e : (none : Option Nat) = some u := h; cases e)⟩,
   ⟨(coreSeated coreOne), 1, 3, by decide +kernel⟩,
   ⟨((let s := coreSeated coreOne; { s with trngs := [] })), 1, 3, by decide +kernel⟩,
   ⟨((let s := coreSeated { coreOne with stalledAt := some 5 }; { s with trngs := [] })), 1, 3, 1, 5, (onSeat 0x7001 invokePars (.engine 1 .core 3)), by decide +kernel⟩,
   ⟨(coreSeated coreOne), 1, 3, 1, 4, .write, 0x20000, (onSeat 0x7001 invokePars (.engine 1 .core 3)), by decide +kernel⟩,
   ⟨(coreSeated coreOne), 1, 3, 0x1FFFD, ([1, 2, 3]), by decide +kernel, by decide +kernel, by decide +kernel, by decide +kernel, by decide +kernel, by decide +kernel, by decide +kernel, ⟨by decide +kernel, by decide +kernel⟩⟩⟩

/-- What KeyReadsAndCounters asks can be met, clause by clause. -/
theorem witness_KeyReadsAndCounters :
    (∃ (s : State) (o : Origin) (c : Cmd) (b : Bytes), Ready s o 0x2006 b c ∧ b.length = 8 ∧ (c.hand = 0 ∨ s.vault.st = .open_) ∧ s.mustWait c = false ∧ s.handleFault c.epoch c.hand b 5 = none) ∧
    (∃ (s : State) (o : Origin) (c : Cmd) (b : Bytes), Ready s o 0x2007 b c ∧ b.length = 8 ∧ allZero (b.drop 4) = true ∧ (c.hand = 0 ∨ s.vault.st = .open_) ∧ s.mustWait c = false ∧ field b 0 4 < 8388608 ∧ s.slotInHand c.epoch c.hand (field b 0 4) = true ∧ s.linePoisoned (slotLine (field b 0 4)) = false) ∧
    (∃ (s : State) (o : Origin) (c : Cmd) (b : Bytes), Ready s o 0x2103 b c ∧ b.length = 8 ∧ allZero (b.drop 4) = true ∧ (c.hand = 0 ∨ s.vault.st = .open_) ∧ s.mustWait c = false ∧ field b 0 4 < 1048576 ∧ s.ctrInHand c.epoch c.hand (field b 0 4) = true ∧ s.linePoisoned (ctrLine (field b 0 4)) = false) ∧
    (∃ (s : State) (o : Origin) (c : Cmd) (b : Bytes), Ready s o 0x2102 b c ∧ b.length = 8 ∧ 1 ≤ field b 4 4 ∧ field b 4 4 ≤ 64 ∧ (c.hand = 0 ∨ s.vault.st = .open_) ∧ s.mustWait c = false ∧ field b 0 4 < 1048576 ∧ s.ctrInHand c.epoch c.hand (field b 0 4) = true ∧ s.linePoisoned (ctrLine (field b 0 4)) = false ∧ (s.ctrSeen c.epoch (field b 0 4)).st ≠ .uninit ∧ field b 4 4 ≤ s.heldValues (field b 0 4)) ∧
    (∃ (s : State) (o : Origin) (c : Cmd) (b : Bytes), Ready s o 0x2102 b c ∧ b.length = 8 ∧ 1 ≤ field b 4 4 ∧ field b 4 4 ≤ 64 ∧ (c.hand = 0 ∨ s.vault.st = .open_) ∧ s.mustWait c = false ∧ field b 0 4 < 1048576 ∧ s.ctrInHand c.epoch c.hand (field b 0 4) = true ∧ s.linePoisoned (ctrLine (field b 0 4)) = false ∧ (s.ctrSeen c.epoch (field b 0 4)).st ≠ .uninit ∧ s.heldValues (field b 0 4) < field b 4 4 ∧ (s.ctr (field b 0 4)).st ≠ .exhausted ∧ (s.solo = true → s.part.lead = true) ∧ s.soloLimit (field b 0 4) = false ∧ s.survivesBoth c.hand = true) ∧
    (∃ (s : State) (o : Origin) (c : Cmd) (b : Bytes), Ready s o 0x2101 b c ∧ b.length = 16 ∧ allZero (slice b 4 4) = true ∧ (c.hand = 0 ∨ s.vault.st = .open_) ∧ s.mustWait c = false ∧ field b 0 4 < 1048576 ∧ s.ctrInHand c.epoch c.hand (field b 0 4) = true ∧ s.linePoisoned (ctrLine (field b 0 4)) = false ∧ (c.epoch = s.deal.epoch → s.ctrTearing (field b 0 4) = false) ∧ s.journalRefusal = none) :=
  ⟨⟨(serving 0x2006 aesHandle 1), o2, (cmd 0x2006 aesHandle 1), aesHandle, (ready_of (by decide +kernel)), by decide +kernel⟩,
   ⟨(serving 0x2007 (fields [(4, 127), (4, 0)]) 1), o2, (cmd 0x2007 (fields [(4, 127), (4, 0)]) 1), (fields [(4, 127), (4, 0)]), (ready_of (by decide +kernel)), by decide +kernel⟩,
   ⟨(serving 0x2103 (fields [(4, 64), (4, 0)]) 1), o2, (cmd 0x2103 (fields [(4, 64), (4, 0)]) 1), (fields [(4, 64), (4, 0)]), (ready_of (by decide +kernel)), by decide +kernel⟩,
   ⟨(leased 0x2102 (fields [(4, 64), (4, 64)])), o2, (cmd 0x2102 (fields [(4, 64), (4, 64)]) 1), (fields [(4, 64), (4, 64)]), (ready_of (by decide +kernel)), by decide +kernel⟩,
   ⟨((let s := serving 0x2102 (fields [(4, 64), (4, 1)]) 1; { s with vault := { s.vault with ctrs := [(64, { st := .live, hw := 5 })] } })), o2, (cmd 0x2102 (fields [(4, 64), (4, 1)]) 1), (fields [(4, 64), (4, 1)]), (ready_of (by decide +kernel)), by decide +kernel⟩,
   ⟨(serving 0x2101 (fields [(4, 64), (4, 0), (8, 9)]) 1), o2, (cmd 0x2101 (fields [(4, 64), (4, 0), (8, 9)]) 1), (fields [(4, 64), (4, 0), (8, 9)]), (ready_of (by decide +kernel)), by decide +kernel⟩⟩

/-- What IssuedValuesLeave asks can be met, clause by clause. -/
theorem witness_IssuedValuesLeave :
    ∃ (l : List (Nat × Nat)), (∀ r ∈ l, r.1 < r.2) ∧ l.Pairwise (fun a b => a.2 ≤ b.1) :=
  ⟨([(1, 3), (10, 20)]), by decide +kernel⟩

/-- What EraseRowsAct asks can be met, clause by clause. -/
theorem witness_EraseRowsAct :
    (∃ (s : State) (o : Origin) (c : Cmd) (b : Bytes), Ready s o 0x2005 b c ∧ b.length = 8 ∧ (c.hand = 0 ∨ s.vault.st = .open_) ∧ s.mustWait c = false ∧ s.handleFault c.epoch c.hand b 4 = none ∧ s.journalRefusal = none) ∧
    (∃ (s : State) (n : Nat) (slot : Nat) (g : Nat) (te : Nat), s.power.on = true ∧ s.hasSeat n = true ∧ s.erasedGen n slot = some (g, te) ∧ s.usersOf n slot (g, te) = [] ∧ (s.dgst n 1).reg = none) ∧
    (∃ (s : State) (n : Nat) (slot : Nat) (g : Nat) (m : Mutation), s.power.on = true ∧ s.hasSeat n = true ∧ s.vault.muts = [m] ∧ m.kind = .keyErase slot g ∧ m.committed = true ∧ m.confirms = [n] ∧ m.owner = none ∧ s.usersOf n slot (g, m.te) = [] ∧ s.seats.cache.any (fun e => e.seat == n && e.slot == slot && e.gen ≤ g) = false) ∧
    (∃ (s : State) (n : Nat), s.power.on = true ∧ s.hasSeat n = true) :=
  ⟨⟨(serving 0x2005 tdeaHandle 1), o2, (cmd 0x2005 tdeaHandle 1), tdeaHandle, (ready_of (by decide +kernel)), by decide +kernel⟩,
   ⟨({ base with vault := { base.vault with muts := [eraseMut] } }), 1, 64, 1, 0, by decide +kernel⟩,
   ⟨((let s := { base with vault := { base.vault with muts := [eraseMut] } }; { s with toPart := s.setCache [] })), 1, 64, 1, eraseMut, by decide +kernel⟩,
   ⟨base, 1, by decide +kernel⟩⟩

/-- What MutationRowsAct asks can be met, clause by clause. -/
theorem witness_MutationRowsAct :
    (∃ (s : State) (m : Mutation) (r : JRec) (i : Nat) (start : Nat), s.power.on = true ∧ s.findMut m.id = some m ∧ m.formed = some r ∧ s.mayCommit m = true ∧ m.kind = .ctrInit i start ∧ r.body = .counter i .live start ∧ m.owner = none ∧ s.solo = false ∧ s.vault.muts = [m]) ∧
    (∃ (s : State), s.power.on = true) ∧
    (∃ (s : State) (m : Mutation), s.power.on = true ∧ s.vault.muts = [m] ∧ m.formed = none ∧ m.committed = false ∧ m.forwarded = false ∧ m.own = true ∧ s.part.st = .unpaired ∧ s.mutFault m = none ∧ s.vault.journal.sink = none ∧ m.objs.any s.inReenc = false ∧ s.journalRoom true false (48 + (s.bodyOf m.kind).size) = true ∧ (∀ b, m.kind ≠ .remote b) ∧ m.frame = none) ∧
    (∃ (s : State) (i : Nat), s.power.on = true ∧ s.wantsLease i = true ∧ s.part.st = .unpaired) ∧
    (∃ (s : State) (o : Origin) (c : Cmd) (b : Bytes) (x : BitVec 32), HouseReady s o 0x2204 b c ∧ b.length = 8 ∧ field b 0 4 ≠ 0 ∧ allZero (b.drop 4) = true ∧ c.session? = some x ∧ (s.findStream x (BitVec.ofNat 32 (field b 0 4))).any (fun y => y.uid == c.uid) = true) ∧
    (∃ (s : State) (o : Origin) (c : Cmd) (b : Bytes) (x : BitVec 32) (st : BitVec 32) (u : Nat), HouseReady s o 0x2205 b c ∧ b.length = 8 ∧ c.session? = some x ∧ s.vault.journal.sink = some (x, st, u) ∧ s.vault.journal.acked < field b 0 8 ∧ field b 0 8 ≤ s.sinkSent) ∧
    (∃ (p : Machine.Part), p.vault.muts = []) :=
  ⟨⟨((let s : State := { base with vault := { base.vault with muts := [ctrMut], journal := { next := 2, acked := 1, inMram := 1, sent := 1 } } }; s)), ctrMut, ({ seq := 1, incarnation := 1, hand := 1, solo := false, fromPartner := false, epoch := 0, optime := 0, body := .counter 64 .live 9 }), 64, 9, by decide +kernel⟩,
   ⟨base, by decide +kernel⟩,
   ⟨({ base with vault := { base.vault with journal := {}, muts := [{ ctrMut with formed := none, own := true }] } }), ({ ctrMut with formed := none, own := true }), by decide +kernel, by decide +kernel, by decide +kernel, by decide +kernel, by decide +kernel, by decide +kernel, by decide +kernel, by decide +kernel, by decide +kernel, by decide +kernel, by decide +kernel, (by intro b h; have e : MutKind.ctrInit 64 9 = .remote b := h; cases e), by decide +kernel⟩,
   ⟨((let s : State := base; { s with vault := { s.vault with ctrs := [(64, { st := .live, hw := 5 })], leases := [{ ctr := 64, ranges := [(5, 9)], lastIssue := 0 }] } })), 64, by decide +kernel⟩,
   ⟨(sinkFor 0x2204 (fields [(4, 5), (4, 0)])), o1, (cmd 0x2204 (fields [(4, 5), (4, 0)])), (fields [(4, 5), (4, 0)]), 1, (houseReady_of (by decide +kernel)), by decide +kernel⟩,
   ⟨sunk, o1, (cmd 0x2205 (toBE 8 3)), (toBE 8 3), 1, 5, 7, (houseReady_of (by decide +kernel)), by decide +kernel⟩,
   ⟨base.toPart, by decide +kernel⟩⟩

/-- What DeckRowsAct asks can be met, clause by clause. -/
theorem witness_DeckRowsAct :
    (∃ (s : State) (o : Origin) (c : Cmd) (b : Bytes) (x : BitVec 32), HouseReady s o 0x2201 b c ∧ b.length = 8 ∧ field b 0 4 ≠ 0 ∧ field b 0 4 < 2 ^ 32 ∧ allZero (b.drop 4) = true ∧ s.vault.snapshot = none ∧ c.session? = some x ∧ (s.findStream x (BitVec.ofNat 32 (field b 0 4))).any (fun y => y.uid == c.uid) = true) ∧
    (∃ (s : State) (sn : Snapshot) (u : Nat) (c : Cmd) (x : BitVec 32), s.power.on = true ∧ s.vault.snapshot = some sn ∧ sn.uid = some u ∧ s.findCmd u = some c ∧ c.session? = some x ∧ sn.stop ≠ 0 ∧ (fun (p : Machine.Part) => !((p.findStream x (BitVec.ofNat 32 (field c.params 0 4))).any (fun y => y.announced < y.data.length))) s.toPart = true) ∧
    (∃ (s : State) (o : Origin) (c : Cmd) (b : Bytes) (sn : Snapshot), HouseReady s o 0x2202 b c ∧ b.length = 56 ∧ s.vault.completed = some sn ∧ field b 0 8 = sn.version ∧ slice b 8 48 = sn.chain) ∧
    (∃ (s : State) (o : Origin) (c : Cmd) (b : Bytes) (y : Machine.Stream), HouseReady s o 0x2206 b c ∧ Streamed s c y.data ∧ s.streamOf c = some y ∧ s.vault.st ≠ .open_ ∧ (s.vault.deckVer = 0 ∨ s.vault.deckLoaded = true) ∧ (Machine.Part.replay true y.data.length (s.toPart.setVault { s.vault with st := .replaying }) (y.data.drop y.used)).2.2 = 0) ∧
    (∃ (s : State) (o : Origin) (c : Cmd) (b : Bytes), HouseReady s o 0x2207 b c ∧ b.length = 4 ∧ field b 0 4 = 0 ∧ s.vault.st ≠ .open_ ∧ s.openNeed ≤ s.vault.replayNext - 1) ∧
    (∃ (s : State) (g : Nat), s.power.on = true ∧ g ∈ s.vault.reenc) ∧
    (∃ (s : State), s.power.on = true) ∧
    (∃ (p : Machine.Part), p.part.st = .unpaired ∧ p.guard.seen = [] ∧ p.deal.active = none) :=
  ⟨⟨(sinkFor 0x2201 (fields [(4, 5), (4, 0)])), o1, (cmd 0x2201 (fields [(4, 5), (4, 0)])), (fields [(4, 5), (4, 0)]), 1, (houseReady_of (by decide +kernel)), by decide +kernel⟩,
   ⟨(snapping snap), snap, 1, (cmd 0x2201 [] 0 .waiting), 1, by decide +kernel⟩,
   ⟨((let s := serving 0x2202 (toBE 8 1 ++ zeros 48); { s with vault := { s.vault with completed := some snap } })), o1, (cmd 0x2202 (toBE 8 1 ++ zeros 48)), (toBE 8 1 ++ zeros 48), snap, (houseReady_of (by decide +kernel)), by decide +kernel⟩,
   ⟨replaying, o1, (cmd 0x2206 (streamPars 0)), (streamPars 0), ({ inStream with data := [], declared := some 0 }), (houseReady_of (by decide +kernel)), (streamed_of (by decide +kernel)), by decide +kernel⟩,
   ⟨((let s := serving 0x2207 (zeros 4); { s with vault := { s.vault with st := .replaying } })), o1, (cmd 0x2207 (zeros 4)), (zeros 4), (houseReady_of (by decide +kernel)), by decide +kernel⟩,
   ⟨({ base with vault := { base.vault with reenc := [3], minors := [(192, 5), (300, 7)] } }), 3, by decide +kernel⟩,
   ⟨base, by decide +kernel⟩,
   ⟨({}), by decide +kernel⟩⟩

/-- What DispatchPassDeals asks can be met, clause by clause. -/
theorem witness_DispatchPassDeals :
    (∃ (s : State) (c : Cmd) (site : Site) (n : Nat) (tie : Bool), s.power.on = true ∧ s.guard.dealerHold = none ∧ s.xct.cmds = [c] ∧ c.place = .queued ∧ c.cls ≠ .dealer ∧ c.hand < 256 ∧ siteOf c.code = some site ∧ s.choose c site = .deal n tie) ∧
    (∃ (s : State) (e : Nat), s.power.on = true ∧ s.guard.dealerHold = some e) :=
  ⟨⟨(withCmd base { cmd 0x6001 hashPars 1 .queued with cls := .plain }), ({ cmd 0x6001 hashPars 1 .queued with cls := .plain }), .digest, 1, true, by decide +kernel⟩,
   ⟨({ base with guard := { base.guard with dealerHold := some 9 } }), 9, by decide +kernel⟩⟩

/-- What ChoiceWithinSlack asks can be met, clause by clause. -/
theorem witness_ChoiceWithinSlack :
    ∃ (p : Machine.Part) (c : Cmd) (site : Site) (n : Nat) (tie : Bool), p.choose c site = .deal n tie :=
  ⟨((withCmd base { cmd 0x6001 hashPars 1 .queued with cls := .plain }).toPart), ({ cmd 0x6001 hashPars 1 .queued with cls := .plain }), .digest, 1, true, by decide +kernel⟩

/-- What TileRowsAct asks can be met, clause by clause. -/
theorem witness_TileRowsAct :
    (∃ (s : State) (n : Nat) (g : Nat) (i : Nat) (d : Nat), s.power.on = true ∧ s.hasSeat n = true ∧ g < 4 ∧ i < groupTiles g ∧ (s.tile (tileKey n g i)).demand = some d ∧ ((s.tile (tileKey n g i)).st = .gated ∨ (s.tile (tileKey n g i)).st = .idle)) ∧
    (∃ (s : State) (n : Nat) (g : Nat) (i : Nat), s.power.on = true ∧ s.hasSeat n = true ∧ g < 4 ∧ i < groupTiles g ∧ (s.tile (tileKey n g i)).st = .running ∧ s.engineBusy n (Machine.Part.siteOfGroup g) i = false ∧ s.waitingOn n (Machine.Part.siteOfGroup g) = [] ∧ (g = 3 → i = 1 → (s.dgst n 1).claim = none ∧ (s.dgst n 1).wanted = none)) ∧
    (∃ (s : State) (n : Nat) (g : Nat) (i : Nat), s.power.on = true ∧ s.hasSeat n = true ∧ g < 4 ∧ i < groupTiles g ∧ (s.tile (tileKey n g i)).st = .idle ∧ (s.tile (tileKey n g i)).demand = none ∧ s.engineBusy n (Machine.Part.siteOfGroup g) i = false) ∧
    (∃ (s : State) (n : Nat) (g : Nat) (i : Nat), s.power.on = true ∧ s.hasSeat n = true ∧ g < 4 ∧ i < groupTiles g ∧ (s.tile (tileKey n g i)).st = .poweringDown) :=
  ⟨⟨(tiled 1 1 { st := .idle, demand := some 60 }), 7, 1, 1, 60, by decide +kernel⟩,
   ⟨(tiled 3 1 { st := .running, since := 40 }), 7, 3, 1, by decide +kernel⟩,
   ⟨(tiled 2 7 { st := .idle, since := 40 }), 7, 2, 7, by decide +kernel⟩,
   ⟨(tiled 0 15 { st := .poweringDown, since := 40, demand := some 5 }), 7, 0, 15, by decide +kernel⟩⟩

/-- What LinkRowsAct asks can be met, clause by clause. -/
theorem witness_LinkRowsAct :
    (∃ (s : State) (n : Nat) (ecc : Decoded), s.power.on = true ∧ s.hasSeat n = true ∧ (s.seat n).link = 1 ∧ ecc ≠ .uncorrectable) ∧
    (∃ (s : State) (n : Nat) (c : Cmd), s.power.on = true ∧ s.hasSeat n = true ∧ (s.seat n).link = 1 ∧ s.nextDescriptor n = some c ∧ s.findCmd c.uid = some c) ∧
    (∃ (s : State) (n : Nat), s.power.on = true ∧ s.hasSeat n = true ∧ (s.seat n).link = 1 ∧ s.nextDescriptor n = none) ∧
    (∃ (s : State) (n : Nat) (q : BitVec 16) (ok : Bool), s.power.on = true ∧ s.hasSeat n = true ∧ (s.seat n).link = 1 ∧ (ok = false ∨ q ≠ (s.seat n).rxSeq) ∧ (s.seat n).replay.toNat < 0xFFFFFFFE) ∧
    (∃ (s : State) (n : Nat) (q : BitVec 16) (ok : Bool), s.power.on = true ∧ s.hasSeat n = true ∧ (s.seat n).link = 1 ∧ (ok = false ∨ q ≠ (s.seat n).rxSeq) ∧ (s.seat n).replay.toNat < 0xFFFFFFFE) ∧
    (∃ (s : State) (n : Nat), s.power.on = true ∧ s.hasSeat n = true ∧ (s.seat n).link = 1) ∧
    (∃ (s : State) (n : Nat) (u : Nat) (ecc : Decoded) (c : Cmd), s.power.on = true ∧ s.hasSeat n = true ∧ (s.seat n).link = 1 ∧ s.guard.dealerHold = none ∧ (s.replayBuffer n true).head?.map (·.uid) = some u ∧ s.findCmd u = some c ∧ c.place = .up n ∧ ecc ≠ .uncorrectable) ∧
    (∃ (s : State) (n : Nat), s.power.on = true ∧ s.hasSeat n = true ∧ (s.seat n).link = 1 ∧ (9 ≤ (s.seat n).fails ∨ 9 ≤ (s.seat n).failsUp)) ∧
    (∃ (s : State) (n : Nat), s.power.on = true ∧ s.hasSeat n = true ∧ (s.seat n).link = 2) ∧
    (∃ (s : State) (n : Nat), s.power.on = true ∧ s.hasSeat n = true ∧ (s.seat n).link = 2 ∧ (s.seat n).failedTrainings < 2) :=
  ⟨⟨(linked (fun x => { x with link := 1 })), 7, .clean, by decide +kernel⟩,
   ⟨(withCmd base (onSeat 0x6001 hashPars (.link 1))), 1, (onSeat 0x6001 hashPars (.link 1)), by decide +kernel⟩,
   ⟨(linked (fun x => { x with link := 1 })), 7, by decide +kernel⟩,
   ⟨(linked (fun x => { x with link := 1 })), 7, 0, false, by decide +kernel⟩,
   ⟨(linked (fun x => { x with link := 1 })), 7, 1, true, by decide +kernel⟩,
   ⟨(linked (fun x => { x with link := 1 })), 7, by decide +kernel⟩,
   ⟨rising, 1, 1, .clean, ({ onSeat 0x6001 hashPars (.up 1) with status := 5, payload := [1] }), by decide +kernel⟩,
   ⟨(linked (fun x => { x with link := 1, failsUp := 9 })), 7, by decide +kernel⟩,
   ⟨(linked (fun x => { x with link := 2, failedTrainings := 2, fails := 9 })), 7, by decide +kernel⟩,
   ⟨(linked (fun x => { x with link := 2, failedTrainings := 1 })), 7, by decide +kernel⟩⟩

/-- What SeatIntakeRowsAct asks can be met, clause by clause. -/
theorem witness_SeatIntakeRowsAct :
    (∃ (s : State) (n : Nat) (ecc : Decoded) (c : Cmd), s.power.on = true ∧ s.hasSeat n = true ∧ s.linkUp n = true ∧ s.nextDescriptor n = some c ∧ s.findCmd c.uid = some c ∧ ecc ≠ .uncorrectable) ∧
    (∃ (s : State) (n : Nat) (ecc : Decoded) (c : Cmd), s.power.on = true ∧ s.hasSeat n = true ∧ s.linkUp n = true ∧ s.nextDescriptor n = some c ∧ s.findCmd c.uid = some c ∧ ecc = .uncorrectable ∧ c.isCall = false ∧ c.retract = none) ∧
    (∃ (s : State) (n : Nat) (i : Nat) (ecc : Decoded), s.power.on = true ∧ s.hasSeat n = true ∧ s.linkUp n = true ∧ s.seats.fetching.contains (n, i) = true ∧ ecc ≠ .uncorrectable ∧ s.unsettled (.slot i) = false ∧ (s.slot i).st = .head ∧ s.runPoisoned i (s.slot i).run = false ∧ s.cacheEntry n (s.slot i).hand i (s.slot i).gen = none ∧ s.cacheFill n + (s.slot i).run ≤ 65536) ∧
    (∃ (s : State) (n : Nat) (k : Nat) (e : Engine) (c : Cmd), s.power.on = true ∧ s.hasSeat n = true ∧ k < (siteOfEngine e).count ∧ (s.tile (siteTile n (siteOfEngine e) k)).st = .scrubbing ∧ s.xct.cmds = [c] ∧ c.place = .scrubbing n (siteOfEngine e) k ∧ c.isCall = false ∧ c.retract = none ∧ s.seatIn n .inService = true) :=
  ⟨⟨(withCmd base (onSeat 0x6001 hashPars (.link 1))), 1, .double, (onSeat 0x6001 hashPars (.link 1)), by decide +kernel⟩,
   ⟨(withCmd base (onSeat 0x6001 hashPars (.link 1))), 1, .uncorrectable, (onSeat 0x6001 hashPars (.link 1)), by decide +kernel⟩,
   ⟨({ base with seats := { base.seats with cache := [], fetching := [(1, 64)] } }), 1, 64, .clean, by decide +kernel⟩,
   ⟨((let s := withCmd base { onSeat 0x6001 hashPars (.scrubbing 1 .digest 1) with status := Status.faultDetected }; { s with toPart := s.updTile (siteTile 1 .digest 1) (fun x => { x with st := .scrubbing, scrubEnd := 2048 }) })), 1, 1, .digest, ({ onSeat 0x6001 hashPars (.scrubbing 1 .digest 1) with status := Status.faultDetected }), by decide +kernel⟩⟩

/-- What AnteRowsAct asks can be met, clause by clause. -/
theorem witness_AnteRowsAct :
    (∃ (s : State) (die : Nat) (f : AnteFlit), s.power.on = true ∧ s.hasDie die = true ∧ (die = 0 ∨ s.linkUp die = true) ∧ s.disp.flits.find? (fun f => f.die = die) = some f ∧ Machine.Part.anteFlitOk die f.bytes = true) ∧
    (∃ (s : State) (die : Nat) (g : Nat) (w : AnteWindow), s.power.on = true ∧ s.hasDie die = true ∧ g < 4 ∧ ((s.lat die).windows.filter (fun w => w.group = g)).getLast? = some w) :=
  ⟨⟨({ base with disp := { base.disp with flits := [{ die := 7, bytes := fields [(1, 3), (1, 15), (2, 3), (4, 500)] }] } }), 7, ({ die := 7, bytes := fields [(1, 3), (1, 15), (2, 3), (4, 500)] }), by decide +kernel⟩,
   ⟨((let q := base.setLat 7 { windows := [{ group := 3, cls := 15, units := 10, from_ := 5, until_ := 90 }] }; { base with toPart := q })), 7, 3, ({ group := 3, cls := 15, units := 10, from_ := 5, until_ := 90 }), by decide +kernel⟩⟩

/-- What LatticeRowsAct asks can be met, clause by clause. -/
theorem witness_LatticeRowsAct :
    (∃ (s : State) (die : Nat) (l : List (BitVec 16)), s.power.on = true ∧ s.hasDie die = true ∧ s.goodDiodes die l ≠ [] ∧ (∀ e ∈ s.goodDiodes die l, -200 ≤ e.2 ∧ e.2 ≤ 480) ∧ (s.lat die).thermal = false) ∧
    (∃ (s : State) (die : Nat) (l : List (BitVec 16)), s.power.on = true ∧ s.hasDie die = true ∧ (∀ e ∈ s.goodDiodes die l, -200 ≤ e.2 ∧ e.2 ≤ 540) ∧ s.goodDiodes die l ≠ [] ∧ 480 < Machine.Part.greatestInt ((s.goodDiodes die l).map (·.2)) ∧ 1 ≤ (s.lat die).hotRun ∧ (s.lat die).thermal = false) ∧
    (∃ (s : State) (die : Nat), s.power.on = true ∧ s.hasDie die = true ∧ s.goodDiodes die (s.lat die).diodes ≠ [] ∧ (s.lat die).history.length < 25) ∧
    (∃ (s : State) (die : Nat) (w : Nat) (mv : Nat), s.power.on = true ∧ s.hasDie die = true ∧ w < 8 ∧ (die ≠ 0 ∨ w ≠ 6) ∧ (s.sensor die 2 w).retired = false ∧ Machine.Part.railNominal die w * 94 ≤ mv * 100 ∧ mv * 100 ≤ Machine.Part.railNominal die w * 106) ∧
    (∃ (s : State) (die : Nat) (w : Nat) (mv : Nat), s.power.on = true ∧ s.hasDie die = true ∧ w < 8 ∧ (die ≠ 0 ∨ w ≠ 6) ∧ (s.sensor die 2 w).retired = false ∧ mv * 100 < Machine.Part.railNominal die w * 94 ∧ w ∈ (s.lat die).badMeans ∧ w ∉ (s.lat die).meanRun) ∧
    (∃ (s : State) (count : Nat), s.power.on = true ∧ s.power.xtalOk = true ∧ (s.sensor 0 4 0).retired = false ∧ 305023 ≤ count ∧ count ≤ 305329) ∧
    (∃ (s : State), s.power.on = true ∧ s.power.xtalOk = true ∧ (s.sensor 0 4 0).retired = false) ∧
    (∃ (s : State) (die : Nat) (cls : Nat) (i : Nat) (b : Nat) (d : Int), s.power.on = true ∧ s.hasDie die = true ∧ cls < 8 ∧ i < Machine.Part.sensorCount die cls ∧ (s.sensor die cls i).retired = false ∧ Machine.Part.trimBound cls = some b ∧ ((s.sensor die cls i).trim + max (-1) (min 1 d)).natAbs ≤ b) ∧
    (∃ (s : State) (die : Nat) (cls : Nat) (i : Nat), s.power.on = true ∧ s.hasDie die = true ∧ cls < 8 ∧ i < Machine.Part.sensorCount die cls ∧ (s.sensor die cls i).retired = false ∧ (s.sensor die cls i).refusals < 2) :=
  ⟨⟨base, 7, ([480, BitVec.ofInt 16 (-200)]), by decide +kernel⟩,
   ⟨((let q := base.setLat 7 { hotRun := 1 }; { base with toPart := q })), 7, ([481]), by decide +kernel⟩,
   ⟨((let q := base.setLat 7 { diodes := [100, 104] }; { base with toPart := q })), 7, by decide +kernel⟩,
   ⟨base, 7, 7, (Part.railNominal 7 7), by decide +kernel⟩,
   ⟨((let q := base.setLat 7 { badMeans := [7] }; { base with toPart := q })), 7, 7, 0, by decide +kernel⟩,
   ⟨({ base with power := { base.power with xtalOk := true } }), 305329, by decide +kernel⟩,
   ⟨({ base with power := { base.power with xtalOk := true } }), by decide +kernel⟩,
   ⟨((let q := base.setLat 7 { sensors := [(1 * 128, { trim := 1, refusals := 2 })] }; { base with toPart := q })), 7, 1, 0, ((match Part.trimBound 1 with | some b => b | none => 0)), (-5), by decide +kernel⟩,
   ⟨((let q := base.setLat 7 { sensors := [(1 * 128, { trim := 1, refusals := 1 })] }; { base with toPart := q })), 7, 1, 0, by decide +kernel⟩⟩

/-- What TrngRowsAct asks can be met, clause by clause. -/
theorem witness_TrngRowsAct :
    (∃ (s : State) (die : Nat), s.power.on = true ∧ s.hasDie die = true ∧ (s.trng die).drbg ≠ 0 ∧ Machine.Part.anySource (s.trng die) = true) ∧
    (∃ (s : State) (die : Nat), s.power.on = true ∧ s.hasDie die = true ∧ (s.trng die).drbg = 1 ∧ Machine.Part.anySource (s.trng die) = false) ∧
    (∃ (s : State) (die : Nat), s.power.on = true ∧ s.hasDie die = true ∧ ((s.trng die).drbg = 1 ∨ (s.trng die).drbg = 2) ∧ Machine.Part.anySource (s.trng die) = false) ∧
    (∃ (s : State) (die : Nat) (src : Nat), s.power.on = true ∧ s.hasDie die = true ∧ src < 2 ∧ Machine.Part.srcState (s.trng die) src ≠ 3 ∧ s.recentFails die src < 2) ∧
    (∃ (s : State) (die : Nat) (src : Nat), s.power.on = true ∧ s.hasDie die = true ∧ src < 2 ∧ Machine.Part.srcState (s.trng die) src ≠ 3 ∧ 2 ≤ s.recentFails die src) ∧
    (∃ (s : State) (die : Nat) (src : Nat), s.power.on = true ∧ s.hasDie die = true ∧ src < 2 ∧ Machine.Part.srcState (s.trng die) src = 2) :=
  ⟨⟨base, 7, by decide +kernel⟩,
   ⟨((let q := base.setTrng 7 { drbg := 1, src0 := 2, src1 := 3 }; { base with toPart := q })), 7, by decide +kernel⟩,
   ⟨((let q := base.setTrng 7 { drbg := 2, src0 := 2, src1 := 3, due := 11 }; { base with toPart := q })), 7, by decide +kernel⟩,
   ⟨base, 7, 1, by decide +kernel⟩,
   ⟨((let q := base.setTrng 7 { drbg := 1, src0 := 1, src1 := 1, fails := [(1, 0), (1, 0)] }; { base with toPart := q })), 7, 1, by decide +kernel⟩,
   ⟨((let q := base.setTrng 7 { drbg := 1, src0 := 1, src1 := 2 }; { base with toPart := q })), 7, 1, by decide +kernel⟩⟩

/-- What JokerRowsAct asks can be met, clause by clause. -/
theorem witness_JokerRowsAct :
    (∃ (s : State) (b : Bytes) (r : Nat), s.power.on = true ∧ (s.power.life = 1 ∨ s.power.life = 2) ∧ s.power.stage ≠ 8 ∧ (s.setIr 0x10 0).tokenFault b = some r) ∧
    (∃ (s : State) (t : DebugTarget) (write : Bool), s.power.on = true ∧ s.joker.scope ≠ 0 ∧ s.joker.scope ≠ 5 ∧ s.debugAllowed t write = false) ∧
    (∃ (s : State) (a : Word), s.power.on = true ∧ s.joker.scope ≠ 0 ∧ s.joker.scope ≠ 5 ∧ s.debugAllowed (.reg a) false = true) ∧
    (∃ (s : State) (n : Nat) (k : Nat) (write : Bool), s.power.on = true ∧ s.joker.scope ≠ 0 ∧ s.joker.scope ≠ 5 ∧ s.debugAllowed (.halt n k) write = true ∧ (s.core n k).run = .running) ∧
    (∃ (s : State), s.power.on = true ∧ (s.joker.scope = 1 ∨ s.joker.scope = 2)) ∧
    (∃ (s : State), s.power.on = true ∧ s.joker.scope = 4) ∧
    (∃ (s : State), s.power.on = true ∧ (s.joker.scope = 1 ∨ s.joker.scope = 2) ∧ s.joker.expiry ≠ 0) ∧
    (∃ (s : State), s.power.on = true ∧ s.joker.scope ≠ 4 ∧ s.joker.scope ≠ 5) ∧
    (∃ (s : State), s.power.on = true ∧ (s.power.life = 0 ∨ s.joker.scope = 1) ∧ s.power.stage ≠ 8) ∧
    (∃ (s : State), s.power.on = true) ∧
    (∃ (s : State), s.power.on = true ∧ s.fuses.variant = .xf2408) ∧
    (∃ (s : State), s.power.on = true) :=
  ⟨⟨base, ([]), 1, by decide +kernel⟩,
   ⟨({ base with joker := { scope := 1 } }), (.protectedRegion 3), true, by decide +kernel⟩,
   ⟨({ base with joker := { scope := 2 } }), 0x120000, by decide +kernel⟩,
   ⟨({ (coreSeated coreOne) with joker := { scope := 3, seats := 2 } }), 1, 3, false, by decide +kernel⟩,
   ⟨({ base with joker := { scope := 2 } }), by decide +kernel⟩,
   ⟨({ base with joker := { scope := 4, hand := 1 } }), by decide +kernel⟩,
   ⟨({ base with joker := { scope := 1, expiry := 4 } }), by decide +kernel⟩,
   ⟨({ base with joker := { scope := 3, seats := 2 } }), by decide +kernel⟩,
   ⟨({ base with joker := { scope := 1 } }), by decide +kernel⟩,
   ⟨base, by decide +kernel⟩,
   ⟨base, by decide +kernel⟩,
   ⟨base, by decide +kernel⟩⟩

/-- What RecorderRowsAct asks can be met, clause by clause. -/
theorem witness_RecorderRowsAct :
    (∃ (s : State) (o : Origin) (c : Cmd) (b : Bytes), HouseReady s o 0x9101 b c ∧ b.length = 16 ∧ field b 0 1 ≤ 3 ∧ field b 1 3 = 0 ∧ field b 4 4 ≠ 0 ∧ field b 4 4 ≤ 256) ∧
    (∃ (s : State) (o : Origin) (c : Cmd), HouseReady s o 0x9102 [] c) ∧
    (∃ (s : State) (o : Origin) (c : Cmd) (t0 : Nat), HouseReady s o 0x9103 [] c ∧ s.evr.thawAt = some t0) ∧
    (∃ (s : State) (o : Origin) (c : Cmd) (b : Bytes), HouseReady s o 0x9104 b c ∧ b.length = 16 ∧ field b 8 4 ≤ 999999999 ∧ field b 12 4 = 0) ∧
    (∃ (s : State), s.power.on = true) ∧
    (∃ (s : State) (t0 : Nat), s.power.on = true ∧ s.evr.thawAt = some t0) ∧
    (∃ (s : State) (t0 : Nat), s.power.on = true ∧ s.evr.thawAt = some t0) ∧
    (∃ (s : State), s.power.on = true) ∧
    (∃ (s : State) (o : Origin) (c : Cmd) (b : Bytes) (x : Session), Ready s o 0x9201 b c ∧ c.session?.bind s.findSession = some x ∧ b.length = 4) :=
  ⟨⟨(serving 0x9101 (fields [(1, 3), (3, 0), (4, 256), (8, 0)])), o1, (cmd 0x9101 (fields [(1, 3), (3, 0), (4, 256), (8, 0)])), (fields [(1, 3), (3, 0), (4, 256), (8, 0)]), (houseReady_of (by decide +kernel)), by decide +kernel⟩,
   ⟨(serving 0x9102 []), o1, (cmd 0x9102 []), (houseReady_of (by decide +kernel))⟩,
   ⟨((let s := serving 0x9103 []; { s with evr := { s.evr with thawAt := some 8 } })), o1, (cmd 0x9103 []), 8, (houseReady_of (by decide +kernel)), by decide +kernel⟩,
   ⟨(serving 0x9104 (fields [(8, 7), (4, 999999999), (4, 0)])), o1, (cmd 0x9104 (fields [(8, 7), (4, 999999999), (4, 0)])), (fields [(8, 7), (4, 999999999), (4, 0)]), (houseReady_of (by decide +kernel)), by decide +kernel⟩,
   ⟨base, by decide +kernel⟩,
   ⟨({ base with evr := { base.evr with thawAt := some 8 } }), 8, by decide +kernel⟩,
   ⟨({ base with evr := { base.evr with thawAt := some 8 } }), 8, by decide +kernel⟩,
   ⟨base, by decide +kernel⟩,
   ⟨(serving 0x9201 (toBE 4 1)), o1, (cmd 0x9201 (toBE 4 1)), (toBE 4 1), houseSession, (ready_of (by decide +kernel)), by decide +kernel⟩⟩

/-- What ShuffleRowsAct asks can be met, clause by clause. -/
theorem witness_ShuffleRowsAct :
    (∃ (s : State) (v : Word), s.power.on = true ∧ v.getLsbD 31 = true ∧ s.shufflePermitted (v.toNat / 2 ^ 24 % 8) (v.toNat / 2 ^ 12 % 16) (v.toNat % 2 ^ 12) (s.deal.active.bind (·.drill)) = true ∧ s.shuffle.en = false) ∧
    (∃ (s : State) (v : Word), s.power.on = true ∧ v.getLsbD 31 = true ∧ s.shufflePermitted (v.toNat / 2 ^ 24 % 8) (v.toNat / 2 ^ 12 % 16) (v.toNat % 2 ^ 12) (s.deal.active.bind (·.drill)) = false) ∧
    (∃ (s : State), s.power.on = true ∧ s.shuffle.en = true ∧ s.shuffle.held = []) ∧
    (∃ (s : State), s.power.on = true ∧ s.shuffle.en = true ∧ s.shuffle.held = []) :=
  ⟨⟨drilling, 0x8300100A, by decide +kernel⟩,
   ⟨base, 0x83001001, by decide +kernel⟩,
   ⟨({ base with shuffle := { en := true, expiry := 40 } }), by decide +kernel⟩,
   ⟨({ base with shuffle := { en := true, expiry := 40 } }), by decide +kernel⟩⟩

/-- What CeremonyCommandsAct asks can be met, clause by clause. -/
theorem witness_CeremonyCommandsAct :
    (∃ (s : State) (o : Origin) (c : Cmd) (b : Bytes) (x : BitVec 32), HouseReady s o 0xA001 b c ∧ c.session? = some x ∧ b.length = 72 ∧ field b 0 1 ≤ 1 ∧ 1 ≤ field b 1 1 ∧ field b 1 1 ≤ 3 ∧ field b 3 1 ≤ 16 ∧ allZero (slice b 4 4) = true ∧ allZero (slice b (56 + field b 3 1) (16 - field b 3 1)) = true ∧ (s.lapseOld (field b 0 1)).cerLocked (field b 0 1) = false ∧ (s.lapseOld (field b 0 1)).cerPermitted (field b 1 1) (slice b 56 (field b 3 1)) none = true) ∧
    (∃ (s : State) (o : Origin) (c : Cmd) (b : Bytes) (x : BitVec 32) (port : Nat) (y : Ceremony), HouseReady s o 0xA002 b c ∧ c.session? = some x ∧ b.length = 8 ∧ allZero (b.drop 4) = true ∧ s.cerOf (field b 0 4) = some (port, y) ∧ y.session = x ∧ (s.cerPort port).step = none ∧ (s.cerPort port).present = false) ∧
    (∃ (s : State) (o : Origin) (c : Cmd) (b : Bytes) (x : BitVec 32) (port : Nat) (y : Ceremony), HouseReady s o 0xA002 b c ∧ c.session? = some x ∧ b.length = 8 ∧ allZero (b.drop 4) = true ∧ s.cerOf (field b 0 4) = some (port, y) ∧ y.session = x ∧ (s.cerPort port).step = none ∧ (s.cerPort port).present = true ∧ (s.cerPort port).active = false ∧ s.extesting = false) ∧
    (∃ (s : State) (o : Origin) (c : Cmd) (b : Bytes) (x : BitVec 32) (port : Nat) (y : Ceremony), HouseReady s o 0xA003 b c ∧ c.session? = some x ∧ b.length = 8 ∧ allZero (b.drop 4) = true ∧ s.cerOf (field b 0 4) = some (port, y) ∧ y.session = x ∧ (s.cerPort port).step = none ∧ 2 ≤ y.kind ∧ y.kind ≤ 4 ∧ s.cerQuorum y ≤ y.counted.length) ∧
    (∃ (s : State) (o : Origin) (c : Cmd) (b : Bytes) (x : BitVec 32) (port : Nat) (y : Ceremony), HouseReady s o 0xA003 b c ∧ c.session? = some x ∧ b.length = 8 ∧ allZero (b.drop 4) = true ∧ s.cerOf (field b 0 4) = some (port, y) ∧ y.session = x ∧ (s.cerPort port).step = none ∧ y.kind = 5 ∧ y.counted.length < s.cerQuorum y) ∧
    (∃ (s : State) (o : Origin) (c : Cmd) (b : Bytes) (x : BitVec 32) (port : Nat) (y : Ceremony) (cert : Bytes), HouseReady s o 0xA003 b c ∧ c.session? = some x ∧ b.length = 8 ∧ allZero (b.drop 4) = true ∧ s.cerOf (field b 0 4) = some (port, y) ∧ y.session = x ∧ (s.cerPort port).step = none ∧ y.kind = 5 ∧ s.cerQuorum y ≤ y.counted.length ∧ y.cert = some cert ∧ s.shieldWhole = true) :=
  ⟨⟨(serving 0xA001 cerBeginPars), o1, (cmd 0xA001 cerBeginPars), cerBeginPars, 1, (houseReady_of (by decide +kernel)), by decide +kernel⟩,
   ⟨(ceremonial 0xA002 2 false), o1, (cmd 0xA002 cerIdPars), cerIdPars, 1, 1, (ceremony 2), (houseReady_of (by decide +kernel)), by decide +kernel⟩,
   ⟨(ceremonial 0xA002 2 true), o1, (cmd 0xA002 cerIdPars), cerIdPars, 1, 1, (ceremony 2), (houseReady_of (by decide +kernel)), by decide +kernel⟩,
   ⟨(ceremonial 0xA003 2 false), o1, (cmd 0xA003 cerIdPars), cerIdPars, 1, 1, (ceremony 2), (houseReady_of (by decide +kernel)), by decide +kernel⟩,
   ⟨({ ceremonial 0xA003 5 false with cerb := { cer := some { ceremony 5 with registry := some registry } } }), o1, (cmd 0xA003 cerIdPars), cerIdPars, 1, 1, ({ ceremony 5 with registry := some registry }), (houseReady_of (by decide +kernel)), by decide +kernel⟩,
   ⟨claiming, o1, (cmd 0xA003 cerIdPars), cerIdPars, 1, 1, ({ ceremony 5 with registry := some registry, counted := [1], cert := some [1] }), ([1]), (houseReady_of (by decide +kernel)), by decide +kernel⟩⟩

/-- What CardRowsAct asks can be met, clause by clause. -/
theorem witness_CardRowsAct :
    (∃ (s : State) (port : Nat), port < 2 ∧ s.power.on = true ∧ (s.cerPort port).present = false ∧ (s.cerPort port).step = none) ∧
    (∃ (s : State) (port : Nat), port < 2 ∧ s.power.on = true ∧ (s.cerPort port).present = true ∧ (s.cerPort port).step = none) ∧
    (∃ (s : State) (port : Nat) (y : Ceremony) (st : CardStep), port < 2 ∧ s.power.on = true ∧ (s.cerPort port).present = true ∧ (s.cerPort port).cer = some y ∧ y.doomed = false ∧ (s.cerPort port).step = some st ∧ st.stage = .writing) ∧
    (∃ (s : State) (port : Nat) (y : Ceremony) (st : CardStep) (k : Custodian) (data : Bytes), port < 2 ∧ s.power.on = true ∧ (s.cerPort port).cer = some y ∧ (s.cerPort port).step = some st ∧ st.stage = .selecting ∧ data.length = 24 ∧ (s.cerPort port).unknown = none ∧ y.kind ≠ 4 ∧ (((s.cerRegistry y).map (·.custodians)).getD []).find? (fun k => k.cardId = data.take 16) = some k ∧ y.counted.contains k.index = false) ∧
    (∃ (s : State) (port : Nat) (y : Ceremony) (st : CardStep) (sw : BitVec 16), port < 2 ∧ s.power.on = true ∧ (s.cerPort port).cer = some y ∧ y.doomed = false ∧ (s.cerPort port).step = some st ∧ st.stage ≠ .awaiting ∧ sw ≠ 0x9000) ∧
    (∃ (s : State) (port : Nat) (y : Ceremony) (st : CardStep), port < 2 ∧ s.power.on = true ∧ (s.cerPort port).cer = some y ∧ y.doomed = false ∧ (s.cerPort port).step = some st ∧ st.stage ≠ .awaiting) ∧
    (∃ (s : State) (port : Nat) (st : CardStep), port < 2 ∧ s.power.on = true ∧ (s.cerPort port).active = true ∧ (s.cerPort port).clkstop = false ∧ (s.cerPort port).step = some st ∧ st.stage = .awaiting) ∧
    (∃ (s : State) (port : Nat) (y : Ceremony) (st : CardStep), port < 2 ∧ s.power.on = true ∧ (s.cerPort port).cer = some y ∧ y.doomed = false ∧ (s.cerPort port).step = some st ∧ st.stage = .awaiting ∧ (s.cerPort port).unknown = none) ∧
    (∃ (s : State) (port : Nat) (y : Ceremony), port < 2 ∧ s.power.on = true ∧ (s.cerPort port).cer = some y ∧ (s.cerPort port).step = none) ∧
    (∃ (s : State) (port : Nat) (a : Auth), port < 2 ∧ s.power.on = true ∧ (s.cerPort port).auth = some a) :=
  ⟨⟨base, 1, by decide +kernel⟩,
   ⟨({ base with cerb := { present := true, active := true, cer := some (ceremony 2) } }), 1, by decide +kernel⟩,
   ⟨(carded .writing), 1, (ceremony 2), ({ uid := 1, started := 0, stage := .writing }), by decide +kernel⟩,
   ⟨(carded .selecting), 1, (ceremony 2), ({ uid := 1, started := 0, stage := .selecting }), ({ index := 1, components := true, cardId := zeros 16, ecdsa := [], mldsa := [] }), (zeros 24), by decide +kernel⟩,
   ⟨(carded .selecting), 1, (ceremony 2), ({ uid := 1, started := 0, stage := .selecting }), 0x6A82, by decide +kernel⟩,
   ⟨(carded .writing), 1, (ceremony 2), ({ uid := 1, started := 0, stage := .writing }), by decide +kernel⟩,
   ⟨(carded .awaiting), 1, ({ uid := 1, started := 0, stage := .awaiting }), by decide +kernel⟩,
   ⟨(carded .awaiting), 1, (ceremony 2), ({ uid := 1, started := 0, stage := .awaiting }), by decide +kernel⟩,
   ⟨({ base with cerb := { cer := some (ceremony 2) } }), 1, (ceremony 2), by decide +kernel⟩,
   ⟨({ base with cerb := { auth := some { cer := ceremony 2, granted := 7 } } }), 1, ({ cer := ceremony 2, granted := 7 }), by decide +kernel⟩⟩

/-- What PairingRowsAct asks can be met, clause by clause. -/
theorem witness_PairingRowsAct :
    (∃ (s : State) (o : Origin) (c : Cmd) (b : Bytes) (x : BitVec 32) (port : Nat) (a : Auth), HouseReady s o 0x8001 b c ∧ c.session? = some x ∧ b.length = 24 ∧ field b 16 1 = 2 ∧ allZero (b.drop 17) = true ∧ s.pairFault x (b.take 16) = none ∧ s.authOf 2 x = some (port, a)) ∧
    (∃ (s : State) (o : Origin) (c : Cmd) (b : Bytes) (x : BitVec 32) (port : Nat) (a : Auth), HouseReady s o 0x8001 b c ∧ c.session? = some x ∧ b.length = 24 ∧ field b 16 1 = 1 ∧ allZero (b.drop 17) = true ∧ s.pairFault x (b.take 16) = none ∧ s.authOf 2 x = some (port, a)) ∧
    (∃ (s : State) (o : Origin) (c : Cmd) (b : Bytes) (r : Nat), HouseReady s o 0x8001 b c ∧ b.length = 24 ∧ (field b 16 1 = 1 ∨ field b 16 1 = 2) ∧ allZero (b.drop 17) = true ∧ (∃ x, c.session? = some x ∧ s.pairFault x (b.take 16) = some r)) ∧
    (∃ (s : State), s.power.on = true ∧ 2 ≤ s.part.link.toNat ∧ s.part.exchange = none) ∧
    (∃ (s : State) (e : PairExchange), s.power.on = true ∧ s.part.exchange = some e) ∧
    (∃ (s : State) (o : Origin) (c : Cmd), HouseReady s o 0x8100 [] c) ∧
    (∃ (s : State) (o : Origin) (c : Cmd) (b : Bytes) (r : Nat), HouseReady s o 0x8101 b c ∧ 136 ≤ b.length ∧ s.promoteFault b = some r) :=
  ⟨⟨(pairing 0x8001 (pairPars 2)), o1, (cmd 0x8001 (pairPars 2)), (pairPars 2), 1, 1, ({ cer := ceremony 2, granted := 7 }), (houseReady_of (by decide +kernel)), by decide +kernel⟩,
   ⟨(pairing 0x8001 (pairPars 1)), o1, (cmd 0x8001 (pairPars 1)), (pairPars 1), 1, 1, ({ cer := ceremony 2, granted := 7 }), (houseReady_of (by decide +kernel)), by decide +kernel⟩,
   ⟨(serving 0x8001 (pairPars 1)), o1, (cmd 0x8001 (pairPars 1)), (pairPars 1), 2, (houseReady_of (by decide +kernel)), by decide +kernel, by decide +kernel, by decide +kernel, ⟨1, by decide +kernel, by decide +kernel⟩⟩,
   ⟨({ base with part := { base.part with link := 2 } }), by decide +kernel⟩,
   ⟨exchanging, ({ uid := 1, peer := zeros 16, lead := false, start := 3, sent := [], secret := [] }), by decide +kernel⟩,
   ⟨(serving 0x8100 []), o1, (cmd 0x8100 []), (houseReady_of (by decide +kernel))⟩,
   ⟨(serving 0x8101 (zeros 136)), o1, (cmd 0x8101 (zeros 136)), (zeros 136), 1, (houseReady_of (by decide +kernel)), by decide +kernel⟩⟩

/-- What PartnerLinkActs asks can be met, clause by clause. -/
theorem witness_PartnerLinkActs :
    (∃ (s : State), s.power.on = true ∧ s.part.enabled = true ∧ s.part.link.toNat < 2 ∧ s.power.life = 1) ∧
    (∃ (s : State), s.power.on = true ∧ s.part.exchange = none) ∧
    (∃ (s : State), s.power.on = true ∧ 2 ≤ s.part.link.toNat) ∧
    (∃ (s : State), s.power.on = true ∧ s.toPart.paired = true ∧ s.part.link = 3 ∧ s.part.enabled = true ∧ s.shufflesPartner 1 = false ∧ s.part.st ≠ .resync ∧ s.part.st ≠ .mirrored) ∧
    (∃ (s : State) (h : MirrorHdr), MirrorArrives s h ∧ s.part.beatIn < h.seq.toNat ∧ s.part.st = .solo ∧ s.part.oneWay = false) ∧
    (∃ (s : State) (h : MirrorHdr), MirrorArrives s h ∧ h.seq.toNat ≤ s.part.beatIn) ∧
    (∃ (s : State), s.power.on = true ∧ s.toPart.paired = true ∧ s.part.missed < 29) ∧
    (∃ (s : State), s.power.on = true ∧ 29 ≤ s.part.missed ∧ (s.part.st = .mirrored ∨ s.part.st = .resync)) ∧
    (∃ (s : State) (seq : BitVec 64) (n : Nat) (m : MirrorMsg) (at_ : Nat), s.power.on = true ∧ s.toPart.paired = true ∧ s.part.link = 3 ∧ s.shufflesPartner 1 = false ∧ s.part.sentMsgs.find? (fun e => e.1 = BitVec.toNat seq) = some (n, m, at_)) ∧
    (∃ (s : State), s.power.on = true ∧ s.toPart.paired = true ∧ s.part.missed < 29) ∧
    (∃ (s : State), s.power.on = true ∧ s.part.missed = 29 ∧ (s.part.st = .mirrored ∨ s.part.st = .resync)) ∧
    (∃ (s : State) (h : MirrorHdr), MirrorArrives s h ∧ s.part.beatIn < h.seq.toNat) :=
  ⟨⟨base, by decide +kernel⟩,
   ⟨base, by decide +kernel⟩,
   ⟨(partnered .solo), by decide +kernel⟩,
   ⟨(partnered .solo), by decide +kernel⟩,
   ⟨(partnered .solo), mirrorHdr, (mirrorArrives_of (by decide +kernel)), by decide +kernel⟩,
   ⟨((let s := partnered .solo; { s with part := { s.part with beatIn := 1 } })), mirrorHdr, (mirrorArrives_of (by decide +kernel)), by decide +kernel⟩,
   ⟨((let s := partnered .mirrored; { s with part := { s.part with missed := 28 } })), by decide +kernel⟩,
   ⟨((let s := partnered .mirrored; { s with part := { s.part with missed := 29 } })), by decide +kernel⟩,
   ⟨((let s := partnered .mirrored; { s with part := { s.part with sentMsgs := [(4, .leaseRequest 9, 30)] } })), 4, 4, (.leaseRequest 9), 30, by decide +kernel⟩,
   ⟨((let s := partnered .mirrored; { s with part := { s.part with missed := 28 } })), by decide +kernel⟩,
   ⟨((let s := partnered .resync; { s with part := { s.part with missed := 29 } })), by decide +kernel⟩,
   ⟨(partnered .mirrored), mirrorHdr, (mirrorArrives_of (by decide +kernel)), by decide +kernel⟩⟩

/-- What MirrorFramesAct asks can be met, clause by clause. -/
theorem witness_MirrorFramesAct :
    (∃ (s : State) (h : MirrorHdr), NextFrame s h) ∧
    (∃ (s : State) (h : MirrorHdr), NextFrame s h) ∧
    (∃ (s : State) (h : MirrorHdr), NextFrame s h) ∧
    (∃ (s : State) (h : MirrorHdr) (b : Bytes), NextFrame s h ∧ b.length = 8) ∧
    (∃ (s : State) (h : MirrorHdr) (b : Bytes), NextFrame s h ∧ b.length = 72) ∧
    (∃ (s : State) (h : MirrorHdr), NextFrame s h) ∧
    (∃ (s : State) (h : MirrorHdr), NextFrame s h) ∧
    (∃ (s : State) (h : MirrorHdr), NextFrame s h) ∧
    (∃ (s : State) (h : MirrorHdr), s.power.on = true ∧ s.part.link = 3 ∧ s.part.enabled = true ∧ s.toPart.paired = true ∧ s.shufflesPartner 0 = false ∧ (h.version ≠ 1 ∨ h.reserved = true ∨ h.tagOk = false)) ∧
    (∃ (s : State) (h : MirrorHdr) (b : Bytes), NextFrame s h ∧ s.part.st = .resync ∧ s.part.todo = [] ∧ 8 ≤ b.length ∧ field b 0 1 ≤ 2 ∧ (b.drop 8).length ≤ 8192 ∧ s.part.maps.contains (field b 0 1) = true) ∧
    (∃ (s : State) (h : MirrorHdr) (b : Bytes), NextFrame s h ∧ b.length = 8 ∧ s.part.lead = true ∧ (s.part.st = .mirrored ∨ s.part.st = .resync)) ∧
    (∃ (s : State), s.power.on = true ∧ s.resyncDone = true) :=
  ⟨⟨(partnered .mirrored), mirrorHdr, (nextFrame_of (by decide +kernel))⟩,
   ⟨(partnered .mirrored), mirrorHdr, (nextFrame_of (by decide +kernel))⟩,
   ⟨(partnered .mirrored), mirrorHdr, (nextFrame_of (by decide +kernel))⟩,
   ⟨(partnered .mirrored), mirrorHdr, (toBE 8 64), (nextFrame_of (by decide +kernel)), by decide +kernel⟩,
   ⟨(partnered .mirrored), mirrorHdr, (zeros 72), (nextFrame_of (by decide +kernel)), by decide +kernel⟩,
   ⟨(partnered .mirrored), mirrorHdr, (nextFrame_of (by decide +kernel))⟩,
   ⟨(partnered .mirrored), mirrorHdr, (nextFrame_of (by decide +kernel))⟩,
   ⟨(partnered .mirrored), mirrorHdr, (nextFrame_of (by decide +kernel))⟩,
   ⟨(partnered .mirrored), ({ mirrorHdr with version := 2 }), by decide +kernel⟩,
   ⟨((let s := partnered .resync; { s with part := { s.part with maps := [0, 1, 2] } })), mirrorHdr, (fields [(1, 0), (3, 0), (4, 64), (1, 0x81)]), (nextFrame_of (by decide +kernel)), by decide +kernel⟩,
   ⟨((let s := partnered .mirrored; { s with part := { s.part with lead := true }, vault := { s.vault with ctrs := [(64, { st := .live, hw := 5 })] } })), mirrorHdr, (fields [(4, 64), (4, 0)]), (nextFrame_of (by decide +kernel)), by decide +kernel⟩,
   ⟨((let s := partnered .resync; { s with part := { s.part with maps := [0, 1, 2], peerEpoch := 9 } })), by decide +kernel⟩⟩

/-- What GuardReadmitAnswers asks can be met, clause by clause. -/
theorem witness_GuardReadmitAnswers :
    (∃ (s : State) (o : Origin) (c : Cmd) (b : Bytes), Ready s o 0x1201 b c ∧ c.hand ≠ 0) ∧
    (∃ (s : State) (o : Origin) (c : Cmd) (b : Bytes), HouseReady s o 0x1201 b c ∧ (b.length ≠ 8 ∨ allZero (b.drop 1) = false)) ∧
    (∃ (s : State) (o : Origin) (c : Cmd) (b : Bytes), HouseReady s o 0x1201 b c ∧ b.length = 8 ∧ allZero (b.drop 1) = true ∧ s.hasSeat (field b 0 1) = false) ∧
    (∃ (s : State) (o : Origin) (c : Cmd) (b : Bytes), HouseReady s o 0x1201 b c ∧ b.length = 8 ∧ allZero (b.drop 1) = true ∧ s.hasSeat (field b 0 1) = true ∧ s.seatIn (field b 0 1) .selfTest = true) ∧
    (∃ (s : State) (o : Origin) (c : Cmd) (b : Bytes), HouseReady s o 0x1201 b c ∧ b.length = 8 ∧ allZero (b.drop 1) = true ∧ s.hasSeat (field b 0 1) = true ∧ s.seatIn (field b 0 1) .selfTest = false ∧ (s.seat (field b 0 1)).parked = false) ∧
    (∃ (s : State) (o : Origin) (c : Cmd) (b : Bytes), HouseReady s o 0x1201 b c ∧ b.length = 8 ∧ allZero (b.drop 1) = true ∧ s.hasSeat (field b 0 1) = true ∧ s.seatIn (field b 0 1) .selfTest = false ∧ (s.seat (field b 0 1)).parked = true) :=
  ⟨⟨(serving 0x1201 (toBE 1 7 ++ zeros 7) 1), o2, (cmd 0x1201 (toBE 1 7 ++ zeros 7) 1), (toBE 1 7 ++ zeros 7), (ready_of (by decide +kernel)), by decide +kernel⟩,
   ⟨(serving 0x1201 (zeros 7)), o1, (cmd 0x1201 (zeros 7)), (zeros 7), (houseReady_of (by decide +kernel)), by decide +kernel⟩,
   ⟨(serving 0x1201 (zeros 8)), o1, (cmd 0x1201 (zeros 8)), (zeros 8), (houseReady_of (by decide +kernel)), by decide +kernel⟩,
   ⟨(readmitting .selfTest true), o1, (cmd 0x1201 (toBE 1 7 ++ zeros 7)), (toBE 1 7 ++ zeros 7), (houseReady_of (by decide +kernel)), by decide +kernel⟩,
   ⟨(readmitting .shed false), o1, (cmd 0x1201 (toBE 1 7 ++ zeros 7)), (toBE 1 7 ++ zeros 7), (houseReady_of (by decide +kernel)), by decide +kernel⟩,
   ⟨(readmitting .shed true), o1, (cmd 0x1201 (toBE 1 7 ++ zeros 7)), (toBE 1 7 ++ zeros 7), (houseReady_of (by decide +kernel)), by decide +kernel⟩⟩

/-- What CutPendingTurnsAway asks can be met, clause by clause. -/
theorem witness_CutPendingTurnsAway :
    (∃ (s : State) (o : Origin) (b : Bytes) (c : Cmd), HouseReady s o 0x1101 b c ∧ (s.deal.st = .staging ∨ s.deal.st = .cutting ∨ s.deal.st = .teardown)) ∧
    (∃ (s : State) (o : Origin) (c : Cmd) (b : Bytes), HouseReady s o 0x1102 b c ∧ b.length = 8 ∧ (s.deal.st = .staging ∨ s.deal.st = .cutting ∨ s.deal.st = .teardown)) ∧
    (∃ (s : State) (o : Origin) (c : Cmd), HouseReady s o 0x1103 [] c ∧ (s.deal.st = .staging ∨ s.deal.st = .cutting ∨ s.deal.st = .teardown)) ∧
    (∃ (s : State) (o : Origin) (c : Cmd), HouseReady s o 0x1104 [] c) :=
  ⟨⟨(pending_ 0x1101 []), o1, ([]), (cmd 0x1101 []), (houseReady_of (by decide +kernel)), by decide +kernel⟩,
   ⟨(pending_ 0x1102 (zeros 8)), o1, (cmd 0x1102 (zeros 8)), (zeros 8), (houseReady_of (by decide +kernel)), by decide +kernel⟩,
   ⟨(pending_ 0x1103 []), o1, (cmd 0x1103 []), (houseReady_of (by decide +kernel)), by decide +kernel⟩,
   ⟨(pending_ 0x1104 []), o1, (cmd 0x1104 []), (houseReady_of (by decide +kernel))⟩⟩

/-- What FreezeStopsRing asks can be met, clause by clause. -/
theorem witness_FreezeStopsRing :
    (∃ (p : Machine.Part), p.evr.thawAt.isSome = true) ∧
    (∃ (s : State) (o : Origin) (c : Cmd), HouseReady s o 0x9102 [] c) ∧
    (∃ (s : State), s.power.on = true) ∧
    (∃ (s : State) (o : Origin) (c : Cmd), HouseReady s o 0x9103 [] c) ∧
    (∃ (s : State), s.power.on = true) ∧
    (∃ (s : State), s.power.on = true) ∧
    (∃ (s : State), s.power.on = true) :=
  ⟨⟨({ base.toPart with evr := { base.evr with thawAt := some 8 } }), by decide +kernel⟩,
   ⟨(serving 0x9102 []), o1, (cmd 0x9102 []), (houseReady_of (by decide +kernel))⟩,
   ⟨base, by decide +kernel⟩,
   ⟨(serving 0x9103 []), o1, (cmd 0x9103 []), (houseReady_of (by decide +kernel))⟩,
   ⟨base, by decide +kernel⟩,
   ⟨base, by decide +kernel⟩,
   ⟨base, by decide +kernel⟩⟩

/-- What OneWayLoss asks can be met, clause by clause. -/
theorem witness_OneWayLoss :
    (∃ (s : State) (h : MirrorHdr) (b : Beat), MirrorArrives s h ∧ s.part.beatIn < h.seq.toNat ∧ (s.part.st = .mirrored ∨ s.part.st = .resync) ∧ b.state = 4) ∧
    (∃ (s : State) (h : MirrorHdr) (b : Beat), MirrorArrives s h ∧ s.part.beatIn < h.seq.toNat ∧ s.part.st = .solo ∧ s.part.oneWay = true ∧ b.state ≠ 1) ∧
    (∃ (s : State) (h : MirrorHdr) (b : Beat), MirrorArrives s h ∧ s.part.beatIn < h.seq.toNat ∧ s.part.st = .solo ∧ s.part.oneWay = true ∧ b.state = 1) :=
  ⟨⟨(partnered .mirrored), mirrorHdr, (beat 4), (mirrorArrives_of (by decide +kernel)), by decide +kernel⟩,
   ⟨((let s := partnered .solo; { s with part := { s.part with oneWay := true } })), mirrorHdr, (beat 2), (mirrorArrives_of (by decide +kernel)), by decide +kernel⟩,
   ⟨((let s := partnered .solo; { s with part := { s.part with oneWay := true } })), mirrorHdr, (beat 1), (mirrorArrives_of (by decide +kernel)), by decide +kernel⟩⟩

/-- What TrimStaysInBound asks can be met, clause by clause. -/
theorem witness_TrimStaysInBound :
    ∃ (s : State) (die : Nat) (cls : Nat) (i : Nat) (b : Nat) (d : Int), s.power.on = true ∧ s.hasDie die = true ∧ cls < 8 ∧ i < Machine.Part.sensorCount die cls ∧ (s.sensor die cls i).retired = false ∧ Machine.Part.trimBound cls = some b ∧ b < ((s.sensor die cls i).trim + max (-1) (min 1 d)).natAbs :=
  ⟨((let q := base.setLat 7 { sensors := [(1 * 128, { trim := 8, refusals := 1 })] }; { base with toPart := q })), 7, 1, 0, 8, 3, by decide +kernel⟩

/-- What ReplayWindowHolds asks can be met, clause by clause. -/
theorem witness_ReplayWindowHolds :
    (∃ (x : Session) (request : BitVec 64), x.st = .open_ ∧ x.recorded.any (fun e => e.1 = request.toNat) = true) ∧
    (∃ (x : Session) (request : BitVec 64), x.st = .open_ ∧ x.recorded.any (fun e => e.1 = request.toNat) = false ∧ (request = 0 ∨ request.toNat + x.window ≤ x.reqHigh)) ∧
    (∃ (p : Machine.Part) (x : Session) (hand : Nat) (code : Nat) (request : BitVec 64) (params : Bytes), p.findSession x.id = some x ∧ x.st = .open_ ∧ x.recorded.any (fun e => e.1 = request.toNat) = false ∧ request ≠ 0 ∧ x.reqHigh < request.toNat + x.window ∧ 1 ≤ x.window ∧ p.unanswered x.id < x.credit ∧ (∀ n, p.inflightLimit x.hand = some n → p.handInFlight x.hand < n) ∧ p.firstAnswer x hand code = none ∧ p.busy x.hand code params = none) :=
  ⟨⟨({ houseSession with recorded := [(1, none)] }), 1, by decide +kernel⟩,
   ⟨({ houseSession with reqHigh := 65537 }), 1, by decide +kernel⟩,
   ⟨({ base.toPart with xct := { base.xct with sessions := [{ houseSession with reqHigh := 65536 }] } }), ({ houseSession with reqHigh := 65536 }), 0, 0x1004, 1, ([]), by decide +kernel⟩⟩

/-- What StepRunsFront asks can be met, clause by clause. -/
theorem witness_StepRunsFront :
    ∃ (s : State), s.pending = [] :=
  ⟨base, by decide +kernel⟩

/-- What EveryCommandRuns asks can be met, clause by clause. -/
theorem witness_EveryCommandRuns :
    ∃ (c : Instr) (s : State), c.wf = true ∧ s.fuses.variant = .xf2408 ∧ (∀ die cls i d ok, c = .calibrationSlice die cls i d ok → cls < 8 ∧ i < Machine.Part.sensorCount die cls) :=
  ⟨.bypass, base, by decide +kernel, by decide +kernel, (by intro _ _ _ _ _ h; cases h)⟩

/-- What AbsentSeatFaults asks can be met, clause by clause. -/
theorem witness_AbsentSeatFaults :
    (∃ (s : State) (n : Nat), s.hasSeat n = false) ∧
    (∃ (s : State) (n : Nat), s.hasSeat n = false) ∧
    (∃ (s : State) (n : Nat), s.hasSeat n = false) ∧
    (∃ (s : State) (n : Nat), s.hasSeat n = false) ∧
    (∃ (s : State) (n : Nat), s.hasSeat n = false) ∧
    (∃ (s : State) (n : Nat), s.hasSeat n = false) ∧
    (∃ (s : State) (n : Nat), s.hasSeat n = false) ∧
    (∃ (s : State) (n : Nat), s.hasSeat n = false) ∧
    (∃ (s : State) (n : Nat), s.hasSeat n = false) :=
  ⟨⟨base, 8, by decide +kernel⟩,
   ⟨base, 8, by decide +kernel⟩,
   ⟨base, 8, by decide +kernel⟩,
   ⟨base, 8, by decide +kernel⟩,
   ⟨base, 8, by decide +kernel⟩,
   ⟨base, 8, by decide +kernel⟩,
   ⟨base, 8, by decide +kernel⟩,
   ⟨base, 8, by decide +kernel⟩,
   ⟨base, 8, by decide +kernel⟩⟩

/-- What StepKeeps asks can be met, clause by clause. -/
theorem witness_StepKeeps :
    ∃ (s : State) (t : State), step s = .next t :=
  ⟨({ base with pending := [.bypass] }), ({ base with joker := { base.joker with ir := 0xFF, dr := 0 } }), by rfl⟩

/-! ### Hypotheses met by hand -/

theorem finish_length (l : String) (x : Session) : (Part.finish l x).length = 32 := by
  unfold Part.finish hmacSha384 hmac
  simp [sha384_length]

/-- A host's session about to prove itself: the host's P-256 key, and a signature over SHA-384(th, "XCT host"). -/
def proving : Session :=
  { houseSession with id := 16385, st := .offered, th := [0]
                      hostKey := toBE 32 78118492006301824398791889274578157630557399509437701902235098886812694932283 ++
                        toBE 32 37308394323018714849035776194277000393110328394878991911112597562206653813468 }
def hostSignature : Bytes :=
  toBE 32 11104125002159299491327952232655684125483860957425965872058354813681355238631 ++
    toBE 32 11104125002159299491327952232655684125483860957425965872058354813681355238631

theorem hostSignature_ok : Part.hostSigned proving hostSignature = true := by decide +kernel

theorem witness_SessionRowsAct_prove :
    ∃ (s : State) (a : Arrival) (id : BitVec 32) (x : Session) (payload : Bytes), s.power.on = true ∧ s.guard.dealerHold = none ∧
      s.canSend a.half = true ∧ id ≠ 0 ∧ (s.portChecks a (32 + payload.length)).2 = true ∧ s.findSession id = some x ∧ x.st = .offered ∧
      32 ≤ payload.length ∧ Part.hostSigned x (payload.take (payload.length - 32)) = true ∧
      payload.drop (payload.length - 32) = Part.finish "XCT fin h" x := by
  have hl : hostSignature.length = 64 := by decide
  have e : (hostSignature ++ Part.finish "XCT fin h" proving).length - 32 = hostSignature.length := by simp [finish_length]
  refine ⟨{ base with xct := { sessions := [proving] } }, arrival, 16385, proving, hostSignature ++ Part.finish "XCT fin h" proving, rfl, rfl,
    by decide +kernel, by decide, ?_, rfl, rfl, by simp [finish_length], ?_, ?_⟩
  · rw [List.length_append, hl, finish_length]; decide +kernel
  · rw [e, List.take_left]; exact hostSignature_ok
  · rw [e, List.drop_left]

theorem witness_TrickRowsAct_verify :
    ∃ (f1 f2 : Nat) (k1 k2 pan b1 b2 : Bytes) (x y : List Nat),
      Pin.readField f1 (Pin.decipher f1 k1 pan b1) = some x ∧ Pin.readField f2 (Pin.decipher f2 k2 pan b2) = some y :=
  ⟨0, 1, tdeaKey.material, tdeaKey.material, zeros 8,
    Pin.encipher 0 tdeaKey.material (zeros 8) [0x04, 0x12, 0x34, 0xFF, 0xFF, 0xFF, 0xFF, 0xFF],
    Pin.encipher 1 tdeaKey.material (zeros 8) [0x14, 0x56, 0x78, 0, 0, 0, 0, 0], [1, 2, 3, 4], [5, 6, 7, 8], by decide +kernel⟩

theorem netOut_self (r : Nat) : Machine.Part.netOut r 100 r = false := by
  simp only [Machine.Part.netOut, decide_eq_false_iff_not]; omega
theorem netOut_double (r : Nat) : Machine.Part.netOut r 100 (2 * r + 1) = true := by
  simp only [Machine.Part.netOut, decide_eq_true_eq]; push_cast; omega

def warm (bad : List Nat) : State := { base with toPart := base.setLat 0 { base.lat 0 with diodes := [100], badNets := bad } }

theorem witness_LatticeRowsAct_nets :
    (∃ (s : State) (net mo : Nat), s.power.on = true ∧ net < 24 ∧
      Machine.Part.netOut (Config.netResistance net) (((s.lat 0).diodes.getD 0 0).toInt) mo = false) ∧
    (∃ (s : State) (net mo : Nat), s.power.on = true ∧ net < 24 ∧
      Machine.Part.netOut (Config.netResistance net) (((s.lat 0).diodes.getD 0 0).toInt) mo = true ∧ net ∉ (s.lat 0).badNets) ∧
    (∃ (s : State) (net mo : Nat), s.power.on = true ∧ net < 24 ∧
      Machine.Part.netOut (Config.netResistance net) (((s.lat 0).diodes.getD 0 0).toInt) mo = true ∧ net ∈ (s.lat 0).badNets ∧
      net ∉ (s.lat 0).netRun) :=
  ⟨⟨warm [], 23, Config.netResistance 23, rfl, by decide, netOut_self _⟩,
   ⟨warm [], 0, 2 * Config.netResistance 0 + 1, rfl, by decide, netOut_double _, by decide +kernel⟩,
   ⟨warm [23], 23, 2 * Config.netResistance 23 + 1, rfl, by decide, netOut_double _, by decide +kernel, by decide +kernel⟩⟩

theorem millerRabin_five (b : Bytes) : Pk.millerRabin 5 b = true := by
  have h : be b % 2 = 0 ∨ be b % 2 = 1 := by omega
  rcases h with h | h <;> simp [Pk.millerRabin, h] <;> decide

theorem keepCandidate_five (k : Nat) (b : Bytes) : Pk.keepCandidate k 5 [] b = true := by
  simp [Pk.keepCandidate, millerRabin_five]

theorem confirmed_five (k : Nat) (b : Bytes) : Pk.confirmed k 5 b = true := by
  simp [Pk.confirmed, millerRabin_five]

/-- The candidate 5 passes every Miller–Rabin round, whatever the base drawn. -/
theorem witness_PkeRowsAct_candidates :
    (∃ (s : State) (n k m : Nat) (j : Job) (c : Cmd), s.power.on = true ∧ s.hasSeat n = true ∧ k < 8 ∧ (s.pke n k).bank1 = some j ∧
      s.findCmd j.uid = some c ∧ (s.pke n k).parked = false ∧ s.drbgServes n = true ∧ m = field c.params 5 1 ∧ (s.pke n k).keygen.stage = 1 ∧
      Pk.keepCandidate (32 * m) (s.pke n k).keygen.candidate (s.pke n k).keygen.primes (s.drawn 2048) = true) ∧
    (∃ (s : State) (n k m : Nat) (j : Job) (c : Cmd), s.power.on = true ∧ s.hasSeat n = true ∧ k < 8 ∧ (s.pke n k).bank1 = some j ∧
      s.findCmd j.uid = some c ∧ (s.pke n k).parked = false ∧ s.drbgServes n = true ∧ m = field c.params 5 1 ∧ (s.pke n k).keygen.stage = 2 ∧
      (s.pke n k).keygen.primes = [] ∧ Pk.confirmed (32 * m) (s.pke n k).keygen.candidate (s.drawn 2048) = true) ∧
    (∃ (s : State) (n k m : Nat) (j : Job) (c : Cmd) (a : Nat), s.power.on = true ∧ s.hasSeat n = true ∧ k < 8 ∧ (s.pke n k).bank1 = some j ∧
      s.findCmd j.uid = some c ∧ (s.pke n k).parked = false ∧ s.drbgServes n = true ∧ m = field c.params 5 1 ∧ (s.pke n k).keygen.stage = 2 ∧
      (s.pke n k).keygen.primes = [a] ∧ Pk.confirmed (32 * m) (s.pke n k).keygen.candidate (s.drawn 2048) = true) := by
  refine ⟨⟨keygenAt 1 5 [], 1, 7, 8, job 0x40, onSeat 0x2003 rsaGenPars (.engine 1 .pke 7) .long, ?_⟩,
    ⟨keygenAt 2 5 [], 1, 7, 8, job 0x40, onSeat 0x2003 rsaGenPars (.engine 1 .pke 7) .long, ?_⟩,
    ⟨keygenAt 2 5 [11], 1, 7, 8, job 0x40, onSeat 0x2003 rsaGenPars (.engine 1 .pke 7) .long, 11, ?_⟩⟩
  · refine ⟨rfl, by decide, by decide, by decide +kernel, by decide +kernel, by decide +kernel, by decide +kernel, by decide +kernel, by decide +kernel, ?_⟩
    have h : ((keygenAt 1 5 []).pke 1 7).keygen = { stage := 1, candidate := 5, primes := [] } := by decide +kernel
    rw [h]; exact keepCandidate_five _ _
  · refine ⟨rfl, by decide, by decide, by decide +kernel, by decide +kernel, by decide +kernel, by decide +kernel, by decide +kernel, by decide +kernel,
      by decide +kernel, ?_⟩
    have h : ((keygenAt 2 5 []).pke 1 7).keygen = { stage := 2, candidate := 5, primes := [] } := by decide +kernel
    rw [h]; exact confirmed_five _ _
  · refine ⟨rfl, by decide, by decide, by decide +kernel, by decide +kernel, by decide +kernel, by decide +kernel, by decide +kernel, by decide +kernel,
      by decide +kernel, ?_⟩
    have h : ((keygenAt 2 5 [11]).pke 1 7).keygen = { stage := 2, candidate := 5, primes := [11] } := by decide +kernel
    rw [h]; exact confirmed_five _ _

theorem witness_IssuedValuesLeave_ranges :
    ∃ (n : Nat) (l : List (Nat × Nat)), (∀ r ∈ l, r.1 < r.2) ∧ l.Pairwise (fun a b => a.2 ≤ b.1) ∧ n ≤ (l.map (fun r => r.2 - r.1)).sum :=
  ⟨12, [(1, 3), (10, 20)], by decide, by decide, by decide⟩

theorem witness_StepKeeps_step : ∃ s t : State, step s = .next t ∧ MemoryWf s :=
  ⟨{ base with pending := [.bypass] }, { base with joker := { base.joker with ir := 0xFF, dr := 0 } }, by rfl, ⟨by decide +kernel, by decide +kernel⟩⟩

theorem keeps_back (p : Machine.Part) (d : Bytes) (s : Session) (h : p.findSession 1 = some s)
    (hs : p.xct.streams = [{ outStream with id := 0 }]) (hw : s.swin = 0) :
    (!(((p.produce 1 0 d true).findStream 1 0).any (fun y => y.announced < y.data.length))) = false := by
  let y : Machine.Stream := { outStream with id := 0, data := zeros 8 ++ d, ended := some (8 + d.length) }
  have hu : p.updStream 1 0 (fun x => { x with data := x.data ++ d, ended := if true then some (x.data.length + d.length) else x.ended }) =
      p.setStreams [y] := by
    simp [Part.updStream, hs, outStream, inStream, y]
  have hf : (p.setStreams [y]).findSession 1 = some s := h
  have hy : (p.setStreams [y]).findStream 1 0 = some y := by simp [Part.findStream, Part.setStreams, y, outStream, inStream]
  have hp : (p.setStreams [y]).pump 1 0 = p.setStreams [y] := by
    simp only [Part.pump, hf, hy]
    simp [Stream.limit, hw, y, outStream, inStream]
  unfold Part.produce
  simp only at hu ⊢
  rw [hu, hp, hy]
  simp [y, outStream, inStream]

/-- A snapshot under way whose host gives its stream 0 no window. -/
def windowless : State :=
  let s := snapping { snap with stop := 0 }
  { s with xct := { s.xct with sessions := [{ houseSession with swin := 0 }], streams := [{ outStream with id := 0 }] } }

/-- A snapshot whose stream is gone has nothing beyond its window; one whose stream has no window does. -/
theorem witness_DeckRowsAct_snapshot :
    (∃ (s : State) (sn : Snapshot) (u : Nat) (c : Cmd) (x : BitVec 32), s.power.on = true ∧ s.vault.snapshot = some sn ∧ sn.uid = some u ∧
      s.findCmd u = some c ∧ c.session? = some x ∧ sn.stop = 0 ∧
      (!(((s.toPart.produce x (BitVec.ofNat 32 (field c.params 0 4)) (s.deckBody sn.header sn.version).1 true).findStream x
        (BitVec.ofNat 32 (field c.params 0 4))).any (fun y => y.announced < y.data.length))) = true) ∧
    (∃ (s : State) (sn : Snapshot) (u : Nat) (c : Cmd) (x : BitVec 32), s.power.on = true ∧ s.vault.snapshot = some sn ∧ sn.uid = some u ∧
      s.findCmd u = some c ∧ c.session? = some x ∧ sn.stop = 0 ∧
      (!(((s.toPart.produce x (BitVec.ofNat 32 (field c.params 0 4)) (s.deckBody sn.header sn.version).1 true).findStream x
        (BitVec.ofNat 32 (field c.params 0 4))).any (fun y => y.announced < y.data.length))) = false) := by
  refine ⟨⟨snapping { snap with stop := 0 }, { snap with stop := 0 }, 1, cmd 0x2201 [] 0 .waiting, 1, rfl, rfl, rfl, by decide +kernel, rfl, rfl,
      by decide +kernel⟩,
    ⟨windowless, { snap with stop := 0 }, 1, cmd 0x2201 [] 0 .waiting, 1, rfl, rfl, rfl, by decide +kernel, rfl, rfl, ?_⟩⟩
  exact keeps_back windowless.toPart _ { houseSession with swin := 0 } (by decide +kernel) rfl rfl

theorem witness_ModesInvert :
    (∃ (n : Nat) (f g : Bytes → Bytes) (iv m : Bytes), 0 < n ∧ (∀ b, b.length = n → (f b).length = n ∧ g (f b) = b) ∧ iv.length = n ∧
      m.length % n = 0) ∧
    (∃ (f : Bytes → Bytes) (_bits : Nat) (_iv _m : Bytes), ∀ b, (f b).length = 16) :=
  ⟨⟨16, List.reverse, List.reverse, zeros 16, zeros 48, by decide, fun b h => ⟨by rw [List.length_reverse, h], List.reverse_reverse b⟩, rfl, rfl⟩,
   ⟨padTo 16, 32, zeros 16, [1, 2, 3], padTo_length 16⟩⟩

theorem witness_Ff1Inverts : ∃ d : List Nat, d = [1, 2, 3, 4, 5, 6, 7, 8, 9, 0] ∧ ∀ x ∈ d, x < 10 := ⟨_, rfl, by decide⟩

theorem witness_PowerOffInert :
    ∃ (c : Instr) (s t : State), s.power.on = false ∧ exec c s = .next t ∧ (∀ f, c ≠ .powerUp f) ∧ (∀ k i m, c ≠ .offWitness k i m) ∧
      c ≠ .vbatLoss ∧ (∀ v, c ≠ .vbatReturn v) ∧ (∀ v, c ≠ .batteryLow v) ∧ c ≠ .osc32Fail ∧ c ≠ .osc32Restart :=
  ⟨.bypass, State.reset, State.reset, rfl, rfl, nofun, nofun, nofun, nofun, nofun, nofun, nofun⟩

theorem witness_ResetRegisters_seats : ∃ n, 1 ≤ n ∧ n ≤ 7 := ⟨7, by decide⟩

/-! ### Signed by a custodian

Its ML-DSA-87 key has no polynomial, so that any signature in the format whose challenge is the hash of the representative verifies; its P-384 key is
the point Q with Q + G = (e, y), so that (e, e) is a signature of the digest e. -/

def idleShape : Bytes := List.replicate 4480 0x55 ++ zeros 83

theorem idleShape_length : idleShape.length = 4563 := by
  simp only [idleShape, zeros, List.length_append, List.length_replicate]

theorem idle_verifies (mu : Bytes) : Dsa.verifyMu (zeros 32) mu (shake256 64 mu ++ idleShape) = true := by
  have h1 : (shake256 64 mu ++ idleShape).take 64 = shake256 64 mu := List.take_left' (shake256_length 64 mu)
  have h2 : (shake256 64 mu ++ idleShape).drop 64 = idleShape := List.drop_left' (shake256_length 64 mu)
  have h3 : (shake256 64 mu ++ idleShape).drop 4544 = zeros 83 := by
    rw [show 4544 = 64 + 4480 from rfl, ← List.drop_drop, h2]; exact List.drop_left' List.length_replicate
  have h4 : idleShape.take 4480 = List.replicate 4480 0x55 := List.take_left' List.length_replicate
  have h5 : Dsa.hints (((zeros 83).map (·.toNat)).take 75) (((zeros 83).map (·.toNat)).drop 75) 0 = some (List.replicate 8 []) := by decide +kernel
  have h6 : chunks 320 ((zeros 32).drop 32) = [] := by decide
  have h7 : ((chunks 640 (List.replicate 4480 0x55)).map (fun b => (Machine.unpackBits 20 256 b).map (fun v => (2 ^ 19 + Dsa.q - v) % Dsa.q))).all
      (fun f => f.all (fun v => v < 2 ^ 19 - 120 || Dsa.q - (2 ^ 19 - 120) < v)) = true := by decide +kernel
  unfold Dsa.verifyMu
  simp only [slice, h1, h2, h3, h4, h5, h6, List.map_nil, List.zipIdx_nil, List.flatMap_nil, List.append_nil, beq_self_eq_true, Bool.and_true]
  exact h7

def signedEntry (digest context : Bytes) : Bytes :=
  [1, 0, 0, 0] ++ ((digest ++ digest) ++ ((shake256 64 (Dsa.representative (zeros 32) context digest) ++ idleShape) ++ [0]))
def signedSection (digest context : Bytes) : Bytes := [1, 1, 0, 0, 0, 0, 0, 0] ++ signedEntry digest context

def signingRegistry (x y : Nat) : Registry :=
  { registry with deal := 1, joker := 1, promote := 1
                  custodians := [{ index := 1, components := true, cardId := zeros 16, ecdsa := toBE 48 x ++ toBE 48 y, mldsa := zeros 32 }] }

theorem signedEntry_length {d c : Bytes} (h : d.length = 48) : (signedEntry d c).length = 4728 := by
  simp only [signedEntry, List.length_append, shake256_length, idleShape_length, h, List.length_cons, List.length_nil]

theorem signedSection_parses {d c : Bytes} (h : d.length = 48) : parseSignatures (signedSection d c) = some (1, [signedEntry d c]) := by
  have l := signedEntry_length (c := c) h
  have t : (signedSection d c).drop 8 = signedEntry d c := List.drop_left' rfl
  have n : (signedSection d c).length = 4736 := by simp only [signedSection, List.length_append, l]; rfl
  have k : chunks 4728 (signedEntry d c) = [signedEntry d c] := by
    have e : (signedEntry d c).isEmpty = false := by
      cases g : signedEntry d c with
      | nil => rw [g] at l; cases l
      | cons => rfl
    rw [chunks, l, show 4728 = 4726 + 1 + 1 from rfl, chunksAux, e, List.take_of_length_le (by omega), List.drop_of_length_le (by omega)]
    rfl
  have z : byteAt (signedEntry d c) 4727 = 0 := by
    unfold byteAt signedEntry
    rw [← List.append_assoc, ← List.append_assoc, List.getD_append_right _ _ _ _ (by simp [h, idleShape_length])]
    simp [h, idleShape_length]
  unfold parseSignatures
  simp only [t, n, k, List.all_cons, List.all_nil, z]
  rfl

theorem signedSection_counts {d c : Bytes} {x y : Nat} (h : d.length = 48)
    (v : p384.verify (some (x, y)) d (be d) (be d) = true) (hx : x < 256 ^ 48) (hy : y < 256 ^ 48) :
    quorumSigned (signingRegistry x y) 1 d c 1 [signedEntry d c] = true := by
  have e1 : slice (signedEntry d c) 4 96 = d ++ d := by
    unfold slice signedEntry
    rw [List.drop_left' (by rfl), List.take_left' (by simp [h])]
  have e2 : slice (signedEntry d c) 100 4627 = shake256 64 (Dsa.representative (zeros 32) c d) ++ idleShape := by
    unfold slice signedEntry
    rw [show (100 : Nat) = 4 + 96 from rfl, ← List.drop_drop, List.drop_left' (by rfl), List.drop_left' (by simp [h]),
      List.take_left' (by simp [idleShape_length])]
  have f1 : field (d ++ d) 0 48 = be d := by unfold field slice; rw [List.drop_zero, List.take_left' h]
  have f2 : field (d ++ d) 48 48 = be d := by unfold field slice; rw [List.drop_left' h, List.take_of_length_le (by omega)]
  have g1 : field (toBE 48 x ++ toBE 48 y) 0 48 = x := by
    unfold field slice; rw [List.drop_zero, List.take_left' (by simp)]; rw [be_toBE, Nat.mod_eq_of_lt hx]
  have g2 : field (toBE 48 x ++ toBE 48 y) 48 48 = y := by
    unfold field slice; rw [List.drop_left' (by simp), List.take_of_length_le (by simp)]; rw [be_toBE, Nat.mod_eq_of_lt hy]
  have w : Dsa.verify (zeros 32) d c (shake256 64 (Dsa.representative (zeros 32) c d) ++ idleShape) = true := idle_verifies _
  have i : field (signedEntry d c) 0 1 = 1 := rfl
  simp [quorumSigned, signers, signer, signingRegistry, i, signedBy, e1, e2, f1, f2, g1, g2, v, w]

/-! RETIRE, PROMOTE and a debug token so signed. -/

def retireX : Nat := 0xa7c81a4227738b7f39d3a75e719e7d4cf1fcb4bc17e08b0505d772388ae7c61b2339b4c026fafb0c0ca25482c7e91d9c
def retireY : Nat := 0xe4b6d2748af90bfed007ea84d2a340d161564748e6b960c2d410bcff7311776028cf71e7e7613d1da8be3e5a3e4a80e
def retireDeal : Deal := { dealOne with serial := 3, registry := signingRegistry retireX retireY }
def retireHead : Bytes := fields [(4, 0x52455452), (2, 1), (2, 0)] ++ base.fuses.idBytes ++ toBE 8 3 ++ zeros 32
def retireBlock : Bytes := retireHead ++ signedSection (sha384 retireHead) (ascii "XF24-RETR")
def retiring : State :=
  let s := serving 0x1501 retireBlock
  { s with deal := { s.deal with active := some retireDeal } }

theorem witness_SystemCommandsAct_retire :
    ∃ s o c b, HouseReady s o 0x1501 b c ∧ 72 ≤ b.length ∧ s.retireFault b = none := by
  have hl : retireHead.length = 64 := by decide
  have ht : retireBlock.take 64 = retireHead := List.take_left' hl
  have hd : retireBlock.drop 64 = signedSection (sha384 retireHead) (ascii "XF24-RETR") := List.drop_left' hl
  have hv : p384.verify (some (retireX, retireY)) (sha384 retireHead) (be (sha384 retireHead)) (be (sha384 retireHead)) = true := by decide +kernel
  have hq : quorumSigned retireDeal.registry 1 (sha384 retireHead) (ascii "XF24-RETR") 1 [signedEntry (sha384 retireHead) (ascii "XF24-RETR")] = true :=
    signedSection_counts (sha384_length _) hv (by decide) (by decide)
  refine ⟨retiring, o1, cmd 0x1501 retireBlock, retireBlock,
    ⟨⟨rfl, by simp [retiring, serving, withCmd, Machine.Part.findRow, cmd, o1], rfl, rfl,
      by simp [retiring, serving, withCmd, cmd, Machine.Part.isHead, Machine.Part.orderedTurn], rfl⟩, rfl⟩, ?_, ?_⟩
  · simp [retireBlock, hl, signedSection, signedEntry_length]
  · have hr : retiring.registryNow = some retireDeal.registry := rfl
    simp only [Machine.Part.retireFault, ht, hd, signedSection_parses (sha384_length _), hr]
    rw [if_neg (by decide), if_neg (by decide +kernel)]
    exact if_pos hq

def promoteX : Nat := 0x2a07080d7f8b555f8eb317e1645062e5644bac55b4369671bef09fdb73f34bb615411805b675f9e961f0df8e86a90dd1
def promoteY : Nat := 0x3b91dd2504874a9fbeea09a1100c3be93fe732c489c104afad909a61f6b73413ff9f1877dd19a79e886f98edb0cd8788
def promoteDeal : Deal := { dealOne with serial := 2, registry := signingRegistry promoteX promoteY }
def promoteHead : Bytes :=
  fields [(4, 0x50524D54), (2, 1), (2, 0)] ++ base.fuses.idBytes ++ zeros 16 ++ List.replicate 32 7 ++ toBE 8 2 ++ zeros 48
def promoteBlock : Bytes := promoteHead ++ signedSection (sha384 promoteHead) (ascii "XF24-PRMT")
def promoting : State :=
  let s := serving 0x8101 promoteBlock
  { s with deal := { s.deal with active := some promoteDeal }, part := { (partnered .solo).part with challenge := List.replicate 32 7, lead := false } }

theorem witness_PairingRowsAct_promote :
    ∃ s o c b, HouseReady s o 0x8101 b c ∧ 136 ≤ b.length ∧ s.promoteFault b = none := by
  have hl : promoteHead.length = 128 := by decide +kernel
  have ht : promoteBlock.take 128 = promoteHead := List.take_left' hl
  have hd : promoteBlock.drop 128 = signedSection (sha384 promoteHead) (ascii "XF24-PRMT") := List.drop_left' hl
  have hv : p384.verify (some (promoteX, promoteY)) (sha384 promoteHead) (be (sha384 promoteHead)) (be (sha384 promoteHead)) = true := by
    decide +kernel
  have hq : quorumSigned promoteDeal.registry 1 (sha384 promoteHead) (ascii "XF24-PRMT") 1
      [signedEntry (sha384 promoteHead) (ascii "XF24-PRMT")] = true :=
    signedSection_counts (sha384_length _) hv (by decide) (by decide)
  refine ⟨promoting, o1, cmd 0x8101 promoteBlock, promoteBlock,
    ⟨⟨rfl, by simp [promoting, serving, withCmd, Machine.Part.findRow, cmd, o1], rfl, rfl,
      by simp [promoting, serving, withCmd, cmd, Machine.Part.isHead, Machine.Part.orderedTurn], rfl⟩, rfl⟩, ?_, ?_⟩
  · simp [promoteBlock, hl, signedSection, signedEntry_length]
  · have hr : promoting.registryNow = some promoteDeal.registry := rfl
    simp only [Machine.Part.promoteFault, ht, hd, signedSection_parses (sha384_length _), hr]
    rw [if_neg (by decide +kernel), if_neg (by decide +kernel), if_neg (by rw [show promoteDeal.registry.promote = 1 from rfl, hq]; decide),
      if_neg (by decide)]

def jokerX : Nat := 0x2e6b10a9467955fa5d0863b94ff1fe04c74de786568a4e2f7abcd28fc7de1ad52b63db0778cca08776cea5f8e5e5f284
def jokerY : Nat := 0x962370aa66e5e635b2313b6fae1fbfad48b7ffd9058983d318f87b7a1a8e19ddc28e9508379df0fc77f36c702f9afec4
def jokerDeal : Deal := { dealOne with serial := 1, registry := signingRegistry jokerX jokerY }
def tokenHead : Bytes :=
  fields [(4, 0x4A4F4B52), (2, 1), (2, 1), (1, 0), (1, 0), (6, 0)] ++ base.fuses.idBytes ++ List.replicate 32 7 ++ toBE 8 1 ++ toBE 8 1000 ++ zeros 48
def tokenBlock : Bytes := tokenHead ++ signedSection (sha384 tokenHead) (ascii "XF24-JOKR")
theorem slice_head (a c : Bytes) (o n : Nat) (h : o + n ≤ a.length) : slice (a ++ c) o n = slice a o n := by
  unfold slice
  rw [List.drop_append_of_le_length (by omega), List.take_append_of_le_length (by rw [List.length_drop]; omega)]

theorem token_head (a c : Bytes) (h : a.length = 128) : parseToken (a ++ c) = parseToken a := by
  have l : ¬ (a ++ c).length < 128 := by rw [List.length_append]; omega
  have g : byteAt (a ++ c) 9 = byteAt a 9 := by unfold byteAt; rw [List.getD_append _ _ _ _ (by omega)]
  simp only [parseToken, field, slice_head a c _ _ (show 0 + 4 ≤ a.length by omega), slice_head a c _ _ (show 4 + 2 ≤ a.length by omega),
    slice_head a c _ _ (show 6 + 2 ≤ a.length by omega), slice_head a c _ _ (show 8 + 1 ≤ a.length by omega),
    slice_head a c _ _ (show 10 + 6 ≤ a.length by omega), slice_head a c _ _ (show 80 + 48 ≤ a.length by omega),
    slice_head a c _ _ (show 16 + 16 ≤ a.length by omega), slice_head a c _ _ (show 32 + 32 ≤ a.length by omega),
    slice_head a c _ _ (show 64 + 8 ≤ a.length by omega), slice_head a c _ _ (show 72 + 8 ≤ a.length by omega), g, l, h,
    show ¬ (128 < 128) by decide]

def debugToken : Token := { scope := 1, hand := 0, seats := 0, identity := zeros 16, challenge := List.replicate 32 7, serial := 1, expiry := 1000 }
def jokered : State :=
  { base with deal := { base.deal with active := some jokerDeal }, joker := { base.joker with chal := List.replicate 32 7 } }

theorem tokenFault_none (p : Machine.Part) (b : Bytes) (t : Token) (m : Nat) (sigs : List Bytes) (r : Registry) (hk : parseToken b = some t)
    (hs : parseSignatures (b.drop 128) = some (m, sigs)) (hr : p.registryNow = some r)
    (hq : quorumSigned r r.joker (sha384 (b.take 128)) (ascii "XF24-JOKR") m sigs = true) (h1 : t.identity = p.fuses.idBytes)
    (h2 : t.challenge = p.joker.chal) (h3 : t.serial = p.serialNow) (h4 : ¬ t.expiry ≤ p.optime) (h5 : t.scope ≠ 4)
    (h6 : (List.range 8).any (fun n => t.seats.getLsbD n && !(p.hasSeat n)) = false) (h7 : p.joker.scope = 0) : p.tokenFault b = none := by
  simp only [Machine.Part.tokenFault, hk, hs, hr, Option.any_some, hq, h1, h2, h3, h4, h5, h6, h7]
  simp

theorem witness_JokerRowsAct_auth :
    ∃ (s : State) (b : Bytes) (k : Token), s.power.on = true ∧ (s.power.life = 1 ∨ s.power.life = 2) ∧ s.power.stage ≠ 8 ∧
      (s.setIr 0x10 0).tokenFault b = none ∧ parseToken b = some k := by
  have hl : tokenHead.length = 128 := by decide +kernel
  have ht : tokenBlock.take 128 = tokenHead := List.take_left' hl
  have hd : tokenBlock.drop 128 = signedSection (sha384 tokenHead) (ascii "XF24-JOKR") := List.drop_left' hl
  have hv : p384.verify (some (jokerX, jokerY)) (sha384 tokenHead) (be (sha384 tokenHead)) (be (sha384 tokenHead)) = true := by decide +kernel
  have hq : quorumSigned jokerDeal.registry 1 (sha384 tokenHead) (ascii "XF24-JOKR") 1 [signedEntry (sha384 tokenHead) (ascii "XF24-JOKR")] = true :=
    signedSection_counts (sha384_length _) hv (by decide) (by decide)
  have hk : parseToken tokenBlock = some debugToken := (token_head _ _ hl).trans (by decide +kernel)
  refine ⟨jokered, tokenBlock, debugToken, rfl, .inl rfl, by decide, ?_, hk⟩
  have hr : (jokered.setIr 0x10 0).registryNow = some jokerDeal.registry := by rfl
  exact tokenFault_none _ _ _ _ _ _ hk (by rw [hd]; exact signedSection_parses (sha384_length _)) hr (by rw [ht]; exact hq) (by decide +kernel)
    (by decide +kernel) (by decide +kernel) (by decide +kernel) (by decide) (by decide +kernel) (by decide +kernel)

/-! Some hypotheses rest on functions the manual leaves open (certificates, firmware keys) or on a whole deck: these witnesses hold wherever
the open function answers so. -/

/-- A command of one input stream that has delivered an image. -/
def streamed (code n : Nat) (image : Bytes) (st : VaultSt) : State :=
  let s := serving code (streamPars n)
  { s with xct := { s.xct with streams := [{ inStream with data := image }] }, vault := { s.vault with st := st } }

theorem ready_streamed (code n : Nat) (image : Bytes) (st : VaultSt) :
    HouseReady (streamed code n image st) o1 code (streamPars n) (cmd code (streamPars n)) :=
  ⟨⟨rfl, by simp [streamed, serving, withCmd, Machine.Part.findRow, cmd, o1], rfl, rfl,
    by simp [streamed, serving, withCmd, cmd, Machine.Part.isHead, Machine.Part.orderedTurn], rfl⟩, rfl⟩

theorem streamed_whole (code n : Nat) (image : Bytes) (st : VaultSt) (h : image.length = n) (hb : field (streamPars n) 8 8 = n)
    (hl : (streamPars n).length = 16) (hz : allZero (slice (streamPars n) 4 4) = true)
    (hi : BitVec.ofNat 32 (field (streamPars n) 0 4) = 5) :
    Streamed (streamed code n image st) (cmd code (streamPars n)) image := by
  refine ⟨hl, hz, ?_, ?_⟩
  · simp only [Machine.Part.streamOf, Machine.Part.findStream, cmd, hi]; rfl
  · show field (streamPars n) 8 8 ≤ image.length
    omega

theorem witness_SystemCommandsAct_fwLoad (image : Bytes) (v : Word) (hl : image.length = 4852)
    (h : (streamed 0x1401 4852 image .open_).firmwareVersion image = some v) :
    ∃ s o c b image v, HouseReady s o 0x1401 b c ∧ Streamed s c image ∧ s.power.life = 1 ∧ s.firmwareVersion image = some v :=
  ⟨_, _, _, _, image, v, ready_streamed 0x1401 4852 image .open_, streamed_whole _ _ _ _ hl (by decide) (by decide) (by decide) (by decide), rfl, h⟩

theorem witness_DeckRowsAct_load (deck : Bytes) (hl : deck.length = 409808) (h : ((streamed 0x2203 409808 deck .awaitingDeck).loadDeck deck).2 = 0) :
    ∃ s o c b deck, HouseReady s o 0x2203 b c ∧ Streamed s c deck ∧ s.vault.st ≠ .open_ ∧ (s.loadDeck deck).2 = 0 :=
  ⟨_, _, _, _, deck, ready_streamed 0x2203 409808 deck .awaitingDeck, streamed_whole _ _ _ _ hl (by decide) (by decide) (by decide) (by decide),
    by simp [streamed], h⟩

/-- A Blank part with no session. -/
def blankPart : State := { base with power := { base.power with life := 0 }, xct := {} }

theorem witness_SessionRowsAct_hello (key : Bytes) (h : Config.certKey [] = some key) :
    ∃ (s : State) (a : Arrival) (payload : Bytes) (e : AdmissionEntry) (key : Bytes) (i inc : Nat), s.power.on = true ∧
      s.guard.dealerHold = none ∧ s.findSession 0 = none ∧ s.canSend a.half = true ∧ (s.portChecks a (32 + payload.length)).2 = true ∧ 1672 ≤ payload.length ∧ s.admission (payload.drop 1672) = some e ∧
      Config.certKey (payload.drop 1672) = some key ∧ field payload 1668 4 = (payload.drop 1672).length ∧
      (payload.drop 1672).length ≤ 4096 ∧ (s.xct.hellos.filter (fun t => ((s.portChecks a (32 + payload.length)).1.inCycle a.half).now < t + sec 1)).length < 10000 ∧ field payload 1664 4 < 2 ∧
      (s.xct.sessions.filter (fun x => x.cert = e.cert)).length < e.limit ∧ s.xct.sessions.length < 16384 ∧
      ¬ (e.flags.getLsbD 1 = true ∧ field payload 1664 4 = 0) ∧ s.freeIndex = some (i, inc) ∧
      (s.xct.sessions.filter (fun x => x.st == .offered)).length < 1024 := by
  have e : (zeros 1672).drop 1672 = [] := by decide +kernel
  refine ⟨blankPart, arrival, zeros 1672,
    { cert := sha384 [], hand := 0, flags := 0x04, limit := 64, credit := 65536, window := 64, idle := 65535, swin := 64, slimit := 256 },
    key, 0, 1, rfl, rfl, by decide +kernel, by decide +kernel, by decide +kernel, by decide +kernel, by rw [e]; rfl, by rw [e]; exact h, by decide +kernel, by decide +kernel,
    by decide +kernel, by decide +kernel, by decide, by decide, by decide, by decide +kernel, by decide⟩


theorem witness_CeremonyCommandsAct_cert (h : Config.certKey [] = some identityPub) :
    ∃ (s : State) (o : Origin) (c : Cmd) (b : Bytes) (x port : _) (y : Ceremony), HouseReady s o 0xA004 b c ∧ c.session? = some x ∧ 8 ≤ b.length ∧
      field b 4 4 = (b.drop 8).length ∧ (b.drop 8).length ≤ 4096 ∧ s.cerOf (field b 0 4) = some (port, y) ∧ y.session = x ∧
      (s.cerPort port).step = none ∧ y.kind = 5 ∧ Config.certKey (b.drop 8) = some identityPub :=
  ⟨ceremonial 0xA004 5 true, o1, cmd 0xA004 cerIdPars, cerIdPars, 1, 1, ceremony 5, houseReady_of (by decide +kernel), rfl, by decide, by decide,
    by decide, by decide +kernel, rfl, rfl, rfl, h⟩

theorem witness_PairingRowsAct_lead (e : PairExchange) (m : PairMsg) (hr : m.role = 2) (hl : e.lead = true) (b : Bytes) (hb : parsePair b = some m)
    (id : BitVec 128) (hi : toBE 16 id.toNat = e.peer) (h : Machine.Part.pairOk e m (e.sent ++ m.body) = true) :
    ∃ (s : State) (identity : BitVec 128) (b : Bytes) (e : PairExchange) (m : PairMsg), s.power.on = true ∧ 2 ≤ s.part.link.toNat ∧
      s.part.exchange = some e ∧ toBE 16 identity.toNat = e.peer ∧ e.lead = true ∧ parsePair b = some m ∧ m.role = 2 ∧
      Machine.Part.pairOk e m (e.sent ++ m.body) = true :=
  ⟨{ base with part := { base.part with link := 2, exchange := some e } }, id, b, e, m, rfl, Nat.le_refl 2, rfl, hi, hl, hb, hr, h⟩

end Sys2Proof.Tests
end

/-! ## The scope of every row: what the part answers when a command names a unit it has, or one it lacks (00 R1) -/

namespace Sys2Proof.Scope

open Sys2Proof.Machine Sys2Proof.Safety

/-- The variant has the unit that a command names (00 R1); a command that names none asks for nothing. -/
def unitThere (p : Part) : Instr → Bool
  | .linkFlitReceive n _ _ _ _ _ | .linkRetrain n | .linkRetrainComplete n _ | .seatDescriptorArrive n _ | .keyFetchComplete n _ _
  | .keyInvalidate n _ | .keyEraseOrder n _ | .eraseConfirm n _ | .seatEpochFlip n | .privateSeatRelease n | .seatReadmit n
  | .seatSelfTestComplete n _ | .dgstbClaimGrant n | .dgstbClaimTimeout n | .dgstbBlockDone n => p.hasSeat n
  | .keyImport n k | .keyExport n k | .keyComponent n k | .pinTranslate n k | .pinVerify n k | .dukptPinTranslate n k | .dukptMac n k
  | .emvArqc n k | .emvScript n k | .macGenerate n k | .macVerify n k | .ff1Encrypt n k | .ff1Decrypt n k | .tdeaCbcEncrypt n k
  | .tdeaCbcDecrypt n k | .trickStart n k _ | .trickComplete n k _ _ => p.hasSeat n && k < 16
  | .laneCommandResident n k _ | .laneCompareFail n k | .laneReseedRequest n k | .laneMaskReseed n k => p.hasSeat n && k < 2
  | .laneEcb n k i | .laneCbc n k i | .laneCtr n k i | .laneGcm n k i | .laneXts n k i | .laneCmac n k i | .laneCtxExport n k i
  | .laneCtxImport n k i | .laneCtxDiscard n k i | .laneCommandComplete n k i _ => p.hasSeat n && k < 2 && i < 12
  | .keyGenerate n k | .pkeEcdsaSign n k | .pkeEcdsaVerify n k | .pkeEd25519Sign n k | .pkeEd25519Verify n k | .pkeAgree n k
  | .pkeRsaSign n k | .pkeRsaPublic n k | .pkeRsaUnwrap n k | .pkeMldsaVerify n k | .pkeJobStart n k _ | .pkeJobComplete n k _ _
  | .pkeYieldPoint n k | .pkeLongResume n k | .keygenStepComplete n k => p.hasSeat n && k < 8
  | .dgstHash n k | .dgstCtxExport n k | .dgstCtxImport n k | .dgstCtxDiscard n k | .digestJobStart n k _ | .digestJobComplete n k _
  | .digestParityFault n k => p.hasSeat n && k < 2
  | .appletInvoke n k | .trngOutRead n k | .trngOutTimeout n k | .appletInstanceStart n k | .appletEcall n k _ _ _
  | .appletException n k _ _ _ | .appletBudgetExpired n k | .coreDoorbell n k _ | .ntcRaise n k _ | .slotGuardStoreDrain n k _ _
  | .dgstbClaim n k | .dgstbRelease n k | .dgstbGo n k _ _ _ | .dgstbData n k _ | .dgstbLast n k _ | .dgstbCmp n k _ _ =>
    p.hasSeat n && k < 4
  | .slotGuardViolation n m k _ _ _ _ => p.hasSeat n && m < 7 && k < 4
  | .tileWakeComplete n g i | .tileIdleEnter n g i | .tileGateEnter n g i | .tilePowerDownComplete n g i =>
    p.hasSeat n && g < 4 && i < groupTiles g
  | .engineScrubComplete n e i => p.hasSeat n && i < (siteOfEngine e).count
  | .anteTake d | .witnessReport d _ _ _ | .holdEnd d | .thermalReport d _ | .temperatureSample d _ | .tempRateCompute d | .drbgReseed d
  | .drbgStopped d => p.hasDie d
  | .anteWindowEnd d g _ => p.hasDie d && g < 4
  | .slowVoltageMean d w _ => p.hasDie d && w < 8
  | .trngSourceFail d i _ | .trngSourceRestored d i => p.hasDie d && i < 2
  | .calibrationSlice d cls i _ _ => p.hasDie d && cls < 8 && i < Part.sensorCount d cls
  | .shieldResistanceCheck net _ => net < 24
  | .cardInserted k | .cardRemoved k | .cardResponse k _ _ _ | .cardWaitTimeExpired k | .cardClockStop k | .cerStepCardTimeout k
  | .ceremonyIdleTimeout k | .authorisationLapse k => k < 2
  | _ => true

/-- What a row answers: the part it leaves, with the queue as it was, where the unit it names is there; else the fault. -/
structure Acts (there : Bool) (s : State) (r : Result) : Prop where
  next : there = true → ∃ p, r = .next (after s p)
  fault : there = false → r = .fault .absentUnit

theorem powered_next (s : State) (f : Part → Part) : ∃ p, powered s f = .next (after s p) := by
  cases h : s.power.on with
  | true => exact ⟨_, Laws.powered_on h f⟩
  | false => exact ⟨s.toPart, Laws.powered_off h f⟩

theorem powered_acts (s : State) (f : Part → Part) : Acts true s (powered s f) := ⟨fun _ => powered_next s f, nofun⟩

theorem always_acts (s : State) (f : Part → Part) : Acts true s (always s f) := ⟨fun _ => ⟨_, rfl⟩, nofun⟩

theorem onUnit_acts (there : Bool) (s : State) (f : Part → Part) : Acts there s (onUnit there s f) := by
  cases there with
  | true => exact powered_acts s f
  | false => exact ⟨nofun, fun _ => rfl⟩

/-- Every row acts on the part where the unit it names is there, and faults where it is not. -/
theorem exec_acts (c : Instr) (s : State) : Acts (unitThere s.toPart c) s (exec c s) := by
  cases c
  case powerUp | offWitness | osc32Fail | osc32Restart | vbatLoss | vbatReturn | batteryLow =>
    unfold exec
    exact always_acts s _
  case linkFlitReceive | linkRetrain | linkRetrainComplete | seatDescriptorArrive | keyFetchComplete | keyInvalidate | keyEraseOrder |
      eraseConfirm | seatEpochFlip | privateSeatRelease | seatReadmit | seatSelfTestComplete | dgstbClaimGrant | dgstbClaimTimeout |
      dgstbBlockDone | keyImport | keyExport | keyComponent | pinTranslate | pinVerify | dukptPinTranslate | dukptMac | emvArqc |
      emvScript | macGenerate | macVerify | ff1Encrypt | ff1Decrypt | tdeaCbcEncrypt | tdeaCbcDecrypt | trickStart | trickComplete |
      laneCommandResident | laneCompareFail | laneReseedRequest | laneMaskReseed | laneEcb | laneCbc | laneCtr | laneGcm | laneXts |
      laneCmac | laneCtxExport | laneCtxImport | laneCtxDiscard | laneCommandComplete | keyGenerate | pkeEcdsaSign | pkeEcdsaVerify |
      pkeEd25519Sign | pkeEd25519Verify | pkeAgree | pkeRsaSign | pkeRsaPublic | pkeRsaUnwrap | pkeMldsaVerify | pkeJobStart |
      pkeJobComplete | pkeYieldPoint | pkeLongResume | keygenStepComplete | dgstHash | dgstCtxExport | dgstCtxImport | dgstCtxDiscard |
      digestJobStart | digestJobComplete | digestParityFault | appletInvoke | trngOutRead | trngOutTimeout | appletInstanceStart |
      appletEcall | appletException | appletBudgetExpired | coreDoorbell | ntcRaise | slotGuardStoreDrain | dgstbClaim | dgstbRelease |
      dgstbGo | dgstbData | dgstbLast | dgstbCmp | slotGuardViolation | tileWakeComplete | tileIdleEnter | tileGateEnter |
      tilePowerDownComplete | engineScrubComplete | anteTake | witnessReport | holdEnd | thermalReport | temperatureSample |
      tempRateCompute | drbgReseed | drbgStopped | anteWindowEnd | slowVoltageMean | trngSourceFail | trngSourceRestored |
      calibrationSlice | shieldResistanceCheck | cardInserted | cardRemoved | cardResponse | cardWaitTimeExpired | cardClockStop |
      cerStepCardTimeout | ceremonyIdleTimeout | authorisationLapse => exact onUnit_acts _ s _
  all_goals
    unfold exec
    exact powered_acts s _

/-! ### The XF2408 has every unit a well-formed command names -/

theorem groupTiles_eq_groupSize : groupTiles = groupSize := by
  funext g
  unfold groupTiles groupSize
  rfl

theorem siteOfEngine_count (e : Engine) : (siteOfEngine e).count = engineCount e := by cases e <;> rfl

/-- A tile index within its group's size names a tile of one of the four groups. -/
theorem groupTile_iff (g i : Nat) : g < 4 ∧ i < groupTiles g ↔ i < groupSize g := by
  rw [groupTiles_eq_groupSize, and_iff_right_iff_imp]
  unfold groupSize
  split <;> omega

section
variable {p : Part} (h : p.fuses.variant = .xf2408)
include h

theorem hasSeat_xf2408 (n : Nat) : p.hasSeat n = seatOk n := by simp [Part.hasSeat, Part.seatCount, h, Variant.seats, seatOk]

theorem hasDie_xf2408 (d : Nat) : p.hasDie d = dieOk d := by simp [Part.hasDie, Part.seatCount, h, Variant.seats, dieOk]

end

/-- On the XF2408 a well-formed command's unit is there, a sensor's calibration aside: that names one of the die's sensors. -/
theorem unitThere_of_wf {p : Part} (h : p.fuses.variant = .xf2408) (c : Instr) (hwf : c.wf = true)
    (hcal : ∀ die cls i d ok, c = .calibrationSlice die cls i d ok → cls < 8 ∧ i < Part.sensorCount die cls) : unitThere p c = true := by
  have hs := hasSeat_xf2408 h
  have hd := hasDie_xf2408 h
  revert hwf
  unfold Instr.wf unitThere
  cases c
  case calibrationSlice die cls i d ok =>
    have hk := hcal die cls i d ok rfl
    simp +contextual [hd, hk]
  case tileWakeComplete | tileIdleEnter | tileGateEnter | tilePowerDownComplete =>
    simp [hs, and_assoc, groupTile_iff]
  all_goals simp +contextual [hs, hd, siteOfEngine_count]

/-! ### What follows for every row -/

theorem exec_absent {c : Instr} {s : State} (h : unitThere s.toPart c = false) : exec c s = .fault .absentUnit := (exec_acts c s).fault h

/-- A row answers the part it leaves, with the queue as it was, or the fault. -/
theorem exec_next_or_fault (c : Instr) (s : State) : (∃ p, exec c s = .next (after s p)) ∨ exec c s = .fault .absentUnit := by
  cases h : unitThere s.toPart c with
  | true => exact .inl ((exec_acts c s).next h)
  | false => exact .inr (exec_absent h)

theorem exec_ne_refused (c : Instr) (s : State) (r : Refusal) : exec c s ≠ .refused r := by
  obtain ⟨p, h⟩ | h := exec_next_or_fault c s <;> simp [h]

theorem exec_pending {c : Instr} {s t : State} (h : exec c s = .next t) : t.pending = s.pending := by
  obtain ⟨p, hp⟩ | hf := exec_next_or_fault c s
  · obtain rfl : after s p = t := by simpa [hp] using h
    rfl
  · simp [hf] at h

/-- Settles O56: a row acts wherever the unit it names is there, and a well-formed command's unit is there on the XF2408. -/
theorem everyCommandRuns : Obligations.EveryCommandRuns := by
  refine ⟨⟨fun c s hwf hv hcal => ?_, exec_ne_refused⟩, fun c s t => exec_pending⟩
  obtain ⟨p, hp⟩ := (exec_acts c s).next (unitThere_of_wf hv c hwf hcal)
  exact ⟨after s p, hp⟩

/-- Settles O57: the unit of each of these rows is one of the Seat, or the Seat itself. -/
theorem absentSeatFaults : Obligations.AbsentSeatFaults := by
  intro s n h
  refine ⟨fun u e => ?_, fun l e => ?_, fun k e => ?_, fun k e => ?_, fun k => ?_, fun g i => ?_, fun e => ?_, fun k e => ?_,
    ?_, ?_, ?_, ?_⟩ <;> exact exec_absent (by unfold unitThere; simp [h])

/-! ### Register reads (01 R5, R29) -/

/-- A register read changes a latch at most. -/
theorem readReg_frame (p : Part) (addr : Nat) : (p.readReg addr).1 = { p with latches := (p.readReg addr).1.latches } := by
  unfold Part.readReg
  split
  · rfl
  · split <;> rfl

theorem readRegs_succ (p : Part) (addr n : Nat) : p.readRegs addr (n + 1) =
    (((p.readReg addr).1.readRegs (addr + 4) n).1,
      toBE 4 (p.readReg addr).2.toNat ++ ((p.readReg addr).1.readRegs (addr + 4) n).2) := rfl

theorem readRegs_frame (p : Part) (addr n : Nat) : (p.readRegs addr n).1 = { p with latches := (p.readRegs addr n).1.latches } := by
  induction n generalizing p addr with
  | zero => rfl
  | succ n ih => rw [readRegs_succ, ih, readReg_frame p addr]

theorem readRegs_length (p : Part) (addr n : Nat) : (p.readRegs addr n).2.length = 4 * n := by
  induction n generalizing p addr with
  | zero => rfl
  | succ n ih => rw [readRegs_succ, List.length_append, toBE_length, ih, Nat.mul_succ, Nat.add_comm]

theorem eight_dvd_blockOf (die w : Nat) : 8 ∣ blockOf die w := by
  unfold blockOf
  split_ifs <;> decide

/-- A count pair's LO register stands on a multiple of 8, at 0x100 of its window or above. -/
theorem isCountLo_offset {addr : Nat} (h : isCountLo addr = true) : addr % 8 = 0 ∧ 0x100 ≤ addr % 65536 := by
  simp only [isCountLo, Bool.and_eq_true, decide_eq_true_eq, beq_iff_eq] at h
  obtain ⟨⟨⟨hge, -⟩, height⟩, -⟩ := h
  rw [Nat.mod_mod_of_dvd _ (eight_dvd_blockOf _ _), Nat.mod_mod_of_dvd _ (by decide)] at height
  exact ⟨height, hge.trans (Nat.mod_le _ _)⟩

section
variable {addr : Nat} (h : isCountLo addr = true)
include h

theorem latchesAt_lo : Part.latchesAt addr = true := by simp [Part.latchesAt, h]

theorem latchesAt_hi : Part.latchesAt (addr + 4) = false := by
  obtain ⟨height, hge⟩ := isCountLo_offset h
  have hlo : isCountLo (addr + 4) = false := by
    by_contra hc
    obtain ⟨hi, -⟩ := isCountLo_offset (Bool.eq_true_of_not_eq_false hc)
    omega
  simp only [Part.latchesAt, hlo, winEVR, Bool.false_or, Bool.or_eq_false_iff, beq_eq_false_iff_ne]
  omega

theorem hiOf_hi : Part.hiOf (addr + 4) = some addr := by
  obtain ⟨-, hge⟩ := isCountLo_offset h
  have hevr : ¬(addr + 4 = winEVR + 0x10 ∨ addr + 4 = winEVR + 0x1C) := by
    unfold winEVR
    omega
  rw [Part.hiOf, if_neg hevr, Nat.add_sub_cancel, if_pos ⟨Nat.le_add_left 4 addr, h⟩]

/-- A read of a count's LO register answers bits 31 to 0 and latches bits 63 to 32. -/
theorem readReg_lo (p : Part) : p.readReg addr =
    ({ p with latches := Sparse.set 0 p.latches addr ((p.pairValue addr).extractLsb' 32 32) }, (p.pairValue addr).truncate 32) := by
  simp only [Part.readReg, latchesAt_lo h, if_true]

/-- A read of a count's HI register answers the latch of its LO register, and changes nothing. -/
theorem readReg_hi (p : Part) : p.readReg (addr + 4) = (p, Sparse.get 0 p.latches addr) := by
  simp [Part.readReg, latchesAt_hi h, hiOf_hi h]

theorem readReg_hi_of_lo (p : Part) : ((p.readReg addr).1.readReg (addr + 4)).2 = (p.pairValue addr).extractLsb' 32 32 := by
  rw [readReg_hi h, readReg_lo h, Sparse.get_set_same]

theorem readRegs_pair (p : Part) : (p.readRegs addr 2).2 =
    toBE 4 ((p.pairValue addr).truncate 32 : BitVec 32).toNat ++ toBE 4 ((p.pairValue addr).extractLsb' 32 32).toNat := by
  rw [readRegs_succ, readRegs_succ, readReg_hi_of_lo h, readReg_lo h]
  simp [Part.readRegs]

end

/-! ### Writes of DISP_LONGCAP (04, 01 R28) -/

theorem writeReg_longCap (p : Part) (v m : Word) :
    p.writeReg 0x060008 v m =
      if (merged p.disp.longCap.toNat v m).toNat % 16 = 0 ∨ 8 < (merged p.disp.longCap.toNat v m).toNat % 16 then p
      else p.setDisp { p.disp with longCap := (merged p.disp.longCap.toNat v m).truncate 4 } := rfl

theorem truncate_eq_ofNat_mod (x : Word) : (x.truncate 4 : BitVec 4) = BitVec.ofNat 4 (x.toNat % 16) :=
  BitVec.eq_of_toNat_eq (by simp)

/-- Settles O6: a read's frame by induction on the registers read; the pair by what each of its two addresses is. -/
theorem registerRules : Obligations.RegisterRules := by
  refine ⟨fun p addr n => ⟨readRegs_frame p addr n, readRegs_length p addr n⟩,
    fun p addr h => ⟨readRegs_pair h p, readReg_hi_of_lo h p⟩, fun p v m => ⟨fun ignored => ?_, fun low high => ?_⟩⟩
  · rw [writeReg_longCap, if_pos ignored]
  · rw [writeReg_longCap, if_neg (by omega)]
    exact ⟨truncate_eq_ofNat_mod _, rfl⟩

/-! ### Reset (01 R4) -/

/-- Settles O60: the reset state is closed, and each register is evaluated on it. -/
theorem resetRegisters : Obligations.ResetRegisters := by
  refine ⟨⟨by decide +kernel, by decide +kernel, fun n low high => ?_⟩, ⟨rfl, rfl⟩, rfl⟩
  interval_cases n <;> decide +kernel

end Sys2Proof.Scope

/-! ## Registers, tile clocks and Seat links (01 R13 to R15, R20, R21, R28) -/

namespace Sys2Proof.Architecture

open Sys2Proof.Machine Sys2Proof.Safety Sys2Proof.Laws

/-! ### Acts on a unit that is there -/

theorem onUnit_on {s : State} {there : Bool} (h : there = true) (on : s.power.on = true) (f : Part → Part) :
    onUnit there s f = .next (after s (f s.toPart)) := by
  rw [onUnit, if_pos h, powered_on on]

theorem onTile_on {s : State} {n g i : Nat} (on : s.power.on = true) (hn : s.hasSeat n = true) (hg : g < 4) (hi : i < groupTiles g)
    (f : Part → Part) : onTile n g i s f = .next (after s (f s.toPart)) :=
  onUnit_on (by simp [hn, hg, hi]) on f

/-! ### Frames: the units an operation may change -/

/-- q has the units of p, those of the list aside. -/
def ChangesOnly (l : List Unit_) (p q : Part) : Prop := ∀ u, u ∉ l → u.Same (after {} p) (after {} q)

theorem same_after {u : Unit_} {s : State} {q : Part} (h : u.Same (after {} s.toPart) (after {} q)) : u.Same s (after s q) := by
  cases u <;> exact h

theorem same_trans {u : Unit_} {s t r : State} (h : u.Same s t) (k : u.Same t r) : u.Same s r := by
  cases u with
  | ports =>
    obtain ⟨h1, h2, h3, h4, h5, h6⟩ := h
    obtain ⟨k1, k2, k3, k4, k5, k6⟩ := k
    exact ⟨k1.trans h1, k2.trans h2, k3.trans h3, k4.trans h4, k5.trans h5, k6.trans h6⟩
  | cers =>
    obtain ⟨h1, h2⟩ := h
    obtain ⟨k1, k2⟩ := k
    exact ⟨k1.trans h1, k2.trans h2⟩
  | _ => exact Eq.trans k h

namespace ChangesOnly

variable {l m : List Unit_} {p q r : Part}

theorem mono (h : ChangesOnly l p q) (sub : l ⊆ m) : ChangesOnly m p q := fun u hu => h u (fun hl => hu (sub hl))

theorem trans (h : ChangesOnly l p q) (k : ChangesOnly m q r) : ChangesOnly (l ++ m) p r := fun u hu => by
  obtain ⟨hl, hm⟩ := not_or.1 (mt List.mem_append.2 hu)
  exact same_trans (h u hl) (k u hm)

theorem refl (p : Part) : ChangesOnly [] p p := fun u _ => by cases u <;> simp [Unit_.Same]

/-- What an act of a state's part may change, turned into the frame that a statement asks for. -/
theorem keeps {s : State} (h : ChangesOnly l s.toPart q) (apart : ∀ u ∈ m, u ∉ l) : Keeps m s (after s q) :=
  fun u hu => same_after (h u (apart u hu))

theorem xct (h : ChangesOnly l p q) (apart : Unit_.xct ∉ l) : q.xct = p.xct := h .xct apart
theorem seats (h : ChangesOnly l p q) (apart : Unit_.seats ∉ l) : q.seats = p.seats := h .seats apart

theorem findCmd (h : ChangesOnly l p q) (apart : Unit_.xct ∉ l) (u : Nat) : q.findCmd u = p.findCmd u := by
  simp only [Part.findCmd, h.xct apart]

theorem seat (h : ChangesOnly l p q) (apart : Unit_.seats ∉ l) (n : Nat) : q.seat n = p.seat n := by
  simp only [Part.seat, h.seats apart]

theorem tile (h : ChangesOnly l p q) (apart : Unit_.seats ∉ l) (k : Nat) : q.tile k = p.tile k := by
  simp only [Part.tile, h.seats apart]

theorem lane (h : ChangesOnly l p q) (apart : Unit_.seats ∉ l) (n i : Nat) : q.lane n i = p.lane n i := by
  simp only [Part.lane, h.seats apart]

end ChangesOnly

section
variable (p : Part)

theorem changes_now (t : Nat) : ChangesOnly [] p { p with now := t } := fun u _ => by cases u <;> simp [Unit_.Same, after]

theorem changes_draws (d : Nat) : ChangesOnly [] p { p with draws := d } := fun u _ => by cases u <;> simp [Unit_.Same, after]

theorem changes_power (x : Power) : ChangesOnly [.power] p { p with power := x } := fun u hu => by
  cases u <;> simp [Unit_.Same, after] at hu ⊢

theorem changes_xct (x : XctUnit) : ChangesOnly [.xct] p { p with xct := x } := fun u hu => by
  cases u <;> simp [Unit_.Same, after] at hu ⊢

theorem changes_disp (x : DispUnit) : ChangesOnly [.disp] p { p with disp := x } := fun u hu => by
  cases u <;> simp [Unit_.Same, after] at hu ⊢

theorem changes_seats (x : SeatsUnit) : ChangesOnly [.seats] p { p with seats := x } := fun u hu => by
  cases u <;> simp [Unit_.Same, after] at hu ⊢

theorem changes_trngs (x : List (Nat × Trng)) : ChangesOnly [.trngs] p { p with trngs := x } := fun u hu => by
  cases u <;> simp [Unit_.Same, after] at hu ⊢

theorem changes_counts (x : List (Nat × BitVec 64)) : ChangesOnly [.counts] p { p with counts := x } := fun u hu => by
  cases u <;> simp [Unit_.Same, after] at hu ⊢

theorem changes_bump (a n : Nat) : ChangesOnly [.counts] p (p.bump a n) := changes_counts p _

theorem changes_updSeat (n : Nat) (f : Seat → Seat) : ChangesOnly [.seats] p (p.updSeat n f) := changes_seats p _

theorem changes_updTile (k : Nat) (f : Tile → Tile) : ChangesOnly [.seats] p (p.updTile k f) := changes_seats p _

theorem changes_updLane (n i : Nat) (f : Lane → Lane) : ChangesOnly [.seats] p (p.updLane n i f) := changes_seats p _

theorem changes_updCmd (u : Nat) (f : Cmd → Cmd) : ChangesOnly [.xct] p (p.updCmd u f) := changes_xct p _

theorem changes_ordered (u : Nat) : ChangesOnly [.xct] p (p.ordered u) := changes_xct p _

theorem changes_drbgTakes (die n : Nat) : ChangesOnly [.counts, .trngs] p (p.drbgTakes die n) :=
  ((changes_draws p _).trans (changes_bump _ _ _)).trans (changes_trngs _ _)

theorem changes_learn (c : Cmd) (n : Nat) (site : Site) : ChangesOnly [.disp] p (p.learn c n site) := by
  unfold Part.learn
  split
  · exact changes_disp p _
  · exact (ChangesOnly.refl p).mono (by decide)

theorem changes_countAnswer (st : BitVec 16) : ChangesOnly [.counts] p (p.countAnswer st) := by
  unfold Part.countAnswer
  split_ifs
  · exact changes_bump p _ _
  · exact changes_bump p _ _
  · exact changes_bump p _ _
  · exact changes_bump p _ _
  · exact (ChangesOnly.refl p).mono (by decide)

theorem changes_noteDrain : ChangesOnly [.power] p p.noteDrain := by
  unfold Part.noteDrain
  split
  · exact changes_power p _
  · exact (ChangesOnly.refl p).mono (by decide)

end

/-- Records and notices change what `Noted` lists. -/
theorem changes_of_noted {p q : Part} (h : Noted p q) : ChangesOnly [.evr, .counts, .part, .xct, .seats] p q := by
  rw [h.eq]
  intro u hu
  cases u <;> simp [Unit_.Same, after] at hu ⊢

/-! ### What reads back after an update -/

section
variable (p : Part)

@[simp] theorem seat_updSeat_same (n : Nat) (f : Seat → Seat) : (p.updSeat n f).seat n = f (p.seat n) :=
  Sparse.get_set_same _ _ _ _

@[simp] theorem tile_updTile_same (k : Nat) (f : Tile → Tile) : (p.updTile k f).tile k = f (p.tile k) :=
  Sparse.get_set_same _ _ _ _

@[simp] theorem lane_updLane_same (n i : Nat) (f : Lane → Lane) : (p.updLane n i f).lane n i = f (p.lane n i) :=
  Sparse.get_set_same _ _ _ _

@[simp] theorem tile_updLane (n i k : Nat) (f : Lane → Lane) : (p.updLane n i f).tile k = p.tile k := rfl

@[simp] theorem lane_updTile (n i k : Nat) (f : Tile → Tile) : (p.updTile k f).lane n i = p.lane n i := rfl

theorem findCmd_updCmd_same {u : Nat} {f : Cmd → Cmd} (keepsUid : ∀ c, (f c).uid = c.uid := by exact fun _ => rfl) :
    (p.updCmd u f).findCmd u = (p.findCmd u).map f := by
  have named : (fun c : Cmd => decide ((if c.uid = u then f c else c).uid = u)) = fun c => decide (c.uid = u) := by
    funext c
    split <;> simp [*]
  simp only [Part.findCmd, Part.updCmd, Part.setCmds, List.find?_map, Function.comp_def, named]
  refine Option.map_congr fun c hc => ?_
  rw [if_pos (by simpa using List.find?_some hc)]

end

theorem seat_of_noted {p q : Part} (h : Noted p q) (n : Nat) : q.seat n = p.seat n := by
  unfold Part.seat
  rw [h.seats]

theorem findCmd_of_noted {p q : Part} (h : Noted p q) (u : Nat) : q.findCmd u = p.findCmd u := by
  simp only [Part.findCmd, h.cmds]

/-! ### Register commands (01 R28) -/

/-- Settles O5: the house hand's command passes each check of its row, and the row's last branch is the read or the write. -/
theorem registerCommandsAct : Obligations.RegisterCommandsAct := by
  refine ⟨fun s o c b ready len aligned atLeast atMost die fits => ?_, fun s o c b ready len aligned die reachable => ?_⟩
  · refine (powered_house ready _).trans ?_
    rw [ready.block, if_neg (by omega), if_neg (not_or.2 ⟨ne_false_of_eq_true die, by omega⟩)]
  · refine (powered_house ready _).trans ?_
    rw [ready.block, if_neg (by omega), if_neg (not_or.2 ⟨ne_false_of_eq_true die, ne_true_of_eq_false reachable⟩)]

/-! ### A tile's clock (01 R13 to R15) -/

/-- A demanded tile of a part, once its demand's time has come: its clock runs. -/
def tileRuns (p : Part) (key d : Nat) : Part :=
  (p.atTime d).updTile key (fun t => { t with st := .running, since := max p.now d, demand := none })

theorem changes_tileRuns (p : Part) (key d : Nat) : ChangesOnly [.seats] p (tileRuns p key d) :=
  (changes_now p _).trans (changes_updTile _ _ _)

/-- A tile of a part, once time t has come: it enters a state. -/
def tileEnters (p : Part) (key t : Nat) (st : TileSt) : Part :=
  (p.atTime t).updTile key (fun x => { x with st := st, since := max p.now t })

theorem changes_tileEnters (p : Part) (key t : Nat) (st : TileSt) : ChangesOnly [.seats] p (tileEnters p key t st) :=
  (changes_now p _).trans (changes_updTile _ _ _)

@[simp] theorem st_tileEnters (p : Part) (key t : Nat) (st : TileSt) : ((tileEnters p key t st).tile key).st = st :=
  congrArg Tile.st (tile_updTile_same _ _ _)

@[simp] theorem drbgServes_atTime (p : Part) (t die : Nat) : (p.atTime t).drbgServes die = p.drbgServes die := rfl

@[simp] theorem drbgServes_updTile (p : Part) (k die : Nat) (f : Tile → Tile) : (p.updTile k f).drbgServes die = p.drbgServes die := rfl

section
variable {p : Part} {n g i d : Nat}

/-- A demanded tile's wake: its clock runs. -/
theorem tileWakes_of_ne_lane (demand : (p.tile (tileKey n g i)).demand = some d)
    (st : (p.tile (tileKey n g i)).st = .gated ∨ (p.tile (tileKey n g i)).st = .idle) (other : g ≠ 1) :
    p.tileWakes n g i = tileRuns p (tileKey n g i) d := by
  unfold Part.tileWakes
  simp only [demand, if_pos st, if_pos other]
  rfl

/-- A demanded lane's wake: its clock runs at a quarter of its duty; from Gated it has a seed where the DRBG serves, from Idle its own (R205). -/
theorem tileWakes_lane (demand : (p.tile (tileKey n 1 i)).demand = some d)
    (st : (p.tile (tileKey n 1 i)).st = .gated ∨ (p.tile (tileKey n 1 i)).st = .idle) :
    ∃ q f, p.tileWakes n 1 i = q.updLane n i f ∧ ChangesOnly [.counts, .trngs] (tileRuns p (tileKey n 1 i) d) q ∧ q.now = max p.now d ∧
      ∀ l, (f l).duty = 1 ∧ (f l).seeded = if (p.tile (tileKey n 1 i)).st = .gated then p.drbgServes n else l.seeded := by
  have same : ChangesOnly [.counts, .trngs] (tileRuns p (tileKey n 1 i) d) (tileRuns p (tileKey n 1 i) d) :=
    (ChangesOnly.refl _).mono (by decide)
  unfold Part.tileWakes
  rcases st with gated | idle
  · simp only [demand, gated, ne_eq, not_true_eq_false, reduceCtorEq, or_false, if_true, if_false]
    by_cases serves : p.drbgServes n = true
    · simp only [drbgServes_updTile, drbgServes_atTime, serves, if_true]
      exact ⟨_, _, rfl, ((changes_drbgTakes _ _ _).trans (changes_bump _ _ _)).mono (by decide), rfl, fun l => ⟨rfl, rfl⟩⟩
    · simp only [drbgServes_updTile, drbgServes_atTime, serves, Bool.false_eq_true, if_false]
      exact ⟨_, _, rfl, same, rfl, fun l => ⟨rfl, rfl⟩⟩
  · simp only [demand, idle, ne_eq, not_true_eq_false, reduceCtorEq, or_true, if_true, if_false]
    exact ⟨_, _, rfl, same, rfl, fun l => ⟨rfl, rfl⟩⟩

/-- A tile without work or queue stands idle 16 cycles after both have ended. -/
theorem tileIdles_idle (running : (p.tile (tileKey n g i)).st = .running) (free : p.engineBusy n (Part.siteOfGroup g) i = false)
    (queue : p.waitingOn n (Part.siteOfGroup g) = [])
    (unfed : g = 3 → i = 1 → (p.dgst n 1).claim = none ∧ (p.dgst n 1).wanted = none) :
    let q := tileEnters p (tileKey n g i) (max (p.tile (tileKey n g i)).since (p.tile (tileKey n g i)).scrubEnd + 16) .idle
    p.tileIdles n g i = if g = 1 then q.updLane n i (fun l => { l with duty := 0 }) else q := by
  have fed : (g == 3 && i == 1 && ((p.dgst n 1).claim.isSome || (p.dgst n 1).wanted.isSome)) = false := by
    by_cases h : g = 3 ∧ i = 1
    · obtain ⟨claim, wanted⟩ := unfed h.1 h.2
      simp [claim, wanted]
    · simp only [not_and] at h
      simp +contextual [h]
  unfold Part.tileIdles
  simp only [running, free, queue, fed, List.isEmpty_nil, and_self, if_true]
  rfl

theorem tileGates_poweringDown (idle : (p.tile (tileKey n g i)).st = .idle) (demand : (p.tile (tileKey n g i)).demand = none)
    (free : p.engineBusy n (Part.siteOfGroup g) i = false) :
    p.tileGates n g i = tileEnters p (tileKey n g i) ((p.tile (tileKey n g i)).since + usec 20) .poweringDown := by
  unfold Part.tileGates
  simp only [idle, demand, free, and_self, if_true]
  rfl

/-- The end of a power-down gates the tile; before that a lane's stall is counted and its seed lost. -/
theorem tileGated_gated (down : (p.tile (tileKey n g i)).st = .poweringDown) :
    ∃ q, ChangesOnly [.counts, .seats] p q ∧ q.now = max p.now ((p.tile (tileKey n g i)).since + nsec 40) ∧
      q.tile (tileKey n g i) = p.tile (tileKey n g i) ∧ p.tileGated n g i =
        q.updTile (tileKey n g i) (fun t => { t with st := .gated, since := q.now, demand := t.demand.map (fun d => max d q.now) }) := by
  unfold Part.tileGated
  simp only [down, if_true]
  split_ifs
  · exact ⟨_, ((changes_now _ _).trans (changes_bump _ _ _)).trans (changes_updLane _ _ _ _), rfl, rfl, rfl⟩
  · exact ⟨_, (changes_now _ _).mono (by decide), rfl, rfl, rfl⟩

end

/-- Settles O31: each row is its act on the tile; what it leaves in the tile and the lane is read back, and its frame is what the act may change. -/
theorem tileRowsAct : Obligations.TileRowsAct := by
  refine ⟨fun s n g i d on hn hg hi demand st => ?_, fun s n g i on hn hg hi running free queue unfed => ?_,
    fun s n g i on hn hg hi idle demand free => ?_, fun s n g i on hn hg hi down => ?_⟩
  · refine ⟨_, onTile_on on hn hg hi _, ?_⟩
    by_cases lane : g = 1
    · subst lane
      obtain ⟨q, f, act, changes, now, wakes⟩ := tileWakes_lane demand st
      have reads : q.tile (tileKey n 1 i) = (tileRuns s.toPart (tileKey n 1 i) d).tile (tileKey n 1 i) := changes.tile (by decide) _
      have same : q.lane n i = s.lane n i := changes.lane (by decide) n i
      obtain ⟨duty, seeded⟩ := wakes (q.lane n i)
      rw [act]
      refine ⟨?_, ?_, now, fun _ => ⟨?_, ?_⟩, (((changes_tileRuns _ _ _).trans changes).trans (changes_updLane _ _ _ _)).keeps (by decide)⟩
      · simp [after, reads, tileRuns]
      · simp [after, reads, tileRuns]
      · simpa [after] using duty
      · simpa [after, same] using seeded
    · rw [tileWakes_of_ne_lane demand st lane]
      exact ⟨by simp [after, tileRuns], by simp [after, tileRuns], rfl, fun h => absurd h lane, (changes_tileRuns _ _ _).keeps (by decide)⟩
  · refine ⟨_, onTile_on on hn hg hi _, ?_⟩
    rw [tileIdles_idle running free queue unfed]
    split
    · exact ⟨by simp [after], Nat.le_max_right _ _, ((changes_tileEnters _ _ _ _).trans (changes_updLane _ _ _ _)).keeps (by decide)⟩
    · exact ⟨st_tileEnters _ _ _ _, Nat.le_max_right _ _, (changes_tileEnters _ _ _ _).keeps (by decide)⟩
  · refine ⟨_, onTile_on on hn hg hi _, ?_⟩
    rw [tileGates_poweringDown idle demand free]
    exact ⟨st_tileEnters _ _ _ _, rfl, rfl, rfl, rfl, rfl, (changes_tileEnters _ _ _ _).keeps (by decide)⟩
  · obtain ⟨q, changes, now, same, act⟩ := tileGated_gated down
    refine ⟨_, onTile_on on hn hg hi _, ?_⟩
    rw [act]
    exact ⟨by simp [after], now, by simp [after, same], (changes.trans (changes_updTile _ _ _)).keeps (by decide)⟩

/-! ### Counts of a link and of its words (01 R18, R26, R27) -/

theorem saturating_noted (p : Part) (die win off src : Nat) (old : BitVec 32) : Noted p (p.saturating die win off src old) :=
  .ite (event_noted _ _ _ _ _ _ _ _ _) (.refl p)

theorem saturating_of_lt (p : Part) (die win off src : Nat) {old : BitVec 32} (h : old.toNat < 0xFFFFFFFE) :
    p.saturating die win off src old = p := if_neg (by omega)

theorem satIncr_of_lt {v : BitVec 32} (h : v.toNat < 0xFFFFFFFE) : Part.satIncr v = v + 1 := by
  refine if_neg fun e => ?_
  rw [e] at h
  exact absurd h (by decide)

/-- A decode counts its errors in its die, and records and raises what they call for. -/
theorem ecc_noted (p : Part) (die errors loc addr : Nat) :
    Noted (p.setEcc die errors (Part.satIncr (p.eccCount die errors))) (p.ecc die errors loc addr) := by
  unfold Part.ecc
  exact .ite (saturating_noted _ _ _ _ _ _) (.ite ((saturating_noted _ _ _ _ _ _).trans (event_noted _ _ _ _ _ _ _ _ _))
    ((saturating_noted _ _ _ _ _ _).trans (event_noted _ _ _ _ _ _ _ _ _)))

/-- A word the Dealer decodes: its counts are of its power unit; beside them it records and raises what they call for. -/
theorem decoded_dealer (p : Part) (d : Decoded) (loc addr : Nat) : ∃ x : Power, Noted { p with power := x } (p.decoded 0 d loc addr) := by
  cases d with
  | clean => exact ⟨p.power, .refl p⟩
  | single => exact ⟨_, ecc_noted p 0 1 loc addr⟩
  | double => exact ⟨_, ecc_noted p 0 2 loc addr⟩
  | uncorrectable => exact ⟨_, ecc_noted p 0 3 loc addr⟩

/-! ### The descriptor and the response that a flit carries (01 R20) -/

/-- q is p with other counts, and with other key fetches under way. -/
def FetchesOnly (p q : Part) : Prop := ∃ counts fetching, q = { p with counts := counts, seats := { p.seats with fetching := fetching } }

/-- Asking for the keys a command lacks marks it, counts, and starts fetches. -/
theorem requestKeys_cases (p : Part) (n u : Nat) :
    p.requestKeys n u = p ∨ FetchesOnly (p.updCmd u (fun c => { c with missed := true })) (p.requestKeys n u) := by
  unfold Part.requestKeys
  split
  · exact .inl rfl
  · simp only
    split
    · exact .inl rfl
    · refine .inr (List.foldlRecOn (motive := FetchesOnly _) _ _ ⟨_, _, rfl⟩ ?_)
      rintro _ ⟨counts, fetching, rfl⟩ slot -
      split
      · exact ⟨_, _, rfl⟩
      · exact ⟨_, _, rfl⟩

theorem seat_requestKeys (p : Part) (n u m : Nat) : (p.requestKeys n u).seat m = p.seat m := by
  obtain h | ⟨counts, fetching, h⟩ := requestKeys_cases p n u
  · rw [h]
  · rw [h]
    rfl

/-- A command stays where it is while its keys are asked for. -/
theorem place_requestKeys (p : Part) (n u : Nat) : ((p.requestKeys n u).findCmd u).map (·.place) = (p.findCmd u).map (·.place) := by
  obtain h | ⟨counts, fetching, h⟩ := requestKeys_cases p n u
  · rw [h]
  · calc ((p.requestKeys n u).findCmd u).map (·.place)
        = ((p.updCmd u (fun c => { c with missed := true })).findCmd u).map (·.place) := by rw [h]; rfl
      _ = ((p.findCmd u).map (fun c => { c with missed := true })).map (·.place) := by rw [findCmd_updCmd_same]
      _ = (p.findCmd u).map (·.place) := by rw [Option.map_map]; rfl

/-- On a link that is up, the next descriptor enters the Seat's queue and its keys are asked for. -/
theorem descriptorArrives_next {p : Part} {n : Nat} {c : Cmd} (up : (p.seat n).link = 1) (next : p.nextDescriptor n = some c) :
    p.descriptorArrives n .clean = (p.updCmd c.uid (fun c => { c with place := .seatQ n })).requestKeys n c.uid := by
  unfold Part.descriptorArrives
  simp [Part.linkUp, up, next, Part.decoded]

theorem descriptorArrives_none {p : Part} {n : Nat} {d : Decoded} (next : p.nextDescriptor n = none) : p.descriptorArrives n d = p := by
  unfold Part.descriptorArrives
  simp [next]

/-- q is p with other counts. -/
def CountsOnly (p q : Part) : Prop := ∃ counts, q = { p with counts := counts }

/-- Wiping entries of the key caches counts them. -/
theorem wipeCache_counts (p : Part) (sel : CacheEntry → Bool) :
    CountsOnly (p.setCache (p.seats.cache.filter (fun c => !(sel c)))) (p.wipeCache sel) := by
  refine List.foldlRecOn (motive := CountsOnly _) _ _ ⟨_, rfl⟩ ?_
  rintro _ ⟨counts, rfl⟩ entry -
  exact ⟨_, rfl⟩

theorem sweepDraining_eq (p : Part) (n : Nat) : ∃ cache counts, p.sweepDraining n = { p.setCache cache with counts := counts } :=
  ⟨_, wipeCache_counts p _⟩

theorem changes_sweepDraining (p : Part) (n : Nat) : ChangesOnly [.seats, .counts] p (p.sweepDraining n) := by
  obtain ⟨cache, counts, h⟩ := sweepDraining_eq p n
  rw [h]
  exact (changes_seats p _).trans (changes_counts _ _)

theorem seat_sweepDraining (p : Part) (n m : Nat) : (p.sweepDraining n).seat m = p.seat m := by
  obtain ⟨cache, counts, h⟩ := sweepDraining_eq p n
  rw [h]
  rfl

/-- A response that reaches the Dealer from its Seat is learned from and counted, and its command waits at XCT. -/
theorem responseArrives_up {p : Part} {n u : Nat} {c : Cmd} (found : p.findCmd u = some c) (up : c.place = .up n) :
    ∃ q, ChangesOnly [.disp, .counts] p q ∧
      p.responseArrives n u = (((q.updCmd u (fun c => { c with place := .xct })).ordered u).noteDrain).sweepDraining n := by
  unfold Part.responseArrives
  simp only [found, up, ne_eq, not_true_eq_false, if_false]
  cases siteOf c.code with
  | none => exact ⟨_, (changes_countAnswer p _).mono (by decide), rfl⟩
  | some site => exact ⟨_, (changes_learn p c n site).trans (changes_countAnswer _ _), rfl⟩

section
variable {p : Part} {n u : Nat} {c : Cmd} (found : p.findCmd u = some c) (up : c.place = .up n)
include found up

theorem changes_responseArrives : ChangesOnly [.disp, .counts, .xct, .power, .seats] p (p.responseArrives n u) := by
  obtain ⟨q, changes, h⟩ := responseArrives_up found up
  rw [h]
  exact ((((changes.trans (changes_updCmd _ _ _)).trans (changes_ordered _ _)).trans (changes_noteDrain _)).trans
    (changes_sweepDraining _ _)).mono (by decide)

theorem seat_responseArrives (m : Nat) : (p.responseArrives n u).seat m = p.seat m := by
  obtain ⟨q, changes, h⟩ := responseArrives_up found up
  rw [h, seat_sweepDraining]
  exact (((changes.trans (changes_updCmd _ _ _)).trans (changes_ordered _ _)).trans (changes_noteDrain _)).seat (by decide) m

theorem responseArrives_answered (s : State) : Answered (after s (p.responseArrives n u)) u c.status c.payload := by
  obtain ⟨q, changes, h⟩ := responseArrives_up found up
  have placed : (p.responseArrives n u).findCmd u =
      some { c with place := .xct, doneSeq := q.xct.nextDone, doneAt := q.now / 2 } := by
    rw [h, (changes_sweepDraining _ _).findCmd (by decide), (changes_noteDrain _).findCmd (by decide)]
    calc ((q.updCmd u (fun c => { c with place := .xct })).ordered u).findCmd u
        = ((q.updCmd u (fun c => { c with place := .xct })).updCmd u
            (fun c => { c with doneSeq := q.xct.nextDone, doneAt := q.now / 2 })).findCmd u := rfl
      _ = _ := by
        rw [findCmd_updCmd_same, findCmd_updCmd_same, changes.findCmd (by decide), found]
        rfl
  exact ⟨_, placed, rfl, rfl, rfl⟩

end

/-! ### Flits and retraining (01 R20, R21) -/

/-- The Seat's end of its link has taken a flit. -/
def tookFlit (p : Part) (n : Nat) : Part := p.updSeat n (fun x => { x with rxSeq := x.rxSeq + 1, fails := 0 })

theorem seat_tookFlit (p : Part) (n : Nat) : (tookFlit p n).seat n = { p.seat n with rxSeq := (p.seat n).rxSeq + 1, fails := 0 } :=
  seat_updSeat_same p n _

theorem nextDescriptor_tookFlit (p : Part) (n m : Nat) : (tookFlit p n).nextDescriptor m = p.nextDescriptor m := rfl

theorem findCmd_tookFlit (p : Part) (n u : Nat) : (tookFlit p n).findCmd u = p.findCmd u := rfl

section
variable {p : Part} {n : Nat} (up : (p.seat n).link = 1)
include up

/-- A good flit in sequence towards a Seat brings the next descriptor. -/
theorem flit_toSeat_good {ecc : Decoded} (good : ecc ≠ .uncorrectable) : p.flit n false (p.seat n).rxSeq true ecc none =
    (tookFlit (p.decoded n ecc Part.locLink n) n).descriptorArrives n .clean := by
  unfold Part.flit
  simp [up, good, tookFlit]

/-- A good flit that brings a descriptor: it enters the Seat's queue. -/
theorem flit_toSeat_next {c : Cmd} (next : p.nextDescriptor n = some c) : p.flit n false (p.seat n).rxSeq true .clean none =
    ((tookFlit p n).updCmd c.uid (fun c => { c with place := .seatQ n })).requestKeys n c.uid :=
  (flit_toSeat_good up (by decide)).trans (descriptorArrives_next ((congrArg Seat.link (seat_tookFlit p n)).trans up)
    ((nextDescriptor_tookFlit p n n).trans next))

theorem flit_toSeat_none (noNext : p.nextDescriptor n = none) : p.flit n false (p.seat n).rxSeq true .clean none = tookFlit p n :=
  (flit_toSeat_good up (by decide)).trans (descriptorArrives_none noNext)

/-- A flit towards a Seat that fails its check, its code or its sequence asks for a replay. -/
theorem flit_toSeat_bad {q : BitVec 16} {ok : Bool} {ecc : Decoded} (bad : ok = false ∨ ecc = .uncorrectable ∨ q ≠ (p.seat n).rxSeq) :
    p.flit n false q ok ecc none = (p.decoded n ecc Part.locLink n).replayRequest n false := by
  have refused : ¬(ok = true ∧ ecc ≠ .uncorrectable ∧ q = (p.seat n).rxSeq) := by
    rintro ⟨hok, hecc, hq⟩
    simp [hok, hecc, hq] at bad
  unfold Part.flit
  simp [up, refused]

/-- A good flit in sequence towards the Dealer brings the response that stands first in the Seat's replay buffer. -/
theorem flit_toDealer_good {u : Nat} {ecc : Decoded} (free : p.guard.dealerHold = none)
    (first : (p.replayBuffer n true).head?.map (·.uid) = some u) (good : ecc ≠ .uncorrectable) :
    p.flit n true (p.seat n).txSeq true ecc (some u) =
      ((p.decoded 0 ecc Part.locLink n).updSeat n (fun x => { x with txSeq := x.txSeq + 1, failsUp := 0 })).responseArrives n u := by
  unfold Part.flit
  simp [up, free, first, good]

theorem retrain_failed (failed : 9 ≤ (p.seat n).fails ∨ 9 ≤ (p.seat n).failsUp) : p.retrain n = p.startRetrain n := by
  unfold Part.retrain
  rw [if_pos ⟨up, failed⟩]

end

/-- Below saturation a replay request only counts, on its Seat. -/
theorem replayRequest_toSeat {p : Part} {n : Nat} (low : (p.seat n).replay.toNat < 0xFFFFFFFE) :
    p.replayRequest n false = p.updSeat n (fun x => { x with replay := (p.seat n).replay + 1, fails := x.fails + 1 }) := by
  unfold Part.replayRequest
  rw [saturating_of_lt _ _ _ _ _ low, satIncr_of_lt low]
  rfl

/-- A link that retrains holds its traffic; the retraining is counted, and recorded when the count saturates. -/
theorem startRetrain_noted (p : Part) (n : Nat) : Noted (p.updSeat n (fun x =>
    { x with link := 2, retrain := if (p.seat n).retrain = 0xFFFF then (p.seat n).retrain else (p.seat n).retrain + 1 })) (p.startRetrain n) := by
  unfold Part.startRetrain
  exact .ite (event_noted _ _ _ _ _ _ _ _ _) (.refl _)

theorem changes_startRetrain (p : Part) (n : Nat) : ChangesOnly [.evr, .counts, .part, .xct, .seats] p (p.startRetrain n) :=
  ((changes_updSeat p n _).trans (changes_of_noted (startRetrain_noted p n))).mono (by decide)

theorem seat_startRetrain (p : Part) (n : Nat) : (p.startRetrain n).seat n =
    { p.seat n with link := 2, retrain := if (p.seat n).retrain = 0xFFFF then (p.seat n).retrain else (p.seat n).retrain + 1 } := by
  rw [seat_of_noted (startRetrain_noted p n), seat_updSeat_same]

/-- A good training brings the link up, and is recorded. -/
theorem retrained_ok {p : Part} {n : Nat} (training : (p.seat n).link = 2) : ∃ q, Noted p q ∧
    p.retrained n true = q.updSeat n (fun x => { x with link := 1, fails := 0, failsUp := 0, failedTrainings := 0 }) := by
  unfold Part.retrained
  simp only [training, ne_eq, not_true_eq_false, if_false, if_true]
  exact ⟨_, event_noted _ _ _ _ _ _ _ _ _, rfl⟩

/-- A failed training is recorded, and after fewer than three in succession the next one begins. -/
theorem retrained_again {p : Part} {n : Nat} (training : (p.seat n).link = 2) (few : (p.seat n).failedTrainings < 2) : ∃ q, Noted p q ∧
    p.retrained n false = (q.updSeat n (fun x => { x with failedTrainings := x.failedTrainings + 1 })).startRetrain n := by
  unfold Part.retrained
  have again : (p.seat n).failedTrainings + 1 < 3 := by omega
  simp only [training, again, ne_eq, not_true_eq_false, Bool.false_eq_true, if_false, if_true]
  exact ⟨_, event_noted _ _ _ _ _ _ _ _ _, rfl⟩

/-- Settles O32: each row by what its flit or its training does, read back at the Seat, at the command and in the units it leaves as they were. -/
theorem linkRowsAct : Obligations.LinkRowsAct := by
  refine ⟨fun s n ecc on hn up good => ?_, fun s n on hn up => ⟨fun c next found => ?_, fun noNext => ?_⟩,
    fun s n q ok on hn up bad low => ?_, fun s n q ok on hn up => ?_, fun s n u ecc c on hn up free first found place good => ?_,
    fun s n on hn up failed => ?_, fun s n on hn training => ?_, fun s n on hn training few => ?_⟩
  · exact (onUnit_on hn on _).trans (by rw [flit_toSeat_good up good]; rfl)
  · refine ⟨_, onUnit_on hn on _, ?_⟩
    rw [flit_toSeat_next up next]
    refine ⟨(place_requestKeys _ _ _).trans ?_, (congrArg Seat.rxSeq (seat_requestKeys _ _ _ _)).trans ?_⟩
    · rw [findCmd_updCmd_same, findCmd_tookFlit, found]
      rfl
    · exact congrArg Seat.rxSeq (seat_tookFlit s.toPart n)
  · refine ⟨_, onUnit_on hn on _, ?_⟩
    rw [flit_toSeat_none up noNext]
    exact ⟨seat_tookFlit _ _, (changes_updSeat _ _ _).keeps (by decide)⟩
  · refine ⟨_, onUnit_on hn on _, ?_⟩
    rw [flit_toSeat_bad up (bad.imp_right .inr), Part.decoded, replayRequest_toSeat low]
    exact ⟨seat_updSeat_same _ _ _, rfl, (changes_updSeat _ _ _).keeps (by decide)⟩
  · exact (onUnit_on hn on _).trans (by rw [flit_toSeat_bad up (.inr (.inl rfl))])
  · obtain ⟨x, noted⟩ := decoded_dealer s.toPart ecc Part.locLink n
    refine ⟨_, onUnit_on hn on _, ?_⟩
    rw [flit_toDealer_good up free first good]
    have found' : ((s.toPart.decoded 0 ecc Part.locLink n).updSeat n (fun x => { x with txSeq := x.txSeq + 1, failsUp := 0 })).findCmd u =
        some c := (findCmd_of_noted noted u).trans found
    refine ⟨responseArrives_answered found' place s, ?_, ?_⟩
    · refine (congrArg Seat.txSeq (seat_responseArrives found' place n)).trans ?_
      rw [seat_updSeat_same, seat_of_noted noted]
      rfl
    · exact ((((changes_power _ x).trans (changes_of_noted noted)).trans (changes_updSeat _ _ _)).trans
        (changes_responseArrives found' place)).keeps (by decide)
  · refine ⟨_, onUnit_on hn on _, ?_⟩
    rw [retrain_failed up failed]
    have seat := seat_startRetrain s.toPart n
    refine ⟨congrArg Seat.link seat, (congrArg Seat.retrain seat).trans ?_, (changes_startRetrain _ _).keeps (by decide)⟩
    exact ite_congr rfl id fun _ => rfl
  · obtain ⟨q, noted, h⟩ := retrained_ok training
    refine ⟨_, onUnit_on hn on _, ?_⟩
    rw [h]
    refine ⟨?_, ((changes_of_noted noted).trans (changes_updSeat _ _ _)).keeps (by decide)⟩
    exact (seat_updSeat_same _ _ _).trans (by rw [seat_of_noted noted])
  · obtain ⟨q, noted, h⟩ := retrained_again training few
    refine ⟨_, onUnit_on hn on _, ?_⟩
    rw [h]
    have seat := seat_startRetrain (q.updSeat n (fun x => { x with failedTrainings := x.failedTrainings + 1 })) n
    rw [seat_updSeat_same, seat_of_noted noted] at seat
    exact ⟨congrArg Seat.link seat, congrArg Seat.failedTrainings seat,
      (((changes_of_noted noted).trans (changes_updSeat _ _ _)).trans (changes_startRetrain _ _)).keeps (by decide)⟩

end Sys2Proof.Architecture

/-! ## Deals: commands, staging and the cut (02 R44 to R55) -/

namespace Sys2Proof.DealRows

open Sys2Proof.Machine Sys2Proof.Safety Sys2Proof.Laws Sys2Proof.Architecture

/-! ### Frames of acts that take no time -/

section
variable (p : Part)

theorem changes_vault (x : VaultUnit) : ChangesOnly [.vault] p { p with vault := x } := fun u hu => by
  cases u <;> simp [Unit_.Same, after] at hu ⊢

theorem changes_shuffle (x : Shuffle) : ChangesOnly [.shuffle] p { p with shuffle := x } := fun u hu => by
  cases u <;> simp [Unit_.Same, after] at hu ⊢

theorem changes_deal (x : DealUnit) : ChangesOnly [.deal] p { p with deal := x } := fun u hu => by
  cases u <;> simp [Unit_.Same, after] at hu ⊢

theorem changes_joker (x : Joker) : ChangesOnly [.joker] p { p with joker := x } := fun u hu => by
  cases u <;> simp [Unit_.Same, after] at hu ⊢

end

/-- q is p after an act within the units of the list, which takes no time. -/
structure Within (l : List Unit_) (p q : Part) : Prop where
  units : ChangesOnly l p q
  now : q.now = p.now

namespace Within

variable {l m : List Unit_} {p q r : Part}

theorem refl : Within l p p := ⟨(ChangesOnly.refl p).mono (List.nil_subset _), rfl⟩

/-- An act within some of the units goes after one within all of them. -/
theorem next (h : Within l p q) (k : Within m q r) (sub : m ⊆ l := by decide) : Within l p r :=
  ⟨(h.units.trans k.units).mono (List.append_subset.2 ⟨List.Subset.refl l, sub⟩), k.now.trans h.now⟩

theorem mono (h : Within m p q) (sub : m ⊆ l := by decide) : Within l p q := refl.next h sub

theorem ite {c : Prop} [Decidable c] (h : Within l p q) (k : Within l p r) : Within l p (if c then q else r) := by
  split
  · exact h
  · exact k

theorem foldl {α : Type} {f : Part → α → Part} (hf : ∀ p a, Within l p (f p a)) (xs : List α) (p : Part) : Within l p (xs.foldl f p) := by
  induction xs generalizing p with
  | nil => exact refl
  | cons a r ih => exact (hf p a).next (ih _) (List.Subset.refl l)

theorem of_noted (h : Noted p q) : Within [.evr, .counts, .part, .xct, .seats] p q := ⟨changes_of_noted h, h.now⟩

theorem deal (h : Within l p q) (apart : Unit_.deal ∉ l := by decide) : q.deal = p.deal := h.units .deal apart

end Within

/-! ### Answering (03 R85, 10 R278) -/

section
variable (p : Part)

theorem within_deal (x : DealUnit) : Within [.deal] p { p with deal := x } := ⟨changes_deal p x, rfl⟩
theorem within_xct (x : XctUnit) : Within [.xct] p { p with xct := x } := ⟨changes_xct p x, rfl⟩
theorem within_disp (x : DispUnit) : Within [.disp] p { p with disp := x } := ⟨changes_disp p x, rfl⟩
theorem within_vault (x : VaultUnit) : Within [.vault] p { p with vault := x } := ⟨changes_vault p x, rfl⟩
theorem within_seats (x : SeatsUnit) : Within [.seats] p { p with seats := x } := ⟨changes_seats p x, rfl⟩
theorem within_shuffle (x : Shuffle) : Within [.shuffle] p { p with shuffle := x } := ⟨changes_shuffle p x, rfl⟩
theorem within_bump (a n : Nat) : Within [.counts] p (p.bump a n) := ⟨changes_bump p a n, rfl⟩

theorem within_updCmd (u : Nat) (f : Cmd → Cmd) : Within [.xct] p (p.updCmd u f) := within_xct p _
theorem within_updCore (n k : Nat) (f : Core → Core) : Within [.seats] p (p.updCore n k f) := within_seats p _
theorem within_event (a : Nat) (c : BitVec 16) (v d h x y z : Nat) : Within [.evr, .counts, .part, .xct, .seats] p (p.event a c v d h x y z) :=
  .of_noted (event_noted p a c v d h x y z)

theorem now_countAnswer (st : BitVec 16) : (p.countAnswer st).now = p.now := by
  unfold Part.countAnswer
  split_ifs <;> rfl

theorem now_noteDrain : p.noteDrain.now = p.now := by
  unfold Part.noteDrain
  split <;> rfl

theorem within_countAnswer (st : BitVec 16) : Within [.counts] p (p.countAnswer st) := ⟨changes_countAnswer p st, now_countAnswer p st⟩
theorem within_noteDrain : Within [.power] p p.noteDrain := ⟨changes_noteDrain p, now_noteDrain p⟩
theorem within_ordered (u : Nat) : Within [.xct] p (p.ordered u) := within_xct p _
theorem within_closeStreams (u : Nat) : Within [.xct] p (p.closeStreams u) := within_xct p _
theorem within_dropCmd (u : Nat) : Within [.xct] p (p.dropCmd u) := within_xct p _

theorem within_guardedWrite (ws : List GuardWindow) (n k a : Nat) (b : Bytes) : Within [.seats] p (p.guardedWrite ws n k a b) := by
  induction b generalizing p a with
  | nil => exact .refl
  | cons x r ih =>
    have written : Within [.seats] p (if guardAllows ws .write a then p.writeSram n k a [x] else p) := .ite (within_seats p _) .refl
    exact written.next (ih _ _)

theorem within_touch (n k a len : Nat) : Within [.seats] p (p.touch n k a len) := by
  unfold Part.touch
  exact .ite .refl (within_updCore p _ _ _)

/-- The units that answering a command may change. -/
abbrev answerUnits : List Unit_ := [.power, .xct, .seats, .part, .evr, .counts]

theorem within_finishExit (n k : Nat) : Within answerUnits p (p.finishExit n k) := by
  unfold Part.finishExit
  simp only
  split
  · exact ((Within.refl.next (within_updCmd p _ _)).next (within_ordered _ _)).next (within_seats _ _)
  · exact .refl

theorem within_deliverCall (u n k : Nat) (d : BitVec 32) (st : BitVec 16) (b : Bytes) : Within answerUnits p (p.deliverCall u n k d st b) := by
  unfold Part.deliverCall
  have dropped : Within answerUnits p ((p.closeStreams u).dropCmd u).noteDrain :=
    ((Within.refl.next (within_closeStreams p _)).next (within_dropCmd _ _)).next (within_noteDrain _)
  simp only
  refine .ite ?_ dropped
  exact ((((((dropped.next (within_guardedWrite _ _ _ _ _ _)).next (within_touch _ _ _ _ _)).next (within_guardedWrite _ _ _ _ _ _)).next
    (within_guardedWrite _ _ _ _ _ _)).next (within_guardedWrite _ _ _ _ _ _)).next (within_updCore _ _ _ _)).next (within_finishExit _ _ _)

theorem within_sendRetract (u : Nat) (st : BitVec 16) : Within answerUnits p (p.sendRetract u st) := by
  unfold Part.sendRetract
  split
  · exact .refl
  · split
    · exact .refl
    · refine .ite .refl ?_
      exact (((Within.refl.next (within_updCmd p _ _)).next (within_bump _ _ _)).next (.of_noted (record_noted _ _ _ _ _ _ _))).next
        (.of_noted (notice_noted _ _ _ _ _ _ _))

theorem within_answer (u : Nat) (st : BitVec 16) (b : Bytes) : Within answerUnits p (p.answer u st b) := by
  unfold Part.answer
  have sent := within_sendRetract p u st
  simp only
  split
  · exact sent
  · split
    · exact ((((sent.next (within_closeStreams _ _)).next (within_countAnswer _ _)).next (within_updCmd _ _ _)).next (within_ordered _ _)).next
        (within_noteDrain _)
    · exact sent.next (within_deliverCall _ _ _ _ _ _ _)

theorem within_seatAnswer (n u : Nat) (st : BitVec 16) (b : Bytes) : Within answerUnits p (p.seatAnswer n u st b) := by
  unfold Part.seatAnswer
  have sent := within_sendRetract p u st
  simp only
  split
  · exact sent
  · split
    · exact ((sent.next (within_closeStreams _ _)).next (within_updCmd _ _ _)).next (within_ordered _ _)
    · exact sent.next (within_deliverCall _ _ _ _ _ _ _)

end

/-! ### Stopping a command (06 R162, 10 R277) -/

section
variable (p : Part)

theorem within_forget (u : Nat) : Within [.vault] p (p.forget u) := within_vault p _
theorem within_startScrub (key : Nat) : Within [.seats] p (p.startScrub key) := within_seats p _
theorem within_updTile (key : Nat) (f : Tile → Tile) : Within [.seats] p (p.updTile key f) := within_seats p _
theorem within_updDgst (n k : Nat) (f : Dgst → Dgst) : Within [.seats] p (p.updDgst n k f) := within_seats p _

theorem within_freeEngine (n : Nat) (site : Site) (i u : Nat) : Within [.seats] p (p.freeEngine n site i u) := by
  unfold Part.freeEngine
  cases site with
  | tu => exact (within_seats p _).next (within_startScrub _ _)
  | lane => exact (within_seats p _).next (within_updTile _ _ _)
  | pke => exact .ite ((within_seats p _).next (within_startScrub _ _)) ((within_seats p _).next (within_updTile _ _ _))
  | digest => exact (within_updDgst p _ _ _).next (within_startScrub _ _)
  | core => exact .refl

theorem within_countScrub (n : Nat) (site : Site) (i : Nat) : Within [.counts] p (p.countScrub n site i) := by
  unfold Part.countScrub
  cases site with
  | tu | pke | digest => exact within_bump p _ _
  | lane | core => exact .refl

/-- The units that stopping a command may change. -/
abbrev stopUnits : List Unit_ := .disp :: .vault :: answerUnits

/-- An engine that loses its command scrubs and counts it. -/
theorem within_freed (n : Nat) (site : Site) (i u : Nat) : Within stopUnits p (((p.forget u).freeEngine n site i u).countScrub n site i) :=
  ((Within.refl.next (within_forget p _)).next (within_freeEngine _ _ _ _ _)).next (within_countScrub _ _ _ _)

theorem within_stopWork (u : Nat) (st : Option (BitVec 16)) (b : Bytes) : Within stopUnits p (p.stopWork u st b) := by
  unfold Part.stopWork
  have forgot : Within stopUnits p (p.forget u) := (within_forget p u).mono
  split
  · exact .refl
  · simp only
    split
    · exact (within_freed p _ _ _ u).next (within_updCmd _ _ _)
    · exact ((within_freed p _ _ _ u).next (within_closeStreams _ _)).next (within_dropCmd _ _)
    · exact forgot
    · exact forgot
    · exact forgot.next (within_answer _ _ _ _)
    · exact (forgot.next (within_closeStreams _ _)).next (within_dropCmd _ _)

theorem within_payFeed (n : Nat) (j : RegJob) : Within [.disp] p (p.payFeed n j) := within_disp p _

theorem within_endRegJob (n : Nat) (st : BitVec 16) : Within stopUnits p (p.endRegJob n st) := by
  unfold Part.endRegJob
  have paid : Within stopUnits p (match (p.dgst n 1).reg with
      | some j => p.payFeed n j
      | none => p) := by
    split
    · exact (within_payFeed p _ _).mono
    · exact .refl
  have ended := paid.next (within_updDgst _ n 1 fun d => { d with reg := none, busy := false, done := true, status := st, res := [], output := [] })
  exact (Within.ite (ended.next (within_bump _ _ _)) ended).next (within_startScrub _ _)

theorem within_releaseClaim (n : Nat) (st : BitVec 16) : Within stopUnits p (p.releaseClaim n st) := by
  unfold Part.releaseClaim
  have freed : Within stopUnits p (p.setDgst n 1 { p.dgst n 1 with claim := none }) := (within_seats p _).mono
  exact .ite ((freed.next (within_countScrub _ _ _ _)).next (within_endRegJob _ _ _)) freed

/-- The calls of an instance are stopped before it. -/
theorem within_stopCalls (n k : Nat) (st : BitVec 16) : Within stopUnits p ((p.callsOf n k).foldl (fun p u => p.stopWork u (some st))
    (p.updCore n k (fun c => { c with calls := [] }))) :=
  (Within.refl.next (within_updCore p _ _ _)).next (.foldl (fun p u => within_stopWork p u _ _) _ _)

theorem within_endInstance (n k : Nat) (st : Option (BitVec 16)) (b : Bytes) (cause : Nat) : Within stopUnits p (p.endInstance n k st b cause) := by
  unfold Part.endInstance
  have calls := within_stopCalls p n k (st.getD Status.abortedScrubbed)
  extract_lets c answer stopped left released unclaimed idle recorded
  split
  · exact .refl
  · have recorded : Within stopUnits p recorded :=
      (((Within.ite (calls.next (within_releaseClaim _ _ _)) calls).next (within_updDgst _ _ _ _)).next (within_updCore _ _ _ _)).next
        (within_event _ _ _ _ _ _ _ _ _)
    split
    · exact recorded.next (within_dropCmd _ _)
    · exact .ite (.ite (recorded.next (within_seatAnswer _ _ _ _ _)) (recorded.next (within_answer _ _ _ _)))
        (recorded.next (within_updCmd _ _ _))

theorem within_stopCommand (u : Nat) (st : Option (BitVec 16)) (b : Bytes) : Within stopUnits p (p.stopCommand u st b) := by
  unfold Part.stopCommand
  split
  · exact .refl
  · split
    · exact within_endInstance p _ _ _ _ _
    · exact within_stopWork p _ _ _

end

/-! ### The journal (05 R145) -/

section
variable (p : Part)

theorem within_injected (a i s o : Nat) : Within [.shuffle, .evr, .counts, .part, .xct, .seats] p (p.injected a i s o) :=
  ((Within.refl.next (within_shuffle p _)).next (within_bump _ _ _)).next (within_event _ _ _ _ _ _ _ _ _)

/-- The units that a frame of a session, on its way out, may change. -/
abbrev sendUnits : List Unit_ := [.shuffle, .evr, .counts, .part, .xct, .seats]

theorem within_ageHeld : Within [.shuffle] p p.ageHeld.1 := within_shuffle p _

theorem within_inject (f : ShufFrame) (s : Nat) : Within sendUnits p (p.inject f s).1 := by
  unfold Part.inject
  extract_lets _ counted idx _ kept now frame
  have counted : Within sendUnits p counted := (Within.refl.next (within_shuffle p _)).next (within_bump _ _ _)
  split
  · exact counted.next (within_injected _ _ _ _ _)
  · split
    next q late aged =>
      have aged : Within sendUnits p q := by
        have := (counted.next (within_shuffle _ _)).next (within_ageHeld kept)
        rwa [aged] at this
      extract_lets corrupted doubled
      have doubled : Within sendUnits p doubled := (aged.next (.ite (within_injected _ _ _ _ _) .refl)).next (.ite (within_injected _ _ _ _ _) .refl)
      split
      · exact (doubled.next (within_shuffle _ _)).next (within_injected _ _ _ _ _)
      · exact doubled

/-- Frames that leave a host port half are no unit's state. -/
theorem within_putTx (l : List (ShufFrame × Bool)) : Within [] p (p.putTx l) := ⟨fun u _ => by cases u <;> simp [Unit_.Same, Part.putTx, after], rfl⟩

theorem within_emit (x : BitVec 32) (r : BitVec 64) (c : Nat) (st : BitVec 16) (b : Bytes) (w : Path) :
    Within sendUnits p (p.emit x r c st b w) := by
  unfold Part.emit
  split
  · exact .refl
  · extract_lets seq key f numbered
    have numbered : Within sendUnits p numbered := (within_xct p _).mono
    split
    · exact (numbered.next (within_inject _ _ _)).next (within_putTx _ _)
    · exact numbered.next (within_putTx _ _)

theorem within_pump (x id : BitVec 32) : Within sendUnits p (p.pump x id) := by
  unfold Part.pump
  split
  · exact .ite .refl ((Within.refl.next (within_xct p _)).next (.foldl (fun p b => within_emit p _ _ _ _ _ _) _ _))
  · exact .refl

theorem within_produce (x id : BitVec 32) (b : Bytes) (last : Bool) : Within sendUnits p (p.produce x id b last) :=
  (Within.refl.next (within_xct p _)).next (within_pump _ _ _)

/-- The units that a journal record and its way to the sink may change. -/
abbrev journalUnits : List Unit_ := .vault :: sendUnits

theorem within_setJournal (j : Journal) : Within [.vault] p (p.setJournal j) := within_vault p _

theorem within_feedSink : Within journalUnits p p.feedSink := by
  unfold Part.feedSink
  split
  · exact .refl
  · exact (Within.refl.next (within_setJournal p _)).next (within_produce _ _ _ _ _)

theorem within_writeJournal (h : Nat) (o : Bool) (e : Nat) (b : JBody) : Within journalUnits p (p.writeJournal h o e b).1 :=
  (Within.refl.next (within_setJournal p _)).next (within_feedSink _)

theorem within_cutRecord (h : Nat) (b : JBody) : Within journalUnits p (p.cutRecord h b) :=
  (Within.refl.next (within_setJournal p _)).next (within_writeJournal _ _ _ _ _)

end

/-! ### Tearing ranges down (02 R53) -/

section
variable (p : Part)

/-- The units that a teardown may change. -/
abbrev tearUnits : List Unit_ := [.power, .vault, .shuffle, .xct, .seats, .part, .evr, .counts]

theorem within_setSlot (i : Nat) (x : Slot) : Within [.vault] p (p.setSlot i x) := within_vault p _

theorem within_writeLine (i : Nat) : Within [.vault] p (p.writeLine i) := .ite (within_vault p _) (within_vault p _)

theorem within_writeLines (i n : Nat) : Within [.vault] p (p.writeLines i n) := by
  induction n generalizing p i with
  | zero => exact .refl
  | succ n ih => exact (within_writeLine p i).next (ih _ _)

theorem within_sweepLines (i n : Nat) : Within [.vault] p (p.sweepLines i n) := .ite .refl (within_vault p _)

theorem within_zeroSlots (h : Option Nat) (i n : Nat) : Within tearUnits p (p.zeroSlots h i n) :=
  (((Within.foldl (fun p _ => (within_bump p _ _).mono) _ p).next (within_seats _ _)).next (within_vault _ _)).next (within_sweepLines _ _ _)

theorem within_abandon (i : Nat) : Within tearUnits p (p.abandon i) :=
  .ite (within_vault p _).mono ((Within.refl.next (within_vault p _)).next (within_bump _ _ _))

theorem within_endWaiters (i : Nat) (st : BitVec 16) (b : Bytes) : Within tearUnits p (p.endWaiters i st b) :=
  (Within.refl.next (within_vault p _)).next (.foldl (fun p _ => within_answer p _ _ _) _ _)

theorem within_zeroCtrs (i n : Nat) : Within tearUnits p (p.zeroCtrs i n) :=
  (((Within.foldl (fun p _ => within_abandon p _) _ p).next (.foldl (fun p _ => within_endWaiters p _ _ _) _ _)).next (within_vault _ _)).next
    (within_sweepLines _ _ _)

theorem within_zeroCtxs (h : Nat) (sel : Ctx → Bool) : Within [.vault] p (p.zeroCtxs h sel) :=
  (Within.foldl (fun p _ => within_writeLines p _ _) _ p).next (within_vault _ _)

theorem within_zeroRanges (h : Option Nat) (s n c m a k : Nat) : Within tearUnits p (p.zeroRanges h s n c m a k) :=
  (((within_zeroSlots p _ _ _).next (within_zeroCtrs _ _ _)).next (within_vault _ _)).next (within_sweepLines _ _ _)

theorem within_tearRanges (e : HandEntry) (whole : Bool) : Within tearUnits p (p.tearRanges e whole) :=
  .ite ((within_zeroRanges p _ _ _ _ _ _ _).next (within_zeroCtxs _ _ _)) (within_zeroRanges p _ _ _ _ _ _ _)

theorem within_tearEntry (e : HandEntry) (whole : Bool) : Within tearUnits p (p.tearEntry e whole) :=
  ((Within.refl.next (within_vault p _)).next (within_tearRanges _ _ _)).next
    (.foldl (fun p _ => within_writeJournal p _ _ _ _) _ _)

theorem within_returnSlots (l : List (Nat × Slot)) : Within [.vault] p (p.returnSlots l) := .foldl (fun p _ => within_setSlot p _ _) l p

end

/-! ### Deal commands (02 R44 to R49) -/

theorem cutPending_of_st {p : Part} (h : p.deal.st = .staging ∨ p.deal.st = .cutting ∨ p.deal.st = .teardown) : p.cutPending = true := by
  obtain h | h | h := h <;> simp [Part.cutPending, h]

theorem not_cutPending_of_armed {p : Part} (h : p.deal.st = .armed) : p.cutPending = false := by
  simp [Part.cutPending, h]

/-- Settles O47: each row asks for a pending cut before it does anything. -/
theorem cutPendingTurnsAway : Obligations.CutPendingTurnsAway := by
  refine ⟨fun s o b c ready st => ?_, fun s o b c ready len st => ?_, fun s o c ready st => ?_, fun s o c ready => ?_⟩
  · refine (powered_house ready _).trans ?_
    rw [if_pos (cutPending_of_st st)]
  · refine (powered_house ready _).trans ?_
    rw [ready.block, if_neg (by omega), if_pos (cutPending_of_st st)]
  · refine (powered_house ready _).trans ?_
    rw [ready.block, if_neg (by simp), if_pos (cutPending_of_st st)]
  · exact ⟨_, (powered_house ready _).trans (by rw [ready.block, if_neg (by simp)])⟩

section
variable (p : Part)

/-- The mirror copy changes the banks and their flag. -/
theorem mirrorBank_eq : ∃ banks mirror, p.mirrorBank = p.setDeal { p.deal with banks := banks, mirror := mirror } := by
  unfold Part.mirrorBank
  simp only
  split
  · exact ⟨_, _, rfl⟩
  · exact ⟨_, _, rfl⟩

theorem unstage_eq : ∃ banks mirror, p.unstage = p.setDeal { p.deal with
    st := p.restState, staged := none, verdict := none, stagingUid := none, banks := banks, mirror := mirror } := by
  obtain ⟨banks, mirror, h⟩ := mirrorBank_eq (p.setDeal { p.deal with st := p.restState, staged := none, verdict := none, stagingUid := none })
  exact ⟨banks, mirror, h⟩

theorem within_unstage : Within [.deal] p p.unstage := by
  obtain ⟨banks, mirror, h⟩ := unstage_eq p
  rw [h]
  exact within_deal p _

end

/-- The streams's image, once it is whole, is what the row acts on. -/
theorem whenStreamed_whole {s : State} {c : Cmd} {image : Bytes} (h : Streamed s c image) (f : Part → Bytes → Part) :
    s.toPart.whenStreamed c f = f s.toPart image := by
  obtain ⟨y, stream, rfl⟩ := Option.map_eq_some_iff.1 h.stream
  unfold Part.whenStreamed
  rw [if_neg (by simp [h.block, h.reserved])]
  simp only [stream, if_neg (Nat.not_lt.2 h.whole)]

theorem stageImage_deal (p : Part) (uid : Nat) (image : Bytes) : (p.stageImage uid image).deal.st = .staging ∧
    (p.stageImage uid image).deal.stagingUid = some uid ∧ (p.stageImage uid image).deal.active = p.deal.active := by
  unfold Part.stageImage
  extract_lets out serial banked _ staging said _
  have said : said.deal = staging.deal := (Within.foldl (fun p _ => within_event p _ _ _ _ _ _ _ _) _ staging).deal
  clear_value out
  cases out with
  | error e => exact ⟨congrArg DealUnit.st said, congrArg DealUnit.stagingUid said, (congrArg DealUnit.active said).trans rfl⟩
  | ok d => exact ⟨congrArg DealUnit.st said, congrArg DealUnit.stagingUid said, (congrArg DealUnit.active said).trans rfl⟩

theorem noteReject_within (p : Part) (why sect serial : Nat) : Within [.deal, .evr, .counts, .part, .xct, .seats] p (p.noteReject why sect serial) :=
  (Within.refl.next (within_deal p _)).next (within_event _ _ _ _ _ _ _ _ _)

theorem noteReject_deal (p : Part) (why sect serial : Nat) :
    (p.noteReject why sect serial).deal = { p.deal with reject := BitVec.ofNat 32 (why * 65536 + sect) } :=
  (within_event _ _ _ _ _ _ _ _ _).deal

theorem within_armDeal (p : Part) : Within [.deal, .seats] p p.armDeal :=
  (Within.refl.next (within_deal p _)).next (.foldl (fun p _ => within_seats p _) _ _)

theorem armDeal_deal (p : Part) : p.armDeal.deal = { p.deal with st := .armed, verdict := none } :=
  (Within.foldl (l := [.seats]) (fun p _ => within_seats p _) _ _).deal

theorem stagingEnds_good {p : Part} {u : Nat} {d : Deal} (st : p.deal.st = .staging) (verdict : p.deal.verdict = some (0, 0))
    (staged : p.deal.staged = some d) (found : p.deal.failed = false) (uid : p.deal.stagingUid = some u) :
    p.stagingEnds = (p.armDeal.setDeal { p.armDeal.deal with stagingUid := none }).answer u Status.done [] := by
  unfold Part.stagingEnds
  simp [st, verdict, staged, found, uid]

theorem stagingEnds_bad {p : Part} {u why sect : Nat} (st : p.deal.st = .staging) (verdict : p.deal.verdict = some (why, sect))
    (bad : why ≠ 0) (uid : p.deal.stagingUid = some u) : ∃ serial,
    p.stagingEnds = (p.unstage.noteReject why sect serial).answer u Status.dealRejected (toBE 2 why) := by
  unfold Part.stagingEnds
  simp only [st, verdict, uid]
  split
  · exact absurd rfl bad
  · exact ⟨_, rfl⟩

/-- Settles O3: each row is its act on the Deal, which the answer after it leaves as it stands. -/
theorem dealCommandsAct : Obligations.DealCommandsAct := by
  refine ⟨fun s o b c image ready streamed free => ?_, fun s o c ready armed => ?_,
    fun s o c b d ready len armed staged serial order room => ?_, fun s u d on st verdict staged found uid => ?_,
    fun s u why sect on st verdict bad uid => ?_⟩
  · refine ⟨_, powered_house ready _, ?_⟩
    rw [if_neg (by simp [free]), whenStreamed_whole streamed]
    exact ⟨rfl, stageImage_deal _ _ _⟩
  · refine ⟨_, powered_house ready _, ?_⟩
    rw [ready.block, if_neg (by simp), if_neg (by simp [not_cutPending_of_armed armed]), if_pos armed]
    obtain ⟨banks, mirror, h⟩ := unstage_eq s.toPart
    have deal := (within_answer s.toPart.unstage c.uid Status.done []).deal.trans (congrArg Part.deal h)
    exact ⟨rfl, congrArg DealUnit.staged deal, (congrArg DealUnit.active deal).trans rfl⟩
  · refine ⟨after s (s.toPart.beginCut c.uid d), (powered_house ready _).trans ?_, rfl, rfl, rfl, rfl⟩
    rw [ready.block, if_neg (by omega), if_neg (by simp [not_cutPending_of_armed armed]), if_pos armed, ← serial]
    simp [staged, order, room]
  · refine ⟨_, powered_on on _, ?_⟩
    rw [stagingEnds_good st verdict staged found uid]
    have answered := within_answer (s.toPart.armDeal.setDeal { s.toPart.armDeal.deal with stagingUid := none }) u Status.done []
    have deal := answered.deal.trans (by rw [Part.setDeal_deal, armDeal_deal])
    have act := (((within_armDeal s.toPart).mono (l := .deal :: answerUnits)).next (within_deal _ _)).next answered
    refine ⟨congrArg DealUnit.st deal, (congrArg DealUnit.staged deal).trans staged, congrArg DealUnit.stagingUid deal, act.units.keeps (by decide)⟩
  · obtain ⟨serial, h⟩ := stagingEnds_bad st verdict bad uid
    obtain ⟨banks, mirror, unstaged⟩ := unstage_eq s.toPart
    refine ⟨_, powered_on on _, ?_⟩
    rw [h]
    have answered := within_answer (s.toPart.unstage.noteReject why sect serial) u Status.dealRejected (toBE 2 why)
    have deal := answered.deal.trans (by rw [noteReject_deal, unstaged, Part.setDeal_deal])
    have act := (((within_unstage s.toPart).mono (l := .deal :: answerUnits)).next (noteReject_within _ _ _ _)).next answered
    exact ⟨congrArg DealUnit.staged deal, congrArg DealUnit.reject deal, act.units.keeps (by decide)⟩

/-! ### What stands at a cut

A cut releases frames that the Shuffle held, closes sessions and ends ceremonies (02 R51), so its rows reach every act of a host's or the
partner's frame. `standing` is what none of those acts touches; each of them is shown to leave it by the acts it is made of. -/

/-- A Deal unit without what it knows of the partner's Deal (02 R57 to R59). -/
def peerless (d : DealUnit) : DealUnit := { d with peerKnown := false, peerMatch := false, peerSerial := 0 }

/-- What frames, sessions and the mirror leave alone, whatever they do: the part's fuses, host ports, sensors and guard, its debug session, and its
Deal apart from what it knows of the partner's. -/
def standing (p : Part) : Part :=
  { fuses := p.fuses, deal := peerless p.deal, hpa := p.hpa, hpb := p.hpb, ha0 := p.ha0, ha1 := p.ha1, hb0 := p.hb0, hb1 := p.hb1
    lats := p.lats, guard := p.guard, joker := p.joker }

/-- An act whose units are others leaves what stands. -/
theorem ChangesOnly.standing {l : List Unit_} {p q : Part} (h : ChangesOnly l p q)
    (apart : ∀ u ∈ [.fuses, .deal, .ports, .lats, .guard, .joker], u ∉ l) : standing q = standing p := by
  have fuses : q.fuses = p.fuses := h .fuses (apart _ (by decide))
  have deal : q.deal = p.deal := h .deal (apart _ (by decide))
  obtain ⟨hpa, hpb, ha0, ha1, hb0, hb1⟩ : Unit_.ports.Same (after {} p) (after {} q) := h .ports (apart _ (by decide))
  have lats : q.lats = p.lats := h .lats (apart _ (by decide))
  have guard : q.guard = p.guard := h .guard (apart _ (by decide))
  have joker : q.joker = p.joker := h .joker (apart _ (by decide))
  simp only [DealRows.standing, fuses, deal, lats, guard, joker]
  simp only [after] at hpa hpb ha0 ha1 hb0 hb1
  rw [hpa, hpb, ha0, ha1, hb0, hb1]

theorem Within.standing {l : List Unit_} {p q : Part} (h : Within l p q)
    (apart : ∀ u ∈ [.fuses, .deal, .ports, .lats, .guard, .joker], u ∉ l := by decide) : standing q = standing p :=
  ChangesOnly.standing h.units apart

@[simp] theorem standing_foldl {α : Type} {f : Part → α → Part} (hf : ∀ p a, standing (f p a) = standing p) (xs : List α) (p : Part) :
    standing (xs.foldl f p) = standing p := by
  induction xs generalizing p with
  | nil => rfl
  | cons a r ih => exact (ih _).trans (hf p a)

theorem standing_ite {c : Prop} [Decidable c] {p q r : Part} (h : standing q = standing p) (k : standing r = standing p) :
    standing (if c then q else r) = standing p := by
  split
  · exact h
  · exact k

theorem noted_standing {p q : Part} (h : Noted p q) : standing q = standing p := (Within.of_noted h).standing

section
variable (p : Part)

/-! ### Seats, notes and answers -/

@[simp] theorem standing_setCore (seat k : Nat) (x : Core) : standing (p.setCore seat k x) = standing p := rfl

@[simp] theorem standing_unhalt (seat core : Nat) : standing (p.unhalt seat core) = standing p := by
  unfold Part.unhalt
  simp only
  split <;> simp

@[simp] theorem standing_updSeat (n : Nat) (f : Seat → Seat) : standing (p.updSeat n f) = standing p := rfl

@[simp] theorem standing_returnSeat (n : Nat) : standing (p.returnSeat n) = standing p := by
  unfold Part.returnSeat
  simp only
  split <;> simp

@[simp] theorem standing_bump (addr n : Nat) : standing (p.bump addr n) = standing p := (within_bump p _ _).standing

@[simp] theorem standing_notice (source : Nat) (code : BitVec 16) (sev hand : Nat) (body : Bytes) (addressed : List (BitVec 32)) :
    standing (p.notice source code sev hand body addressed) = standing p :=
  noted_standing (notice_noted p _ _ _ _ _ _)

@[simp] theorem standing_store (r : Rec) (toKitty : Bool) : standing (p.store r toKitty) = standing p := noted_standing (store_noted p _ _)

@[simp] theorem standing_create (code : BitVec 16) (sev : Nat) (flags : Byte) (die : Nat) (p1 p2 p3 : Word) (toKitty : Bool) :
    standing (p.create code sev flags die p1 p2 p3 toKitty) = standing p :=
  noted_standing (create_noted p _ _ _ _ _ _ _ _)

@[simp] theorem standing_event (source : Nat) (code : BitVec 16) (sev die hand p1 p2 p3 : Nat) :
    standing (p.event source code sev die hand p1 p2 p3) = standing p :=
  noted_standing (event_noted p _ _ _ _ _ _ _ _)

@[simp] theorem standing_relevel : standing p.relevel = standing p := by
  unfold Part.relevel
  simp only
  split
  · rfl
  · exact (standing_event _ _ _ _ _ _ _ _ _).trans rfl

@[simp] theorem standing_setVault (v : VaultUnit) : standing (p.setVault v) = standing p := rfl

@[simp] theorem standing_noteDrain : standing p.noteDrain = standing p := (within_noteDrain p).standing

@[simp] theorem standing_countAnswer (status : BitVec 16) : standing (p.countAnswer status) = standing p := (within_countAnswer p _).standing

@[simp] theorem standing_answer (uid : Nat) (status : BitVec 16) (payload : Bytes) : standing (p.answer uid status payload) = standing p :=
  (within_answer p _ _ _).standing

@[simp] theorem standing_endInstance (seat core : Nat) (status : Option (BitVec 16)) (payload : Bytes) (cause : Nat) :
    standing (p.endInstance seat core status payload cause) = standing p :=
  (within_endInstance p _ _ _ _ _).standing

@[simp] theorem standing_setShuffle (s : Shuffle) : standing (p.setShuffle s) = standing p := rfl

@[simp] theorem standing_inject (f : ShufFrame) (session : Nat) : standing (p.inject f session).1 = standing p := (within_inject p _ _).standing

@[simp] theorem standing_putOut (l : List (ShufFrame × Bool)) : standing (p.putOut l) = standing p := rfl

/-! ### Mirror frames out and mutations (13 R353, R354) -/

@[simp] theorem standing_transmit (f : MirrorOut) : standing (p.transmit f) = standing p := by
  unfold Part.transmit
  split <;> simp

@[simp] theorem standing_setPart (x : PartUnit) : standing (p.setPart x) = standing p := rfl

@[simp] theorem standing_sendMirror (m : MirrorMsg) : standing (p.sendMirror m) = standing p := by simp [Part.sendMirror]

@[simp] theorem standing_dropMut (id : Nat) : standing (p.dropMut id) = standing p := rfl

@[simp] theorem standing_setStreams (l : List Stream) : standing (p.setStreams l) = standing p := rfl

@[simp] theorem standing_updStream (session id : BitVec 32) (f : Stream → Stream) : standing (p.updStream session id f) = standing p := rfl

@[simp] theorem standing_setSessions (l : List Session) : standing (p.setSessions l) = standing p := rfl

@[simp] theorem standing_updSession (id : BitVec 32) (f : Session → Session) : standing (p.updSession id f) = standing p := rfl

@[simp] theorem standing_putTx (l : List (ShufFrame × Bool)) : standing (p.putTx l) = standing p := (within_putTx p _).standing

@[simp] theorem standing_emit (session : BitVec 32) (request : BitVec 64) (code : Nat) (status : BitVec 16) (payload : Bytes) (path : Path) :
    standing (p.emit session request code status payload path) = standing p :=
  (within_emit p _ _ _ _ _ _).standing

@[simp] theorem standing_pump (session id : BitVec 32) : standing (p.pump session id) = standing p := (within_pump p _ _).standing

@[simp] theorem standing_setJournal (j : Journal) : standing (p.setJournal j) = standing p := (within_setJournal p _).standing

@[simp] theorem standing_writeJournal (hand : Nat) (fromPartner : Bool) (epoch : Nat) (body : JBody) :
    standing (p.writeJournal hand fromPartner epoch body).1 = standing p :=
  (within_writeJournal p _ _ _ _).standing

@[simp] theorem standing_arbServe (resource source : Nat) : standing (p.arbServe resource source) = standing p := rfl

@[simp] theorem standing_updMut (id : Nat) (f : Mutation → Mutation) : standing (p.updMut id f) = standing p := rfl

@[simp] theorem standing_tryForm (id : Nat) : standing (p.tryForm id) = standing p := by
  unfold Part.tryForm
  simp only
  (repeat' split) <;> simp

@[simp] theorem standing_mutate (kind : MutKind) (hand : Nat) (owner : Option Nat) (objs : List Obj) (own : Bool) (pub : Bytes) :
    standing (p.mutate kind hand owner objs own pub) = standing p := by
  simp [Part.mutate]

@[simp] theorem standing_ownRecord (hand : Nat) (b : JBody) (objs : List Obj) : standing (p.ownRecord hand b objs) = standing p := by
  unfold Part.ownRecord
  split <;> simp

/-! ### Zeroizing and teardown (02 R53) -/

@[simp] theorem standing_abandon (i : Nat) : standing (p.abandon i) = standing p := (within_abandon p _).standing

@[simp] theorem standing_endWaiters (i : Nat) (status : BitVec 16) (payload : Bytes) : standing (p.endWaiters i status payload) = standing p :=
  (within_endWaiters p _ _ _).standing

@[simp] theorem standing_zeroCtrs (first n : Nat) : standing (p.zeroCtrs first n) = standing p := (within_zeroCtrs p _ _).standing

@[simp] theorem standing_zeroSlots (hand : Option Nat) (first n : Nat) : standing (p.zeroSlots hand first n) = standing p :=
  (within_zeroSlots p _ _ _).standing

@[simp] theorem standing_zeroRanges (hand : Option Nat) (slot0 slots ctr0 ctrs app0 apps : Nat) :
    standing (p.zeroRanges hand slot0 slots ctr0 ctrs app0 apps) = standing p :=
  (within_zeroRanges p _ _ _ _ _ _ _).standing

@[simp] theorem standing_writeLine (line : Nat) : standing (p.writeLine line) = standing p := (within_writeLine p _).standing

@[simp] theorem standing_writeLines (first n : Nat) : standing (p.writeLines first n) = standing p := (within_writeLines p _ _).standing

@[simp] theorem standing_zeroCtxs (hand : Nat) (sel : Ctx → Bool) : standing (p.zeroCtxs hand sel) = standing p := (within_zeroCtxs p _ _).standing

@[simp] theorem standing_tearRanges (e : HandEntry) (contexts : Bool) : standing (p.tearRanges e contexts) = standing p :=
  (within_tearRanges p _ _).standing

@[simp] theorem standing_tearEntry (e : HandEntry) (contexts : Bool) : standing (p.tearEntry e contexts) = standing p :=
  (within_tearEntry p _ _).standing

@[simp] theorem standing_zeroizeHand (hand : Nat) : standing (p.zeroizeHand hand) = standing p := by
  unfold Part.zeroizeHand
  simp only
  split <;> simp

@[simp] theorem standing_setSlot (i : Nat) (x : Slot) : standing (p.setSlot i x) = standing p := (within_setSlot p _ _).standing

@[simp] theorem standing_returnSlots (l : List (Nat × Slot)) : standing (p.returnSlots l) = standing p := (within_returnSlots p _).standing

@[simp] theorem standing_cutRecord (hand : Nat) (b : JBody) : standing (p.cutRecord hand b) = standing p := (within_cutRecord p _ _).standing

@[simp] theorem standing_limitsAtCut (q : Part) : standing (p.limitsAtCut q) = standing p := rfl

/-! ### Sessions and ceremonies that end -/

@[simp] theorem standing_disarmed (cause : Nat) : standing (p.disarmed cause) = standing p := by simp [Part.disarmed]

@[simp] theorem standing_hpCount (h : Half) (offset n : Nat) : standing (p.hpCount h offset n) = standing p := rfl

@[simp] theorem standing_stranger (a : Arrival) : standing (p.stranger a) = standing p := by simp [Part.stranger]

@[simp] theorem standing_shuffleClose (id : BitVec 32) : standing (p.shuffleClose id) = standing p := by
  unfold Part.shuffleClose
  split
  · exact (standing_foldl (fun p e => by split <;> simp) _ _).trans (by simp)
  · rfl

@[simp] theorem standing_closeSession (id : BitVec 32) : standing (p.closeSession id) = standing p := by
  unfold Part.closeSession
  extract_lets closed sinkHere _ detached
  have detached : standing detached = standing p := by
    simp only [detached]
    split <;> simp [closed]
  exact detached

@[simp] theorem standing_setCer (port : Nat) (x : CerPort) : standing (p.setCer port x) = standing p := by
  unfold Part.setCer
  split <;> rfl

@[simp] theorem standing_updCer (port : Nat) (f : CerPort → CerPort) : standing (p.updCer port f) = standing p := by simp [Part.updCer]

@[simp] theorem standing_deactivate (port : Nat) : standing (p.deactivate port) = standing p := by simp [Part.deactivate]

@[simp] theorem standing_endStep (port : Nat) (status : BitVec 16) (payload : Bytes) : standing (p.endStep port status payload) = standing p := by
  unfold Part.endStep
  (repeat' split) <;> simp

@[simp] theorem standing_cerEvent (port : Nat) (code : BitVec 16) (sev index p2 p3 : Nat) :
    standing (p.cerEvent port code sev index p2 p3) = standing p := by
  simp [Part.cerEvent]

@[simp] theorem standing_ceremonyEnded (port : Nat) (c : Ceremony) (outcome : Nat) : standing (p.ceremonyEnded port c outcome) = standing p := by
  simp [Part.ceremonyEnded]

@[simp] theorem standing_voidCeremony (port : Nat) : standing (p.voidCeremony port) = standing p := by
  unfold Part.voidCeremony
  simp only
  split <;> simp

@[simp] theorem standing_lapseAuth (port : Nat) : standing (p.lapseAuth port) = standing p := by
  unfold Part.lapseAuth
  split <;> simp

@[simp] theorem standing_endCeremonies (session : BitVec 32) : standing (p.endCeremonies session) = standing p := by
  unfold Part.endCeremonies
  refine standing_foldl (fun p port => ?_) _ _
  simp only
  (repeat' split) <;> simp

@[simp] theorem standing_detachSink (status : BitVec 16) : standing (p.detachSink status) = standing p := by
  unfold Part.detachSink
  split <;> simp

@[simp] theorem standing_settleSession (id : BitVec 32) : standing (p.settleSession id) = standing p := by
  unfold Part.settleSession
  (repeat' split) <;> simp

@[simp] theorem standing_startClosing (id : BitVec 32) : standing (p.startClosing id) = standing p := by
  unfold Part.startClosing
  simp only
  (repeat' split) <;> simp

@[simp] theorem standing_sessionsAtCut (new : Deal) : standing (p.sessionsAtCut new) = standing p := by
  unfold Part.sessionsAtCut
  extract_lets entry lost take taken closed
  have closed : standing closed = standing p :=
    (standing_foldl (fun p x => by split <;> simp) _ _).trans (by simp [taken])
  exact closed

/-! ### The state of the partner link -/

@[simp] theorem standing_formReady : standing p.formReady = standing p := by simp [Part.formReady]

@[simp] theorem standing_takeHeader (h : MirrorHdr) : standing (p.takeHeader h) = standing p := by simp [Part.takeHeader]

@[simp] theorem standing_notePeer (b : Beat) : standing (p.notePeer b) = standing p := by
  unfold Part.notePeer
  split
  · rfl
  · simp only
    split
    · exact (standing_event _ _ _ _ _ _ _ _ _).trans rfl
    · rfl

@[simp] theorem standing_partnerState (new : PairSt) : standing (p.partnerState new) = standing p := by
  unfold Part.partnerState
  simp only
  split <;> simp

@[simp] theorem standing_leaveResync : standing p.leaveResync = standing p := rfl

@[simp] theorem standing_toLinking : standing p.toLinking = standing p := by simp [Part.toLinking]

@[simp] theorem standing_firstRoles (b : Beat) : standing (p.firstRoles b).1 = standing p := by
  unfold Part.firstRoles
  (repeat' split) <;> simp

@[simp] theorem standing_sendMapKind (kind : Nat) : standing (p.sendMapKind kind) = standing p := by
  unfold Part.sendMapKind
  simp only
  split <;> simp

@[simp] theorem standing_enterResync : standing p.enterResync = standing p := by simp [Part.enterResync]

@[simp] theorem standing_tryResync (b : Beat) : standing (p.tryResync b) = standing p := by
  unfold Part.tryResync
  split <;> simp

@[simp] theorem standing_markDirty (objs : List Obj) : standing (p.markDirty objs) = standing p := rfl

@[simp] theorem standing_endLeaseWaits : standing p.endLeaseWaits = standing p := by simp [Part.endLeaseWaits]

@[simp] theorem standing_enterSolo : standing p.enterSolo = standing p := by
  unfold Part.enterSolo
  extract_lets lead left held pending _ told _ unknown dirty gone _ kept ended waited
  have unknown : standing unknown = standing p := (by simp [told, left] : standing told = standing p)
  have ended : standing ended = standing p := (standing_foldl (fun p m => by split <;> simp) _ _).trans (by simp [kept, dirty, unknown])
  simp only [standing_formReady, standing_mutate, waited]
  split
  · exact ended
  · exact (standing_endLeaseWaits _).trans ended

@[simp] theorem standing_sendObjects (n : Nat) : standing (Part.sendObjects n p) = standing p := by
  induction n generalizing p with
  | zero => rfl
  | succ n ih =>
    unfold Part.sendObjects
    split
    · rfl
    · simp only
      (repeat' split) <;> simp [ih]

@[simp] theorem standing_feedResync : standing p.feedResync = standing p := by simp [Part.feedResync]

@[simp] theorem standing_takeBeat (h : MirrorHdr) (b : Beat) : standing (p.takeBeat h b) = standing p := by
  unfold Part.takeBeat
  simp only
  (repeat' split) <;> simp

@[simp] theorem standing_wakeTrigger (by_ : Nat) : standing (p.wakeTrigger by_) = standing p := by
  unfold Part.wakeTrigger
  split <;> rfl

/-! ### Mutations that the partner's frames commit or settle -/

@[simp] theorem standing_formOwn (m : Mutation) (seq : Nat) (b : JBody) : standing (p.formOwn m seq b) = standing p := by simp [Part.formOwn]

@[simp] theorem standing_dropImpossible : standing p.dropImpossible = standing p := by
  unfold Part.dropImpossible
  refine standing_foldl (fun p m => ?_) _ _
  simp only
  (repeat' split) <;> simp

@[simp] theorem standing_journalShared (hand seq : Nat) (b : JBody) : standing (p.journalShared hand seq b) = standing p := by
  simp [Part.journalShared]

@[simp] theorem standing_emptySlots (gen : Option Nat) (first n : Nat) : standing (p.emptySlots gen first n) = standing p := by
  induction n generalizing p first with
  | zero => rfl
  | succ n ih => simp [Part.emptySlots, ih]

@[simp] theorem standing_contSlots (s : Slot) (first n : Nat) : standing (p.contSlots s first n) = standing p := by
  induction n generalizing p first with
  | zero => rfl
  | succ n ih => simp [Part.contSlots, ih]

@[simp] theorem standing_placeKey (head : Nat) (s : Slot) : standing (p.placeKey head s) = standing p := by simp [Part.placeKey]

@[simp] theorem standing_retireSlots (hand first n : Nat) : standing (p.retireSlots hand first n) = standing p := by
  induction n generalizing p first with
  | zero => rfl
  | succ n ih => simp [Part.retireSlots, ih]

@[simp] theorem standing_setCtr (i : Nat) (x : Counter) : standing (p.setCtr i x) = standing p := rfl

@[simp] theorem standing_updCtr (i : Nat) (f : Counter → Counter) : standing (p.updCtr i f) = standing p := rfl

@[simp] theorem standing_setCounter (i : Nat) (st : CtrState) (hw : Nat) : standing (p.setCounter i st hw) = standing p := by simp [Part.setCounter]

@[simp] theorem standing_updSlot (i : Nat) (f : Slot → Slot) : standing (p.updSlot i f) = standing p := rfl

@[simp] theorem standing_writeApp (addr : Nat) (d : Bytes) : standing (p.writeApp addr d) = standing p := by simp [Part.writeApp]

@[simp] theorem standing_tearUnheld (hands : List HandEntry) : standing (p.tearUnheld hands) = standing p := by simp [Part.tearUnheld]

@[simp] theorem standing_cutApplied (serial : Nat) : standing (p.cutApplied serial) = standing p := by
  unfold Part.cutApplied
  (repeat' split) <;> simp

@[simp] theorem standing_raiseCounters : standing p.raiseCounters = standing p := rfl

@[simp] theorem standing_applyBody (hand : Nat) (b : JBody) : standing (p.applyBody hand b) = standing p := by
  unfold Part.applyBody
  split <;> simp

@[simp] theorem standing_zeroKeyCtxs (slot hand : Nat) : standing (p.zeroKeyCtxs slot hand) = standing p := by simp [Part.zeroKeyCtxs]

@[simp] theorem standing_setCache (l : List CacheEntry) : standing (p.setCache l) = standing p := rfl

@[simp] theorem standing_cutoffs (slot : Nat) (old : Slot) : standing (p.cutoffs slot old) = standing p := rfl

@[simp] theorem standing_dropConfirm (seat : Nat) : standing (p.dropConfirm seat) = standing p := by
  unfold Part.dropConfirm
  exact (standing_foldl (fun p m => by split <;> simp) _ _).trans (by simp)

@[simp] theorem standing_commitErase (m : Mutation) (slot : Nat) (body : JBody) : standing (p.commitErase m slot body) = standing p := by
  unfold Part.commitErase
  simp only
  split <;> simp

@[simp] theorem standing_applyShared (hand : Nat) (b : JBody) : standing (p.applyShared hand b) = standing p := by
  unfold Part.applyShared
  simp only
  (repeat' split) <;> simp

@[simp] theorem standing_abandonShared (b : JBody) : standing (p.abandonShared b) = standing p := by
  unfold Part.abandonShared
  (repeat' split) <;> simp

@[simp] theorem standing_takeMutation (seq : Nat) (b : Bytes) : standing (p.takeMutation seq b) = standing p := by
  unfold Part.takeMutation
  simp only
  (repeat' split) <;> simp

@[simp] theorem standing_takeForward (b : Bytes) : standing (p.takeForward b) = standing p := by
  unfold Part.takeForward
  simp only
  (repeat' split) <;> simp

@[simp] theorem standing_takeLeaseRequest (b : Bytes) : standing (p.takeLeaseRequest b) = standing p := by
  unfold Part.takeLeaseRequest
  split <;> simp

@[simp] theorem standing_takeRepairRequest (b : Bytes) : standing (p.takeRepairRequest b) = standing p := by
  unfold Part.takeRepairRequest
  simp only
  split <;> simp

@[simp] theorem standing_loadSlot (hands : List HandEntry) (raw : Bytes) (i : Nat) : standing (p.loadSlot hands raw i) = standing p := by
  unfold Part.loadSlot
  simp only
  (repeat' split) <;> simp

@[simp] theorem standing_loadCtrs (n : Nat) (raw : Bytes) (i : Nat) : standing (p.loadCtrs n raw i) = standing p := by
  induction n generalizing p raw i with
  | zero => rfl
  | succ n ih => simp [Part.loadCtrs, ih]

@[simp] theorem standing_takeRepairData (b : Bytes) : standing (p.takeRepairData b) = standing p := by
  unfold Part.takeRepairData
  simp only
  split_ifs <;> simp

@[simp] theorem standing_takeMap (b : Bytes) : standing (p.takeMap b) = standing p := by
  unfold Part.takeMap
  simp only
  split <;> simp

@[simp] theorem standing_conflict (hand slot gen : Nat) (current : Bytes) : standing (p.conflict hand slot gen current) = standing p := by
  simp [Part.conflict]

@[simp] theorem standing_settleSlot (head : Nat) (theirs : JBody) : standing (p.settleSlot head theirs).1 = standing p := by
  unfold Part.settleSlot
  simp only
  split_ifs <;> simp

@[simp] theorem standing_takeObject (seq : Nat) (b : Bytes) : standing (p.takeObject seq b) = standing p := by
  unfold Part.takeObject
  simp only
  (repeat' split) <;> simp

@[simp] theorem standing_takeEvent (b : Bytes) : standing (p.takeEvent b) = standing p := by
  unfold Part.takeEvent
  split <;> simp

@[simp] theorem standing_deliverMirror (seq type : Nat) (b : Bytes) : standing (p.deliverMirror seq type b) = standing p := by
  unfold Part.deliverMirror
  (repeat' split) <;> simp

/-! ### The partner's frames, in order -/

@[simp] theorem standing_drainEarly (n : Nat) : standing (Part.drainEarly n p) = standing p := by
  induction n generalizing p with
  | zero => rfl
  | succ n ih =>
    unfold Part.drainEarly
    split
    · rfl
    · split <;> simp [ih]

@[simp] theorem standing_orderFrame (h : MirrorHdr) (type : Nat) (b : Bytes) : standing (p.orderFrame h type b) = standing p := by
  unfold Part.orderFrame
  simp only
  split_ifs <;> simp

@[simp] theorem standing_mirrorIn (h : MirrorHdr) (m : MirrorIn) (corrupt : Bool) : standing (p.mirrorIn h m corrupt) = standing p := by
  unfold Part.mirrorIn
  (repeat' split) <;> simp

@[simp] theorem standing_deliverPartner (e : ShufFrame × Bool) : standing (p.deliverPartner e) = standing p := by
  unfold Part.deliverPartner
  split <;> simp

/-! ### Hosts' frames -/

@[simp] theorem standing_reply (r : Reply) : standing (p.reply r) = standing p := rfl

@[simp] theorem standing_helloFail (path : Path) (request : BitVec 64) (status : BitVec 16) :
    standing (p.helloFail path request status) = standing p := by
  simp [Part.helloFail]

@[simp] theorem standing_drbgTakes (die n : Nat) : standing (p.drbgTakes die n) = standing p := rfl

@[simp] theorem standing_trimOffered : standing p.trimOffered = standing p := by
  unfold Part.trimOffered
  simp only
  (repeat' split) <;> simp

@[simp] theorem standing_shakeOut (r : Reply) (hand : Nat) : standing (p.shakeOut r hand) = standing p := by
  unfold Part.shakeOut
  split
  · rfl
  · simp

@[simp] theorem standing_hello (a : Arrival) (request : BitVec 64) (fault : Bool) (payload : Bytes) :
    standing (p.hello a request fault payload) = standing p := by
  unfold Part.hello
  extract_lets cert hellos flags _ counted _ _ _ _ drawn
  have counted : standing counted = standing p := rfl
  have drawn : standing drawn = standing p := (standing_drbgTakes _ _ _).trans counted
  have fail : ∀ st, standing (Part.helloFail _ (Part.pathOf a) request st) = standing p := fun st => (standing_helloFail _ _ _ st).trans counted
  split
  · refine standing_ite (standing_stranger p a) ?_
    extract_lets
    refine standing_ite (standing_bump p _ _) (standing_ite (fail _) (standing_ite (fail _) (standing_ite (fail _) ?_)))
    split
    · exact fail _
    · split
      exact (standing_shakeOut _ _ _).trans ((standing_trimOffered _).trans drawn)
  · exact standing_stranger p a

@[simp] theorem standing_prove (a : Arrival) (x : Session) (request : BitVec 64) (payload : Bytes) :
    standing (p.prove a x request payload) = standing p := by
  unfold Part.prove
  simp only
  split <;> simp

@[simp] theorem standing_streamDrop (n : Nat) : standing (p.streamDrop n) = standing p := by
  unfold Part.streamDrop
  split <;> simp

@[simp] theorem standing_stopCommand (uid : Nat) (status : Option (BitVec 16)) (payload : Bytes) :
    standing (p.stopCommand uid status payload) = standing p :=
  (within_stopCommand p _ _ _).standing

@[simp] theorem standing_sendAck (session id : BitVec 32) : standing (p.sendAck session id) = standing p := by
  unfold Part.sendAck
  (repeat' split) <;> simp

@[simp] theorem standing_takeSegment (x : Session) (b : Bytes) : standing (p.takeSegment x b) = standing p := by
  unfold Part.takeSegment
  simp only
  (repeat' split) <;> simp

@[simp] theorem standing_takeAckEntry (x : Session) (b : Bytes) : standing (p.takeAckEntry x b) = standing p := by
  unfold Part.takeAckEntry
  simp only
  (repeat' split) <;> simp

@[simp] theorem standing_takeAck (x : Session) (b : Bytes) : standing (p.takeAck x b) = standing p := by simp [Part.takeAck]

@[simp] theorem standing_enter (o : Origin) (hand code : Nat) (params : Bytes) (ordered : Bool) (path : Path) :
    standing (p.enter o hand code params ordered path).1 = standing p :=
  rfl

@[simp] theorem standing_openStreams (x : Session) (uid : Nat) (l : List (Nat × Bool × Option Nat)) :
    standing (p.openStreams x uid l) = standing p := by
  induction l generalizing p with
  | nil => rfl
  | cons e r ih =>
    unfold Part.openStreams
    simp only [ih]
    split <;> simp

@[simp] theorem standing_accept (x : Session) (frameHand : Nat) (ordered : Bool) (path : Path) (code : Nat) (request : BitVec 64) (params : Bytes) :
    standing (p.accept x frameHand ordered path code request params) = standing p := by
  unfold Part.accept
  extract_lets req back first high noted
  have back : ∀ st b, standing (back st b) = standing p := fun st b => by simp [back]
  have entered := (standing_enter noted (.host x.id request) x.hand code params ordered path).trans (standing_updSession p _ _)
  refine standing_ite (back _ _) (standing_ite (back _ _) (standing_ite (back _ _) (standing_ite (back _ _) (standing_ite (back _ _)
    (standing_ite (back _ _) ?_)))))
  split
  · exact standing_ite rfl (standing_ite (by simp) (standing_reply p _))
  · split
    next q uid enter =>
      rw [enter] at entered
      clear_value first
      split
      · exact (standing_answer q _ _ _).trans entered
      · exact (standing_openStreams q _ _ _).trans entered

@[simp] theorem standing_takeFrame (x : Session) (h : Header) (path : Path) (body : Bytes) : standing (p.takeFrame x h path body) = standing p := by
  unfold Part.takeFrame
  extract_lets mismatch
  have mismatch : ∀ q r c, standing (mismatch q r c) = standing q := fun q r c => by simp [mismatch]
  refine standing_ite (mismatch _ _ _) (standing_ite (standing_ite (standing_takeSegment _ _ _) (standing_streamDrop _ _))
    (standing_ite (standing_takeAck _ _ _) (standing_ite (mismatch _ _ _) (standing_ite ?_ ?_))))
  · split
    · exact mismatch _ _ _
    · refine standing_foldl (fun q e => standing_ite (mismatch _ _ _) ?_) _ _
      split
      · exact standing_accept q _ _ _ _ _ _ _
      · rfl
  · split
    · exact standing_accept p _ _ _ _ _ _ _
    · rfl

@[simp] theorem standing_sessionFrame (a : Arrival) (x : Session) (h : Header) (frame : Bytes) :
    standing (p.sessionFrame a x h frame) = standing p := by
  unfold Part.sessionFrame
  (repeat' split) <;> simp

@[simp] theorem standing_xctFrame (a : Arrival) (frame : Bytes) : standing (p.xctFrame a frame) = standing p := by
  unfold Part.xctFrame
  simp only
  (repeat' split) <;> simp

/-! ### Frames that the Shuffle held -/

@[simp] theorem standing_delivered (e : ShufFrame × Bool) : standing (p.delivered e) = standing p := by
  unfold Part.delivered
  (repeat' split) <;> simp

@[simp] theorem standing_releaseHeld (l : List HeldFrame) : standing (p.releaseHeld l) = standing p := by simp [Part.releaseHeld]

@[simp] theorem standing_shuffleOff (cause : Nat) : standing (p.shuffleOff cause) = standing p := by
  unfold Part.shuffleOff
  split <;> simp

@[simp] theorem standing_shuffleCut (d : Option DrillEntry) : standing (p.shuffleCut d) = standing p := by
  unfold Part.shuffleCut
  simp only
  split <;> simp

/-! ### Steps of a cut -/

@[simp] theorem standing_ceremoniesAtCut : standing p.ceremoniesAtCut = standing p := by
  unfold Part.ceremoniesAtCut
  refine standing_foldl (fun p port => ?_) _ _
  simp only
  (repeat' split) <;> simp

@[simp] theorem standing_unpair : standing p.unpair = standing p := by
  unfold Part.unpair
  extract_lets gone _ kept ended linked _ left
  have ended : standing ended = standing p := (standing_foldl (fun p m => by split <;> simp) _ _).trans (by simp [kept])
  have left : standing left = standing p := by simp [left, linked, ended]
  exact (standing_formReady _).trans left

@[simp] theorem standing_partnerAtCut (old : Option Deal) (new : Deal) : standing (p.partnerAtCut old new) = standing p := by
  unfold Part.partnerAtCut
  (repeat' split) <;> simp

@[simp] theorem standing_wipeCache (sel : CacheEntry → Bool) : standing (p.wipeCache sel) = standing p := by simp [Part.wipeCache]

@[simp] theorem standing_wipeLost : standing p.wipeLost = standing p := by simp [Part.wipeLost]

@[simp] theorem standing_saturating (die window offset source : Nat) (old : BitVec 32) :
    standing (p.saturating die window offset source old) = standing p :=
  noted_standing (saturating_noted p _ _ _ _ _)

@[simp] theorem standing_setPower (x : Power) : standing (p.setPower x) = standing p := rfl

@[simp] theorem standing_parkCmd (uid : Nat) : standing (p.parkCmd uid) = standing p := rfl

@[simp] theorem standing_beginFold (uid limit : Nat) : standing (p.beginFold uid limit) = standing p := by simp [Part.beginFold]

end

/-! ### The rows of a cut (02 R51 to R55) -/

section
variable (p : Part)

theorem standing_setJoker (x : Joker) : standing (p.setJoker x) = (standing p).setJoker x := rfl

theorem standing_setDeal (x : DealUnit) : standing (p.setDeal x) = (standing p).setDeal (peerless x) := rfl

/-- A debug session that closes is all that changes of what stands. -/
theorem standing_closeJoker : ∃ j, standing p.closeJoker = (standing p).setJoker j := by
  unfold Part.closeJoker
  extract_lets j shut
  split
  · exact ⟨p.joker, rfl⟩
  split
  · exact ⟨_, by simp only [standing_relevel, shut, standing_setJoker]; rw [standing_foldl (fun q n => standing_returnSeat q n)]⟩
  split
  · exact ⟨_, by simp only [standing_zeroizeHand, standing_setJoker]; rw [standing_foldl (fun q n => standing_unhalt q n 3)]⟩
  split
  · exact ⟨_, rfl⟩
  · exact ⟨_, rfl⟩

/-- At tc the staged Deal is active, in the other bank and the next epoch; what stands changes by that and the closing of a debug session. -/
theorem standing_cutInstant {c : Cut} {new : Deal} (cut : p.deal.cut = some c) (tc : c.tc = none) (staged : p.deal.staged = some new) :
    ∃ j d, standing p.cutInstant = standing ((p.setJoker j).setDeal d) ∧ d.active = some new ∧ d.activeBank = !p.deal.activeBank ∧
      d.epoch = p.deal.epoch + 1 ∧ d.staged = none ∧ d.recSerial = new.serial := by
  obtain ⟨j, closed⟩ := standing_closeJoker p
  have deal : peerless p.closeJoker.deal = peerless p.deal := congrArg Part.deal closed
  unfold Part.cutInstant
  rw [cut, staged]
  simp -zeta only [tc, Option.isSome_none, Bool.false_eq_true, if_false]
  extract_lets before old oldReg shut b _ _ banked e now returned _ dealt recorded limited sessions shuffled ceremonies freed
  have hReturned : standing returned = standing banked := standing_returnSlots banked now
  have hDealt : standing dealt = standing ((p.setJoker j).setDeal dealt.deal) :=
    calc standing dealt = (standing returned).setDeal (peerless dealt.deal) := rfl
      _ = (standing banked).setDeal (peerless dealt.deal) := by rw [hReturned]
      _ = (standing p.closeJoker).setDeal (peerless dealt.deal) := rfl
      _ = ((standing p).setJoker j).setDeal (peerless dealt.deal) := by rw [closed]
  have hCeremonies : standing ceremonies = standing dealt :=
    standing_ite (by simp [shuffled, sessions, limited, recorded]) (by simp [shuffled, sessions, limited, recorded])
  have hFreed : standing freed = standing dealt :=
    (standing_foldl (fun q n => by (repeat' split) <;> simp) _ _).trans hCeremonies
  refine ⟨j, _, (standing_relevel _).trans ((standing_partnerAtCut _ _ _).trans (hFreed.trans hDealt)), rfl, ?_, ?_, rfl, rfl⟩
  · exact congrArg (fun d => !d.activeBank) deal
  · exact congrArg (fun d => d.epoch + 1) deal

/-- The cut's last step ends it and counts it; of what stands only the Deal changes. -/
theorem standing_cutDone {c : Cut} {tc : Nat} (cut : p.deal.cut = some c) (at_ : c.tc = some tc) (copied : c.copied = true)
    (torn : c.removed.all (fun e => c.torn.contains e.hand) = true) (cleared : c.clearing = []) :
    ∃ d, standing p.cutDone = standing (p.setDeal d) ∧ d.cut = none ∧ d.st = .idle ∧ d.cuts = Part.satIncr p.deal.cuts := by
  unfold Part.cutDone
  rw [cut]
  have ended : c.tc.isSome = true ∧ c.copied = true ∧ c.removed.all (fun e => c.torn.contains e.hand) = true ∧ c.clearing = [] :=
    ⟨by simp [at_], copied, torn, cleared⟩
  simp -zeta only [ended, and_self, if_true]
  extract_lets oldSerial was _ released _ dealt counted recorded answered waiting _ opened
  have hDealt : standing dealt = standing (p.setDeal dealt.deal) := by
    simp [dealt, standing_setDeal, released]
  have hOpened : standing opened = standing dealt := by
    simp [opened, answered, recorded, counted]
  refine ⟨dealt.deal, ?_, rfl, rfl, rfl⟩
  clear_value waiting
  cases waiting with
  | nil => exact hOpened.trans hDealt
  | cons u rest =>
    exact (standing_foldl (fun q v => standing_answer q v _ _) _ _).trans ((standing_beginFold opened u _).trans (hOpened.trans hDealt))

end

/-- Two states of which the same stands differ in the other units and in the Deal alone. -/
theorem changes_of_standing {q r : Part} (h : standing q = standing r) :
    ChangesOnly [.power, .deal, .xct, .disp, .vault, .seats, .trngs, .part, .evr, .cers, .shuffle, .counts] r q := fun u hu => by
  have as {α : Type} (f : Part → α) : f (standing q) = f (standing r) := congrArg f h
  cases u with
  | fuses => exact as Part.fuses
  | ports => exact ⟨as Part.hpa, as Part.hpb, as Part.ha0, as Part.ha1, as Part.hb0, as Part.hb1⟩
  | lats => exact as Part.lats
  | guard => exact as Part.guard
  | joker => exact as Part.joker
  | _ => exact absurd (by decide) hu

section
variable {p : Part} {c : Cut} {tc : Nat}

/-- Old-epoch work that the cut ends is stopped at the deadline. -/
theorem cutDeadline_eq (cut : p.deal.cut = some c) (at_ : c.tc = some tc) (ahead : c.deadline = false) :
    ∃ q, Within stopUnits (p.atTime (tc + msec 100)) q ∧
      p.cutDeadline = q.setDeal { q.deal with cut := q.deal.cut.map (fun c => { c with deadline := true }) } := by
  unfold Part.cutDeadline
  simp only [cut, at_, ahead, Bool.false_eq_true, if_false]
  exact ⟨_, .foldl (fun q x => within_stopCommand q _ _ _) _ _, rfl⟩

/-- A hand's ranges are torn down, each with its record. -/
theorem tearHand_eq {h : Nat} (cut : p.deal.cut = some c) (at_ : c.tc = some tc) (mine : c.removed.any (fun e => e.hand == h) = true)
    (untorn : c.torn.contains h = false) (ended : (p.doomedWork c).any (fun x => x.hand == h) = false) :
    ∃ q done back, Within tearUnits p q ∧ p.tearHand h = q.setDeal { q.deal with
      st := .teardown
      cut := q.deal.cut.map (fun c => { c with torn := h :: c.torn, clearing := (h, done) :: c.clearing, returned := back ++ c.returned }) } := by
  unfold Part.tearHand
  rw [cut]
  have some_mine : c.removed.filter (fun e => e.hand = h) ≠ [] := by
    obtain ⟨e, removed, hand⟩ := List.any_eq_true.1 mine
    exact List.ne_nil_of_mem (List.mem_filter.2 ⟨removed, by simpa using hand⟩)
  have due : ¬(c.tc.isNone = true ∨ c.removed.filter (fun e => e.hand = h) = [] ∨ c.torn.contains h = true ∨
      (p.doomedWork c).any (fun x => x.hand == h) = true) := by
    rw [at_, untorn, ended]
    simp [some_mine]
  simp -zeta only
  extract_lets mine all torn back done returned
  have hTorn : Within tearUnits p torn := .foldl (fun q e => (within_cutRecord q _ _).mono.next (within_tearEntry _ _ _)) _ _
  exact ⟨returned, done, back, hTorn.next (within_returnSlots _ _), if_neg due⟩

end

/-- The end of a teardown touches the debug session alone. -/
theorem jokerTorn_eq (p : Part) (h : Nat) : ∃ j, p.jokerTorn h = p.setJoker j := by
  unfold Part.jokerTorn
  split
  · split
    · exact ⟨_, rfl⟩
    · exact ⟨_, rfl⟩
  · exact ⟨p.joker, rfl⟩

/-- The ranges of a hand are clear at the time its teardown set; a debug session of that hand alone ends with it. -/
theorem teardownComplete_next {s : State} {c : Cut} {h : Nat} {e : Nat × Nat} (on : s.power.on = true) (cut : s.deal.cut = some c)
    (clearing : c.clearing.find? (fun x => x.1 == h) = some e) :
    ∃ j, exec (.teardownComplete h) s = .next (after s (((s.toPart.atTime e.2).setDeal { s.deal with
      cut := s.deal.cut.map (fun c => { c with clearing := c.clearing.filter (fun e => !(e.1 == h)) }) }).setJoker j)) := by
  obtain ⟨j, torn⟩ := jokerTorn_eq ((s.toPart.atTime e.2).setDeal { s.deal with
    cut := s.deal.cut.map (fun c => { c with clearing := c.clearing.filter (fun e => !(e.1 == h)) }) }) h
  refine ⟨j, ?_⟩
  have due : s.deal.cut.bind (fun c => c.clearing.find? (fun e => e.1 == h)) = some e := by rw [cut]; exact clearing
  rw [← torn]
  change execTeardownComplete h s = _
  rw [execTeardownComplete, powered_on on]
  simp only [due]
  rfl

/-- The mirror copy of an active bank in use. -/
theorem mirrorBank_copies (p : Part) (active : p.deal.active.isSome = true) (role : (p.dealBank p.deal.activeBank).role = .active) :
    p.mirrorBank.dealBank (!p.deal.activeBank) = { p.dealBank p.deal.activeBank with role := .mirror } ∧ p.mirrorBank.deal.mirror = true := by
  unfold Part.mirrorBank
  simp only [active, role, and_self, if_true]
  refine ⟨?_, rfl⟩
  cases h : p.deal.activeBank <;> simp [Part.dealBank, Part.setDealBank, Part.setDeal, h]

/-- The copy is made once, and the cut goes on. -/
theorem dealMirrorCopyComplete_next {s : State} {c : Cut} {tc : Nat} (on : s.power.on = true) (cut : s.deal.cut = some c)
    (at_ : c.tc = some tc) (copied : c.copied = false) :
    exec .dealMirrorCopyComplete s = .next (after s (s.toPart.mirrorBank.setDeal { s.toPart.mirrorBank.deal with
      cut := s.toPart.mirrorBank.deal.cut.map (fun c => { c with copied := true }) })) := by
  change execDealMirrorCopyComplete s = _
  rw [execDealMirrorCopyComplete, powered_on on]
  simp only [cut, at_, Option.isSome_some, copied, and_self, if_true]

/-- Settles O4: the instant and the completion by what stands through them, the others by what each writes. -/
theorem cutRowsAct : Obligations.CutRowsAct := by
  refine ⟨fun s c new on cut tc staged => ?_, fun s n c tc on hn cut at_ running => ?_, fun s c tc on cut at_ ahead => ?_,
    fun s c tc h on cut at_ mine untorn ended => ?_, fun s c h e on cut clearing => ?_, fun s c tc on cut at_ copied => ?_,
    fun s c tc on cut at_ copied torn cleared => ?_, fun s n h on hn priv free => ?_⟩
  · obtain ⟨j, d, stands, active, bank, epoch, noStaged, serial⟩ := standing_cutInstant s.toPart cut tc staged
    have deal : peerless s.toPart.cutInstant.deal = peerless d := congrArg Part.deal stands
    refine ⟨_, powered_on on _, (congrArg DealUnit.active deal).trans active, (congrArg DealUnit.activeBank deal).trans bank,
      (congrArg DealUnit.epoch deal).trans epoch, (congrArg DealUnit.staged deal).trans noStaged,
      (congrArg DealUnit.recSerial deal).trans serial, ?_⟩
    exact (((changes_joker _ j).trans (changes_deal _ d)).trans (changes_of_standing stands)).keeps (by decide)
  · refine ⟨_, onUnit_on hn on _, ?_⟩
    simp only [cut, Option.bind_some, at_, running, true_or, if_true]
    exact ⟨trivial, congrArg Seat.epoch (seat_updSeat_same _ _ _)⟩
  · obtain ⟨q, stopped, h⟩ := cutDeadline_eq cut at_ ahead
    refine ⟨_, powered_on on _, ?_⟩
    rw [h]
    refine ⟨?_, ?_, (((changes_now _ _).trans stopped.units).trans (changes_deal _ _)).keeps (by decide)⟩
    · exact (congrArg (fun d : DealUnit => d.cut.map (fun c => { c with deadline := true })) stopped.deal).trans (congrArg (Option.map _) cut)
    · exact (Nat.le_max_right _ _).trans_eq stopped.now.symm
  · obtain ⟨q, done, back, torn, act⟩ := tearHand_eq cut at_ mine untorn ended
    refine ⟨_, powered_on on (fun p => p.tearHand h), ?_⟩
    rw [act]
    refine ⟨rfl, ?_, (torn.units.trans (changes_deal _ _)).keeps (by decide)⟩
    simp [after, torn.deal, cut]
  · obtain ⟨j, act⟩ := teardownComplete_next on cut clearing
    refine ⟨_, act, congrArg (Option.map _) cut, rfl, ?_⟩
    exact (((changes_now _ _).trans (changes_deal _ _)).trans (changes_joker _ j)).keeps (by decide)
  · obtain ⟨banks, mirror, eq⟩ := mirrorBank_eq s.toPart
    refine ⟨_, dealMirrorCopyComplete_next on cut at_ copied, ?_, fun active role => mirrorBank_copies s.toPart active role, ?_⟩
    · rw [eq]
      exact congrArg (Option.map _) cut
    · rw [eq]
      exact ((changes_deal _ _).trans (changes_deal _ _)).keeps (by decide)
  · obtain ⟨d, stands, noCut, st, cuts⟩ := standing_cutDone s.toPart cut at_ copied torn cleared
    have deal : peerless s.toPart.cutDone.deal = peerless d := congrArg Part.deal stands
    refine ⟨_, powered_on on _, (congrArg DealUnit.cut deal).trans noCut, (congrArg DealUnit.st deal).trans st,
      (congrArg DealUnit.cuts deal).trans cuts, ?_⟩
    exact ((changes_deal _ d).trans (changes_of_standing stands)).keeps (by decide)
  · refine ⟨_, onUnit_on hn on _, ?_⟩
    obtain ⟨counts, wiped⟩ := wipeCache_counts s.toPart (fun c => c.seat == n && c.hand != h && c.hand != 0)
    unfold Part.releasePrivate
    rw [priv]
    simp only [free, Bool.false_eq_true, if_false]
    refine ⟨congrArg Seat.privFor (seat_updSeat_same _ _ _), ?_⟩
    rw [wiped]
    exact (((changes_seats _ _).trans (changes_counts _ _)).trans (changes_updSeat _ _ _)).keeps (by decide)

end Sys2Proof.DealRows

/-! ## Host transport: the replay window, answers, ports, sessions, frames and the recorder's rows (03, 14) -/

namespace Sys2Proof.HostTransport

open Sys2Proof.Machine Sys2Proof.Safety Sys2Proof.Laws Sys2Proof.Architecture Sys2Proof.DealRows

-- One theorem at a time, as in the tests: theorems elaborated together each take a thread, and their stacks count against check.sh's memory limit.
set_option Elab.async false

/-! ### Sessions and streams after an update -/

section
variable (p : Part)

@[simp] theorem findSession_updSession_same {id : BitVec 32} {f : Session → Session} (keepsId : ∀ x, (f x).id = x.id := by exact fun _ => rfl) :
    (p.updSession id f).findSession id = (p.findSession id).map f := by
  have named : (fun x : Session => decide ((if x.id = id then f x else x).id = id)) = fun x => decide (x.id = id) := by
    funext x
    split <;> simp [*]
  simp only [Part.findSession, Part.updSession, Part.setSessions, List.find?_map, Function.comp_def, named]
  refine Option.map_congr fun x hx => ?_
  rw [if_pos (by simpa using List.find?_some hx)]

theorem findStream_updStream_same {session id : BitVec 32} {f : Stream → Stream}
    (keeps : ∀ y, (f y).session = y.session ∧ (f y).id = y.id := by exact fun _ => ⟨rfl, rfl⟩) :
    (p.updStream session id f).findStream session id = (p.findStream session id).map f := by
  have named : (fun y : Stream => decide ((if y.session = session ∧ y.id = id then f y else y).session = session ∧
      (if y.session = session ∧ y.id = id then f y else y).id = id)) = fun y => decide (y.session = session ∧ y.id = id) := by
    funext y
    split <;> simp [*]
  simp only [Part.findStream, Part.updStream, Part.setStreams, List.find?_map, Function.comp_def, named]
  refine Option.map_congr fun y hy => ?_
  rw [if_pos (by simpa using List.find?_some hy)]

end

theorem id_of_findSession {p : Part} {id : BitVec 32} {x : Session} (found : p.findSession id = some x) : x.id = id := by
  simpa using List.find?_some found

/-! ### The replay window (03 R82) -/

/-- The reply to a command that its session refuses (R82). -/
def refusal (x : Session) (ordered : Bool) (path : Path) (code : Nat) (request : BitVec 64) (status : BitVec 16) (payload : Bytes) : Reply :=
  { session := x.id, request := request, code := code, status := status, payload := payload, path := path, ordered := ordered }

section
variable {p : Part} {x : Session} {hand code : Nat} {ordered : Bool} {path : Path} {request : BitVec 64} {params : Bytes}

/-- A request ID that is recorded is turned away with what is known of it. -/
theorem accept_recorded (isOpen : x.st = .open_) (recorded : x.recorded.any (fun e => e.1 = request.toNat) = true) :
    p.accept x hand ordered path code request params = (p.countAnswer Status.replayRejected).reply
      (refusal x ordered path code request Status.replayRejected (Part.replayPayload x request.toNat)) := by
  unfold Part.accept
  rw [if_neg (not_not.2 isOpen), if_pos recorded]
  rfl

/-- A request ID that is 0 or below the window is turned away. -/
theorem accept_below (isOpen : x.st = .open_) (fresh : x.recorded.any (fun e => e.1 = request.toNat) = false)
    (below : request = 0 ∨ request.toNat + x.window ≤ x.reqHigh) :
    p.accept x hand ordered path code request params = (p.countAnswer Status.replayRejected).reply
      (refusal x ordered path code request Status.replayRejected [2, 0, 0, 0]) := by
  have below : request.toNat = 0 ∨ request.toNat + x.window ≤ x.reqHigh := below.imp_left fun h => by rw [h]; rfl
  unfold Part.accept
  rw [if_neg (not_not.2 isOpen), if_neg (ne_true_of_eq_false fresh), if_pos below]
  rfl

/-- The session once the request is recorded: H and the window move with it. -/
def recordRequest (req : Nat) (x : Session) : Session :=
  { x with reqHigh := max x.reqHigh req, recorded := ((req, none) :: x.recorded).filter (fun e => max x.reqHigh req < e.1 + x.window) }

theorem mem_recorded_recordRequest {req : Nat} (inside : x.reqHigh < req + x.window) (window : 1 ≤ x.window) :
    (req, none) ∈ (recordRequest req x).recorded := by
  simp only [recordRequest, List.mem_filter, List.mem_cons, true_or, decide_eq_true_eq, true_and]
  omega

/-- The part once an unordered request has passed every check of R82 and R85: recorded, and its command entered. -/
def accepted (p : Part) (x : Session) (path : Path) (code : Nat) (request : BitVec 64) (params : Bytes) : Part :=
  ((p.updSession x.id (fun y => { y with
      reqHigh := max x.reqHigh request.toNat
      recorded := ((request.toNat, none) :: y.recorded).filter (fun e => max x.reqHigh request.toNat < e.1 + y.window) })).enter (.host x.id request) x.hand code params false path).1

theorem accept_accepted (isOpen : x.st = .open_) (fresh : x.recorded.any (fun e => e.1 = request.toNat) = false) (named : request ≠ 0)
    (inside : x.reqHigh < request.toNat + x.window) (credit : p.unanswered x.id < x.credit)
    (room : ∀ n, p.inflightLimit x.hand = some n → p.handInFlight x.hand < n) (first : p.firstAnswer x hand code = none)
    (busy : p.busy x.hand code params = none) :
    p.accept x hand false path code request params =
      (accepted p x path code request params).openStreams x p.xct.nextUid (streamsOf code params) := by
  have named : ¬(request.toNat = 0 ∨ request.toNat + x.window ≤ x.reqHigh) :=
    not_or.2 ⟨fun h => named (BitVec.eq_of_toNat_eq h), by omega⟩
  unfold Part.accept
  extract_lets req back first' high noted
  have first' : first' = none := first
  rw [if_neg (not_not.2 isOpen), if_neg (ne_true_of_eq_false fresh), if_neg named, if_neg (by simp), if_neg (by omega), if_neg ?_]
  · rw [first']
    simp only [Option.isSome_none, Bool.false_eq_true, if_false, busy]
    rfl
  · cases limit : p.inflightLimit x.hand with
    | none => simp
    | some n => simpa using room n limit

theorem openStreams_eq (uid : Nat) (l : List (Nat × Bool × Option Nat)) :
    ∃ streams, p.openStreams x uid l = p.setStreams streams := by
  induction l generalizing p with
  | nil => exact ⟨p.xct.streams, rfl⟩
  | cons e r ih =>
    unfold Part.openStreams
    simp only
    split
    · exact ih
    · obtain ⟨streams, h⟩ := ih (p := p.setStreams _)
      exact ⟨streams, h⟩

end

/-- Settles O52: the first check that a request meets decides; past all of them it is recorded and entered. -/
theorem replayWindowHolds : Obligations.ReplayWindowHolds := by
  refine ⟨fun p x hand ordered path code request params isOpen recorded => ?_,
    fun p x hand ordered path code request params isOpen fresh below => ?_,
    fun p x hand path code request params found isOpen fresh named inside window credit room first busy => ?_⟩
  · exact ⟨_, accept_recorded isOpen recorded, rfl, rfl, rfl, rfl⟩
  · exact ⟨_, accept_below isOpen fresh below, rfl, rfl, rfl, rfl⟩
  · obtain ⟨streams, opened⟩ := openStreams_eq (p := accepted p x path code request params) (x := x) p.xct.nextUid (streamsOf code params)
    rw [accept_accepted isOpen fresh named inside credit room first busy, opened]
    refine ⟨_, rfl, rfl, rfl, rfl, recordRequest request.toNat x, ?_, mem_recorded_recordRequest inside window, rfl⟩
    exact (findSession_updSession_same p).trans (by rw [found]; rfl)

/-! ### Answering a host (03 R85) -/

section
variable {p : Part} {c : Cmd} {status : BitVec 16} {payload : Bytes}

/-- A command that released no output sends no RETRACT. -/
theorem sendRetract_none (found : p.findCmd c.uid = some c) (kept : c.retract = none) : p.sendRetract c.uid status = p := by
  unfold Part.sendRetract
  simp only [found, kept]

/-- The command once it is answered, in its place among the outcomes. -/
def answeredCmd (p : Part) (status : BitVec 16) (payload : Bytes) (c : Cmd) : Cmd :=
  { c with place := .xct, status := status, payload := payload, doneSeq := p.xct.nextDone, doneAt := p.now / 2 }

theorem answer_host (found : p.findCmd c.uid = some c) (host : c.isCall = false) (kept : c.retract = none) :
    p.answer c.uid status payload = ((((p.closeStreams c.uid).countAnswer status).updCmd c.uid (fun c =>
      { c with place := .xct, status := status, payload := payload })).ordered c.uid).noteDrain := by
  unfold Part.answer
  simp only [sendRetract_none found kept, found]
  cases origin : c.origin with
  | host x r => rfl
  | call s k d => simp [Cmd.isCall, origin] at host

theorem countAnswer_eq (p : Part) (st : BitVec 16) : ∃ counts, p.countAnswer st = { p with counts := counts } := by
  unfold Part.countAnswer
  split_ifs
  · exact ⟨_, rfl⟩
  · exact ⟨_, rfl⟩
  · exact ⟨_, rfl⟩
  · exact ⟨_, rfl⟩
  · exact ⟨p.counts, rfl⟩

theorem noteDrain_eq (p : Part) : ∃ drained, p.noteDrain = { p with power := { p.power with drained := drained } } := by
  unfold Part.noteDrain
  split
  · exact ⟨_, rfl⟩
  · exact ⟨p.power.drained, rfl⟩

/-- XCT once a host's command is answered: its streams are closed, and it stands among the outcomes. -/
def answeredXct (p : Part) (u : Nat) (status : BitVec 16) (payload : Bytes) : XctUnit :=
  (((p.closeStreams u).updCmd u (fun c => { c with place := .xct, status := status, payload := payload })).ordered u).xct

/-- Answering a host's command changes XCT, a count, and the mark of a drain that ends with it. -/
theorem answer_host_eq (found : p.findCmd c.uid = some c) (host : c.isCall = false) (kept : c.retract = none) :
    ∃ counts drained, p.answer c.uid status payload =
      { p with xct := answeredXct p c.uid status payload, counts := counts, power := { p.power with drained := drained } } := by
  obtain ⟨counts, counted⟩ := countAnswer_eq (p.closeStreams c.uid) status
  have placed : (((p.closeStreams c.uid).countAnswer status).updCmd c.uid (fun c =>
      { c with place := .xct, status := status, payload := payload })).ordered c.uid = { p with xct := answeredXct p c.uid status payload, counts := counts } := by
    rw [counted]
    rfl
  rw [answer_host found host kept, placed]
  obtain ⟨drained, noted⟩ := noteDrain_eq { p with xct := answeredXct p c.uid status payload, counts := counts }
  exact ⟨counts, drained, noted⟩

theorem findCmd_answer (found : p.findCmd c.uid = some c) (host : c.isCall = false) (kept : c.retract = none) :
    (p.answer c.uid status payload).findCmd c.uid = some (answeredCmd p status payload c) := by
  obtain ⟨counts, drained, act⟩ := answer_host_eq (status := status) (payload := payload) found host kept
  calc (p.answer c.uid status payload).findCmd c.uid
      = (((p.closeStreams c.uid).updCmd c.uid (fun c => { c with place := .xct, status := status, payload := payload })).updCmd c.uid
          (fun c => { c with doneSeq := p.xct.nextDone, doneAt := p.now / 2 })).findCmd c.uid := by rw [act]; rfl
    _ = ((p.findCmd c.uid).map (fun c => { c with place := .xct, status := status, payload := payload })).map
          (fun c => { c with doneSeq := p.xct.nextDone, doneAt := p.now / 2 }) := by rw [findCmd_updCmd_same, findCmd_updCmd_same]; rfl
    _ = some (answeredCmd p status payload c) := by rw [found]; rfl

theorem answered_of_host {s : State} (found : p.findCmd c.uid = some c) (host : c.isCall = false) (kept : c.retract = none) :
    Answered (after s (p.answer c.uid status payload)) c.uid status payload :=
  ⟨_, findCmd_answer found host kept, rfl, rfl, rfl⟩

end

/-- Settles O2: by what answering a host's command leaves. -/
theorem answerWaitsAtXct : Obligations.AnswerWaitsAtXct := fun s c status payload found host kept => by
  obtain ⟨counts, drained, act⟩ := answer_host_eq (status := status) (payload := payload) found host kept
  refine ⟨answered_of_host found host kept, ?_, ?_⟩
  · rw [act]
  · rw [act]
    rfl

/-! ### Records while no freeze is in force (14 R377, R378) -/

/-- The recorder is not frozen, and holds nothing back. -/
structure Thawed (e : EvrUnit) : Prop where
  free : e.thawAt = none
  empty : e.hold = []
  whole : e.lost = 0

section
variable {e : EvrUnit} {p : Part}

theorem thawed_kittyWrite (h : Thawed e) (r : Rec) : Thawed (kittyWrite e r) := by
  unfold kittyWrite
  split
  · exact h
  · exact ⟨h.free, h.empty, h.whole⟩

theorem thawed_ringWrite (h : Thawed e) (r : Rec) : Thawed (ringWrite e r) := by
  unfold ringWrite
  split
  · exact ⟨h.free, h.empty, h.whole⟩
  · exact thawed_kittyWrite (e := { e with kittyOn := true }) ⟨h.free, h.empty, h.whole⟩ r

theorem thawed_ringOrHold (h : Thawed e) (r : Rec) : Thawed (ringOrHold e r) := by
  unfold ringOrHold
  split
  · exact thawed_ringWrite h r
  next frozen => exact absurd (frozen.symm.trans h.free) nofun

theorem thawed_ite {c : Prop} [Decidable c] {q r : Part} (h : Thawed q.evr) (k : Thawed r.evr) : Thawed (if c then q else r).evr := by
  split
  · exact h
  · exact k

theorem thawed_ringCopy (h : Thawed p.evr) (r : Rec) (late : Bool) : Thawed (p.ringCopy r late).evr := by
  unfold Part.ringCopy
  extract_lets lost kitty held copied counted
  have held : Thawed held.evr := thawed_ringOrHold h r
  have copied : Thawed copied.evr := thawed_ite ⟨held.free, held.empty, held.whole⟩ held
  have counted : Thawed counted.evr := thawed_ite copied copied
  exact thawed_ite counted counted

theorem thawed_copies (h : Thawed p.evr) (r : Rec) (k : Bool) : Thawed ((if k = true then p.kittyCopy r else p).ringCopy r).evr :=
  thawed_ringCopy (thawed_ite (thawed_ite h (thawed_kittyWrite h r)) h) r _

theorem evr_forwardLater (p : Part) (r : Rec) : (p.forwardLater r).evr = p.evr := by
  unfold Part.forwardLater
  split <;> rfl

theorem thawed_tookSeq (h : Thawed p.evr) (r : Rec) : Thawed (p.tookSeq.forwardLater r).evr := by
  rw [evr_forwardLater]
  exact ⟨h.free, h.empty, h.whole⟩

theorem thawed_store (h : Thawed p.evr) (r : Rec) (k : Bool) : Thawed (p.store r k).evr := by
  unfold Part.store
  have numbered := thawed_tookSeq h r
  simp only
  generalize p.tookSeq.forwardLater r = q at numbered ⊢
  refine thawed_ite ?_ (thawed_copies numbered r k)
  split
  · next s _ =>
    have pinned : ∀ full, Thawed (q.setEvr { q.evr with
        pinned := Sparse.put q.evr.pinned s { r with flags := r.flags ||| Rec.pinnedFlag }, pinPtr := s + 1, pinFull := full }).evr :=
      fun _ => ⟨numbered.free, numbered.empty, numbered.whole⟩
    exact thawed_ite (thawed_ringCopy (thawed_tookSeq (thawed_copies (pinned _) _ k) _) _ _) (thawed_copies (pinned _) _ k)
  · exact thawed_copies (p := q.bump (regAddr 0 winEVR 0x0118)) ⟨numbered.free, numbered.empty, numbered.whole⟩ r k

theorem evr_toApplets (p : Part) (hand : Nat) (n : Notice) : (p.toApplets hand n).evr = p.evr := by
  unfold Part.toApplets
  split
  · refine List.foldlRecOn (motive := fun q => q.evr = p.evr) _ _ rfl fun (q : Part) same k _ => ?_
    unfold Part.queueApplet
    simp only
    split
    · exact same
    · exact same
  · rfl

/-- A notice reaches the recorder only where house firmware takes it. -/
theorem evr_raise (p : Part) (n : Notice) (to_ : List (BitVec 32)) : ∃ house, (p.raise n to_).evr = { p.evr with house := house } := by
  unfold Part.raise
  extract_lets counted
  split
  · exact ⟨p.evr.house, rfl⟩
  · extract_lets on sess take lost told _ taken
    have told : told.evr = p.evr := by
      simp only [told, lost]
      split <;> rfl
    have taken : ∃ house, taken.evr = { p.evr with house := house } := by
      simp only [taken]
      split
      · exact ⟨_, congrArg (fun e : EvrUnit => { e with house := n :: e.house }) told⟩
      · exact ⟨_, told⟩
    split
    · rwa [evr_toApplets]
    · exact taken

theorem evr_notice (p : Part) (source : Nat) (code : BitVec 16) (sev hand : Nat) (body : Bytes) (to_ : List (BitVec 32)) :
    ∃ house, (p.notice source code sev hand body to_).evr = { p.evr with house := house } := evr_raise p _ to_

theorem thawed_create (h : Thawed p.evr) (code : BitVec 16) (sev : Nat) (flags : Byte) (die : Nat) (p1 p2 p3 : Word) (k : Bool) :
    Thawed (p.create code sev flags die p1 p2 p3 k).evr := by
  unfold Part.create
  extract_lets _ r _ q
  have stored : Thawed q.evr := thawed_store
    (p := p.setEvr { p.evr with supp := Sparse.erase p.evr.supp (Part.bucketKey die code) }) ⟨h.free, h.empty, h.whole⟩ r k
  refine thawed_ite ⟨h.free, h.empty, h.whole⟩ (thawed_ite ?_ stored)
  obtain ⟨house, e⟩ := evr_notice q 9 0x0908 4 0 (zeros 12) []
  rw [e]
  exact ⟨stored.free, stored.empty, stored.whole⟩

/-! ### Freezes and thaws (14 R377, R378) -/

theorem freeze_noted (p : Part) (session : Nat) : Noted p (p.freeze session) := (create_noted p _ _ _ _ _ _ _ _).setEvr _

theorem thawAt_freeze (p : Part) (session : Nat) : (p.freeze session).evr.thawAt = some (p.now + sec 10) :=
  congrArg (fun t => some (t + sec 10)) (create_noted p _ _ _ _ _ _ _ _).now

theorem thaw_noted (p : Part) (by_ : Nat) : Noted p (p.thaw by_) := by
  unfold Part.thaw
  split
  · exact .refl p
  · have freed := Noted.of_evr p { p.evr with thawAt := none, hold := [], lost := 0, firstLost := 0 }
    have late := freed.trans (foldl_noted (fun q (r : Rec) => q.ringCopy { r with flags := r.flags ||| Rec.lateFlag } true)
      (fun q r => ringCopy_noted q _ _) p.evr.hold _)
    exact (late.trans (.ite (.refl _) (create_noted _ _ _ _ _ _ _ _ _))).trans (create_noted _ _ _ _ _ _ _ _ _)

/-- After a thaw nothing is held back. -/
theorem thawed_thaw {t0 : Nat} (frozen : p.evr.thawAt = some t0) (by_ : Nat) : Thawed (p.thaw by_).evr := by
  unfold Part.thaw
  simp -zeta only [frozen]
  extract_lets held lost first _ freed written told
  have written : Thawed written.evr := by
    refine List.foldlRecOn (motive := fun q : Part => Thawed q.evr) _ _ ⟨rfl, rfl, rfl⟩ fun (q : Part) h r _ => ?_
    exact thawed_ringCopy h _ _
  exact thawed_create (thawed_ite written (thawed_create written _ _ _ _ _ _ _ _)) _ _ _ _ _ _ _ _

end

/-- The units that a record may change. -/
theorem keeps_of_noted {s : State} {q : Part} (h : Noted s.toPart q) :
    Keeps [.fuses, .power, .deal, .disp, .vault, .lats, .trngs, .guard, .shuffle] s (after s q) :=
  (changes_of_noted h).keeps (by decide)

/-! ### The kitty's copy of a record (14 R374, R380) -/

section
variable {p : Part}

theorem kitty_kittyWrite {e : EvrUnit} (sound : e.fatal = false) (r : Rec) :
    (kittyWrite e r).kitty = Sparse.put e.kitty e.kittyPtr { r with flags := r.flags ||| Rec.kittyFlag } := by
  unfold kittyWrite
  rw [sound]
  rfl

/-- A ring copy goes to the kitty only when no ring block is usable. -/
theorem kitty_ringOrHold {e : EvrUnit} {n : Nat} (usable : nextRing e = some n) (r : Rec) : (ringOrHold e r).kitty = e.kitty := by
  have written : (ringWrite e r).kitty = e.kitty := by
    unfold ringWrite
    rw [usable]
  unfold ringOrHold
  split
  · exact written
  · simp only [usable, Option.isNone_some, Bool.false_eq_true, if_false]
    split <;> rfl

theorem ringOrHold_unusable {e : EvrUnit} (unusable : nextRing e = none) (r : Rec) :
    ringOrHold e r = kittyWrite { e with kittyOn := true } r := by
  have written : ringWrite e r = kittyWrite { e with kittyOn := true } r := by
    unfold ringWrite
    rw [unusable]
  unfold ringOrHold
  split
  · exact written
  · rw [if_pos (by simp [unusable]), written]

theorem kitty_ringCopy (r : Rec) (late : Bool) : (p.ringCopy r late).evr.kitty = (ringOrHold p.evr r).kitty := by
  unfold Part.ringCopy
  extract_lets lost kitty held copied counted
  have copied : copied.evr.kitty = held.evr.kitty := by
    simp only [copied]
    split <;> rfl
  have counted : counted.evr.kitty = held.evr.kitty := by
    simp only [counted]
    split <;> exact copied
  split <;> exact counted

/-- A record that goes to the kitty stands at its pointer, by the kitty's copy or by the ring's. -/
theorem kitty_copies (sound : p.evr.fatal = false) (r : Rec) :
    Sparse.get? ((p.kittyCopy r).ringCopy r).evr.kitty p.evr.kittyPtr = some { r with flags := r.flags ||| Rec.kittyFlag } := by
  rw [kitty_ringCopy]
  unfold Part.kittyCopy
  cases ring : nextRing p.evr with
  | none =>
    rw [if_pos (by simp), ringOrHold_unusable ring,
      kitty_kittyWrite (e := { p.evr with kittyOn := true }) sound, Sparse.get?_put_same]
  | some n =>
    have usable : nextRing (kittyWrite p.evr r) = some n := by
      rw [← ring]
      unfold kittyWrite
      rw [sound]
      rfl
    rw [if_neg (by simp [sound]), Part.bump, Part.setEvr, kitty_ringOrHold usable, kitty_kittyWrite sound, Sparse.get?_put_same]

/-- The record of TIME_ANNOTATE and its like: created for ring and kitty, at the severity 0 that pins nothing. -/
theorem kitty_create (room : p.evr.seq ≠ 2 ^ 48 - 1) (sound : p.evr.fatal = false) (code : BitVec 16) (die : Nat) (p1 p2 p3 : Word) :
    ∃ r, Sparse.get? (p.create code 0 0 die p1 p2 p3 true).evr.kitty p.evr.kittyPtr = some r ∧ r.code = code ∧ r.seq = p.evr.seq ∧ r.p3 = p3 := by
  unfold Part.create
  rw [if_neg room]
  extract_lets r _ q
  refine ⟨{ r with flags := r.flags ||| Rec.kittyFlag }, ?_, rfl, rfl, rfl⟩
  have stored : Sparse.get? q.evr.kitty p.evr.kittyPtr = some { r with flags := r.flags ||| Rec.kittyFlag } := by
    have low : ¬ 3 ≤ r.sev := (by decide : ¬ 3 ≤ (((BitVec.ofNat 8 0 ||| 0 : Byte) &&& 0x07).toNat))
    let numbered := (p.setEvr { p.evr with supp := Sparse.erase p.evr.supp (Part.bucketKey die code) }).tookSeq
    have evr : (numbered.forwardLater r).evr = numbered.evr := evr_forwardLater numbered r
    have written := kitty_copies (p := numbered.forwardLater r) (by rw [evr]; exact sound) r
    rw [congrArg EvrUnit.kittyPtr evr] at written
    simp only [q, Part.store]
    rw [if_neg low]
    exact written
  split
  · obtain ⟨house, e⟩ := evr_notice q 9 0x0908 4 0 (zeros 12) []
    rw [e]
    exact stored
  · exact stored

end

/-! ### The recorder's rows (14 R371, R377 to R380; 03 R89) -/

theorem freezeTimeout_next {s : State} {t0 : Nat} (on : s.power.on = true) (frozen : s.evr.thawAt = some t0) :
    exec .freezeTimeout s = .next (after s ((s.toPart.atTime t0).thaw 1)) := by
  change execFreezeTimeout s = _
  rw [execFreezeTimeout, powered_on on]
  simp only [frozen]

/-- The kept notices of a session from a sequence on, in order (R89). -/
def keptFrom (x : Session) (seq : BitVec 32) : List SentNotice := (x.kept.filter (fun n => (n.seq - seq).toNat < 2 ^ 31)).reverse

/-- Whether notices from a sequence on are kept no longer. -/
def keptGap (x : Session) (seq : BitVec 32) : Byte :=
  if x.kept.getLast?.any (fun n => decide (1 ≤ (n.seq - seq).toNat) && decide ((n.seq - seq).toNat < 2 ^ 31)) = true then 1 else 0

/-- The part once notices went again: they are counted, where there are any. -/
def resent (p : Part) (again : List SentNotice) : Part := if again = [] then p else p.bump (regAddr 0 winXCT 0x0148) again.length

theorem resent_eq (p : Part) (again : List SentNotice) : resent p again = { p with counts := (resent p again).counts } := by
  unfold resent
  split <;> rfl

theorem noticeResend_next {s : State} {o : Origin} {b : Bytes} {c : Cmd} {x : Session} (ready : Ready s o 0x9201 b c)
    (found : c.session?.bind s.findSession = some x) (len : b.length = 4) :
    exec (.noticeResend o b) s = .next (after s ((resent s.toPart (keptFrom x (BitVec.ofNat 32 (field b 0 4)))).answer c.uid Status.done
      ([keptGap x (BitVec.ofNat 32 (field b 0 4))] ++
        (keptFrom x (BitVec.ofNat 32 (field b 0 4))).flatMap (fun n => n.notice.bytes n.seq)))) := by
  refine (powered_serve ready _).trans ?_
  simp only [found]
  rw [ready.block, if_neg (not_not.2 len)]
  unfold keptGap
  cases x.kept.getLast? with
  | none => rfl
  | some n => rfl

/-- Settles O39: a read and a resend answer what they find; the others are acts of the recorder, which change what a record may. -/
theorem recorderRowsAct : Obligations.RecorderRowsAct := by
  refine ⟨fun s o c b ready len area reserved some_ most => ?_, fun s o c ready => ?_, fun s o c t0 ready frozen => ?_,
    fun s o c b ready len ns reserved => ?_, fun s on => ?_, fun s t0 on frozen => ?_, fun s t0 on frozen => ?_, fun s on => ?_,
    fun s o c b x ready found len => ?_⟩
  · refine (powered_house ready _).trans ?_
    rw [ready.block, if_neg (by omega)]
  · refine ⟨_, (powered_house ready _).trans (by rw [if_neg (not_not.2 ready.block)]), thawAt_freeze _ _, keeps_of_noted (freeze_noted _ _)⟩
  · have thawed := thawed_thaw frozen 0
    exact ⟨_, (powered_house ready _).trans (by rw [if_neg (not_not.2 ready.block)]), thawed.free, thawed.empty, thawed.whole,
      keeps_of_noted (thaw_noted _ _)⟩
  · refine ⟨_, (powered_house ready _).trans (by rw [ready.block, if_neg (by omega)]), fun room sound => ?_, keeps_of_noted (create_noted _ _ _ _ _ _ _ _ _)⟩
    exact kitty_create (by omega) sound _ _ _ _ _
  · exact ⟨_, powered_on on (fun p => p.freeze 0), thawAt_freeze _ _, keeps_of_noted (freeze_noted _ _)⟩
  · have thawed := thawed_thaw frozen 2
    exact ⟨_, powered_on on (fun p => p.thaw 2), thawed.free, thawed.empty, keeps_of_noted (thaw_noted _ _)⟩
  · refine ⟨_, freezeTimeout_next on frozen, ?_⟩
    have frozen' : (s.toPart.atTime t0).evr.thawAt = some t0 := frozen
    have thawed := thawed_thaw frozen' 1
    have noted := thaw_noted (s.toPart.atTime t0) 1
    exact ⟨thawed.free, thawed.empty, noted.now, ((changes_now _ _).trans (changes_of_noted noted)).keeps (by decide)⟩
  · exact powered_on on (fun p => p.setEvr { p.evr with opSaved := p.optime })
  · exact ⟨_, _, noticeResend_next ready found len, resent_eq _ _, rfl⟩

/-! ### Frames that leave while Shuffle is not armed (03 R63 to R66, R80, R81) -/

/-- A session once its next frame has left, which took sequence n; the last one closes it (R81). -/
def numbered (n now : Nat) (x : Session) : Session :=
  if n = 2 ^ 64 - 1 then { x with seqOut := n, st := .closing, closingAt := now } else { x with seqOut := n }

@[simp] theorem id_numbered (n now : Nat) (x : Session) : (numbered n now x).id = x.id := by
  unfold numbered
  split <;> rfl

theorem numbered_of_lt {n now : Nat} {x : Session} (h : n < 2 ^ 64 - 1) : numbered n now x = { x with seqOut := n } := if_neg (by omega)

theorem findSession_of_sessions {p q : Part} (same : q.xct.sessions = p.xct.sessions) (id : BitVec 32) : q.findSession id = p.findSession id := by
  unfold Part.findSession
  rw [same]

theorem findSession_updSession {p : Part} {id : BitVec 32} {x : Session} {f : Session → Session} (found : p.findSession id = some x)
    (keepsId : ∀ x, (f x).id = x.id) : (p.updSession id f).findSession id = some (f x) := by
  rw [findSession_updSession_same p keepsId, found, Option.map_some]

/-- The next frame of a session, as it leaves. -/
def nextFrame (x : Session) (id : BitVec 32) (request : BitVec 64) (code : Nat) (status : BitVec 16) (payload : Bytes) (path : Path) : OutFrame :=
  frameOut path (if x.sealOn && x.st != .offered then some x.keyOut else none) x.hand id (x.seqOut + 1) request code status payload

theorem within_updSession (p : Part) (id : BitVec 32) (f : Session → Session) : Within [.xct] p (p.updSession id f) := within_xct p _

theorem within_setEvr (p : Part) (e : EvrUnit) : Within [.evr] p (p.setEvr e) :=
  ⟨fun u hu => by cases u <;> simp_all [Unit_.Same, Part.setEvr, after], rfl⟩

theorem within_tx (p : Part) (l : List OutFrame) : Within [] p { p with tx := l } := ⟨fun u _ => by cases u <;> simp [Unit_.Same, after], rfl⟩

section
variable {p : Part} {id : BitVec 32} {x : Session} {request : BitVec 64} {code : Nat} {status : BitVec 16} {payload : Bytes} {path : Path}

theorem shufflesHost_off (off : p.shuffle.en = false) (dir : Nat) (x : Session) : p.shufflesHost dir x = false := by
  simp [Part.shufflesHost, off]

theorem emit_off (found : p.findSession id = some x) (off : p.shuffle.en = false) : p.emit id request code status payload path =
    { p.updSession id (numbered (x.seqOut + 1) p.now) with tx := nextFrame x id request code status payload path :: p.tx } := by
  unfold Part.emit
  simp only [found]
  rw [if_neg]
  · rfl
  · exact ne_true_of_eq_false (shufflesHost_off (p := p.updSession id _) off 3 x)

theorem cmds_emit_off (found : p.findSession id = some x) (off : p.shuffle.en = false) :
    (p.emit id request code status payload path).xct.cmds = p.xct.cmds := by
  rw [emit_off found off]
  rfl

theorem findCmd_of_cmds {p q : Part} (same : q.xct.cmds = p.xct.cmds) (uid : Nat) : q.findCmd uid = p.findCmd uid := by
  unfold Part.findCmd
  rw [same]

theorem within_emit_off (off : p.shuffle.en = false) : Within [.xct] p (p.emit id request code status payload path) := by
  cases found : p.findSession id with
  | none =>
    unfold Part.emit
    simp only [found]
    exact .refl
  | some x =>
    rw [emit_off found off]
    exact (within_updSession p _ _).next (within_tx _ _)

theorem findSession_emit_off (found : p.findSession id = some x) (off : p.shuffle.en = false) :
    (p.emit id request code status payload path).findSession id = some (numbered (x.seqOut + 1) p.now x) := by
  rw [emit_off found off]
  exact findSession_updSession found (id_numbered _ _)

/-- A session that stays open after a response has left is not settled. -/
theorem settleSession_open (found : p.findSession id = some x) (isOpen : x.st = .open_) : p.settleSession id = p := by
  unfold Part.settleSession
  simp only [found]
  rw [if_neg (by simp [isOpen])]

end

/-! ### Frames in (03 R61 to R70, R80, R81) -/

section
variable {p : Part} {a : Arrival} {frame body : Bytes} {x : Session}

theorem within_hpCount (p : Part) (h : Half) (offset n : Nat) : Within [.counts] p (p.hpCount h offset n) := within_bump p _ _

/-- q is p but for its counts. -/
def Counted (p q : Part) : Prop := ∃ counts, q = { p with counts := counts }

namespace Counted

variable {q r : Part}

theorem refl (p : Part) : Counted p p := ⟨p.counts, rfl⟩

theorem hpCount (counted : Counted p q) (h : Half) (offset n : Nat) : Counted p (q.hpCount h offset n) := by
  obtain ⟨counts, rfl⟩ := counted
  exact ⟨_, rfl⟩

theorem ite {c : Prop} [Decidable c] (h : Counted p q) (k : Counted p r) : Counted p (if c then q else r) := by
  split
  · exact h
  · exact k

theorem fst_ite {α : Type} {c : Prop} [Decidable c] {q r : Part × α} (h : Counted p q.1) (k : Counted p r.1) : Counted p (if c then q else r).1 := by
  split
  · exact h
  · exact k

theorem within (counted : Counted p q) : Within [.counts] p q := by
  obtain ⟨counts, rfl⟩ := counted
  exact ⟨changes_counts p counts, rfl⟩

end Counted

/-- The checks of a port only count. -/
theorem counted_portChecks (p : Part) (a : Arrival) (len : Nat) : Counted p (p.portChecks a len).1 := by
  unfold Part.portChecks
  extract_lets h corrected repaired
  have corrected : Counted p corrected := .ite (.refl p) ((Counted.refl p).hpCount _ _ _)
  have repaired : Counted p repaired := .ite corrected (corrected.hpCount _ _ _)
  have counted (o : Nat) : Counted p (Part.hpCount _ a.half o) := repaired.hpCount _ _ _
  exact .fst_ite (.refl p) (.fst_ite (counted _) (.fst_ite repaired (.fst_ite (counted _) (.fst_ite (counted _) (.fst_ite (counted _)
    (.fst_ite repaired (.fst_ite (counted _) repaired)))))))

theorem within_portChecks (p : Part) (a : Arrival) (len : Nat) : Within [.counts] p (p.portChecks a len).1 := (counted_portChecks p a len).within

theorem changes_inCycle (p : Part) (h : Half) : ChangesOnly [.xct] p (p.inCycle h) := by
  unfold Part.inCycle
  extract_lets late q
  have waited : ChangesOnly [] p q := by
    unfold q
    split
    · exact changes_now p _
    · exact .refl p
  exact waited.trans (changes_xct q _)

theorem sessions_inCycle (p : Part) (h : Half) : (p.inCycle h).xct.sessions = p.xct.sessions := by
  unfold Part.inCycle
  extract_lets late q
  show q.xct.sessions = _
  unfold q
  split <;> rfl

/-- A frame that its port lets through reaches XCT, in its Dealer cycle. -/
theorem receive_ok (ok : (p.portChecks a frame.length).2 = true) (free : p.guard.dealerHold = none) :
    p.receive a frame = ((p.portChecks a frame.length).1.inCycle a.half).arrive a frame := by
  have kept : (p.portChecks a frame.length).1.guard = p.guard := (within_portChecks p a _).units .guard (by decide)
  unfold Part.receive
  simp [ok, kept, free, Part.intoXct]

/-- A session once it has accepted a frame of this sequence on this path (R81, R63). -/
def framed (high seq now : Nat) (path : Path) (x : Session) : Session :=
  { x with seqIn := high, seen := (seq :: x.seen).filter (fun s => high < s + x.window), path := path, lastAt := now }

/-- The part once a session has accepted a frame. -/
def framedPart (p : Part) (a : Arrival) (x : Session) (seq : Nat) : Part :=
  p.updSession x.id (framed (max x.seqIn seq) seq p.now (Part.pathOf a))

theorem sessionFrame_open {h : Header} (opens : Part.openFrame x h frame a.secTag = some body) (next : Part.seqOk x h.seq = true)
    (last : h.seq < 2 ^ 64 - 1) : p.sessionFrame a x h frame = (framedPart p a x h.seq).takeFrame x h (Part.pathOf a) body := by
  unfold Part.sessionFrame
  simp only [opens]
  rw [if_neg (by simp [next]), if_neg (by omega)]
  rfl

/-- What opens a frame without MACsec is its seal. -/
theorem sealed_of_openFrame {h : Header} (opens : Part.openFrame x h frame a.secTag = some body) (plain : a.secTag = false) : h.sealed_ = true := by
  unfold Part.openFrame at opens
  extract_lets b at opens
  by_contra unsealed
  simp [plain, unsealed] at opens

/-- A frame of a session past its handshake goes to its session. -/
theorem arrive_session (off : p.shuffle.en = false) (long : 32 ≤ frame.length) (readable : (headerOf frame).readable = true)
    (named : (headerOf frame).session ≠ 0) (found : p.findSession (headerOf frame).session = some x) (past : x.st ≠ .offered)
    (opens : Part.openFrame x (headerOf frame) frame a.secTag = some body) : p.arrive a frame = p.sessionFrame a x (headerOf frame) frame := by
  unfold Part.arrive
  simp only [found]
  rw [if_neg (by simp [shufflesHost_off off])]
  unfold Part.xctFrame
  extract_lets h body' shake fault
  rw [if_neg (by simp [h, long, readable]), if_neg ?_, if_neg named]
  · simp only [h, found]
    rw [if_neg (by simp [past])]
  · rintro ⟨plain, -, unsealed⟩
    rw [sealed_of_openFrame opens plain] at unsealed
    contradiction

/-- A frame of one command carries it to the checks of R82. -/
theorem takeFrame_single {h : Header} {y : Session} {path : Path} (whole : h.plen = body.length) (lone : h.segment = false) (alone : h.bundle = false)
    (command : h.code ≠ 0x1005) (zero : h.status = 0) (found : p.findSession x.id = some y) :
    p.takeFrame x h path body = p.accept y h.hand h.ordered path h.code h.request body := by
  unfold Part.takeFrame
  simp [whole, lone, alone, command, zero, found]

/-- A bundle of entries with status 0 carries each of them to the checks of R82, in their order. -/
theorem takeFrame_bundle {h : Header} {path : Path} {l : List Entry} (whole : h.plen = body.length) (lone : h.segment = false)
    (bundle : h.bundle = true) (zero : h.status = 0) (entries : bundleOf h.request body = some l) (zeros : l.all (fun e => e.status == 0) = true) :
    p.takeFrame x h path body = l.foldl (fun q e => match q.findSession x.id with
      | some z => q.accept z h.hand h.ordered path e.code e.request e.payload
      | none => q) p := by
  unfold Part.takeFrame
  extract_lets mismatch
  rw [if_neg (by simp [whole]), if_neg (by simp [lone]), if_neg (by simp [bundle]), if_neg (by simp [zero]), if_pos bundle]
  simp only [entries]
  refine List.foldl_ext _ _ _ fun q e mem => ?_
  have zero : e.status = 0 := by simpa using List.all_eq_true.1 zeros e mem
  exact (if_neg (by simp [zero])).trans rfl

/-- What the ports and their cycle leave when a frame goes to XCT. -/
theorem ingress_keeps (s : State) (a : Arrival) (len : Nat) (h : Half) : ((s.portChecks a len).1.inCycle h).xct.sessions = s.xct.sessions ∧
    ((s.portChecks a len).1.inCycle h).shuffle = s.shuffle := by
  have counted := (within_portChecks s.toPart a len).units
  have timed := changes_inCycle (s.portChecks a len).1 h
  exact ⟨(sessions_inCycle _ _).trans (congrArg _ (counted.xct (by decide))), (timed .shuffle (by decide)).trans (counted .shuffle (by decide))⟩

/-- A frame that passes R80 and R81 is accepted on its session, and its commands go to the checks of R82. -/
theorem receive_session {s : State} (on : s.power.on = true) (free : s.guard.dealerHold = none) (ok : (s.portChecks a frame.length).2 = true)
    (off : s.shuffle.en = false) (long : 32 ≤ frame.length) (readable : (headerOf frame).readable = true) (named : (headerOf frame).session ≠ 0)
    (found : s.findSession (headerOf frame).session = some x) (past : x.st ≠ .offered)
    (opens : Part.openFrame x (headerOf frame) frame a.secTag = some body) (next : Part.seqOk x (headerOf frame).seq = true)
    (last : (headerOf frame).seq < 2 ^ 64 - 1) :
    exec (.hostFrameReceive a frame) s = .next (after s ((framedPart ((s.portChecks a frame.length).1.inCycle a.half) a x (headerOf frame).seq).takeFrame
      x (headerOf frame) (Part.pathOf a) body)) := by
  obtain ⟨sessions, shuffle⟩ := ingress_keeps s a frame.length a.half
  have found : ((s.portChecks a frame.length).1.inCycle a.half).findSession (headerOf frame).session = some x := by
    rw [← found]
    exact congrArg (List.find? _) sessions
  have off : ((s.portChecks a frame.length).1.inCycle a.half).shuffle.en = false := by rw [shuffle, off]
  change powered s (fun p => p.receive a frame) = _
  rw [powered_on on, receive_ok ok free, arrive_session off long readable named found past opens, sessionFrame_open opens next last]

theorem findSession_framedPart {seq : Nat} (found : p.findSession x.id = some x) :
    (framedPart p a x seq).findSession x.id = some (framed (max x.seqIn seq) seq p.now (Part.pathOf a) x) :=
  findSession_updSession found fun _ => rfl

end

/-! ### Main power stays on while a command arrives -/

section
variable (p : Part)

theorem on_of_within {l : List Unit_} {q : Part} (h : Within l p q) (apart : Unit_.power ∉ l) : q.power.on = p.power.on :=
  congrArg Power.on (h.units .power apart)

theorem on_ite {c : Prop} [Decidable c] {q r : Part} {b : Bool} (h : q.power.on = b) (k : r.power.on = b) :
    (if c then q else r).power.on = b := by
  split
  · exact h
  · exact k

@[simp] theorem on_noteDrain : p.noteDrain.power.on = p.power.on := by
  obtain ⟨drained, noted⟩ := noteDrain_eq p
  rw [noted]

@[simp] theorem on_countAnswer (st : BitVec 16) : (p.countAnswer st).power.on = p.power.on := on_of_within p (within_countAnswer p st) (by decide)

@[simp] theorem on_wakeTrigger (why : Nat) : (p.wakeTrigger why).power.on = p.power.on := by
  unfold Part.wakeTrigger
  split <;> rfl

@[simp] theorem on_openStreams (x : Session) (uid : Nat) (l : List (Nat × Bool × Option Nat)) : (p.openStreams x uid l).power.on = p.power.on := by
  obtain ⟨streams, opened⟩ := openStreams_eq (p := p) (x := x) uid l
  rw [opened]
  rfl

@[simp] theorem on_sendRetract (uid : Nat) (st : BitVec 16) : (p.sendRetract uid st).power.on = p.power.on := by
  unfold Part.sendRetract
  split
  · rfl
  · split
    · rfl
    · split
      · rfl
      · exact congrArg Power.on ((record_noted _ _ _ _ _ _ _).trans (notice_noted _ _ _ _ _ _ _)).power

theorem within_exited (n k : Nat) : Within [.xct, .seats] p (p.finishExit n k) := by
  unfold Part.finishExit
  simp only
  split
  · exact ((Within.refl.next (within_updCmd p _ _)).next (within_ordered _ _)).next (within_seats _ _)
  · exact .refl

@[simp] theorem on_deliverCall (uid n k : Nat) (d : BitVec 32) (st : BitVec 16) (b : Bytes) : (p.deliverCall uid n k d st b).power.on = p.power.on := by
  have dropped : ((p.closeStreams uid).dropCmd uid).noteDrain.power.on = p.power.on := on_noteDrain _
  unfold Part.deliverCall
  simp only
  refine on_ite ?_ dropped
  exact (on_of_within (l := [.xct, .seats]) _ (((((((Within.refl.next (within_guardedWrite _ _ _ _ _ _)).next (within_touch _ _ _ _ _)).next
    (within_guardedWrite _ _ _ _ _ _)).next (within_guardedWrite _ _ _ _ _ _)).next (within_guardedWrite _ _ _ _ _ _)).next
    (within_updCore _ _ _ _)).next (within_exited _ _ _)) (by decide)).trans dropped

@[simp] theorem on_answer (uid : Nat) (st : BitVec 16) (b : Bytes) : (p.answer uid st b).power.on = p.power.on := by
  unfold Part.answer
  extract_lets q
  have sent : q.power.on = p.power.on := on_sendRetract p uid st
  split
  · exact sent
  · split
    · rw [on_noteDrain]
      exact (on_countAnswer (q.closeStreams uid) st).trans sent
    · exact (on_deliverCall _ _ _ _ _ _ _).trans sent

@[simp] theorem on_accept (x : Session) (hand : Nat) (o : Bool) (w : Path) (code : Nat) (r : BitVec 64) (b : Bytes) :
    (p.accept x hand o w code r b).power.on = p.power.on := by
  unfold Part.accept
  extract_lets req back first high noted
  have back (st : BitVec 16) (pl : Bytes) : (back st pl).power.on = p.power.on := on_countAnswer p st
  have entered : (noted.enter (.host x.id r) x.hand code b o w).1.power.on = p.power.on := rfl
  clear_value first
  refine on_ite (back _ _) (on_ite (back _ _) (on_ite (back _ _) (on_ite (back _ _) (on_ite (back _ _) (on_ite (back _ _) ?_)))))
  split
  · exact on_ite rfl (on_ite (on_wakeTrigger _ _) rfl)
  · simp only
    split
    · exact (on_answer _ _ _ _).trans entered
    · exact (on_openStreams _ _ _ _).trans entered

@[simp] theorem on_placeCall (n k : Nat) (d : BitVec 32) (code : Nat) (b : Bytes) : (p.placeCall n k d code b).power.on = p.power.on := by
  have called {q : Part} (h : q.power.on = p.power.on) (u : Nat) (st : BitVec 16) (pl : Bytes) : (q.deliverCall u n k d st pl).power.on = p.power.on :=
    (on_deliverCall q _ _ _ _ _ _).trans h
  unfold Part.placeCall
  simp only
  refine on_ite rfl (on_ite (called (by rfl) _ _ _) (on_ite (called (by rfl) _ _ _) (on_ite (called (by rfl) _ _ _) (on_ite (called (by rfl) _ _ _) ?_))))
  split
  · exact called (by rfl) _ _ _
  · exact on_ite rfl rfl

theorem on_arrived (o : Origin) (code : Nat) (b : Bytes) : (arrived p o code b).power.on = p.power.on := by
  unfold arrived
  split
  · split
    · rfl
    · exact on_accept _ _ _ _ _ _ _ _
  · exact on_placeCall _ _ _ _ _ _

end

/-! ### A Dealer command that arrives as its row serves it (log 6) -/

/-- Each Dealer row serves the command of its code. -/
theorem dealerRow_serves : ∀ e ∈ dealerRows, ∃ g : Origin → Bytes → Part → Cmd → Part, ∀ o b s,
    exec (e.2 o b) s = powered s (fun p => p.serve o e.1 b (g o b)) := by
  simp only [dealerRows, List.forall_mem_cons]
  repeat' apply And.intro
  case right => simp
  all_goals exact ⟨_, fun o b s => rfl⟩

/-- A row that serves a command which is not accepted yet serves it as an accepted one, once it has arrived. -/
theorem serve_arrived {p : Part} {o : Origin} {code : Nat} {b : Bytes} {c : Cmd} (f : Part → Cmd → Part) (absent : p.findRow o code = none)
    (there : (arrived p o code b).findRow o code = some c) : p.serve o code b f = (arrived p o code b).serve o code b f := by
  unfold Part.serve
  simp only [absent, there]
  change (match (arrived p o code b).findRow o code with
    | none => arrived p o code b
    | some c => if (arrived p o code b).isHead c && (arrived p o code b).guard.dealerHold.isNone then f (arrived p o code b) c else arrived p o code b) = _
  rw [there]

/-! ### Outcomes and notices out (03 R85, R88, R89) -/

section
variable {p : Part} {x : Session} {c : Cmd}

theorem within_arbServe (p : Part) (resource source : Nat) : Within [.disp] p (p.arbServe resource source) := within_disp p _

/-- No RETRACT notice waits to go ahead of the response. -/
theorem sendWaiting_none (found : p.findSession x.id = some x) (none_ : x.waiting.any (fun w => w.code == 0x0330) = false) : p.sendWaiting x.id = p := by
  unfold Part.sendWaiting
  rw [found]
  show Part.sendRetracts x.waiting.length p x.id = p
  cases x.waiting.length with
  | zero => rfl
  | succ n =>
    unfold Part.sendRetracts
    rw [found]
    exact if_neg (by simp only [none_, Bool.false_and, Bool.false_eq_true, not_false_eq_true])

/-- The session once a response has left: the replay window keeps its status (R82), unless it was turned away (16 R424). -/
def credited (c : Cmd) (x : Session) : Session :=
  { x with recorded :=
      if c.status = Status.busyDraining ∧ c.code ≠ 0x1303 ∧ c.code ≠ 0x1201 then x.recorded.filter (fun e => !(e.1 == c.request.toNat))
      else x.recorded.map (fun e => if e.1 = c.request.toNat then (c.request.toNat, some c.status) else e) }

/-- The part once a response's credit has returned. -/
def creditedPart (p : Part) (c : Cmd) (x : Session) : Part := (p.dropCmd c.uid).updSession x.id (credited c)

theorem findSession_creditedPart (found : p.findSession x.id = some x) : (creditedPart p c x).findSession x.id = some (credited c x) :=
  findSession_updSession ((findSession_of_sessions (q := p.dropCmd c.uid) rfl x.id).trans found) fun _ => rfl

/-- A frame that is not the session's last leaves it open, to be settled later. -/
theorem emit_settled {y : Session} {request : BitVec 64} {code : Nat} {status : BitVec 16} {payload : Bytes} {path : Path}
    (found : p.findSession x.id = some y) (isOpen : y.st = .open_) (room : y.seqOut < 2 ^ 64 - 2) (off : p.shuffle.en = false) :
    (p.emit x.id request code status payload path).settleSession x.id = p.emit x.id request code status payload path :=
  settleSession_open (findSession_emit_off found off) (by rw [numbered_of_lt (by omega)]; exact isOpen)

theorem tx_emit_off {y : Session} {id : BitVec 32} {request : BitVec 64} {code : Nat} {status : BitVec 16} {payload : Bytes} {path : Path}
    (found : p.findSession id = some y) (off : p.shuffle.en = false) :
    (p.emit id request code status payload path).tx = nextFrame y id request code status payload path :: p.tx := by
  rw [emit_off found off]

theorem sendResponse_open (found : p.findSession x.id = some x) (isOpen : x.st = .open_) (room : x.seqOut < 2 ^ 64 - 2) (off : p.shuffle.en = false) :
    p.sendResponse c x = (creditedPart p c x).emit x.id c.request c.code c.status c.payload c.path :=
  emit_settled (findSession_creditedPart found) isOpen room off

theorem findCmd_dropCmd (p : Part) (uid : Nat) : (p.dropCmd uid).findCmd uid = none := by
  simp [Part.findCmd, Part.dropCmd, Part.setCmds]

/-- The part once the response to an answered command has left, under its turn at the response path (R85, R108). -/
def respondedPart (p : Part) (c : Cmd) (x : Session) : Part :=
  (creditedPart (p.arbServe 1 (Part.readyCmd c).source) c x).emit x.id c.request c.code c.status c.payload c.path

theorem findSession_served (found : p.findSession x.id = some x) :
    (creditedPart (p.arbServe 1 (Part.readyCmd c).source) c x).findSession x.id = some (credited c x) :=
  findSession_creditedPart ((findSession_of_sessions rfl x.id).trans found)

theorem off_served (off : p.shuffle.en = false) : (creditedPart (p.arbServe 1 (Part.readyCmd c).source) c x).shuffle.en = false := off

theorem tx_respondedPart (found : p.findSession x.id = some x) (off : p.shuffle.en = false) :
    (respondedPart p c x).tx = nextFrame (credited c x) x.id c.request c.code c.status c.payload c.path :: p.tx :=
  tx_emit_off (findSession_served found) (off_served off)

theorem findCmd_respondedPart (found : p.findSession x.id = some x) (off : p.shuffle.en = false) : (respondedPart p c x).findCmd c.uid = none := by
  refine (findCmd_of_cmds (cmds_emit_off (findSession_served found) (off_served off)) c.uid).trans ?_
  exact findCmd_dropCmd (p.arbServe 1 (Part.readyCmd c).source) c.uid

theorem within_respondedPart (off : p.shuffle.en = false) : Within [.xct, .disp] p (respondedPart p c x) := by
  have credit : Within [.xct, .disp] p (creditedPart (p.arbServe 1 (Part.readyCmd c).source) c x) :=
    ((Within.refl.next (within_arbServe p _ _)).next (within_dropCmd _ _)).next (within_updSession _ _ _)
  exact credit.next (within_emit_off off)

/-- The answered command's response leaves, and its credit returns. -/
theorem responseSend_cmd {s : State} {req : BitVec 64} (on : s.power.on = true) (off : s.shuffle.en = false)
    (alone : s.xct.replies.find? (fun r => r.session = x.id ∧ r.request = req) = none)
    (waits : s.xct.cmds.find? (fun c => c.origin = .host x.id req ∧ c.place = .xct) = some c) (found : s.findSession x.id = some x)
    (isOpen : x.st = .open_) (room : x.seqOut < 2 ^ 64 - 2) (turn : s.mayLeave (Part.readyCmd c) = true)
    (none_ : x.waiting.any (fun w => w.code == 0x0330) = false) :
    exec (.responseSend x.id req) s = .next (after s (respondedPart s.toPart c x)) := by
  have served : (s.arbServe 1 (Part.readyCmd c).source).findSession x.id = some x := found
  change powered s (fun p => p.sendReply x.id req) = _
  rw [powered_on on]
  unfold Part.sendReply
  simp only [alone, waits, found]
  rw [if_pos turn, sendWaiting_none served none_, sendResponse_open served isOpen room off]
  rfl

/-- The part once a refusal that waited has its turn. -/
def turned (p : Part) (r : Reply) : Part :=
  { p.arbServe 1 (halfIndex r.half) with xct := { p.xct with replies := p.xct.replies.erase r } }

/-- The part once a refusal has left. -/
def refusedPart (p : Part) (r : Reply) (x : Session) : Part := (turned p r).emit x.id r.request r.code r.status r.payload r.path

theorem tx_refusedPart {r : Reply} (found : p.findSession x.id = some x) (off : p.shuffle.en = false) :
    (refusedPart p r x).tx = nextFrame x x.id r.request r.code r.status r.payload r.path :: p.tx := tx_emit_off (p := turned p r) found off

theorem replies_refusedPart {r : Reply} (found : p.findSession x.id = some x) (off : p.shuffle.en = false) :
    (refusedPart p r x).xct.replies = p.xct.replies.erase r := by
  unfold refusedPart
  rw [emit_off (p := turned p r) found off]
  rfl

theorem within_refusedPart {r : Reply} (off : p.shuffle.en = false) : Within [.xct, .disp] p (refusedPart p r x) := by
  have served : Within [.xct, .disp] p (turned p r) := (Within.refl.next (within_arbServe p _ _)).next (within_xct _ _)
  exact served.next (within_emit_off off)

/-- A refusal that waits on an open session leaves. -/
theorem responseSend_reply {s : State} {r : Reply} (on : s.power.on = true) (off : s.shuffle.en = false)
    (waits : s.xct.replies.find? (fun e => e.session = x.id ∧ e.request = r.request) = some r) (framed : r.bare = false)
    (found : s.findSession x.id = some x) (isOpen : x.st = .open_) (room : x.seqOut < 2 ^ 64 - 2) (turn : s.mayLeave (Part.readyReply r) = true) :
    exec (.responseSend x.id r.request) s = .next (after s (refusedPart s.toPart r x)) := by
  change powered s (fun p => p.sendReply x.id r.request) = _
  rw [powered_on on]
  unfold Part.sendReply
  simp only [waits]
  rw [if_pos turn, if_neg (by simp [framed])]
  exact congrArg (fun q => Host.Outcome.next (after s q)) (emit_settled (p := turned s.toPart r) found isOpen room off)

/-- With its reserve in the budget, a notice's token is taken from the recorder's unit (14 R389). -/
theorem takeBudget_some {sev : Nat} (budget : Part.reserve sev * tokenUnit ≤ refilled p.evr.budget 4000000 4000 p.now) :
    ∃ e, p.takeBudget sev = some (p.setEvr e) := ⟨_, if_pos budget⟩

/-- A notice under the session's next sequence. -/
def sentNotice (x : Session) (n : Notice) : SentNotice := { seq := x.noticeSeq + 1, notice := n }

/-- The session once it has numbered a notice, which it keeps (R89). -/
def keepNotice (sn : SentNotice) (x : Session) : Session := { x with noticeSeq := x.noticeSeq + 1, kept := (sn :: x.kept).take 64 }

/-- The part once a notice of a session has its number, and its token is taken. -/
def noticePart (p : Part) (e : EvrUnit) (x : Session) (n : Notice) : Part :=
  ((p.setEvr e).updSession x.id (keepNotice (sentNotice x n))).bump (regAddr 0 winXCT 0x0148)

/-- One step of numbering notices. The severity is split because the kernel, where it compares the two sides, computes the reserve of a severity times
the tokens' unit, which it can do once the severity is a numeral or past the last of them. -/
theorem numberNotices_cons (p : Part) (id : BitVec 32) (n : Notice) (r : List Notice) : p.numberNotices id (n :: r) =
    (match p.takeBudget n.sev, p.findSession id with
    | some q, some x =>
      let sent := ((q.updSession id (keepNotice (sentNotice x n))).bump (regAddr 0 winXCT 0x0148)).numberNotices id r
      (sent.1, sentNotice x n :: sent.2)
    | _, _ => (p.bump (regAddr 0 winNTC 0x0108)).numberNotices id r) := by
  obtain ⟨source, code, sev, hand, optime, body⟩ := n
  match sev with
  | 0 => rfl
  | 1 => rfl
  | 2 => rfl
  | 3 => rfl
  | k + 4 => rfl

theorem within_noticePart (p : Part) (e : EvrUnit) (x : Session) (n : Notice) : Within [.xct, .evr, .counts] p (noticePart p e x n) :=
  ((Within.refl.next (within_setEvr p e)).next (within_updSession _ _ _)).next (within_bump _ _ _)

theorem numberNotices_single {e : EvrUnit} {n : Notice} (found : p.findSession x.id = some x) (budget : p.takeBudget n.sev = some (p.setEvr e)) :
    p.numberNotices x.id [n] = (noticePart p e x n, [sentNotice x n]) := by
  simp only [numberNotices_cons, budget, found]
  rfl

/-- The session once its waiting notices are on their way. -/
def drained (x : Session) : Session := { x with waiting := x.waiting.drop 32 }

theorem findSession_noticePart {e : EvrUnit} {n : Notice} (found : p.findSession x.id = some x) :
    (noticePart (p.updSession x.id drained) e (drained x) n).findSession x.id = some (keepNotice (sentNotice (drained x) n) (drained x)) := by
  have found : (p.updSession x.id drained).findSession x.id = some (drained x) := findSession_updSession found fun _ => rfl
  have found : ((p.updSession x.id drained).setEvr e).findSession x.id = some (drained x) := (findSession_of_sessions rfl x.id).trans found
  exact (findSession_of_sessions rfl x.id).trans (findSession_updSession found fun _ => rfl)

theorem noticeFrame_of {q : Part} {l : List SentNotice} (numbered : (p.updSession x.id drained).numberNotices x.id (x.waiting.take 32) = (q, l)) :
    p.noticeFrame x = if l = [] then q else q.emit x.id 0 0x9001 0 (l.flatMap (fun s => s.notice.bytes s.seq)) x.path := by
  unfold drained at numbered
  unfold Part.noticeFrame
  simp only [numbered]

theorem numberNotices_drained {e : EvrUnit} {n : Notice} (found : p.findSession x.id = some x)
    (budget : (p.updSession x.id drained).takeBudget n.sev = some ((p.updSession x.id drained).setEvr e)) :
    (p.updSession x.id drained).numberNotices x.id [n] = (noticePart (p.updSession x.id drained) e (drained x) n, [sentNotice (drained x) n]) :=
  have marked : (p.updSession x.id drained).findSession (drained x).id = some (drained x) := findSession_updSession found fun _ => rfl
  numberNotices_single (x := drained x) marked budget

/-- The part once a lone notice of a session has left. -/
def noticedPart (p : Part) (e : EvrUnit) (x : Session) (n : Notice) : Part :=
  (noticePart (p.updSession x.id drained) e (drained x) n).emit x.id 0 0x9001 0 (n.bytes (x.noticeSeq + 1)) x.path

theorem tx_noticedPart {e : EvrUnit} {n : Notice} (found : p.findSession x.id = some x) (off : p.shuffle.en = false) :
    (noticedPart p e x n).tx = nextFrame (keepNotice (sentNotice (drained x) n) (drained x)) x.id 0 0x9001 0 (n.bytes (x.noticeSeq + 1)) x.path :: p.tx :=
  tx_emit_off (p := noticePart (p.updSession x.id drained) e (drained x) n) (findSession_noticePart found) off

theorem waiting_noticedPart {e : EvrUnit} {n : Notice} (found : p.findSession x.id = some x) (waits : x.waiting = [n]) (room : x.seqOut < 2 ^ 64 - 2)
    (off : p.shuffle.en = false) : ((noticedPart p e x n).findSession x.id).map (·.waiting) = some [] := by
  unfold noticedPart
  rw [findSession_emit_off (p := noticePart (p.updSession x.id drained) e (drained x) n) (findSession_noticePart found) off,
    numbered_of_lt (by show x.seqOut + 1 < _; omega)]
  simp [keepNotice, drained, waits]

theorem within_noticedPart {e : EvrUnit} {n : Notice} (off : p.shuffle.en = false) : Within [.xct, .evr, .counts] p (noticedPart p e x n) := by
  have noticed : Within [.xct, .evr, .counts] p (noticePart (p.updSession x.id drained) e (drained x) n) :=
    (Within.refl.next (within_updSession p _ _)).next (within_noticePart _ _ _ _)
  exact noticed.next (within_emit_off off)

theorem noticeFrame_single {e : EvrUnit} {n : Notice} (found : p.findSession x.id = some x) (waits : x.waiting = [n])
    (budget : (p.updSession x.id drained).takeBudget n.sev = some ((p.updSession x.id drained).setEvr e)) :
    p.noticeFrame x = noticedPart p e x n := by
  have bytes : [sentNotice (drained x) n].flatMap (fun s => s.notice.bytes s.seq) = n.bytes (x.noticeSeq + 1) := by
    rw [List.flatMap_singleton]
    rfl
  have short : x.waiting.take 32 = [n] := by rw [waits, List.take_of_length_le (by simp)]
  rw [noticeFrame_of (short ▸ numberNotices_drained found budget), if_neg (List.cons_ne_nil _ _), bytes]
  rfl
/-- The one notice that waits leaves in a NOTICE frame, when the budget holds its reserve. -/
theorem noticeFrameSend_single {s : State} {e : EvrUnit} {n : Notice} (on : s.power.on = true) (found : s.findSession x.id = some x)
    (isOpen : x.st = .open_) (waits : x.waiting = [n]) (can : s.canSend x.half = true)
    (budget : (s.updSession x.id drained).takeBudget n.sev = some ((s.updSession x.id drained).setEvr e)) :
    exec (.noticeFrameSend x.id) s = .next (after s (noticedPart s.toPart e x n)) := by
  change powered s (fun p => p.sendNotices x.id) = _
  rw [powered_on on]
  unfold Part.sendNotices
  simp only [found]
  rw [if_neg (by simp [isOpen, waits, can]), noticeFrame_single found waits budget]

end

/-- Settles O13: what a frame carries, what leaves, and what of the part stays as it was. -/
theorem frameRowsAct : Obligations.FrameRowsAct := by
  refine ⟨fun s a frame body x on free ok off long readable lone named zero whole found past opens next last => ?_,
    fun s o b c code f row on absent there => ?_, fun s c x req on off alone waits found isOpen room turn quiet => ?_,
    fun s r x on off waits framed found isOpen room turn => ?_, fun s x n on off found isOpen waits room can budget => ?_⟩
  · have id := id_of_findSession found
    have act := receive_session on free ok off long readable named found past opens next last
    have kept : ((s.portChecks a frame.length).1.inCycle a.half).findSession x.id = some x := by
      rw [id, ← found]
      exact congrArg (List.find? _) (ingress_keeps s a frame.length a.half).1
    refine ⟨framedPart ((s.portChecks a frame.length).1.inCycle a.half) a x (headerOf frame).seq, _, rfl, findSession_framedPart kept, rfl, rfl,
      fun alone command => ?_, fun l bundle entries zeros => ?_⟩
    · rw [act, takeFrame_single whole lone alone command zero (findSession_framedPart kept)]
    · exact act.trans (congrArg (fun q => Host.Outcome.next (after s q)) (takeFrame_bundle whole lone bundle zero entries zeros))
  · obtain ⟨g, serves⟩ := dealerRow_serves _ row
    have on' : (after s (arrived s.toPart o code b)).power.on = true := (on_arrived s.toPart o code b).trans on
    rw [serves, serves, powered_on on, powered_on on', serve_arrived (g o b) absent there]
    rfl
  · have request : c.request = req := by
      have origin := List.find?_some waits
      simp only [decide_eq_true_eq] at origin
      rw [Cmd.request, origin.1]
    exact ⟨_, _, responseSend_cmd on off alone waits found isOpen room turn quiet, tx_respondedPart found off, request, rfl, rfl, rfl, rfl,
      findCmd_respondedPart found off, (within_respondedPart off).units.keeps (by decide)⟩
  · exact ⟨_, _, responseSend_reply on off waits framed found isOpen room turn, tx_refusedPart found off, rfl, rfl, rfl, rfl, rfl, rfl,
      replies_refusedPart found off, (within_refusedPart off).units.keeps (by decide)⟩
  · obtain ⟨e, budget⟩ := takeBudget_some (p := s.updSession x.id drained) budget
    exact ⟨_, _, noticeFrameSend_single on found isOpen waits can budget, tx_noticedPart found off, rfl, rfl,
      waiting_noticedPart found waits room off, (within_noticedPart off).units.keeps (by decide)⟩

/-! ### The halves of the host ports (03 R61, HPx_MODE; 16 R413, R414, R425) -/

section
variable (p : Part)

theorem within_setHalf (h : Half) (x : HalfSt) : Within [.ports] p (p.setHalf h x) :=
  ⟨fun u hu => by cases u <;> simp_all [Unit_.Same, after], Part.setHalf_now p h x⟩

theorem within_updHalf (h : Half) (f : HalfSt → HalfSt) : Within [.ports] p (p.updHalf h f) := within_setHalf p h _

theorem within_setPortOf (h : Half) (x : HostPort) : Within [.ports] p (p.setPortOf h x) := by
  refine ⟨fun u hu => ?_, ?_⟩
  · unfold Part.setPortOf
    cases u <;> simp_all [Unit_.Same, after] <;> split <;> simp
  · unfold Part.setPortOf
    split <;> rfl

theorem within_setPower (x : Power) : Within [.power] p (p.setPower x) := ⟨changes_power p x, rfl⟩

theorem within_setDeal (x : DealUnit) : Within [.deal] p (p.setDeal x) := within_deal p x

variable {p}

/-- An act that spares the ports' unit leaves each half as it was. -/
theorem half_of_within {l : List Unit_} {q : Part} (act : Within l p q) (h : Half) (apart : Unit_.ports ∉ l) : q.half h = p.half h := by
  obtain ⟨-, -, a0, a1, b0, b1⟩ := act.units .ports apart
  cases h
  · exact a0
  · exact a1
  · exact b0
  · exact b1

@[simp] theorem half_updHalf (h : Half) (f : HalfSt → HalfSt) : (p.updHalf h f).half h = f (p.half h) := Part.setHalf_half p h _

/-- The units that a change of the service level and its notice may change. -/
abbrev levelUnits : List Unit_ := [.power, .evr, .counts, .part, .xct, .seats]

theorem within_relevel (p : Part) : Within levelUnits p p.relevel := by
  unfold Part.relevel
  extract_lets old new
  exact .ite .refl ((Within.refl.next (within_setPower p _)).next (within_event _ _ _ _ _ _ _ _ _))

/-- The level is the only part of the power unit that a change of level changes. -/
theorem stage_relevel (p : Part) : p.relevel.power.stage = p.power.stage := by
  unfold Part.relevel
  extract_lets old new
  split
  · rfl
  · exact (congrArg Power.stage (event_noted _ _ _ _ _ _ _ _ _).power).trans rfl

theorem within_pumpAll (p : Part) : Within sendUnits p p.pumpAll := .foldl (fun p (y : Stream) => within_pump p y.session y.id) _ _

theorem within_takeMode (p : Part) (h : Half) : Within [.ports] p (p.takeMode h) := by
  unfold Part.takeMode
  extract_lets x
  split
  · exact .refl
  · exact within_setPortOf p h _

/-- A staged Deal that is found at start-up is armed again, or given up. -/
theorem within_rearm (p : Part) : Within [.deal, .seats] p p.rearm := by
  unfold Part.rearm
  extract_lets b
  split
  · exact .refl
  · split
    · exact (Within.refl.next (within_setDeal p _)).next (within_armDeal _)
    · exact (within_unstage p).mono

theorem within_startUpEnds (p : Part) : Within [.power, .deal, .seats] p p.startUpEnds := by
  unfold Part.startUpEnds
  exact .ite ((Within.refl.next (within_setPower p _)).next (within_rearm _)) .refl

theorem stage_startUpEnds (stage : p.power.stage = 6) : p.startUpEnds.power.stage = 7 := by
  unfold Part.startUpEnds
  rw [if_pos stage]
  exact congrArg Power.stage ((within_rearm (p.setPower { p.power with stage := 7 })).units .power (by decide))

theorem power_of_within {l : List Unit_} {q : Part} (act : Within l p q) (apart : Unit_.power ∉ l) : q.power = p.power :=
  act.units .power apart

/-- The part as a half's link has come up, in the mode that waited for it. -/
def linked (p : Part) (h : Half) (secured : Bool) : Part := (p.takeMode h).updHalf h (fun x => { x with link := if secured then 3 else 2 })

theorem within_linked (p : Part) (h : Half) (secured : Bool) : Within [.ports] p (linked p h secured) :=
  (within_takeMode p h).next (within_updHalf _ h _)

theorem link_linked (p : Part) (h : Half) (secured : Bool) : ((linked p h secured).half h).link = if secured then 3 else 2 :=
  congrArg HalfSt.link (half_updHalf h _)

/-- A half that comes up ends start-up, and its sessions' output may go. -/
theorem halfUp_enabled {h : Half} {secured : Bool} (started : 6 ≤ p.power.stage.toNat) (working : p.power.stage ≠ 8)
    (enabled : ((p.takeMode h).half h).enabled = true) (present : (p.takeMode h).halfExists h = true) :
    p.halfUp h secured = (linked p h secured).startUpEnds.relevel.pumpAll := by
  have power : (p.takeMode h).power = p.power := power_of_within (within_takeMode p h) (by decide)
  unfold Part.halfUp
  simp only
  rw [if_neg]
  · rfl
  · rw [power]
    exact not_or.2 ⟨Nat.not_lt.2 started, not_or.2 ⟨working, not_or.2 ⟨by simp [enabled], by simp [present]⟩⟩⟩

/-- The units that the consequences of a half's link may change. -/
abbrev upUnits : List Unit_ := .deal :: .shuffle :: levelUnits

theorem within_started (p : Part) : Within upUnits p p.startUpEnds.relevel.pumpAll :=
  ((Within.refl.next (within_startUpEnds p)).next (within_relevel _)).next (within_pumpAll _)

theorem stage_started (stage : p.power.stage = 6) : p.startUpEnds.relevel.pumpAll.power.stage = 7 := by
  rw [power_of_within (within_pumpAll _) (by decide), stage_relevel, stage_startUpEnds stage]

theorem half_wait (d : Nat) (h : Half) : (p.wait d).half h = p.half h := by cases h <;> rfl

theorem halfDown_half (h : Half) : (p.halfDown h).half h =
    { p.half h with link := if (p.half h).enabled && p.halfExists h then 1 else 0, assocs := [], paused := 0 } :=
  (half_of_within (within_relevel _) h (by decide)).trans (half_updHalf h _)

theorem within_halfDown (p : Part) (h : Half) : Within (.ports :: levelUnits) p (p.halfDown h) :=
  (Within.refl.next (within_updHalf p h _)).next (within_relevel _)

theorem halfDown_other {h k : Half} (other : k ≠ h) : (p.halfDown h).half k = p.half k :=
  (half_of_within (within_relevel _) k (by decide)).trans (Part.setHalf_other p h k _ other)

theorem halfDown_hosts (h : Half) : (p.halfDown h).hpa = p.hpa ∧ (p.halfDown h).hpb = p.hpb := by
  obtain ⟨a, b, -⟩ := (within_relevel (p.updHalf h (fun x => { x with link := if x.enabled && p.halfExists h then 1 else 0, assocs := [], paused := 0 }))).units .ports
    (by decide)
  exact ⟨a.trans (Part.setHalf_hpa p h _), b.trans (Part.setHalf_hpb p h _)⟩

/-- A half that is not up: its link trains, or is off. -/
theorem up_of_link {x : HalfSt} {b : Bool} (link : x.link = if b then 1 else 0) : x.up = false := by
  unfold HalfSt.up
  rw [link]
  cases b <;> rfl

/-- A write of HPx_MODE waits for the link to come up again, which it takes down. -/
theorem writeMode_eq (portB : Bool) (v : Word) : p.writeMode portB v =
    ((p.setPortOf (if portB then .b0 else .a0) { p.portOf (if portB then .b0 else .a0) with newMode := some (v &&& 0x31) }).halfDown
      (if portB then .b0 else .a0)).halfDown (if portB then .b1 else .a1) := rfl

theorem halfDown_up (h : Half) : ((p.halfDown h).half h).up = false := by
  rw [halfDown_half]
  exact up_of_link rfl

theorem hosts_setPortOf (portB : Bool) (x : HostPort) :
    (if portB then (p.setPortOf (if portB then .b0 else .a0) x).hpb else (p.setPortOf (if portB then .b0 else .a0) x).hpa) = x := by
  cases portB <;> rfl

theorem writeMode_newMode (portB : Bool) (v : Word) :
    (if portB then (p.writeMode portB v).hpb else (p.writeMode portB v).hpa).newMode = some (v &&& 0x31) := by
  rw [writeMode_eq, (halfDown_hosts _).1, (halfDown_hosts _).1, (halfDown_hosts _).2, (halfDown_hosts _).2, hosts_setPortOf]

theorem within_writeMode (p : Part) (portB : Bool) (v : Word) : Within (.ports :: levelUnits) p (p.writeMode portB v) :=
  ((Within.refl.next (within_setPortOf p _ _)).next (within_halfDown _ _)).next (within_halfDown _ _)

/-! ### A drain's end (16 R425) -/

/-- A half whose drain has ended. -/
def drainedHalf (present : Bool) (x : HalfSt) : HalfSt :=
  { x with draining := none, retained := false, enabled := x.retained, link := if x.retained && present then 1 else 0, assocs := [], paused := 0 }

theorem drainEnds_host {h : Half} {t0 : Nat} (draining : (p.half h).draining = some t0) : ∃ now, p.drainEnds (.host h) =
    (if (p.half h).retained then (({ p with now := now } : Part).setHalf h (drainedHalf (p.halfExists h) (p.half h))).portState (halfIndex h) 1
      else ({ p with now := now } : Part).setHalf h (drainedHalf (p.halfExists h) (p.half h))).relevel := by
  unfold Part.drainEnds
  simp only [draining]
  by_cases owes : p.halfOwes h = true
  · rw [if_pos owes]
    exact ⟨max p.now (t0 + msec 100), by cases h <;> rfl⟩
  · rw [if_neg owes]
    exact ⟨p.now, rfl⟩

theorem within_portState (p : Part) (port action : Nat) : Within [.evr, .counts, .part, .xct, .seats] p (p.portState port action) :=
  within_event p _ _ _ _ _ _ _ _

/-- The part as its partner port's drain ends: a retained enable takes effect. -/
def partnerDrained (p : Part) : Part :=
  { p with
    ppAssocs := []
    part := { p.part with draining := none, retained := false, enabled := p.part.retained, link := if p.part.retained then 1 else 0 } }

/-- There is no pairing exchange to refuse. -/
theorem drainEnds_partner {t0 : Nat} (draining : p.part.draining = some t0) (alone : p.part.exchange = none) :
    p.drainEnds .partner = if p.part.retained then (partnerDrained p).portState 4 1 else partnerDrained p := by
  have down : (p.setPart { p.part with draining := none, retained := false, enabled := p.part.retained }).partnerDown = partnerDrained p := by
    unfold Part.partnerDown
    simp [Part.setPart, alone, partnerDrained]
  unfold Part.drainEnds
  simp only [draining]
  rw [down]

theorem noted_drainEnds_partner {t0 : Nat} (draining : p.part.draining = some t0) (alone : p.part.exchange = none) :
    Noted (partnerDrained p) (p.drainEnds .partner) := by
  rw [drainEnds_partner draining alone]
  exact .ite (event_noted _ _ _ _ _ _ _ _ _) (.refl _)

theorem within_partnerDrained (p : Part) : Within [.part] p (partnerDrained p) :=
  ⟨fun u hu => by cases u <;> simp_all [Unit_.Same, partnerDrained, after], rfl⟩

/-! ### MKA (R61) -/

/-- An association under a fresh SAK of the part's own. -/
def renewed (ca joined : Nat) (key : Bytes) (a : Assoc) : Assoc := if a.ca = ca then { a with sak := a.sak + 1, key := key, members := a.members + joined } else a

theorem freshSak_host (h : Half) (ca joined : Nat) : p.freshSak (.host h) ca joined =
    (p.updHalf h (fun x => { x with assocs := (p.half h).assocs.map (renewed ca joined (p.drawn 32)) })).drbgTakes 0 32 := rfl

theorem within_drbgTakes (p : Part) (die n : Nat) : Within [.counts, .trngs] p (p.drbgTakes die n) := ⟨changes_drbgTakes p die n, rfl⟩

theorem within_freshSak (p : Part) (h : Half) (ca joined : Nat) : Within [.ports, .counts, .trngs] p (p.freshSak (.host h) ca joined) := by
  rw [freshSak_host]
  exact (Within.refl.next (within_updHalf p h _)).next (within_drbgTakes _ _ _)

theorem half_freshSak (h : Half) (ca joined : Nat) :
    (p.freshSak (.host h) ca joined).half h = { p.half h with assocs := (p.half h).assocs.map (renewed ca joined (p.drawn 32)) } := by
  rw [freshSak_host, half_of_within (within_drbgTakes _ _ _) _ (by decide), half_updHalf]

theorem draws_freshSak (h : Half) (ca joined : Nat) : (p.freshSak (.host h) ca joined).draws = p.draws + 32 := by
  rw [freshSak_host]
  exact congrArg (· + 32) (Part.setHalf_draws p h _)

theorem any_renewed {ca joined : Nat} {key : Bytes} {l : List Assoc} (known : l.any (fun a => a.ca == ca) = true) :
    (l.map (renewed ca joined key)).any (fun a => a.ca == ca) = true := by
  have same (a : Assoc) : (renewed ca joined key a).ca = a.ca := by
    unfold renewed
    split <;> rfl
  simpa [List.any_map, Function.comp_def, same] using known

/-- The part once a member's association is among those of a half. -/
def associated (p : Part) (h : Half) (ca : Nat) (cak : Bytes) : Part :=
  if (p.half h).assocs.any (fun a => a.ca == ca) then p else p.updHalf h (fun x => { x with assocs := (p.half h).assocs ++ [{ ca := ca, cak := cak }] })

theorem any_associated (h : Half) (ca : Nat) (cak : Bytes) : ((associated p h ca cak).half h).assocs.any (fun a => a.ca == ca) = true := by
  unfold associated
  split
  · assumption
  · simp

theorem mkaJoin_host {h : Half} {ca : Nat} {cak : Bytes}
    (room : (p.half h).assocs.any (fun a => a.ca == ca) = true ∨ (p.half h).assocs.length < 4) (key : p.cakOf (.host h) ca = some cak) :
    p.mkaJoin (.host h) ca = ((associated p h ca cak).freshSak (.host h) ca 1).updHalf h (fun x => { x with link := 3 }) := by
  have takes : ¬((p.half h).assocs.any (fun a => a.ca == ca) = false ∧ 4 ≤ (p.half h).assocs.length) := by
    rintro ⟨unknown, full⟩
    rcases room with known | room
    · rw [known] at unknown
      contradiction
    · omega
  unfold Part.mkaJoin
  extract_lets l known most
  rw [if_neg (show ¬(known = false ∧ most ≤ l.length) from takes), key]
  rfl

theorem within_associated (p : Part) (h : Half) (ca : Nat) (cak : Bytes) : Within [.ports] p (associated p h ca cak) :=
  .ite .refl (within_updHalf p h _)

/-- A training that failed starts again after a second (16 R414). -/
theorem portTrainingRetry_next {s : State} {h : Half} (on : s.power.on = true) (started : 6 ≤ s.power.stage.toNat) (working : s.power.stage ≠ 8)
    (enabled : (s.half h).enabled = true) (present : s.halfExists h = true) (down : (s.half h).up = false) :
    exec (.portTrainingRetry h) s = .next (after s (((s.wait (sec 1)).updHalf h (fun x => { x with link := 1 })).event 0 0x0B05 4 0 0
      s.power.stage.toNat 0 (Config.failureCode (8 + halfIndex h) % 2 ^ 32))) := by
  change execPortTrainingRetry h s = _
  rw [execPortTrainingRetry, powered_on on,
    if_neg (not_or.2 ⟨Nat.not_lt.2 started, not_or.2 ⟨working, not_or.2 ⟨by simp [enabled], not_or.2 ⟨by simp [present], by simp [down]⟩⟩⟩⟩)]
  simp [Part.updHalf, Part.wait]

/-- The half that a drain's end leaves. -/
theorem drainEnds_half {h : Half} {t0 : Nat} (draining : (p.half h).draining = some t0) :
    (p.drainEnds (.host h)).half h = drainedHalf (p.halfExists h) (p.half h) := by
  obtain ⟨now, ends⟩ := drainEnds_host draining
  rw [ends, half_of_within (within_relevel _) _ (by decide)]
  split
  · rw [half_of_within (within_portState _ _ _) _ (by decide), Part.setHalf_half]
  · rw [Part.setHalf_half]

theorem changes_drainEnds {h : Half} {t0 : Nat} (draining : (p.half h).draining = some t0) : ChangesOnly (.ports :: levelUnits) p (p.drainEnds (.host h)) := by
  obtain ⟨now, ends⟩ := drainEnds_host draining
  have drained : Within (.ports :: levelUnits) ({ p with now := now } : Part) (p.drainEnds (.host h)) := by
    rw [ends]
    have off := (within_setHalf ({ p with now := now } : Part) h (drainedHalf (p.halfExists h) (p.half h))).mono (l := .ports :: levelUnits)
    exact (Within.ite (off.next (within_portState _ _ _)) off).next (within_relevel _)
  exact (changes_now p now).trans drained.units

end

/-- Settles O11: by what each act of a port leaves in its half, and the units that it stays within. -/
theorem portRowsAct : Obligations.PortRowsAct := by
  refine ⟨fun s h secured on started working enabled present => ?_, fun s h on up => ?_, fun s h on started working enabled present down => ?_,
    fun s portB v on => ?_, fun s h t0 on draining => ?_, fun s t0 on draining alone => ?_, fun s h ca on up room key => ?_,
    fun s h ca on up known => ?_, fun s h k dst on link enabled own => ?_, fun s h ps on up => ?_⟩
  · have rises : exec (.hostPortLinkUp h secured) s = .next (after s (linked s.toPart h secured).startUpEnds.relevel.pumpAll) :=
      (powered_on on (fun p => p.halfUp h secured)).trans (by rw [halfUp_enabled started working enabled present])
    have up := (within_linked s.toPart h secured).mono (l := .ports :: upUnits)
    have started := within_started (linked s.toPart h secured)
    refine ⟨_, rises, ?_, fun stage => ?_, ?_, (up.next started).units.keeps (by decide)⟩
    · exact (congrArg HalfSt.link (half_of_within started h (by decide))).trans (link_linked s.toPart h secured)
    · exact stage_started ((congrArg Power.stage (power_of_within (within_linked s.toPart h secured) (by decide))).trans stage)
    · exact (up.next started).units .vault (by decide)
  · exact ⟨_, (powered_on on _).trans (by rw [if_pos up]), halfDown_half h, (within_halfDown s.toPart h).units.keeps (by decide)⟩
  · refine ⟨_, portTrainingRetry_next on started working enabled present down, ?_, ?_, ?_⟩
    · exact (half_of_within (within_event _ _ _ _ _ _ _ _ _) h (by decide)).trans ((half_updHalf h _).trans (by rw [half_wait]))
    · exact (within_event _ _ _ _ _ _ _ _ _).now.trans (Part.setHalf_now _ h _)
    · have trains := (within_updHalf (s.wait (sec 1)) h (fun x => { x with link := 1 })).mono (l := .ports :: .evr :: .counts :: .part :: .xct :: [.seats])
      exact ((changes_now s.toPart _).trans (trains.next (within_event _ _ _ _ _ _ _ _ _)).units).keeps (by decide)
  · refine ⟨_, powered_on on (fun p => p.writeMode portB v), writeMode_newMode portB v, ?_, halfDown_up _,
      (within_writeMode s.toPart portB v).units.keeps (by decide)⟩
    refine (congrArg HalfSt.up (halfDown_other ?_)).trans (halfDown_up _)
    cases portB <;> decide
  · have ended := drainEnds_half draining
    refine ⟨_, powered_on on (fun p => p.drainEnds (.host h)), congrArg HalfSt.draining ended, congrArg HalfSt.enabled ended, ?_,
      (changes_drainEnds draining).keeps (by decide)⟩
    exact (congrArg HalfSt.up ended).trans (up_of_link rfl)
  · have ended := noted_drainEnds_partner draining alone
    refine ⟨_, powered_on on (fun p => p.drainEnds .partner), congrArg PartUnit.draining ended.part, congrArg PartUnit.enabled ended.part,
      congrArg Part.ppAssocs ended.eq, ?_⟩
    exact ((within_partnerDrained s.toPart).units.trans (changes_of_noted ended)).keeps (by decide)
  · obtain ⟨cak, key⟩ := Option.ne_none_iff_exists'.1 key
    have joins : exec (.mkaFrameReceive (.host h) ca true) s =
        .next (after s (((associated s.toPart h ca cak).freshSak (.host h) ca 1).updHalf h (fun x => { x with link := 3 }))) :=
      (powered_on on _).trans (by rw [if_pos (by simp [up]), mkaJoin_host room key])
    have secured := (half_updHalf (p := (associated s.toPart h ca cak).freshSak (.host h) ca 1) h (fun x => { x with link := 3 }))
    refine ⟨_, joins, congrArg HalfSt.link secured, ?_, ?_⟩
    · refine (congrArg (fun x => x.assocs.any (fun a => a.ca == ca)) secured).trans ?_
      rw [half_freshSak]
      exact any_renewed (any_associated h ca cak)
    · have joined := (within_associated s.toPart h ca cak).mono (l := [.ports, .counts, .trngs])
      exact ((joined.next (within_freshSak _ _ _ _)).next (within_updHalf _ _ _)).units.keeps (by decide)
  · have renews : exec (.sakRenew (.host h) ca) s = .next (after s (s.freshSak (.host h) ca 0)) :=
      (powered_on on _).trans (by rw [if_pos (by rw [up]; exact known)])
    exact ⟨_, renews, congrArg HalfSt.assocs (half_freshSak h ca 0), draws_freshSak h ca 0, (within_freshSak _ _ _ _).units.keeps (by decide)⟩
  · exact (powered_on on _).trans (by rw [if_pos ⟨link, enabled, own⟩])
  · exact (powered_on on _).trans (by rw [if_pos up])

/-! ### The handshake's frames (03 R65, R76) -/

theorem field_of_slice {b : Bytes} {off n v : Nat} (holds : slice b off n = toBE n v) (fits : v < 256 ^ n) : field b off n = v := by
  unfold field
  rw [holds, be_toBE, Nat.mod_eq_of_lt fits]

/-- The header of a handshake frame reads back as it was written. -/
theorem headerOf_shakeFrame {code : Nat} {id : BitVec 32} {b : Bytes} (known : code < 256 ^ 2) (short : b.length < 256 ^ 4) :
    headerOf (Part.shakeFrame code id b) =
      { version := 1, flags := 0, len := 32, hand := 0, session := id, seq := 0, request := 0, code := code, status := 0, plen := b.length } := by
  have version : field (Part.shakeFrame code id b) 0 1 = 1 := field_of_slice rfl (by decide)
  have len : field (Part.shakeFrame code id b) 2 1 = 32 := field_of_slice rfl (by decide)
  have hand : field (Part.shakeFrame code id b) 3 1 = 0 := field_of_slice rfl (by decide)
  have session : field (Part.shakeFrame code id b) 4 4 = id.toNat := field_of_slice rfl id.isLt
  have seq : field (Part.shakeFrame code id b) 8 8 = 0 := field_of_slice rfl (by decide)
  have request : field (Part.shakeFrame code id b) 16 8 = 0 := field_of_slice rfl (by decide)
  have code' : field (Part.shakeFrame code id b) 24 2 = code := field_of_slice rfl known
  have status : field (Part.shakeFrame code id b) 26 2 = 0 := field_of_slice rfl (by decide)
  have plen : field (Part.shakeFrame code id b) 28 4 = b.length := field_of_slice rfl short
  have flags : byteAt (Part.shakeFrame code id b) 1 = 0 := rfl
  unfold headerOf
  rw [version, flags, len, hand, session, seq, request, code', status, plen, BitVec.ofNat_toNat, BitVec.setWidth_eq]
  rfl

@[simp] theorem length_shakeFrame (code : Nat) (id : BitVec 32) (b : Bytes) : (Part.shakeFrame code id b).length = 32 + b.length := by
  simp [Part.shakeFrame, frameHeader]
  omega

theorem drop_shakeFrame (code : Nat) (id : BitVec 32) (b : Bytes) : (Part.shakeFrame code id b).drop 32 = b := rfl

/-! A frame that leaves carries what it was made of. -/

@[simp] theorem frameOut_code (path : Path) (key : Option Bytes) (hand : Nat) (session : BitVec 32) (seq : Nat) (request : BitVec 64) (code : Nat)
    (status : BitVec 16) (payload : Bytes) : (frameOut path key hand session seq request code status payload).code = code := rfl

@[simp] theorem frameOut_status (path : Path) (key : Option Bytes) (hand : Nat) (session : BitVec 32) (seq : Nat) (request : BitVec 64) (code : Nat)
    (status : BitVec 16) (payload : Bytes) : (frameOut path key hand session seq request code status payload).status = status := rfl

@[simp] theorem frameOut_payload (path : Path) (key : Option Bytes) (hand : Nat) (session : BitVec 32) (seq : Nat) (request : BitVec 64) (code : Nat)
    (status : BitVec 16) (payload : Bytes) : (frameOut path key hand session seq request code status payload).payload = payload := rfl

section
variable {p : Part} {a : Arrival} {x : Session} {id : BitVec 32} {payload : Bytes}

/-- A frame that its port lets through has at most 9,000 bytes (R61). -/
theorem length_of_portChecks {len : Nat} (ok : (p.portChecks a len).2 = true) : len ≤ 9000 := by
  unfold Part.portChecks at ok
  extract_lets h corrected repaired at ok
  by_contra long
  rw [if_pos (c := 9216 < a.wireLen ∨ _) (by omega)] at ok
  split_ifs at ok

theorem xctFrame_hello (short : payload.length < 256 ^ 4) : p.xctFrame a (Part.shakeFrame 0x1001 0 payload) = p.hello a 0 false payload := by
  unfold Part.xctFrame
  simp only [headerOf_shakeFrame (code := 0x1001) (by decide) short, drop_shakeFrame]
  rw [if_neg (by simp [Header.readable]), if_neg (by simp), if_pos trivial, if_pos (by simp)]
  simp

theorem xctFrame_prove (short : payload.length < 256 ^ 4) (named : id ≠ 0) (found : p.findSession id = some x) (offered : x.st = .offered) :
    p.xctFrame a (Part.shakeFrame 0x1002 id payload) = p.prove a x 0 payload := by
  have apart : ¬id = 0#32 := named
  unfold Part.xctFrame
  simp only [headerOf_shakeFrame (code := 0x1002) (by decide) short, drop_shakeFrame, found]
  rw [if_neg (by simp [Header.readable]), if_neg (by simp [apart]), if_neg named, if_pos (by simp [offered, apart])]
  simp

/-- A frame of a session that is not known, or is still offered, goes straight to XCT. -/
theorem arrive_unknown {frame : Bytes} (absent : p.findSession (headerOf frame).session = none) : p.arrive a frame = p.xctFrame a frame := by
  unfold Part.arrive
  simp only [absent]

theorem arrive_offered {frame : Bytes} (found : p.findSession (headerOf frame).session = some x) (offered : x.st = .offered) :
    p.arrive a frame = p.xctFrame a frame := by
  unfold Part.arrive
  simp only [found]
  rw [if_neg (by simp [offered])]

/-- The part as a frame that its port let through reaches XCT: counted, in its Dealer cycle. -/
def ingress (p : Part) (counts : List (Nat × BitVec 64)) (now : Nat) (last : Option (Nat × Half)) : Part :=
  { p with counts := counts, now := now, xct := { p.xct with lastIn := last } }

theorem ingress_eq (p : Part) (a : Arrival) (len : Nat) : ∃ counts now last, (p.portChecks a len).1.inCycle a.half = ingress p counts now last := by
  obtain ⟨counts, counted⟩ := counted_portChecks p a len
  rw [counted]
  unfold Part.inCycle
  simp only
  split
  · exact ⟨counts, p.now + (2 - p.now % 2), some ((p.now + (2 - p.now % 2)) / 2, a.half), rfl⟩
  · exact ⟨counts, p.now, some (p.now / 2, a.half), rfl⟩

theorem changes_ingress (p : Part) (counts : List (Nat × BitVec 64)) (now : Nat) (last : Option (Nat × Half)) :
    ChangesOnly [.counts, .xct] p (ingress p counts now last) :=
  ((changes_now p now).trans (changes_counts _ counts)).trans (changes_xct _ _)

/-! ### SESSION_HELLO (03 R76, R78, R79) -/

theorem trimOffered_few (few : (p.xct.sessions.filter (fun x => x.st == .offered)).length ≤ 1024) : p.trimOffered = p := if_pos few

/-- The part once a frame has left it. -/
def sent (p : Part) (f : OutFrame) : Part := { p with tx := f :: p.tx }

@[simp] theorem tx_sent (p : Part) (f : OutFrame) : (sent p f).tx = f :: p.tx := rfl

theorem within_sent (p : Part) (f : OutFrame) : Within [] p (sent p f) := within_tx p _

theorem shakeOut_now {r : Reply} {hand : Nat} (can : p.canSend r.half = true) :
    p.shakeOut r hand = sent p (frameOut r.path none hand r.session 0 r.request r.code r.status r.payload) := if_pos can

/-- The part once a session is offered under a free table index. -/
def offering (p : Part) (x : Session) (i inc : Nat) : Part :=
  { p with xct := { p.xct with
      sessions := p.xct.sessions ++ [x]
      incs := Sparse.put p.xct.incs i inc
      retired := if inc + 1 = 2 ^ 18 then i :: p.xct.retired else p.xct.retired } }

/-- The part once a hello of the last second is counted (R78), and the handshake has drawn its values. -/
def greeted (p : Part) : Part :=
  ({ p with xct := { p.xct with hellos := p.now :: p.xct.hellos.filter (fun t => p.now < t + sec 1) } } : Part).drbgTakes 0 144

theorem hello_offers {e : AdmissionEntry} {key : Bytes} {i inc : Nat} (long : 1672 ≤ payload.length)
    (admitted : p.admission (payload.drop 1672) = some e) (keyed : Config.certKey (payload.drop 1672) = some key)
    (whole : field payload 1668 4 = (payload.drop 1672).length) (short : (payload.drop 1672).length ≤ 4096)
    (rate : (p.xct.hellos.filter (fun t => p.now < t + sec 1)).length < 10000) (flags : field payload 1664 4 < 2)
    (limit : (p.xct.sessions.filter (fun x => x.cert = e.cert)).length < e.limit) (table : p.xct.sessions.length < 16384)
    (sealing : ¬(e.flags.getLsbD 1 = true ∧ field payload 1664 4 = 0)) (free : p.freeIndex = some (i, inc))
    (few : (p.xct.sessions.filter (fun x => x.st == .offered)).length < 1024) (can : p.canSend a.half = true) :
    ∃ x out, p.hello a 0 false payload = sent (offering (greeted p) x i inc) (frameOut (Part.pathOf a) none e.hand 0 0 0 0x1001 0 out) ∧
      x.st = .offered ∧ x.id = BitVec.ofNat 32 (inc * 16384 + i) ∧ x.hand = e.hand := by
  have split : payload.length = 1672 + (payload.drop 1672).length := by
    rw [List.length_drop]
    omega
  unfold Part.hello
  extract_lets cert hellos want _ counted eph rand nonce k drew own _
  have cert_eq : cert = payload.drop 1672 := by
    unfold cert
    rw [whole, List.take_length]
  simp -zeta only [cert_eq, admitted, keyed]
  rw [if_neg (by omega), if_neg (show ¬10000 ≤ hellos.length from Nat.not_le.2 rate)]
  extract_lets mine shared
  have split : payload.length = 1672 + cert.length := by rw [cert_eq, split]
  rw [if_neg (not_or.2 ⟨Bool.false_ne_true, not_or.2 ⟨not_not.2 split, Nat.not_le.2 flags⟩⟩), if_neg (show ¬(e.limit ≤ mine.length ∨ _) from not_or.2 ⟨Nat.not_le.2 limit, Nat.not_le.2 table⟩),
    if_neg sealing]
  have free : counted.freeIndex = some (i, inc) := free
  simp -zeta only [free]
  extract_lets id step2 th prk sig x retire q trimmed
  have kept : trimmed = q := by
    refine trimOffered_few ?_
    have more : q.xct.sessions = p.xct.sessions ++ [x] := rfl
    rw [more, List.filter_append, List.length_append]
    have one := List.length_filter_le (fun x : Session => x.st == .offered) [x]
    simp only [List.length_singleton] at one
    omega
  rw [kept, shakeOut_now can]
  exact ⟨x, step2 ++ sig, rfl, rfl, rfl, rfl⟩

theorem within_offering (p : Part) (x : Session) (i inc : Nat) : Within [.xct, .counts, .trngs] p (offering (greeted p) x i inc) := by
  have drawn : Within [.xct, .counts, .trngs] p (greeted p) := (Within.refl.next (within_xct p _)).next (within_drbgTakes _ _ _)
  exact drawn.next (within_xct _ _)

theorem sessionHello_next {s : State} {counts : List (Nat × BitVec 64)} {now : Nat} {last : Option (Nat × Half)} (on : s.power.on = true)
    (free : s.guard.dealerHold = none) (unnamed : s.findSession 0 = none) (ok : (s.portChecks a (32 + payload.length)).2 = true)
    (reached : (s.portChecks a (32 + payload.length)).1.inCycle a.half = ingress s.toPart counts now last) :
    exec (.sessionHello a payload) s = .next (after s ((ingress s.toPart counts now last).hello a 0 false payload)) := by
  have short : payload.length < 256 ^ 4 := by have := length_of_portChecks ok; omega
  have ok : (s.portChecks a (Part.shakeFrame 0x1001 0 payload).length).2 = true := by rw [length_shakeFrame, ok]
  have unknown : (ingress s.toPart counts now last).findSession (headerOf (Part.shakeFrame 0x1001 0 payload)).session = none := by
    rw [headerOf_shakeFrame (by decide) short]
    exact unnamed
  change execSessionHello a payload s = _
  rw [execSessionHello, powered_on on, receive_ok ok free, length_shakeFrame, reached, arrive_unknown unknown, xctFrame_hello short]

/-! ### SESSION_PROVE (03 R76, R77) -/

/-- The part as a session's handshake ends: the session is open, on the path of its last frame. -/
def proven (p : Part) (a : Arrival) (x : Session) : Part :=
  (p.updSession x.id (fun x => { x with st := .open_, path := Part.pathOf a, lastAt := p.now })).bump (regAddr 0 winXCT 0x0100)

theorem prove_opens (long : 32 ≤ payload.length) (signed : Part.hostSigned x (payload.take (payload.length - 32)) = true)
    (finished : payload.drop (payload.length - 32) = Part.finish "XCT fin h" x) (can : p.canSend a.half = true) :
    p.prove a x 0 payload = sent (proven p a x) (frameOut (Part.pathOf a) none x.hand x.id 0 0 0x1002 Status.done (Part.finish "XCT fin p" x)) := by
  have can : (proven p a x).canSend a.half = true := can
  unfold Part.prove
  simp only
  rw [if_pos ⟨long, signed, finished⟩]
  refine (shakeOut_now ?_).trans (congrArg₂ sent ?_ ?_)
  · exact can
  · rfl
  · dsimp only

theorem within_proven (p : Part) (a : Arrival) (x : Session) : Within [.xct, .counts] p (proven p a x) :=
  (Within.refl.next (within_updSession p _ _)).next (within_bump _ _ _)

theorem findSession_proven (found : p.findSession x.id = some x) :
    (proven p a x).findSession x.id = some { x with st := .open_, path := Part.pathOf a, lastAt := p.now } :=
  (findSession_of_sessions rfl x.id).trans (findSession_updSession found fun _ => rfl)

theorem sessionProve_next {s : State} {counts : List (Nat × BitVec 64)} {now : Nat} {last : Option (Nat × Half)} (on : s.power.on = true)
    (free : s.guard.dealerHold = none) (named : id ≠ 0) (found : s.findSession id = some x) (offered : x.st = .offered)
    (ok : (s.portChecks a (32 + payload.length)).2 = true)
    (reached : (s.portChecks a (32 + payload.length)).1.inCycle a.half = ingress s.toPart counts now last) :
    exec (.sessionProve a id payload) s = .next (after s ((ingress s.toPart counts now last).prove a x 0 payload)) := by
  have short : payload.length < 256 ^ 4 := by have := length_of_portChecks ok; omega
  have ok : (s.portChecks a (Part.shakeFrame 0x1002 id payload).length).2 = true := by rw [length_shakeFrame, ok]
  have found : (ingress s.toPart counts now last).findSession id = some x := found
  have known : (ingress s.toPart counts now last).findSession (headerOf (Part.shakeFrame 0x1002 id payload)).session = some x := by
    rw [headerOf_shakeFrame (by decide) short]
    exact found
  change execSessionProve a id payload s = _
  rw [execSessionProve, powered_on on, receive_ok ok free, length_shakeFrame, reached, arrive_offered known offered,
    xctFrame_prove short named found offered]

end

/-! ### Streams while Shuffle is not armed (03 R72, R73) -/

section
variable {p q : Part} {session id : BitVec 32} {x : Session} {y z : Stream}

theorem within_updStream (p : Part) (session id : BitVec 32) (f : Stream → Stream) : Within [.xct] p (p.updStream session id f) := within_xct p _

theorem findStream_of_streams (same : q.xct.streams = p.xct.streams) (session id : BitVec 32) : q.findStream session id = p.findStream session id := by
  unfold Part.findStream
  rw [same]

theorem findStream_updStream {f : Stream → Stream} (found : p.findStream session id = some y)
    (keeps : ∀ z, (f z).session = z.session ∧ (f z).id = z.id) : (p.updStream session id f).findStream session id = some (f y) := by
  rw [findStream_updStream_same p keeps, found, Option.map_some]

theorem streams_emit_off {request : BitVec 64} {code : Nat} {status : BitVec 16} {payload : Bytes} {path : Path} (off : p.shuffle.en = false) :
    (p.emit session request code status payload path).xct.streams = p.xct.streams := by
  cases found : p.findSession session with
  | none =>
    unfold Part.emit
    simp only [found]
  | some x =>
    rw [emit_off found off]
    rfl

/-- The segments of a stream on their way out leave the streams as they were. -/
theorem emits_off (l : List Bytes) (path : Path) (off : p.shuffle.en = false) :
    Within [.xct] p (l.foldl (fun p b => p.emit session 0 0x1006 0 b path) p) ∧
      (l.foldl (fun p b => p.emit session 0 0x1006 0 b path) p).xct.streams = p.xct.streams := by
  induction l generalizing p with
  | nil => exact ⟨.refl, rfl⟩
  | cons b r ih =>
    have one : Within [.xct] p (p.emit session 0 0x1006 0 b path) := within_emit_off off
    obtain ⟨rest, same⟩ := ih (p := p.emit session 0 0x1006 0 b path) ((congrArg Shuffle.en (one.units .shuffle (by decide))).trans off)
    exact ⟨one.next rest, same.trans (streams_emit_off off)⟩

/-- A stream that has sent its bytes up to an offset. -/
def sentTo (lim now : Nat) (y : Stream) : Stream := { y with announced := lim, lastAt := now }

/-- An output stream acknowledged up to an offset; a held plaintext's reservation goes with it (07 R198). -/
def ackedTo (off : Nat) (y : Stream) : Stream := { y with acked := off, resends := 0, hold := min y.hold (y.data.length - off) }

theorem findStream_removed (p : Part) (session id : BitVec 32) :
    (p.setStreams (p.xct.streams.filter (fun z => !(z.session == session && z.id == id)))).findStream session id = none := by
  simp only [Part.findStream, Part.setStreams, List.find?_eq_none, List.mem_filter]
  rintro z ⟨-, other⟩ same
  simp only [decide_eq_true_eq] at same
  simp [same] at other

/-- What a stream may send goes out; its acknowledged offset stays. -/
theorem pump_off (off : p.shuffle.en = false) : Within [.xct] p (p.pump session id) ∧
    ∀ z, (p.pump session id).findStream session id = some z → ∃ y, p.findStream session id = some y ∧ z.acked = y.acked := by
  unfold Part.pump
  split
  next s y foundS found =>
    extract_lets lim segs marked
    split
    · exact ⟨.refl, fun z foundZ => ⟨z, foundZ, rfl⟩⟩
    · obtain ⟨left, same⟩ := emits_off (p := marked) (session := session) segs s.path off
      have there : marked.findStream session id = some (sentTo lim p.now y) := findStream_updStream found fun _ => ⟨rfl, rfl⟩
      refine ⟨(within_updStream p session id _).next left, fun z foundZ => ⟨y, found, ?_⟩⟩
      rw [findStream_of_streams same, there] at foundZ
      rw [← Option.some.inj foundZ]
      rfl
  · exact ⟨.refl, fun z foundZ => ⟨z, foundZ, rfl⟩⟩

/-- An acknowledgement of an output stream moves its window, while it lasts. -/
theorem takeAckEntry_off {b : Bytes} (found : p.findStream x.id (BitVec.ofNat 32 (field b 0 4)) = some y) (output : y.input = false)
    (reserved : field b 4 4 = 0) (above : y.acked < field b 8 8) (sent : field b 8 8 ≤ y.announced) (off : p.shuffle.en = false) :
    Within [.xct] p (p.takeAckEntry x b) ∧
      ∀ z, (p.takeAckEntry x b).findStream x.id (BitVec.ofNat 32 (field b 0 4)) = some z → z.acked = field b 8 8 := by
  have moved : (p.updStream x.id (BitVec.ofNat 32 (field b 0 4)) (ackedTo (field b 8 8))).findStream x.id (BitVec.ofNat 32 (field b 0 4)) =
      some (ackedTo (field b 8 8) y) := findStream_updStream found fun _ => ⟨rfl, rfl⟩
  obtain ⟨left, kept⟩ := pump_off (p := p.updStream x.id (BitVec.ofNat 32 (field b 0 4)) (ackedTo (field b 8 8))) (session := x.id)
    (id := BitVec.ofNat 32 (field b 0 4)) off
  have left := (within_updStream p x.id (BitVec.ofNat 32 (field b 0 4)) (ackedTo (field b 8 8))).next left
  have open_ : ¬(y.input = true ∨ field b 4 4 ≠ 0 ∨ field b 8 8 ≤ y.acked ∨ y.announced < field b 8 8) :=
    not_or.2 ⟨by simp [output], not_or.2 ⟨not_not.2 reserved, by omega⟩⟩
  unfold Part.takeAckEntry
  simp only [found]
  rw [if_neg open_]
  change Within [.xct] p (if _ then Part.setStreams _ _ else (p.updStream x.id _ (ackedTo _)).pump x.id _) ∧ _
  split
  · exact ⟨left.next (within_xct _ _), fun z foundZ => by rw [findStream_removed] at foundZ; contradiction⟩
  · refine ⟨left, fun z foundZ => ?_⟩
    obtain ⟨w, foundW, same⟩ := kept z foundZ
    rw [moved] at foundW
    rw [same, ← Option.some.inj foundW]
    rfl

theorem chunks_single {n : Nat} {b : Bytes} (len : b.length = n) (pos : 0 < n) : chunks n b = [b] := by
  obtain ⟨m, rfl⟩ := Nat.exists_eq_succ_of_ne_zero pos.ne'
  have filled : b.isEmpty = false := by
    cases b with
    | nil => simp at len
    | cons => rfl
  unfold chunks
  rw [len, chunksAux, filled, List.take_of_length_le (by omega), List.drop_of_length_le (by omega)]
  cases m <;> rfl

/-- An acknowledgement of one stream is one entry. -/
theorem takeAck_single {b : Bytes} (len : b.length = 16) : p.takeAck x b = p.takeAckEntry x b := by
  unfold Part.takeAck
  rw [chunks_single len (by decide)]
  rfl

/-! ### Input segments (03 R72) -/

/-- Bytes held from an offset on deliver in order. -/
theorem runFrom_drop (a : Nat) (d : Bytes) : ∀ n i, i + n = d.length → Part.runFrom [(a, d)] n (a + i) = d.drop i
  | 0, i, len => by rw [List.drop_of_length_le (by omega)]; rfl
  | n + 1, i, len => by
    have inside : i < d.length := by omega
    have byte : Part.byteOf [(a, d)] (a + i) = some d[i] := by
      simp [Part.byteOf, inside]
    rw [Part.runFrom, byte, List.drop_eq_getElem_cons inside, Nat.add_assoc]
    exact congrArg (d[i] :: ·) (runFrom_drop a d n (i + 1) (by omega))

theorem runFrom_whole (a : Nat) (d : Bytes) : Part.runFrom [(a, d)] d.length a = d := runFrom_drop a d d.length 0 (by omega)

/-- A segment at the acknowledged offset, within the window, is taken whole. -/
theorem piece_whole (a w : Nat) (d : Bytes) (fits : d.length ≤ w) : slice d 0 (min (a + d.length) (a + w) - a) = d := by
  rw [slice, List.drop_zero, Nat.min_eq_left (by omega), Nat.add_sub_cancel_left, List.take_length]

/-- With nothing held, every byte is new. -/
theorem fresh_whole (a n : Nat) : ((List.range n).filter (fun i => (Part.byteOf [] (a + i)).isNone)).length = n := by
  simp [Part.byteOf]

/-- With nothing else held, the bytes at the acknowledged offset deliver. -/
theorem got_whole (a : Nat) (d : Bytes) : Part.runFrom (if d.length = 0 then [] else [] ++ [(a, d)])
    ((if d.length = 0 then [] else [] ++ [(a, d)]).foldl (fun n e => n + e.2.length) 0) a = d := by
  split
  next empty =>
    rw [List.eq_nil_of_length_eq_zero empty]
    rfl
  next => simpa using runFrom_whole a d

theorem streamDrop_zero (p : Part) : p.streamDrop 0 = p := rfl

/-- A segment of new bytes at the acknowledged offset delivers them, and may be acknowledged at once. -/
theorem takeSegment_next {b : Bytes} (long : 16 ≤ b.length) (flags : field b 4 4 = 0)
    (found : p.findStream x.id (BitVec.ofNat 32 (field b 0 4)) = some y) (input : y.input = true) (undeclared : y.declared = none)
    (clear : y.segs = []) (at_ : field b 8 8 = y.acked) (window : (b.drop 16).length ≤ x.swin * 1024) :
    ∃ f, (∀ z, (f z).session = z.session ∧ (f z).id = z.id) ∧ (f y).data = y.data ++ b.drop 16 ∧ (f y).acked = y.acked + (b.drop 16).length ∧
      (p.takeSegment x b = (p.updStream x.id (BitVec.ofNat 32 (field b 0 4)) f).sendAck x.id (BitVec.ofNat 32 (field b 0 4)) ∨
        p.takeSegment x b = p.updStream x.id (BitVec.ofNat 32 (field b 0 4)) f) := by
  unfold Part.takeSegment
  simp only [found, undeclared, clear, at_, flags]
  rw [if_neg (by simp [input, Nat.not_lt.2 long]), if_neg (by simp)]
  simp only [Nat.max_self, Nat.sub_self, piece_whole _ _ _ window, fresh_whole, got_whole, streamDrop_zero]
  split
  · refine ⟨_, ?_, ?_, ?_, Or.inl rfl⟩
    · exact fun z => ⟨rfl, rfl⟩
    · rfl
    · rfl
  · refine ⟨_, ?_, ?_, ?_, Or.inr rfl⟩
    · exact fun z => ⟨rfl, rfl⟩
    · rfl
    · rfl

/-- An input stream whose acknowledged offset is told to the host. -/
def advertised (y : Stream) : Stream := { y with announced := y.acked }

/-- An acknowledgement of an input stream goes out, when its session's half can send. -/
theorem sendAck_can (foundS : p.findSession session = some x) (found : p.findStream session id = some y) (can : p.canSend x.half = true) :
    p.sendAck session id = (p.updStream session id advertised).emit session 0 0x1005 0 (toBE 4 id.toNat ++ zeros 4 ++ toBE 8 y.acked) x.path := by
  unfold Part.sendAck
  simp only [foundS, found]
  exact if_neg (by simp [can])

theorem findStream_advertised {request : BitVec 64} {code : Nat} {status : BitVec 16} {payload : Bytes} {path : Path}
    (found : p.findStream session id = some y) (off : p.shuffle.en = false) :
    ((p.updStream session id advertised).emit session request code status payload path).findStream session id = some (advertised y) := by
  rw [findStream_of_streams (streams_emit_off (p := p.updStream session id advertised) off)]
  exact findStream_updStream found fun _ => ⟨rfl, rfl⟩

theorem within_advertised {request : BitVec 64} {code : Nat} {status : BitVec 16} {payload : Bytes} {path : Path} (off : p.shuffle.en = false) :
    Within [.xct] p ((p.updStream session id advertised).emit session request code status payload path) :=
  (within_updStream p session id advertised).next (within_emit_off off)

theorem tx_advertised {request : BitVec 64} {code : Nat} {status : BitVec 16} {payload : Bytes} {path : Path}
    (foundS : p.findSession session = some x) (off : p.shuffle.en = false) :
    ((p.updStream session id advertised).emit session request code status payload path).tx =
      nextFrame x session request code status payload path :: p.tx :=
  tx_emit_off (p := p.updStream session id advertised) ((findSession_of_sessions rfl session).trans foundS) off

/-- An acknowledgement of an input stream leaves its bytes and its offset. -/
theorem sendAck_off (found : p.findStream session id = some y) (off : p.shuffle.en = false) : Within [.xct] p (p.sendAck session id) ∧
    ∃ z, (p.sendAck session id).findStream session id = some z ∧ z.data = y.data ∧ z.acked = y.acked := by
  cases foundS : p.findSession session with
  | none =>
    have stays : p.sendAck session id = p := by
      unfold Part.sendAck
      simp only [foundS]
    rw [stays]
    exact ⟨.refl, y, found, rfl, rfl⟩
  | some x =>
    by_cases can : p.canSend x.half = true
    · rw [sendAck_can foundS found can]
      exact ⟨within_advertised off, _, findStream_advertised found off, rfl, rfl⟩
    · have stays : p.sendAck session id = p := by
        unfold Part.sendAck
        simp only [foundS, found]
        exact if_pos (by simpa using can)
      rw [stays]
      exact ⟨.refl, y, found, rfl, rfl⟩

/-- What a segment of new bytes leaves of the stream that takes it. -/
theorem takeSegment_off {b : Bytes} (long : 16 ≤ b.length) (flags : field b 4 4 = 0)
    (found : p.findStream x.id (BitVec.ofNat 32 (field b 0 4)) = some y) (input : y.input = true) (undeclared : y.declared = none)
    (clear : y.segs = []) (at_ : field b 8 8 = y.acked) (window : (b.drop 16).length ≤ x.swin * 1024) (off : p.shuffle.en = false) :
    Within [.xct] p (p.takeSegment x b) ∧ ∃ z, (p.takeSegment x b).findStream x.id (BitVec.ofNat 32 (field b 0 4)) = some z ∧
      z.data = y.data ++ b.drop 16 ∧ z.acked = y.acked + (b.drop 16).length := by
  obtain ⟨f, keeps, data, acked, takes⟩ := takeSegment_next long flags found input undeclared clear at_ window
  have fed : (p.updStream x.id (BitVec.ofNat 32 (field b 0 4)) f).findStream x.id (BitVec.ofNat 32 (field b 0 4)) = some (f y) :=
    findStream_updStream found keeps
  have left : Within [.xct] p (p.updStream x.id (BitVec.ofNat 32 (field b 0 4)) f) := within_updStream p _ _ _
  rcases takes with acks | takes
  · rw [acks]
    obtain ⟨left', z, there, data', acked'⟩ := sendAck_off fed off
    exact ⟨left.next left', z, there, data'.trans data, acked'.trans acked⟩
  · rw [takes]
    exact ⟨left, _, fed, data, acked⟩

/-! ### The clocks of streams (03 R72, R73) -/

/-- An output stream whose unacknowledged bytes go again. -/
def resentAt (now : Nat) (y : Stream) : Stream := { y with resends := y.resends + 1, lastAt := now }

/-- The part once an output stream's unacknowledged bytes have gone again. -/
def resentPart (p : Part) (session id : BitVec 32) (x : Session) (y : Stream) : Part :=
  (segments id y.ended y.acked (slice y.data y.acked (y.announced - y.acked))).foldl (fun p b => p.emit session 0 0x1006 0 b x.path)
    ((p.atTime (y.lastAt + msec 1)).updStream session id (resentAt (p.atTime (y.lastAt + msec 1)).now))

theorem streamOutputResend_next {s : State} (on : s.power.on = true) (found : s.findStream session id = some y) (output : y.input = false)
    (owed : y.acked < y.announced) (few : y.resends < 8) (foundS : s.findSession session = some x) (can : s.canSend x.half = true) :
    exec (.streamOutputResend session id) s = .next (after s (resentPart s.toPart session id x y)) := by
  change execStreamOutputResend session id s = _
  rw [execStreamOutputResend, powered_on on]
  simp only [found, foundS]
  rw [if_neg (not_or.2 ⟨by simp [output], not_or.2 ⟨Nat.not_le.2 owed, by simp [can]⟩⟩), if_neg (Nat.not_le.2 few)]
  rfl

theorem resentPart_off (found : p.findStream session id = some y) (off : p.shuffle.en = false) :
    ChangesOnly [.xct] p (resentPart p session id x y) ∧ (resentPart p session id x y).now = max p.now (y.lastAt + msec 1) ∧
      (resentPart p session id x y).findStream session id = some (resentAt (max p.now (y.lastAt + msec 1)) y) := by
  obtain ⟨left, same⟩ := emits_off (p := (p.atTime (y.lastAt + msec 1)).updStream session id (resentAt (p.atTime (y.lastAt + msec 1)).now))
    (session := session) (segments id y.ended y.acked (slice y.data y.acked (y.announced - y.acked))) x.path off
  have marked := within_updStream (p.atTime (y.lastAt + msec 1)) session id (resentAt (p.atTime (y.lastAt + msec 1)).now)
  refine ⟨(changes_now p _).trans (marked.next left).units, (marked.next left).now, ?_⟩
  refine (findStream_of_streams same session id).trans ?_
  exact findStream_updStream (p := p.atTime (y.lastAt + msec 1)) found fun _ => ⟨rfl, rfl⟩

/-- A command that waits in a queue stops with its answer. -/
theorem stopCommand_queued {c : Cmd} {status : BitVec 16} {payload : Bytes} (found : p.findCmd c.uid = some c) (queued : c.place = .queued) :
    p.stopCommand c.uid (some status) payload = (p.forget c.uid).answer c.uid status payload := by
  unfold Part.stopCommand
  simp only [found, queued]
  unfold Part.stopWork
  simp only [found, queued]

theorem uid_of_findCmd {u : Nat} {c : Cmd} (found : p.findCmd u = some c) : c.uid = u := by
  simpa using List.find?_some found

end

/-! ### The sessions, apart from the notices that wait on open ones -/

/-- A session without the notices that wait while it is open. -/
def hush (x : Session) : Session := if x.st = .open_ then { x with waiting := [] } else x

@[simp] theorem id_hush (x : Session) : (hush x).id = x.id := by
  unfold hush
  split <;> rfl

@[simp] theorem st_hush (x : Session) : (hush x).st = x.st := by
  unfold hush
  split <;> rfl

theorem hush_of_closed {x : Session} (closed : x.st ≠ .open_) : hush x = x := if_neg closed

/-- The sessions, hushed: what recording, raising notices and answering leave alone. -/
def hushed (p : Part) : List Session := p.xct.sessions.map hush

/-- Parts that agree so, agree on the sessions that are not open. -/
theorem findSession_of_hushed {p q : Part} {id : BitVec 32} {x y : Session} (same : hushed q = hushed p) (found : p.findSession id = some x)
    (closed : x.st ≠ .open_) (foundY : q.findSession id = some y) : y = x := by
  have named : (fun x : Session => decide (x.id = id)) ∘ hush = fun x => decide (x.id = id) := by
    funext x
    simp
  have look (r : Part) : (hushed r).find? (fun x => decide (x.id = id)) = (r.findSession id).map hush := by
    rw [hushed, List.find?_map, named]
    rfl
  have both : hush y = hush x := by
    have := (look q).symm.trans ((congrArg _ same).trans (look p))
    rw [found, foundY] at this
    exact Option.some.inj this
  have closedY : y.st ≠ .open_ := by rwa [← st_hush y, both, st_hush]
  rwa [hush_of_closed closed, hush_of_closed closedY] at both

section
variable (p : Part)

theorem hushed_of_xct {p q : Part} (same : q.xct = p.xct) : hushed q = hushed p := by rw [hushed, hushed, same]

theorem xct_ite {c : Prop} [Decidable c] {q r : Part} {x : XctUnit} (h : q.xct = x) (k : r.xct = x) : (if c then q else r).xct = x := by
  split
  · exact h
  · exact k

theorem hushed_ite {c : Prop} [Decidable c] {q r : Part} {l : List Session} (h : hushed q = l) (k : hushed r = l) :
    hushed (if c then q else r) = l := by
  split
  · exact h
  · exact k

theorem hushed_foldl {α : Type} {f : Part → α → Part} (hf : ∀ p a, hushed (f p a) = hushed p) (l : List α) (p : Part) :
    hushed (l.foldl f p) = hushed p := by
  induction l generalizing p with
  | nil => rfl
  | cons a r ih => exact (ih _).trans (hf p a)

/-! A record touches nothing of XCT. -/

theorem xct_ringCopy (r : Rec) (late : Bool) : (p.ringCopy r late).xct = p.xct := by
  unfold Part.ringCopy
  exact xct_ite (xct_ite (xct_ite rfl rfl) (xct_ite rfl rfl)) (xct_ite (xct_ite rfl rfl) (xct_ite rfl rfl))

theorem xct_forwardLater (r : Rec) : (p.forwardLater r).xct = p.xct := xct_ite rfl rfl

theorem xct_kittyCopy (r : Rec) : (p.kittyCopy r).xct = p.xct := xct_ite rfl rfl

theorem xct_copies (r : Rec) (k : Bool) : ((if k = true then p.kittyCopy r else p).ringCopy r).xct = p.xct :=
  (xct_ringCopy _ _ _).trans (xct_ite (xct_kittyCopy p r) rfl)

theorem xct_pinnedFull : p.pinnedFullRec.xct = p.xct := (xct_ringCopy _ _ _).trans (xct_forwardLater p.tookSeq _)

theorem xct_store (r : Rec) (k : Bool) : (p.store r k).xct = p.xct := by
  have sequenced : (p.tookSeq.forwardLater r).xct = p.xct := xct_forwardLater p.tookSeq r
  unfold Part.store
  simp only
  refine xct_ite ?_ ((xct_copies _ _ _).trans sequenced)
  split
  · exact xct_ite ((xct_pinnedFull _).trans ((xct_copies _ _ _).trans sequenced)) ((xct_copies _ _ _).trans sequenced)
  · exact (xct_copies _ _ _).trans sequenced

/-! A notice waits on open sessions only. -/

theorem hushed_toSessions (sel : Session → Bool) (n : Notice) : hushed (p.toSessions sel n) = hushed p := by
  simp only [hushed, Part.toSessions, List.map_map]
  refine List.map_congr_left fun x _ => ?_
  simp only [Function.comp, hush]
  by_cases open_ : x.st = .open_
  · split <;> simp [open_]
  · simp [open_]

theorem xct_queueApplet (n hand : Nat) (k : Notice) : (p.queueApplet n hand k).xct = p.xct := xct_ite rfl rfl

theorem hushed_toApplets (hand : Nat) (n : Notice) : hushed (p.toApplets hand n) = hushed p :=
  hushed_ite (hushed_foldl (fun p k => hushed_of_xct (xct_queueApplet p k hand n)) _ p) rfl

theorem hushed_raise (n : Notice) (to_ : List (BitVec 32)) : hushed (p.raise n to_) = hushed p := by
  unfold Part.raise
  simp only
  split
  · exact hushed_toSessions _ _ _
  · have counted {c : Prop} [Decidable c] {a : Nat} : hushed (if c then (p.bump (regAddr 0 winNTC 0x0100)).bump a else p.bump (regAddr 0 winNTC 0x0100)) = hushed p :=
      hushed_ite rfl rfl
    have delivered {c : Prop} [Decidable c] {sel : Session → Bool} {q : Part} {e : EvrUnit} (h : hushed q = hushed p) :
        hushed (if c then (q.toSessions sel n).setEvr e else q.toSessions sel n) = hushed p :=
      hushed_ite ((hushed_toSessions q sel n).trans h) ((hushed_toSessions q sel n).trans h)
    exact hushed_ite ((hushed_toApplets _ _ _).trans (delivered counted)) (delivered counted)

theorem hushed_notice (source : Nat) (code : BitVec 16) (sev hand : Nat) (body : Bytes) (to_ : List (BitVec 32)) :
    hushed (p.notice source code sev hand body to_) = hushed p := hushed_raise p _ to_

theorem hushed_create (code : BitVec 16) (sev : Nat) (flags : Byte) (die : Nat) (p1 p2 p3 : Word) (k : Bool) :
    hushed (p.create code sev flags die p1 p2 p3 k) = hushed p := by
  unfold Part.create
  extract_lets key r _ stored
  have kept : hushed stored = hushed p := hushed_of_xct ((xct_store _ r k).trans rfl)
  exact hushed_ite (hushed_of_xct (Part.bump_xct p _ _)) (hushed_ite ((hushed_notice _ _ _ _ _ _ _).trans kept) kept)

theorem xct_suppress (die : Nat) (code : BitVec 16) : (p.suppress die code).xct = p.xct := by
  unfold Part.suppress
  simp only
  split <;> simp only [Part.bump_xct, Part.setEvr_xct]

theorem hushed_record (code : BitVec 16) (sev die : Nat) (p1 p2 p3 : Word) : hushed (p.record code sev die p1 p2 p3) = hushed p := by
  unfold Part.record
  have taken : hushed (p.takeTokens die code) = hushed p := hushed_of_xct (Part.setEvr_xct p _)
  exact hushed_ite (hushed_create _ _ _ _ _ _ _ _ _) (hushed_ite ((hushed_create _ _ _ _ _ _ _ _ _).trans taken)
    (hushed_of_xct (xct_suppress p die code)))

theorem hushed_event (source : Nat) (code : BitVec 16) (sev die hand p1 p2 p3 : Nat) : hushed (p.event source code sev die hand p1 p2 p3) = hushed p :=
  (hushed_notice _ _ _ _ _ _ _).trans (hushed_record p _ _ _ _ _ _)

/-! Answering leaves the sessions, but for notices. -/

theorem hushed_of_within {l : List Unit_} {p q : Part} (act : Within l p q) (apart : Unit_.xct ∉ l) : hushed q = hushed p :=
  hushed_of_xct (act.units.xct apart)

theorem hushed_noteDrain : hushed p.noteDrain = hushed p := hushed_of_within (within_noteDrain p) (by decide)

theorem hushed_countAnswer (st : BitVec 16) : hushed (p.countAnswer st) = hushed p := hushed_of_within (within_countAnswer p st) (by decide)

theorem hushed_updCmd (u : Nat) (f : Cmd → Cmd) : hushed (p.updCmd u f) = hushed p := rfl

theorem hushed_ordered (u : Nat) : hushed (p.ordered u) = hushed p := rfl

theorem hushed_closeStreams (u : Nat) : hushed (p.closeStreams u) = hushed p := rfl

theorem hushed_sendRetract (uid : Nat) (st : BitVec 16) : hushed (p.sendRetract uid st) = hushed p := by
  unfold Part.sendRetract
  split
  · rfl
  · split
    · rfl
    · exact hushed_ite rfl ((hushed_notice _ _ _ _ _ _ _).trans (hushed_record _ _ _ _ _ _ _))

theorem hushed_finishExit (n k : Nat) : hushed (p.finishExit n k) = hushed p := by
  unfold Part.finishExit
  simp only
  split
  · rfl
  · rfl

theorem hushed_deliverCall (uid n k : Nat) (d : BitVec 32) (st : BitVec 16) (b : Bytes) : hushed (p.deliverCall uid n k d st b) = hushed p := by
  have dropped : hushed ((p.closeStreams uid).dropCmd uid).noteDrain = hushed p := hushed_noteDrain _
  unfold Part.deliverCall
  simp only
  refine hushed_ite ((hushed_finishExit _ _ _).trans (Eq.trans ?_ dropped)) dropped
  exact hushed_of_within (l := [.seats]) ((((((Within.refl.next (within_guardedWrite _ _ _ _ _ _)).next (within_touch _ _ _ _ _)).next
    (within_guardedWrite _ _ _ _ _ _)).next (within_guardedWrite _ _ _ _ _ _)).next (within_guardedWrite _ _ _ _ _ _)).next (within_updCore _ _ _ _)) (by decide)

theorem hushed_answer (uid : Nat) (st : BitVec 16) (b : Bytes) : hushed (p.answer uid st b) = hushed p := by
  unfold Part.answer
  extract_lets q
  have retracted : hushed q = hushed p := hushed_sendRetract p uid st
  split
  · exact retracted
  · split
    · rw [hushed_noteDrain, hushed_ordered, hushed_updCmd, hushed_countAnswer, hushed_closeStreams, retracted]
    · exact (hushed_deliverCall _ _ _ _ _ _ _).trans retracted

/-! ### A session's ceremonies and its sink (15 R403, 05 R145) -/

theorem within_setCer (port : Nat) (x : CerPort) : Within [.cers] p (p.setCer port x) := by
  unfold Part.setCer
  refine .ite ⟨fun u hu => ?_, rfl⟩ ⟨fun u hu => ?_, rfl⟩
  · cases u <;> simp_all [Unit_.Same, after]
  · cases u <;> simp_all [Unit_.Same, after]

theorem within_updCer (port : Nat) (f : CerPort → CerPort) : Within [.cers] p (p.updCer port f) := within_setCer p port _

theorem within_deactivate (port : Nat) : Within [.cers] p (p.deactivate port) := within_updCer p port _

theorem within_cerEvent (port : Nat) (code : BitVec 16) (sev index p2 p3 : Nat) :
    Within [.evr, .counts, .part, .xct, .seats] p (p.cerEvent port code sev index p2 p3) := within_event p _ _ _ _ _ _ _ _

/-- The units that a ceremony's end may change. -/
abbrev cerUnits : List Unit_ := .cers :: answerUnits

theorem within_endStep (port : Nat) (st : BitVec 16) (b : Bytes) : Within cerUnits p (p.endStep port st b) := by
  unfold Part.endStep
  split
  · exact .refl
  · extract_lets timed unknown
    have timed : Within cerUnits p timed := .ite (within_bump p _ _).mono .refl
    have unknown : Within cerUnits p unknown := .ite (timed.next (within_bump _ _ _)) timed
    exact ((unknown.next (within_updCer _ _ _)).next (within_deactivate _ _)).next (within_answer _ _ _ _)

theorem within_voidCeremony (port : Nat) : Within cerUnits p (p.voidCeremony port) := by
  unfold Part.voidCeremony
  have ended := within_endStep p port CerStatus.void []
  simp only
  split
  · exact ended
  · exact ((ended.next (within_updCer _ _ _)).next (within_deactivate _ _)).next (within_cerEvent _ _ _ _ _ _ _)

theorem within_lapseAuth (port : Nat) : Within cerUnits p (p.lapseAuth port) := by
  unfold Part.lapseAuth
  split
  · exact .refl
  · exact (Within.refl.next (within_updCer p _ _)).next (within_cerEvent _ _ _ _ _ _ _)

theorem within_endCeremonies (session : BitVec 32) : Within cerUnits p (p.endCeremonies session) := by
  unfold Part.endCeremonies
  refine .foldl (fun p port => ?_) _ p
  extract_lets voided
  have voided : Within cerUnits p voided := by
    unfold voided
    split
    · exact .ite (within_voidCeremony p port) .refl
    · exact .refl
  split
  · exact .ite (voided.next (within_lapseAuth _ port)) voided
  · exact voided

theorem within_detachSink (st : BitVec 16) : Within (.vault :: answerUnits) p (p.detachSink st) := by
  unfold Part.detachSink
  split
  · exact .refl
  · exact ((Within.refl.next (within_setJournal p _)).next (within_updStream _ _ _ _)).next (within_answer _ _ _ _)

theorem hushed_cerEvent (port : Nat) (code : BitVec 16) (sev index p2 p3 : Nat) : hushed (p.cerEvent port code sev index p2 p3) = hushed p :=
  hushed_event p _ _ _ _ _ _ _ _

theorem hushed_updCer (port : Nat) (f : CerPort → CerPort) : hushed (p.updCer port f) = hushed p := hushed_of_within (within_updCer p port f) (by decide)

theorem hushed_deactivate (port : Nat) : hushed (p.deactivate port) = hushed p := hushed_updCer p port _

theorem hushed_endStep (port : Nat) (st : BitVec 16) (b : Bytes) : hushed (p.endStep port st b) = hushed p := by
  unfold Part.endStep
  split
  · rfl
  · extract_lets timed unknown
    have timed : hushed timed = hushed p := hushed_ite (hushed_of_within (within_bump p _ _) (by decide)) rfl
    have unknown : hushed unknown = hushed p := hushed_ite ((hushed_of_within (within_bump _ _ _) (by decide)).trans timed) timed
    rw [hushed_answer, hushed_deactivate, hushed_updCer, unknown]

theorem hushed_voidCeremony (port : Nat) : hushed (p.voidCeremony port) = hushed p := by
  unfold Part.voidCeremony
  have ended := hushed_endStep p port CerStatus.void []
  simp only
  split
  · exact ended
  · rw [Part.ceremonyEnded, hushed_cerEvent, hushed_deactivate, hushed_updCer, ended]

theorem hushed_lapseAuth (port : Nat) : hushed (p.lapseAuth port) = hushed p := by
  unfold Part.lapseAuth
  split
  · rfl
  · rw [Part.ceremonyEnded, hushed_cerEvent, hushed_updCer]

theorem hushed_endCeremonies (session : BitVec 32) : hushed (p.endCeremonies session) = hushed p := by
  unfold Part.endCeremonies
  refine hushed_foldl (fun p port => ?_) _ p
  extract_lets voided
  have voided : hushed voided = hushed p := by
    unfold voided
    split
    · exact hushed_ite (hushed_voidCeremony p port) rfl
    · rfl
  split
  · exact hushed_ite ((hushed_lapseAuth _ port).trans voided) voided
  · exact voided

theorem hushed_detachSink (st : BitVec 16) : hushed (p.detachSink st) = hushed p := by
  unfold Part.detachSink
  split
  · rfl
  · exact (hushed_answer _ _ _ _).trans rfl

end

/-! ### A session closes (03 R77, R79; 17 R436) -/

section
variable (p : Part)

theorem within_stranger (a : Arrival) : Within [.evr, .counts, .part, .xct, .seats] p (p.stranger a) :=
  (Within.refl.next (within_hpCount p _ _ _)).next (within_event _ _ _ _ _ _ _ _ _)

theorem within_disarmed (cause : Nat) : Within sendUnits p (p.disarmed cause) :=
  ((Within.refl.next (.of_noted (create_noted p _ _ _ _ _ _ _ _))).next (.of_noted (notice_noted _ _ _ _ _ _ _))).next (within_shuffle _ _)

theorem within_shuffleClose (id : BitVec 32) : Within sendUnits p (p.shuffleClose id) := by
  unfold Part.shuffleClose
  refine .ite ?_ .refl
  refine ((within_disarmed p 3).next (within_putTx _ _)).next (.foldl (l := [.evr, .counts, .part, .xct, .seats]) (fun q e => ?_) _ _)
  split
  · exact within_stranger q _
  · exact .refl

/-- The units that the close of a session may change. -/
abbrev closeUnits : List Unit_ := .vault :: sendUnits

theorem within_closeSession (id : BitVec 32) : Within closeUnits p (p.closeSession id) := by
  unfold Part.closeSession
  extract_lets closed here _ detached
  have closed : Within closeUnits p closed := (within_shuffleClose p id).mono
  have detached : Within closeUnits p detached := .ite (closed.next (within_setJournal _ _)) closed
  exact detached.next (within_xct _ _)

theorem findSession_closeSession (id : BitVec 32) : (p.closeSession id).findSession id = none := by
  unfold Part.closeSession
  simp [Part.findSession, List.find?_eq_none]

theorem within_settleSession (id : BitVec 32) : Within closeUnits p (p.settleSession id) := by
  unfold Part.settleSession
  split
  · exact .refl
  · exact .ite (within_closeSession p id) .refl

/-- What settling leaves of a session is what it was. -/
theorem findSession_settleSession {id : BitVec 32} {y : Session} (found : (p.settleSession id).findSession id = some y) : p.findSession id = some y := by
  unfold Part.settleSession at found
  split at found
  · exact found
  · split at found
    · rw [findSession_closeSession] at found
      contradiction
    · exact found

/-- A session that has begun to close. -/
def closingAt_ (now : Nat) (x : Session) : Session := { x with st := .closing, closingAt := now, waiting := [] }

/-- The part once a session has left Open: its notices and ceremonies end, its sink detaches. -/
def leaving (p : Part) (id : BitVec 32) : Part :=
  let q := (p.updSession id (closingAt_ p.now)).endCeremonies id
  if q.vault.journal.sink.any (fun s => s.1 == id) then q.detachSink else q

variable {p}

theorem startClosing_open {id : BitVec 32} {x : Session} (found : p.findSession id = some x) (isOpen : x.st = .open_) :
    p.startClosing id = (leaving p id).settleSession id := by
  unfold Part.startClosing
  simp only [found]
  exact if_neg (not_not.2 isOpen)

/-- The units that the end of Open may change. -/
abbrev leaveUnits : List Unit_ := .vault :: .cers :: .shuffle :: answerUnits

theorem within_leaving (p : Part) (id : BitVec 32) : Within leaveUnits p (leaving p id) := by
  unfold leaving
  have ended := ((within_updSession p id (closingAt_ p.now)).mono (l := leaveUnits)).next (within_endCeremonies _ id)
  exact .ite (ended.next (within_detachSink _ _)) ended

theorem within_leaves {id : BitVec 32} {x : Session} (found : p.findSession id = some x) (isOpen : x.st = .open_) :
    Within leaveUnits p (p.startClosing id) := by
  rw [startClosing_open found isOpen]
  exact (within_leaving p id).next (within_settleSession _ id)

theorem hushed_leaving (p : Part) (id : BitVec 32) : hushed (leaving p id) = hushed (p.updSession id (closingAt_ p.now)) :=
  hushed_ite ((hushed_detachSink _ _).trans (hushed_endCeremonies _ id)) (hushed_endCeremonies _ id)

/-- A session that leaves Open is closing, if it is still there. -/
theorem startClosing_closes {id : BitVec 32} {x y : Session} (found : p.findSession id = some x) (isOpen : x.st = .open_)
    (foundY : (p.startClosing id).findSession id = some y) : y = closingAt_ p.now x := by
  rw [startClosing_open found isOpen] at foundY
  exact findSession_of_hushed (hushed_leaving p id) (findSession_updSession found fun _ => rfl) (by simp [closingAt_])
    (findSession_settleSession _ foundY)

/-! ### Notices on their way, and the end of Closing (03 R77, R88; 07 R199) -/

theorem within_takeBudget {sev : Nat} {q : Part} (taken : p.takeBudget sev = some q) : Within [.evr] p q := by
  unfold Part.takeBudget at taken
  obtain ⟨-, taken⟩ := Option.ite_none_right_eq_some.1 taken
  rw [← Option.some.inj taken]
  exact within_setEvr p _

theorem within_numberNotices (id : BitVec 32) (l : List Notice) (p : Part) : Within [.evr, .counts, .xct] p (p.numberNotices id l).1 := by
  induction l generalizing p with
  | nil => exact .refl
  | cons n r ih =>
    rw [numberNotices_cons]
    split
    next q x taken found =>
      have taken := (within_takeBudget taken).mono (l := [.evr, .counts, .xct])
      exact ((taken.next (within_updSession _ _ _)).next (within_bump _ _ _)).next (ih _)
    next => exact (Within.refl.next (within_bump p _ _)).next (ih _)

theorem within_noticeFrame (p : Part) (x : Session) : Within sendUnits p (p.noticeFrame x) := by
  have numbered := (Within.refl.next (l := sendUnits) (within_updSession p x.id drained)).next (within_numberNotices x.id (x.waiting.take 32) _)
  rw [noticeFrame_of rfl]
  exact .ite numbered (numbered.next (within_emit _ _ _ _ _ _ _))

theorem within_sendRetracts (n : Nat) (p : Part) (id : BitVec 32) : Within sendUnits p (Part.sendRetracts n p id) := by
  induction n generalizing p with
  | zero => exact .refl
  | succ n ih =>
    unfold Part.sendRetracts
    split
    · exact .refl
    · exact .ite ((within_noticeFrame p _).next (ih _)) .refl

theorem within_sendWaiting (p : Part) (id : BitVec 32) : Within sendUnits p (p.sendWaiting id) := within_sendRetracts _ p id

/-- The units that the end of Closing may change. -/
abbrev killUnits : List Unit_ := .vault :: .shuffle :: .disp :: answerUnits

theorem within_killSession (p : Part) (id : BitVec 32) : Within killUnits p (p.killSession id) := by
  unfold Part.killSession
  have retracted (l : List Cmd) (q : Part) := Within.foldl (f := fun p (c : Cmd) => p.sendRetract c.uid Status.streamAborted)
    (fun p c => within_sendRetract p c.uid Status.streamAborted) l q
  have stopped (l : List Cmd) (q : Part) := Within.foldl (f := fun p (c : Cmd) => p.stopCommand c.uid none)
    (fun p c => within_stopCommand p c.uid none []) l q
  exact (((Within.refl.next (retracted _ p)).next (within_sendWaiting _ id)).next (stopped _ _)).next (within_closeSession _ id)

theorem findSession_killSession (p : Part) (id : BitVec 32) : (p.killSession id).findSession id = none := findSession_closeSession _ id

end

/-! ### The rows of sessions and streams -/

section
variable {s : State} {id sid : BitVec 32} {x : Session} {y : Stream} {b : Bytes}

/-- The last frame of a session was taken now. -/
def touched (now : Nat) (x : Session) : Session := { x with lastAt := now }

theorem sessionClose_next {o : Origin} {c : Cmd} (ready : Ready s o 0x1003 [] c) (owner : c.session? = some id) :
    exec (.sessionClose o []) s = .next (after s ((s.toPart.answer c.uid Status.done).startClosing id)) := by
  refine (powered_serve ready _).trans ?_
  rw [if_neg (not_not.2 ready.block)]
  simp only [owner]

theorem streamAck_next (on : s.power.on = true) (found : s.findSession id = some x) (past : x.st ≠ .offered) (len : b.length = 16) :
    exec (.streamAck id b) s = .next (after s ((s.toPart.updSession id (touched s.now)).takeAckEntry x b)) := by
  change execStreamAck id b s = _
  rw [execStreamAck, powered_on on]
  simp only [found]
  rw [if_neg past, takeAck_single len]
  rfl

theorem streamData_next (on : s.power.on = true) (found : s.findSession id = some x) (past : x.st ≠ .offered) :
    exec (.streamData id b) s = .next (after s ((s.toPart.updSession id (touched s.now)).takeSegment x b)) := by
  change execStreamData id b s = _
  rw [execStreamData, powered_on on]
  simp only [found]
  rw [if_neg past]
  rfl

theorem streamAckDelay_next (on : s.power.on = true) (found : s.findStream id sid = some y) (input : y.input = true) (owed : y.announced < y.acked) :
    exec (.streamAckDelay id sid) s = .next (after s ((s.atTime (y.advAt + usec 20)).sendAck id sid)) := by
  change execStreamAckDelay id sid s = _
  rw [execStreamAckDelay, powered_on on]
  simp only [found]
  rw [if_pos ⟨input, owed⟩]

theorem streamInputIdle_next (on : s.power.on = true) (found : s.findStream id sid = some y) (input : y.input = true) (open_ : y.ended ≠ some y.acked)
    (short : y.declared ≠ some y.acked) :
    exec (.streamInputIdle id sid) s = .next (after s ((s.atTime (y.lastAt + msec 100)).stopCommand y.uid (some Status.streamAborted))) := by
  change execStreamInputIdle id sid s = _
  rw [execStreamInputIdle, powered_on on]
  simp only [found]
  rw [if_pos ⟨input, open_, short⟩]

theorem sessionOfferTimeout_next (on : s.power.on = true) (found : s.findSession id = some x) (offered : x.st = .offered) :
    exec (.sessionOfferTimeout id) s = .next (after s (((s.atTime (x.offeredAt + sec 1)).closeSession id).bump (regAddr 0 winXCT 0x0110))) := by
  change execSessionOfferTimeout id s = _
  rw [execSessionOfferTimeout, powered_on on]
  simp only [found]
  rw [if_pos offered]

theorem sessionIdleTimeout_next (on : s.power.on = true) (found : s.findSession id = some x) (isOpen : x.st = .open_) :
    exec (.sessionIdleTimeout id) s = .next (after s ((s.atTime (x.lastAt + sec x.idle)).startClosing id)) := by
  change execSessionIdleTimeout id s = _
  rw [execSessionIdleTimeout, powered_on on]
  simp only [found]
  rw [if_pos isOpen]

theorem sessionClosingTimeout_next (on : s.power.on = true) (found : s.findSession id = some x) (closing : x.st = .closing) :
    exec (.sessionClosingTimeout id) s = .next (after s ((s.atTime (x.closingAt + msec 100)).killSession id)) := by
  change execSessionClosingTimeout id s = _
  rw [execSessionClosingTimeout, powered_on on]
  simp only [found]
  rw [if_pos closing]

/-- What an act leaves of the units and the time, once its clock has run. -/
theorem keeps_timed {l m : List Unit_} {t0 : Nat} {q : Part} (act : Within l (s.atTime t0) q) (apart : ∀ u ∈ m, u ∉ l) : Keeps m s (after s q) :=
  ((changes_now s.toPart _).trans act.units).keeps apart

theorem due_timed {l : List Unit_} {t0 : Nat} {q : Part} (act : Within l (s.atTime t0) q) : t0 ≤ (after s q).now :=
  (Nat.le_max_right s.now t0).trans act.now.ge

end

/-- Settles O12: by what each row leaves of its session or its stream, and the units that it stays within. -/
theorem sessionRowsAct : Obligations.SessionRowsAct := by
  refine ⟨fun s a payload e key i inc on free unnamed can ok long admitted keyed whole short rate flags limit table sealing index few => ?_,
    fun s a id x payload on free can named ok found offered long signed finished => ?_,
    fun s o c id ready owner => sessionClose_next ready owner,
    fun p id x found isOpen y foundY => ?_,
    fun s id x b y on found past len foundY output reserved above sent off => ?_,
    fun s id x b y on found past long flags foundY input undeclared clear at_ window off => ?_,
    fun s id sid x y on off foundY input owed found can => ?_,
    fun s id sid x y on off foundY output owed few found can => ?_,
    fun s id sid y c on foundY input open_ short foundC host queued kept => ?_,
    fun s id x on off found offered => ?_,
    fun s id x on found isOpen => ?_,
    fun s id x on found closing => ?_⟩
  · obtain ⟨counts, now, last, reached⟩ := ingress_eq s.toPart a (32 + payload.length)
    rw [reached] at rate
    obtain ⟨x, out, offers, st, named, hand⟩ := hello_offers (p := ingress s.toPart counts now last) long admitted keyed whole short rate flags limit
      table sealing index few can
    refine ⟨_, x, _, (sessionHello_next on free unnamed ok reached).trans (by rw [offers]), rfl, st, named, hand, rfl, rfl, rfl, ?_⟩
    exact ((changes_ingress s.toPart counts now last).trans ((within_offering _ x i inc).next (within_sent _ _)).units).keeps (by decide)
  · obtain ⟨counts, now, last, reached⟩ := ingress_eq s.toPart a (32 + payload.length)
    obtain rfl := id_of_findSession found
    have can : (ingress s.toPart counts now last).canSend a.half = true := can
    have known : (ingress s.toPart counts now last).findSession x.id = some x := found
    have opens := prove_opens long signed finished can
    have there := findSession_proven (a := a) known
    refine ⟨_, _, (sessionProve_next on free named found offered ok reached).trans (by rw [opens]), congrArg (Option.map (·.st)) there,
      tx_sent _ _, frameOut_code .., frameOut_status .., frameOut_payload .., ?_⟩
    exact ((changes_ingress s.toPart counts now last).trans ((within_proven _ a x).next (within_sent _ _)).units).keeps (by decide)
  · rw [startClosing_closes found isOpen foundY]
    exact ⟨rfl, rfl⟩
  · obtain ⟨left, acked⟩ := takeAckEntry_off (p := s.toPart.updSession id (touched s.now)) foundY output reserved above sent off
    exact ⟨_, streamAck_next on found past len, rfl, acked, ((within_updSession s.toPart id _).next left).units.keeps (by decide)⟩
  · obtain ⟨left, z, there, data, acked⟩ := takeSegment_off (p := s.toPart.updSession id (touched s.now)) long flags foundY input undeclared clear at_
      window off
    exact ⟨_, streamData_next on found past, z, there, data, acked, ((within_updSession s.toPart id _).next left).units.keeps (by decide)⟩
  · have acks := sendAck_can (p := s.atTime (y.advAt + usec 20)) found foundY can
    have left := within_advertised (p := s.atTime (y.advAt + usec 20)) (session := id) (id := sid) (request := 0) (code := 0x1005) (status := 0)
      (payload := toBE 4 sid.toNat ++ zeros 4 ++ toBE 8 y.acked) (path := x.path) off
    have there := findStream_advertised (p := s.atTime (y.advAt + usec 20)) (request := 0) (code := 0x1005) (status := 0)
      (payload := toBE 4 sid.toNat ++ zeros 4 ++ toBE 8 y.acked) (path := x.path) foundY off
    have found : (s.atTime (y.advAt + usec 20)).findSession id = some x := found
    exact ⟨_, _, (streamAckDelay_next on foundY input owed).trans (by rw [acks]), tx_advertised found off, frameOut_code .., frameOut_payload ..,
      congrArg (Option.map (·.announced)) there, due_timed left, keeps_timed left (by decide)⟩
  · obtain ⟨left, time, there⟩ := resentPart_off (x := x) foundY off
    exact ⟨_, streamOutputResend_next on foundY output owed few found can, congrArg (Option.map (·.resends)) there,
      (Nat.le_max_right _ _).trans time.ge, left.keeps (by decide)⟩
  · have named := uid_of_findCmd foundC
    rw [← named] at foundC
    have stops := stopCommand_queued (p := s.atTime (y.lastAt + msec 100)) (status := Status.streamAborted) (payload := []) foundC queued
    have left := within_stopCommand (s.atTime (y.lastAt + msec 100)) y.uid (some Status.streamAborted) []
    refine ⟨_, streamInputIdle_next on foundY input open_ short, ?_, due_timed left, keeps_timed left (by decide)⟩
    rw [← named, stops]
    exact answered_of_host (p := (s.atTime (y.lastAt + msec 100)).forget c.uid) foundC host kept
  · have left := (within_closeSession (s.atTime (x.offeredAt + sec 1)) id).mono (l := .counts :: closeUnits) |>.next (within_bump _ (regAddr 0 winXCT 0x0110) 1)
    exact ⟨_, sessionOfferTimeout_next on found offered, findSession_closeSession _ id, due_timed left, keeps_timed left (by decide)⟩
  · have found : (s.atTime (x.lastAt + sec x.idle)).findSession id = some x := found
    have left := within_leaves found isOpen
    refine ⟨_, sessionIdleTimeout_next on found isOpen, due_timed left, fun y foundY => ?_, keeps_timed left (by decide)⟩
    rw [startClosing_closes found isOpen foundY]
    rfl
  · have left := within_killSession (s.atTime (x.closingAt + msec 100)) id
    exact ⟨_, sessionClosingTimeout_next on found closing, findSession_killSession _ id, due_timed left, keeps_timed left (by decide)⟩

end Sys2Proof.HostTransport

/-! ## Dispatch: the Seat chosen, the pass, what a Seat takes in, and antes (04 R95 to R100, R110, R457; 05 R139; 06 R162; 11 R306 to R309) -/

namespace Sys2Proof.Dispatching

open Sys2Proof.Machine Sys2Proof.Safety Sys2Proof.Laws Sys2Proof.Architecture Sys2Proof.DealRows

/-! ### The Seat chosen (04 R100) -/

/-- A fold that keeps what it holds or takes the next element ends with what it began with or with an element. -/
theorem mem_of_foldl_choice {α : Type} {f : Option α → α → Option α} (choice : ∀ b a, f b a = b ∨ f b a = some a) {l : List α} {b : Option α} {n : α}
    (h : l.foldl f b = some n) : b = some n ∨ n ∈ l := by
  induction l generalizing b with
  | nil => exact .inl h
  | cons a r ih =>
    obtain taken | later := ih h
    · obtain kept | next := choice b a
      · exact .inl (kept ▸ taken)
      · exact .inr (by simp [Option.some.inj (next ▸ taken)])
    · exact .inr (List.mem_cons_of_mem a later)

/-- The turn of a list of hands, or of Seats, is one of them. -/
theorem mem_of_turnOf {l : List Nat} {ptr n : Nat} (h : Part.turnOf l ptr = some n) : n ∈ l := by
  have choice : ∀ (b : Option Nat) (a : Nat), (match b with | none => some a | some x => some (min x a)) = b ∨
      (match b with | none => some a | some x => some (min x a)) = some a := by
    rintro (_ | x) a
    · exact .inr rfl
    · exact (min_choice x a).imp (congrArg some) (congrArg some)
  unfold Part.turnOf at h
  simp only at h
  split at h
  · next k least =>
    obtain rfl := Option.some.inj h
    exact List.mem_of_mem_filter ((mem_of_foldl_choice choice least).resolve_left nofun)
  · exact (mem_of_foldl_choice choice h).resolve_left nofun

theorem foldl_min_le (f : Nat → Nat) (l : List Nat) (m : Nat) :
    l.foldl (fun m s => min m (f s)) m ≤ m ∧ ∀ s ∈ l, l.foldl (fun m s => min m (f s)) m ≤ f s := by
  induction l generalizing m with
  | nil => simp
  | cons a r ih =>
    obtain ⟨first, rest⟩ := ih (min m (f a))
    simp only [List.foldl_cons, List.mem_cons, forall_eq_or_imp]
    exact ⟨first.trans (min_le_left _ _), first.trans (min_le_right _ _), rest⟩

section
variable {p : Part} {c : Cmd} {site : Site} {n : Nat} {tie : Bool}

/-- The least-loaded of a list of Seats is one of them, and none of them has less load. -/
theorem leastOf_least {l : List Nat} (h : p.leastOf site l = some (n, tie)) : n ∈ l ∧ ∀ m ∈ l, p.loadOf n site ≤ p.loadOf m site := by
  cases l with
  | nil => cases h
  | cons a r =>
    obtain ⟨k, turn, pair⟩ := Option.map_eq_some_iff.1 h
    obtain ⟨rfl, -⟩ := Prod.mk.inj pair
    obtain ⟨mem, least⟩ := List.mem_filter.1 (mem_of_turnOf turn)
    obtain ⟨first, rest⟩ := foldl_min_le (fun s => p.loadOf s site) r (p.loadOf a site)
    rw [of_decide_eq_true least]
    exact ⟨mem, List.forall_mem_cons.2 ⟨first, rest⟩⟩

/-- The Seats that R100 chooses among: those the command may use now that have room on their queue and their link. -/
def roomFor (p : Part) (c : Cmd) (site : Site) : List Nat :=
  ((p.permitted c).filter (fun n => p.seatIn n .inService && !(p.heldPrivate c n) && p.flipped c n)).filter
    (fun n => p.hasRoom n site && p.linkUp n && (p.replayBuffer n false).length < 64)

theorem mem_roomFor : n ∈ roomFor p c site ↔ n ∈ p.permitted c ∧ p.seatIn n .inService = true ∧ p.heldPrivate c n = false ∧ p.flipped c n = true ∧
    p.hasRoom n site = true ∧ p.linkUp n = true ∧ (p.replayBuffer n false).length < 64 := by
  simp only [roomFor, List.mem_filter, Bool.and_eq_true, Bool.not_eq_true', decide_eq_true_eq, and_assoc]

/-- A choice to deal: the command's ordered turn has come, and the Seat has room, with at most the slack more load than the least-loaded. -/
theorem choose_deal (h : p.choose c site = .deal n tie) : p.orderedTurn c = true ∧ n ∈ roomFor p c site ∧
    ∃ best, (∀ m ∈ roomFor p c site, p.loadOf best site ≤ p.loadOf m site) ∧
      p.loadOf n site ≤ p.loadOf best site + 30 * p.disp.slack.toNat * site.count := by
  unfold Part.choose at h
  simp only at h
  split at h
  · cases h
  · split at h
    · cases h
    · next notWait =>
      have turn : p.orderedTurn c = true := Bool.of_not_eq_false fun no => notWait (by simp [no])
      refine ⟨turn, ?_⟩
      split at h
      · cases h
      · next best tieB found =>
        obtain ⟨mem, least⟩ := leastOf_least found
        have dealBest : n = best → n ∈ roomFor p c site ∧ ∃ best, (∀ m ∈ roomFor p c site, p.loadOf best site ≤ p.loadOf m site) ∧
            p.loadOf n site ≤ p.loadOf best site + 30 * p.disp.slack.toNat * site.count := by
          rintro rfl
          exact ⟨mem, n, least, Nat.le_add_right _ _⟩
        split at h
        · next a tieA near =>
          split at h
          · next slack =>
            obtain ⟨rfl, -⟩ := Choice.deal.inj h
            split at near
            · exact ⟨List.mem_of_mem_filter (leastOf_least near).1, best, least, slack⟩
            · cases near
          · exact dealBest (Choice.deal.inj h).1.symm
        · exact dealBest (Choice.deal.inj h).1.symm

end

/-- Settles O30: the Seat chosen has at most the slack over the least-loaded Seat, and that has no more load than any Seat with room. -/
theorem choiceWithinSlack : Obligations.ChoiceWithinSlack := by
  intro p c site n tie h
  obtain ⟨turn, mem, best, least, slack⟩ := choose_deal h
  obtain ⟨permitted, inService, -, -, room, up, -⟩ := mem_roomFor.1 mem
  refine ⟨permitted, inService, room, up, turn, fun m hm hs hp hf hr hl hb => ?_⟩
  calc p.loadOf n site ≤ p.loadOf best site + 30 * p.disp.slack.toNat * site.count := slack
    _ ≤ p.loadOf m site + 30 * p.disp.slack.toNat * site.count := Nat.add_le_add_right (least m (mem_roomFor.2 ⟨hm, hs, hp, hf, hr, hl, hb⟩)) _

/-! ### A pass over one waiting command (04 R95 to R100, R457) -/

/-- The part with other engine-time accounts. -/
def withShares (p : Part) (l : List Share) : Part := { p with disp := { p.disp with shares := l } }

/-- q is p with other engine-time accounts. -/
def SharesOnly (p q : Part) : Prop := ∃ l, q = withShares p l

theorem setShares {p q : Part} (h : SharesOnly p q) (l : List Share) : SharesOnly p (q.setDisp { q.disp with shares := l }) := by
  obtain ⟨shares, rfl⟩ := h
  exact ⟨l, rfl⟩

theorem openShare_shares {p q : Part} (h : SharesOnly p q) (n hand : Nat) (site : Site) : SharesOnly p (q.openShare n hand site) := by
  obtain ⟨shares, rfl⟩ := h
  unfold Part.openShare
  split
  · exact ⟨_, rfl⟩
  · exact ⟨_, rfl⟩

theorem tendShares_shares (p : Part) : SharesOnly p p.tendShares := by
  unfold Part.tendShares
  extract_lets opened
  have opens : SharesOnly p opened := by
    refine List.foldlRecOn (motive := SharesOnly p) _ _ ⟨_, rfl⟩ fun q h d _ => ?_
    split
    · exact List.foldlRecOn (motive := SharesOnly p) _ _ h fun q h m _ => openShare_shares h m _ _
    · exact openShare_shares h _ _ _
    · exact openShare_shares h _ _ _
    · exact h
  exact setShares opens _

/-! No account of engine time bears on the Seat chosen. -/

section
variable (p : Part) (l : List Share) (c : Cmd) (site : Site) (n : Nat)

theorem checkKeys_shares (handles : List (Nat × List Nat × Nat)) : (withShares p l).checkKeys n c handles = p.checkKeys n c handles := by
  induction handles with
  | nil => rfl
  | cons h r ih =>
    have same : (withShares p l).checkKey n c (slice c.params h.1 8) h.2.1 h.2.2 = p.checkKey n c (slice c.params h.1 8) h.2.1 h.2.2 := rfl
    rw [Part.checkKeys, Part.checkKeys, ih, same]

theorem tuFixed_shares : (withShares p l).tuFixed c = p.tuFixed c := by
  simp only [Part.tuFixed, Part.tuCheck, checkKeys_shares]
  rfl

theorem pkeFixed_shares : (withShares p l).pkeFixed c = p.pkeFixed c := by
  simp only [Part.pkeFixed, Part.pkeCheck, checkKeys_shares]
  rfl

theorem fixedOf_shares : (withShares p l).fixedOf n c = p.fixedOf n c := by
  simp only [Part.fixedOf, tuFixed_shares, pkeFixed_shares]
  rfl

theorem predictOn_shares : (withShares p l).predictOn n site c = p.predictOn n site c := by
  simp only [Part.predictOn, fixedOf_shares]
  rfl

theorem loadOf_shares : (withShares p l).loadOf n site = p.loadOf n site := by
  simp only [Part.loadOf, predictOn_shares]
  rfl

theorem leastOf_shares (seats : List Nat) : (withShares p l).leastOf site seats = p.leastOf site seats := by
  simp only [Part.leastOf, loadOf_shares]
  rfl

theorem choose_shares : (withShares p l).choose c site = p.choose c site := by
  simp only [Part.choose, leastOf_shares, loadOf_shares]
  rfl

end

/-! The queues of one command -/

section
variable {p : Part} {c : Cmd}

theorem findCmd_single (only : p.xct.cmds = [c]) : p.findCmd c.uid = some c := by simp [Part.findCmd, only]

theorem queueHead_single (only : p.xct.cmds = [c]) (queued : c.place = .queued) (hand : Nat) (cls : Cls) :
    p.queueHead hand cls = if c.hand = hand ∧ c.cls = cls then some c else none := by
  have queue : p.handQueue hand cls = if c.hand = hand ∧ c.cls = cls then [c] else [] := by
    simp only [Part.handQueue, only, List.filter_cons, List.filter_nil, queued]
    simp
  unfold Part.queueHead
  rw [queue]
  split
  · simp only [Part.firstInTurn]
    split <;> rfl
  · rfl

/-- The hands in turn, from the pointer on: each once. -/
theorem hands_in_turn (ptr : Nat) : ((List.range 256).map (fun i => (ptr + i) % 256)).Nodup ∧
    ∀ h < 256, h ∈ (List.range 256).map (fun i => (ptr + i) % 256) := by
  constructor
  · refine List.Nodup.map_on (fun a ha b hb e => ?_) List.nodup_range
    rw [List.mem_range] at ha hb
    omega
  · intro h hh
    refine List.mem_map.2 ⟨(h + 256 - ptr % 256) % 256, List.mem_range.2 (Nat.mod_lt _ (by decide)), ?_⟩
    omega

/-- A list without repeats, flattened by a function that is empty away from one member. -/
theorem flatMap_of_nodup {α β : Type} {f : α → List β} {l : List α} {a : α} (once : l.Nodup) (mem : a ∈ l) (away : ∀ b, b ≠ a → f b = []) :
    l.flatMap f = f a := by
  obtain ⟨before, later, rfl⟩ := List.append_of_mem mem
  obtain ⟨-, once, apart⟩ := List.nodup_append.1 once
  have before : before.flatMap f = [] := List.flatMap_eq_nil_iff.2 fun b hb => away b (apart b hb a (by simp))
  have later : later.flatMap f = [] := List.flatMap_eq_nil_iff.2 fun b hb => away b fun e => (List.nodup_cons.1 once).1 (e ▸ hb)
  rw [List.flatMap_append, List.flatMap_cons, before, later, List.append_nil, List.nil_append]

theorem queuesInTurn_single (only : p.xct.cmds = [c]) (queued : c.place = .queued) (dealable : c.cls ≠ .dealer) (hand : c.hand < 256) :
    p.queuesInTurn = [(c.hand, c.cls)] := by
  unfold Part.queuesInTurn
  simp only [queueHead_single only queued]
  obtain ⟨once, all⟩ := hands_in_turn p.disp.handPtr
  rw [flatMap_of_nodup once (all c.hand hand) fun h away => by simp [Ne.symm away]]
  cases cls : c.cls <;> simp [cls] at dealable ⊢

theorem queuesInTurn_none (noneQueued : ∀ c ∈ p.xct.cmds, c.place ≠ .queued) : p.queuesInTurn = [] := by
  have empty : ∀ h k, p.queueHead h k = none := by
    intro h k
    have queue : p.handQueue h k = [] := List.filter_eq_nil_iff.2 fun c mem => by simp [noneQueued c mem]
    rw [Part.queueHead, queue]
    rfl
  unfold Part.queuesInTurn
  simp [empty]

theorem dealPass_none (empty : p.queuesInTurn = []) : p.dealPass = (p, false) := by
  unfold Part.dealPass
  simp [empty]

variable {site : Site} {n : Nat} {tie : Bool}

theorem serveQueue_deal (head : p.queueHead c.hand c.cls = some c) (served : siteOf c.code = some site) (chosen : p.choose c site = .deal n tie)
    (first : Bool) : p.serveQueue first (c.hand, c.cls) =
      if !first || p.belowShare n c.hand c.epoch site then (p.dealTo c site n tie, true) else (p, false) := by
  unfold Part.serveQueue
  simp only [head, served, chosen]

/-- A pass over one queue deals its head, in the first round if its hand is below its guarantee and in the second if not. -/
theorem dealPass_single (queues : p.queuesInTurn = [(c.hand, c.cls)]) (head : p.queueHead c.hand c.cls = some c) (served : siteOf c.code = some site)
    (chosen : p.choose c site = .deal n tie) : p.dealPass = (p.dealTo c site n tie, true) := by
  unfold Part.dealPass
  simp only [queues, List.foldl_cons, List.foldl_nil, serveQueue_deal head served chosen]
  by_cases below : p.belowShare n c.hand c.epoch site = true
  · simp [below]
  · simp [below, serveQueue_deal head served chosen]

/-! What dealing leaves -/

/-- A command d as the deal of c to a Seat leaves it, in the order of dealing (04 R96). -/
def dealtCmd (p : Part) (c : Cmd) (site : Site) (n : Nat) (d : Cmd) : Cmd :=
  { d with place := .link n, seat := n, dealSeq := p.disp.dealSeq + 1, dealtAt := p.now, fixed := p.fixedOf n c, predicted := p.predictOn n site c
           missed := false, woke := false }

/-- q is p after the deal of its only command c to a Seat. -/
structure Dealt (p : Part) (c : Cmd) (site : Site) (n : Nat) (q : Part) : Prop where
  units : ChangesOnly [.disp, .xct, .counts] p q
  dealSeq : q.disp.dealSeq = p.disp.dealSeq + 1
  handPtr : q.disp.handPtr = (c.hand + 1) % 256
  cmds : q.xct.cmds = [dealtCmd p c site n c]

theorem Dealt.bump {q : Part} (h : Dealt p c site n q) (a k : Nat) : Dealt p c site n (q.bump a k) :=
  ⟨(h.units.trans (changes_bump q a k)).mono (by decide), h.dealSeq, h.handPtr, h.cmds⟩

theorem Dealt.arbServe {q : Part} (h : Dealt p c site n q) (resource source : Nat) : Dealt p c site n (q.arbServe resource source) :=
  ⟨(h.units.trans (changes_disp q _)).mono (by decide), h.dealSeq, h.handPtr, h.cmds⟩

theorem dealTo_dealt (only : p.xct.cmds = [c]) (site : Site) (n : Nat) (tie : Bool) : Dealt p c site n (p.dealTo c site n tie) := by
  unfold Part.dealTo
  extract_lets named predicted fixed d affinity ordered placed counted sent
  have dealt : Dealt p c site n placed := by
    refine ⟨((changes_disp p _).trans (changes_updCmd _ _ _)).mono (by decide), rfl, rfl, ?_⟩
    simp only [placed, Part.updCmd, Part.setCmds, ordered, Part.setDisp_xct, only, List.map_singleton, if_true]
    rfl
  have served : Dealt p c site n sent := (dealt.bump _ _).arbServe _ _
  split
  · exact served.bump _ _
  · exact served

/-! The wakes and duty rises that dealt work needs -/

/-- A command, whether a wake occurred for it aside. -/
def calm (c : Cmd) : Cmd := { c with woke := false }

theorem eq_of_calm {d e : Cmd} (same : calm d = calm e) : d = { e with woke := d.woke } :=
  calc d = { calm d with woke := d.woke } := rfl
    _ = { calm e with woke := d.woke } := by rw [same]

/-- q is p with antes posted for it: nothing of a command has changed but that a wake occurred, and nothing of the order of dealing. -/
structure Anted (p q : Part) : Prop where
  units : ChangesOnly [.xct, .disp, .counts] p q
  dealSeq : q.disp.dealSeq = p.disp.dealSeq
  handPtr : q.disp.handPtr = p.disp.handPtr
  cmds : q.xct.cmds.map calm = p.xct.cmds.map calm

end

namespace Anted

variable {p q r : Part}

theorem refl (p : Part) : Anted p p := ⟨(ChangesOnly.refl p).mono (by decide), rfl, rfl, rfl⟩

theorem trans (h : Anted p q) (k : Anted q r) : Anted p r :=
  ⟨(h.units.trans k.units).mono (by decide), k.dealSeq.trans h.dealSeq, k.handPtr.trans h.handPtr, k.cmds.trans h.cmds⟩

theorem ite {b : Prop} [Decidable b] (h : Anted p q) (k : Anted p r) : Anted p (if b then q else r) := by
  split
  · exact h
  · exact k

theorem foldl {α : Type} {f : Part → α → Part} (hf : ∀ p a, Anted p (f p a)) (l : List α) (p : Part) : Anted p (l.foldl f p) := by
  induction l generalizing p with
  | nil => exact refl p
  | cons a r ih => exact (hf p a).trans (ih _)

theorem bump (h : Anted p q) (a n : Nat) : Anted p (q.bump a n) :=
  ⟨(h.units.trans (changes_bump q a n)).mono (by decide), h.dealSeq, h.handPtr, h.cmds⟩

end Anted

section
variable (p : Part)

theorem anted_postAnte (die group i : Nat) : Anted p (p.postAnte die group i) := by
  have posted : ∀ d : DispUnit, d.dealSeq = p.disp.dealSeq → d.handPtr = p.disp.handPtr → Anted p { p with disp := d } := fun d hs hp =>
    ⟨(changes_disp p d).mono (by decide), hs, hp, rfl⟩
  unfold Part.postAnte
  extract_lets cycle open_
  split
  extract_lets q
  have posted : Anted p q := posted _ rfl rfl
  exact .ite posted (.ite ((posted.bump _ _).bump _ _) (posted.bump _ _))

/-- Marking the commands that a wake occurred for. -/
theorem anted_mark (sel : Cmd → Bool) (l : List Cmd) (same : l.map calm = p.xct.cmds.map calm) :
    Anted p (p.setCmds (l.map (fun c => if sel c then { c with woke := true } else c))) := by
  refine ⟨(changes_xct p _).mono (by decide), rfl, rfl, ?_⟩
  rw [← same]
  simp only [Part.setCmds, List.map_map]
  refine List.map_congr_left fun c _ => ?_
  simp only [Function.comp]
  split <;> rfl

theorem anted_wakeFor (n : Nat) (site : Site) : Anted p (p.wakeFor n site) := by
  unfold Part.wakeFor
  split
  · exact .refl p
  · simp only
    refine .ite (.refl p) ?_
    have posted : ∀ l : List Nat, Anted p (l.foldl (fun p i => p.postAnte n site.group i) p) := fun l => .foldl (fun p i => anted_postAnte p n _ i) l p
    exact (posted _).trans (anted_mark _ _ _ (posted _).cmds.symm)

theorem anted_raiseDuty (n i : Nat) : Anted p (p.raiseDuty n i) := .ite (anted_postAnte p _ _ _) (.refl p)

theorem anted_wakeFeed (n : Nat) : Anted p (p.wakeFeed n) := .ite (anted_postAnte p _ _ _) (.refl p)

/-- The wakes and duty rises of the Seats in service. -/
def wakesAll (p : Part) : Part :=
  p.inService.foldl (fun p n => ((([Site.tu, .lane, .pke, .digest].foldl (fun p k => p.wakeFor n k) p).raiseDuty n 0).raiseDuty n 1).wakeFeed n) p

theorem anted_wakesAll : Anted p (wakesAll p) := by
  refine .foldl (fun p n => ?_) _ p
  exact (((Anted.foldl (fun p k => anted_wakeFor p n k) _ p).trans (anted_raiseDuty _ n 0)).trans (anted_raiseDuty _ n 1)).trans (anted_wakeFeed _ n)

end

section
variable {p : Part} {c : Cmd} {site : Site} {n : Nat} {tie : Bool}

/-- A dispatcher's cycle over one waiting command: it is dealt to the Seat chosen, and the wakes follow. -/
theorem dispatch_single (free : p.guard.dealerHold = none) (only : p.xct.cmds = [c]) (queued : c.place = .queued) (dealable : c.cls ≠ .dealer)
    (hand : c.hand < 256) (served : siteOf c.code = some site) (chosen : p.choose c site = .deal n tie) :
    ∃ l, p.dispatch = wakesAll ((withShares p l).dealTo c site n tie) := by
  obtain ⟨l, tended⟩ := tendShares_shares p
  refine ⟨l, ?_⟩
  have only' : (withShares p l).xct.cmds = [c] := only
  have head : (withShares p l).queueHead c.hand c.cls = some c := by simp [queueHead_single only' queued]
  have pass := dealPass_single (queuesInTurn_single only' queued dealable hand) head served ((choose_shares p l c site).trans chosen)
  have rest : ((withShares p l).dealTo c site n tie).queuesInTurn = [] :=
    queuesInTurn_none (by rw [(dealTo_dealt only' site n tie).cmds]; simp [dealtCmd])
  have passes : Part.dealPasses (p.xct.cmds.length + 1) p.tendShares = (withShares p l).dealTo c site n tie := by
    rw [tended, only]
    simp [Part.dealPasses, pass, dealPass_none rest]
  unfold Part.dispatch
  rw [if_neg (by simp [free])]
  simp only [passes]
  rfl

theorem dispatch_held {e : Nat} (held : p.guard.dealerHold = some e) : p.dispatch = p := if_pos (by simp [held])

end

/-- Settles O29: the only queue's head is dealt once, and the wakes after it touch neither the deal nor the order of dealing. -/
theorem dispatchPassDeals : Obligations.DispatchPassDeals := by
  refine ⟨fun s c site n tie on free only queued dealable hand served chosen => ?_, fun s e on held => ?_⟩
  · obtain ⟨l, acts⟩ := dispatch_single free only queued dealable hand served chosen
    have dealt := dealTo_dealt (p := withShares s.toPart l) only site n tie
    have woken := anted_wakesAll ((withShares s.toPart l).dealTo c site n tie)
    have cmds := woken.cmds
    rw [dealt.cmds, List.map_singleton] at cmds
    obtain ⟨d, there, same⟩ := List.map_eq_singleton_iff.1 cmds
    rw [eq_of_calm same] at there
    refine ⟨_, { dealtCmd (withShares s.toPart l) c site n c with woke := d.woke }, powered_on on _, ?_⟩
    rw [acts]
    refine ⟨findCmd_single there, rfl, rfl, rfl, rfl, rfl, woken.dealSeq.trans dealt.dealSeq, woken.handPtr.trans dealt.handPtr, ?_⟩
    exact (((changes_disp s.toPart _).trans dealt.units).trans woken.units).keeps (by decide)
  · exact (powered_on on _).trans (by rw [dispatch_held held]; rfl)

/-! ### What a Seat takes in (04 R95, 05 R139, 06 R162) -/

section
variable {p : Part} {n : Nat} {c : Cmd}

/-- A word a Seat decodes: its counts are of that Seat; beside them it records and raises what they call for. -/
theorem decoded_seat (p : Part) (seat : n ≠ 0) (d : Decoded) (loc addr : Nat) : ∃ l : List (Nat × Seat),
    (Sparse.get {} l n).rxSeq = (p.seat n).rxSeq ∧ Noted { p with seats := { p.seats with seats := l } } (p.decoded n d loc addr) := by
  have counted : ∀ errors, ∃ l : List (Nat × Seat), (Sparse.get {} l n).rxSeq = (p.seat n).rxSeq ∧
      Noted { p with seats := { p.seats with seats := l } } (p.ecc n errors loc addr) := by
    intro errors
    have noted := ecc_noted p n errors loc addr
    rw [Part.setEcc, if_neg seat] at noted
    refine ⟨_, ?_, noted⟩
    rw [Sparse.get_set_same]
    split_ifs <;> rfl
  cases d with
  | clean => exact ⟨p.seats.seats, rfl, .refl p⟩
  | single => exact counted 1
  | double => exact counted 2
  | uncorrectable => exact counted 3

/-- The units that decoding a word on a Seat may change. -/
abbrev decodeUnits : List Unit_ := [.evr, .counts, .part, .xct, .seats]

theorem within_decoded (p : Part) (seat : n ≠ 0) (d : Decoded) (loc addr : Nat) : Within decodeUnits p (p.decoded n d loc addr) := by
  obtain ⟨l, -, noted⟩ := decoded_seat p seat d loc addr
  exact ((within_seats p _).mono (l := decodeUnits)).next (.of_noted noted)

theorem rxSeq_decoded (p : Part) (seat : n ≠ 0) (d : Decoded) (loc addr : Nat) : ((p.decoded n d loc addr).seat n).rxSeq = (p.seat n).rxSeq := by
  obtain ⟨l, same, noted⟩ := decoded_seat p seat d loc addr
  rw [seat_of_noted noted]
  exact same

theorem findCmd_decoded (p : Part) (seat : n ≠ 0) (d : Decoded) (loc addr u : Nat) : (p.decoded n d loc addr).findCmd u = p.findCmd u := by
  obtain ⟨l, -, noted⟩ := decoded_seat p seat d loc addr
  rw [findCmd_of_noted noted]
  rfl

theorem ne_zero_of_hasSeat (there : p.hasSeat n = true) : n ≠ 0 := by
  simp [Part.hasSeat] at there
  omega

theorem changes_requestKeys (p : Part) (n u : Nat) : ChangesOnly [.xct, .counts, .seats] p (p.requestKeys n u) := by
  obtain same | ⟨counts, fetching, asked⟩ := requestKeys_cases p n u
  · rw [same]
    exact (ChangesOnly.refl p).mono (by decide)
  · rw [asked]
    exact ((changes_updCmd p u _).trans (changes_counts _ counts)).trans (changes_seats _ _)

/-- On a link that is up, the next descriptor enters the Seat's queue. A good one then asks for its keys. -/
theorem descriptorArrives_good {ecc : Decoded} (up : p.linkUp n = true) (next : p.nextDescriptor n = some c) (good : ecc ≠ .uncorrectable) :
    p.descriptorArrives n ecc = ((p.decoded n ecc Part.locQueue (c.uid % 2 ^ 32)).updCmd c.uid (fun c => { c with place := .seatQ n })).requestKeys
      n c.uid := by
  unfold Part.descriptorArrives
  simp only [up, next, if_true, if_neg good]

/-- One with an uncorrectable word is aborted (01 R19). -/
theorem descriptorArrives_bad (up : p.linkUp n = true) (next : p.nextDescriptor n = some c) : p.descriptorArrives n .uncorrectable =
    (((p.decoded n .uncorrectable Part.locQueue (c.uid % 2 ^ 32)).updCmd c.uid (fun c => { c with place := .seatQ n })).markStart c.uid).seatAnswer
      n c.uid Status.abortedScrubbed := by
  unfold Part.descriptorArrives
  simp only [up, next, if_true]

/-- A host's command that released no output leaves its Seat with its outcome. -/
theorem seatAnswer_host {status : BitVec 16} {payload : Bytes} (found : p.findCmd c.uid = some c) (host : c.isCall = false) (kept : c.retract = none) :
    p.seatAnswer n c.uid status payload =
      ((p.closeStreams c.uid).updCmd c.uid (fun c => { c with place := .up n, status := status, payload := payload })).ordered c.uid := by
  unfold Part.seatAnswer
  simp only [HostTransport.sendRetract_none found kept, found]
  cases origin : c.origin with
  | host x r => rfl
  | call s k d => simp [Cmd.isCall, origin] at host

theorem rising_seatAnswer (s : State) {status : BitVec 16} {payload : Bytes} (found : p.findCmd c.uid = some c) (host : c.isCall = false)
    (kept : c.retract = none) : Rising (after s (p.seatAnswer n c.uid status payload)) c.uid n status payload := by
  refine ⟨{ c with place := .up n, status := status, payload := payload, doneSeq := p.xct.nextDone, doneAt := p.now / 2 }, ?_, rfl, rfl, rfl⟩
  calc (p.seatAnswer n c.uid status payload).findCmd c.uid
      = (((p.closeStreams c.uid).updCmd c.uid (fun c => { c with place := .up n, status := status, payload := payload })).updCmd c.uid
          (fun c => { c with doneSeq := p.xct.nextDone, doneAt := p.now / 2 })).findCmd c.uid := by rw [seatAnswer_host found host kept]; rfl
    _ = _ := by
      have known : (p.closeStreams c.uid).findCmd c.uid = some c := found
      rw [findCmd_updCmd_same, findCmd_updCmd_same, known]
      rfl

/-! A descriptor that arrives -/

/-- SEAT_DESCRIPTOR_ARRIVE with a descriptor on a link that is up. -/
theorem seatDescriptorArrive_next {s : State} {ecc : Decoded} (on : s.power.on = true) (there : s.hasSeat n = true) (up : s.linkUp n = true)
    (next : s.nextDescriptor n = some c) : exec (.seatDescriptorArrive n ecc) s = .next (after s ((tookFlit s.toPart n).descriptorArrives n ecc)) := by
  refine (onUnit_on there on _).trans ?_
  simp only [up, next, Option.isSome_some, Bool.and_self, if_true]
  rfl

theorem linkUp_tookFlit (p : Part) (n : Nat) : (tookFlit p n).linkUp n = p.linkUp n := by rw [Part.linkUp, seat_tookFlit, Part.linkUp]

/-- The units that a descriptor's arrival may change. -/
abbrev arrivalUnits : List Unit_ := [.power, .xct, .seats, .part, .evr, .counts]

theorem findCmd_queued (seat : n ≠ 0) (found : p.findCmd c.uid = some c) (d : Decoded) (loc addr : Nat) :
    ((p.decoded n d loc addr).updCmd c.uid (fun c => { c with place := .seatQ n })).findCmd c.uid = some { c with place := .seatQ n } := by
  rw [findCmd_updCmd_same, findCmd_decoded p seat, found]
  rfl

section
variable (seat : n ≠ 0) (up : p.linkUp n = true) (next : p.nextDescriptor n = some c) (found : p.findCmd c.uid = some c)
include seat up next found

theorem descriptorArrives_queues {ecc : Decoded} (good : ecc ≠ .uncorrectable) : ChangesOnly arrivalUnits p (p.descriptorArrives n ecc) ∧
    ((p.descriptorArrives n ecc).findCmd c.uid).map (·.place) = some (.seatQ n) ∧ ((p.descriptorArrives n ecc).seat n).rxSeq = (p.seat n).rxSeq := by
  rw [descriptorArrives_good up next good]
  refine ⟨?_, ?_, ?_⟩
  · exact (((within_decoded p seat _ _ _).units.trans (changes_updCmd _ _ _)).trans (changes_requestKeys _ _ _)).mono (by decide)
  · rw [place_requestKeys, findCmd_queued seat found]
    rfl
  · rw [seat_requestKeys]
    exact rxSeq_decoded p seat _ _ _

theorem descriptorArrives_aborts (s : State) (host : c.isCall = false) (kept : c.retract = none) :
    ChangesOnly arrivalUnits p (p.descriptorArrives n .uncorrectable) ∧
    Rising (after s (p.descriptorArrives n .uncorrectable)) c.uid n Status.abortedScrubbed [] := by
  rw [descriptorArrives_bad up next]
  constructor
  · exact ((((within_decoded p seat _ _ _).units.trans (changes_updCmd _ _ _)).trans (changes_updCmd _ _ _)).trans
      (within_seatAnswer _ _ _ _ _).units).mono (by decide)
  · refine rising_seatAnswer (c := { c with place := .seatQ n, startMark := true }) s ?_ host kept
    rw [Part.markStart, findCmd_updCmd_same, findCmd_queued seat found]
    rfl

end

/-! A key that is fetched -/

/-- What enters the cache when a fetch ends (05 R139). -/
def fetchedEntry (p : Part) (n i : Nat) : CacheEntry :=
  { seat := n, hand := (p.slot i).hand, slot := i, gen := (p.slot i).gen, lastUse := p.now, key := p.slot i }

/-- The fetch of a slot by a Seat has ended: its entry joins the cache. -/
def joined (p : Part) (n i : Nat) : Part :=
  { p with seats := { p.seats with cache := p.seats.cache ++ [fetchedEntry p n i], fetching := p.seats.fetching.filter (fun f => !(f == (n, i))) } }

theorem makeRoom_fits {run : Nat} (fits : p.cacheFill n + run ≤ 65536) (k : Nat) : Part.makeRoom n run (k + 1) p = some p := if_pos fits

theorem fetched_joins {i : Nat} (fetching : p.seats.fetching.contains (n, i) = true) (head : (p.slot i).st = .head)
    (sound : p.runPoisoned i (p.slot i).run = false) (new : p.cacheEntry n (p.slot i).hand i (p.slot i).gen = none)
    (fits : p.cacheFill n + (p.slot i).run ≤ 65536) : p.fetched n i = joined p n i := by
  unfold Part.fetched
  rw [if_neg (by rw [fetching]; decide)]
  simp only
  rw [if_neg (by simp [head, sound, new]), show (65537 : Nat) = 65536 + 1 from rfl, makeRoom_fits fits]
  rfl

/-- A key that arrives over a link that is up joins the cache; reading its words leaves its slot, its lines and the cache as they were. -/
theorem fetchArrives_joins {i : Nat} {ecc : Decoded} (seat : n ≠ 0) (up : p.linkUp n = true) (fetching : p.seats.fetching.contains (n, i) = true)
    (good : ecc ≠ .uncorrectable) (settled : p.unsettled (.slot i) = false) (head : (p.slot i).st = .head)
    (sound : p.runPoisoned i (p.slot i).run = false) (new : p.cacheEntry n (p.slot i).hand i (p.slot i).gen = none)
    (fits : p.cacheFill n + (p.slot i).run ≤ 65536) : ∃ q, Within decodeUnits p q ∧ q.slot i = p.slot i ∧ q.seats.cache = p.seats.cache ∧
      p.fetchArrives n i ecc = joined q n i := by
  obtain ⟨l, -, noted⟩ := decoded_seat p seat ecc Part.locLink i
  refine ⟨p.decoded n ecc Part.locLink i, within_decoded p seat _ _ _, ?_, ?_, ?_⟩
  · rw [noted.eq]
    rfl
  · rw [noted.eq]
  · unfold Part.fetchArrives
    rw [if_neg (by simp only [up, fetching]; decide)]
    simp only
    rw [noted.eq]
    refine (if_neg (not_or.2 ⟨good, ne_true_of_eq_false settled⟩)).trans ?_
    exact fetched_joins fetching head sound new fits

/-! A scrub that ends -/

theorem scrubbed_host (found : p.findCmd c.uid = some c) (host : c.isCall = false) (serving : p.seatIn n .inService = true) :
    p.scrubbed n c.uid = p.seatAnswer n c.uid c.status c.payload := by
  unfold Part.scrubbed
  simp only [found, serving, if_true]
  cases origin : c.origin with
  | host x r => rfl
  | call s k d => simp [Cmd.isCall, origin] at host

theorem finishEnds_none (gone : ∀ c ∈ p.xct.cmds, c.place = .up n) : p.finishEnds n = p := by
  unfold Part.finishEnds
  rw [List.filter_eq_nil_iff.2 fun c mem => by simp [gone c mem]]
  rfl

/-- The part when the scrub of an engine is over: its tile runs. -/
def scrubOver (p : Part) (n : Nat) (site : Site) (k : Nat) : Part :=
  tileEnters p (siteTile n site k) (p.tile (siteTile n site k)).scrubEnd .running

theorem changes_scrubOver (p : Part) (n : Nat) (site : Site) (k : Nat) : ChangesOnly [.seats] p (scrubOver p n site k) := changes_tileEnters p _ _ _

theorem cmds_scrubOver (p : Part) (n : Nat) (site : Site) (k : Nat) : (scrubOver p n site k).xct.cmds = p.xct.cmds := rfl

/-- The only command, stopped on an engine whose scrub ends, answers. -/
theorem scrubEnds_answers {site : Site} {k : Nat} (scrubbing : (p.tile (siteTile n site k)).st = .scrubbing) (only : p.xct.cmds = [c])
    (place : c.place = .scrubbing n site k) (host : c.isCall = false) (kept : c.retract = none) (serving : p.seatIn n .inService = true) :
    p.scrubEnds n site k = (scrubOver p n site k).seatAnswer n c.uid c.status c.payload := by
  unfold Part.scrubEnds
  extract_lets key tile timed entered stopped
  have runs : entered = scrubOver p n site k := if_pos scrubbing
  have found : (scrubOver p n site k).findCmd c.uid = some c := findCmd_single only
  have first : stopped = [c] := by
    simp only [stopped, runs]
    exact (congrArg (List.filter _) only).trans (by simp [place])
  rw [first, runs, List.foldl_cons, List.foldl_nil, scrubbed_host found host serving]
  refine finishEnds_none fun d mem => ?_
  rw [seatAnswer_host found host kept] at mem
  simp only [Part.ordered, Part.updCmd, Part.setCmds, Part.closeStreams, cmds_scrubOver, only, List.map_cons, List.map_nil, if_true, List.mem_singleton] at mem
  rw [mem]

end

/-- Settles O33: what is left at the command, the cache and the tile by a descriptor, a fetched key and a scrub that ends. -/
theorem seatIntakeRowsAct : Obligations.SeatIntakeRowsAct := by
  refine ⟨fun s n ecc c on there up next found => ⟨fun good => ?_, fun bad host kept => ?_⟩,
    fun s n i ecc on there up fetching good settled head sound new fits => ?_,
    fun s n k e c on there inSite scrubbing only place host kept serving => ?_⟩
  · obtain ⟨changes, queued, seq⟩ := descriptorArrives_queues (p := tookFlit s.toPart n) (ne_zero_of_hasSeat there)
      ((linkUp_tookFlit s.toPart n).trans up) next found good
    refine ⟨_, seatDescriptorArrive_next on there up next, queued, seq.trans ?_, ((changes_updSeat _ _ _).trans changes).keeps (by decide)⟩
    rw [seat_tookFlit]
  · subst bad
    obtain ⟨changes, rising⟩ := descriptorArrives_aborts (p := tookFlit s.toPart n) (ne_zero_of_hasSeat there)
      ((linkUp_tookFlit s.toPart n).trans up) next found s host kept
    exact ⟨_, seatDescriptorArrive_next on there up next, rising, ((changes_updSeat _ _ _).trans changes).keeps (by decide)⟩
  · obtain ⟨q, decoded, slot, cache, act⟩ := fetchArrives_joins (ne_zero_of_hasSeat there) up fetching good settled head sound new fits
    refine ⟨_, fetchedEntry q n i, onUnit_on there on _, ?_⟩
    rw [act]
    refine ⟨congrArg (· ++ [fetchedEntry q n i]) cache, rfl, congrArg Slot.hand slot, rfl, congrArg Slot.gen slot, slot, rfl, rfl, ?_,
      (decoded.next (within_seats _ _)).units.keeps (by decide)⟩
    · simp [after, joined]
  · have acts := scrubEnds_answers scrubbing only place host kept serving
    have found : (scrubOver s.toPart n (siteOfEngine e) k).findCmd c.uid = some c := findCmd_single only
    have left := within_seatAnswer (scrubOver s.toPart n (siteOfEngine e) k) n c.uid c.status c.payload
    refine ⟨_, onUnit_on (by simp [there, inSite]) on _, ?_⟩
    rw [acts]
    refine ⟨?_, (Nat.le_max_right s.now _).trans left.now.ge, rising_seatAnswer s found host kept,
      ((changes_scrubOver _ _ _ _).trans left.units).keeps (by decide)⟩
    rw [after, seatAnswer_host found host kept]
    exact st_tileEnters _ _ _ _

/-! ### Antes at a guard shell (04 R110; 11 R306, R307, R309) -/

section
variable (p : Part)

theorem within_lats (x : List (Nat × Machine.Lat)) : Within [.lats] p { p with lats := x } :=
  ⟨fun u hu => by cases u <;> simp [Unit_.Same, after] at hu ⊢, rfl⟩

theorem within_updLat (die : Nat) (f : Machine.Lat → Machine.Lat) : Within [.lats] p (p.updLat die f) := within_lats p _

theorem within_draw (n : Nat) : Within [] p (p.draw n) := ⟨changes_draws p _, rfl⟩

@[simp] theorem lat_updLat_same (die : Nat) (f : Machine.Lat → Machine.Lat) : (p.updLat die f).lat die = f (p.lat die) := Sparse.get_set_same _ _ _ _

theorem lat_of_lats {p q : Part} (same : q.lats = p.lats) (die : Nat) : q.lat die = p.lat die := by rw [Part.lat, same, Part.lat]

/-- A tile without a demand takes the ante's; it stays otherwise as it was. -/
def demandedAt (ts : Nat) (t : Tile) : Tile := { t with demand := if t.demand.isSome then t.demand else some ts }

/-- What a taken ante asks of one of its tiles: a wake at its start time, or a duty rise of a running lane. -/
def demandTile (die group ts : Nat) (p : Part) (i : Nat) : Part :=
  if (p.tile (tileKey die group i)).st = .running then
    if group = 1 then p.updLane die i (fun l => { l with duty := BitVec.ofNat 3 (min (l.duty.toNat + 1) p.dutyCap), dutyAt := max ts (l.dutyAt + nsec 100) })
    else p
  else p.updTile (tileKey die group i) (demandedAt ts)

theorem anteDemand_eq (die group tiles ts : Nat) : p.anteDemand die group tiles ts =
    ((List.range (groupTiles group)).filter (fun i => tiles.testBit i)).foldl (demandTile die group ts) p := rfl

theorem within_demandTile (die group ts i : Nat) : Within [.seats] p (demandTile die group ts p i) :=
  .ite (.ite (within_seats p _) .refl) (within_updTile p _ _)

theorem within_anteDemand (die group tiles ts : Nat) : Within [.seats] p (p.anteDemand die group tiles ts) := by
  rw [anteDemand_eq]
  exact .foldl (fun p i => within_demandTile p die group ts i) _ p

theorem tile_demandTile_same (die group ts i : Nat) (asleep : (p.tile (tileKey die group i)).st ≠ .running) :
    (demandTile die group ts p i).tile (tileKey die group i) = demandedAt ts (p.tile (tileKey die group i)) := by
  rw [demandTile, if_neg asleep, tile_updTile_same]

theorem tile_demandTile (die group ts i k : Nat) :
    (demandTile die group ts p i).tile k = p.tile k ∨ (demandTile die group ts p i).tile k = demandedAt ts (p.tile k) := by
  by_cases same : k = tileKey die group i
  · subst same
    by_cases running : (p.tile (tileKey die group i)).st = .running
    · rw [demandTile, if_pos running]
      exact .inl (by split <;> rfl)
    · exact .inr (tile_demandTile_same p die group ts i running)
  · refine .inl ?_
    unfold demandTile
    split
    · split <;> rfl
    · exact Sparse.get_set_other _ _ _ _ _ same

theorem demand_foldl_stays {die group ts k : Nat} (l : List Nat) (demanded : (p.tile k).demand = some ts) :
    ((l.foldl (demandTile die group ts) p).tile k).demand = some ts := by
  refine List.foldlRecOn (motive := fun q : Part => (q.tile k).demand = some ts) _ _ demanded fun q h i _ => ?_
  obtain e | e := tile_demandTile q die group ts i k <;> simp [e, demandedAt, h]

/-- Every tile of the list that is not running and has no earlier demand is demanded at the ante's start time. -/
theorem demand_foldl {die group ts i : Nat} {l : List Nat} (mem : i ∈ l) (asleep : (p.tile (tileKey die group i)).st ≠ .running)
    (free : (p.tile (tileKey die group i)).demand = none ∨ (p.tile (tileKey die group i)).demand = some ts) :
    ((l.foldl (demandTile die group ts) p).tile (tileKey die group i)).demand = some ts := by
  induction l generalizing p with
  | nil => cases mem
  | cons a r ih =>
    obtain rfl | later := List.mem_cons.1 mem
    · refine demand_foldl_stays _ r ?_
      rw [tile_demandTile_same p die group ts i asleep]
      obtain e | e := free <;> simp [demandedAt, e]
    · refine ih _ later ?_ ?_
      · obtain e | e := tile_demandTile p die group ts a (tileKey die group i) <;> rw [e] <;> exact asleep
      · obtain e | e := tile_demandTile p die group ts a (tileKey die group i)
        · rwa [e]
        · obtain f | f := free <;> simp [e, demandedAt, f]

theorem demand_anteDemand {die group tiles ts i : Nat} (inGroup : i < groupTiles group) (named : tiles.testBit i = true)
    (asleep : (p.tile (tileKey die group i)).st ≠ .running) (free : (p.tile (tileKey die group i)).demand = none) :
    ((p.anteDemand die group tiles ts).tile (tileKey die group i)).demand = some ts :=
  demand_foldl p (List.mem_filter.2 ⟨List.mem_range.2 inGroup, named⟩) asleep (.inl free)

/-- The window that an ante's flit opens, from its table entry (11 R307). -/
def windowOf (p : Part) (die ts : Nat) (b : Bytes) : AnteWindow :=
  { group := field b 0 1, cls := field b 1 1, units := p.anteEntry die (field b 0 1) (field b 1 1), from_ := max p.now (ts - nsec 10)
    until_ := ts + nsec 1500 }

/-- The part when its shell has taken a flit, 20 ns ahead of the flit's start time. -/
def flitTaken (p : Part) (f : AnteFlit) (ts : Nat) : Part := (p.setDisp { p.disp with flits := p.disp.flits.erase f }).atTime (ts - nsec 20)

/-- A window of a die is open. -/
def opened (p : Part) (die : Nat) (w : AnteWindow) : Part := p.updLat die (fun l => { l with windows := w :: l.windows })

/-- A good flit is taken: it is counted, its window opens, and on a Seat its tiles are demanded. -/
theorem takeAnte_opens {die : Nat} {f : AnteFlit} (reaches : die = 0 ∨ p.linkUp die = true) (next : p.disp.flits.find? (fun f => f.die = die) = some f)
    (ok : Part.anteFlitOk die f.bytes = true) : ∃ q, CountsOnly (flitTaken p f (p.cycleOf (field f.bytes 4 4))) q ∧ p.takeAnte die =
      let r := opened q die (windowOf (flitTaken p f (p.cycleOf (field f.bytes 4 4))) die (p.cycleOf (field f.bytes 4 4)) f.bytes)
      if die = 0 then r else r.anteDemand die (field f.bytes 0 1) (field f.bytes 2 2) (p.cycleOf (field f.bytes 4 4)) := by
  have reaches : (decide (die = 0) || p.linkUp die) = true := by simpa using reaches
  unfold Part.takeAnte
  simp only [reaches, if_true, next]
  rw [if_neg (by simp [ok])]
  refine ⟨_, ?_, rfl⟩
  split
  · exact ⟨_, rfl⟩
  · exact ⟨_, rfl⟩

/-- An entry of a die's ante table takes a value. -/
def learns (p : Part) (die : Nat) (w : AnteWindow) (v : BitVec 8) : Part :=
  p.updLat die (fun l => { l with entries := Sparse.put l.entries (w.group * 16 + w.cls) v })

/-- Learning writes the window's entry; a clamp is counted and recorded too. -/
theorem learnAnte_cases (die : Nat) (w : AnteWindow) (peak : Nat) :
    ∃ v, p.learnAnte die w peak = learns p die w v ∨ Noted ((learns p die w v).draw 1) (p.learnAnte die w peak) := by
  unfold Part.learnAnte
  simp only
  split
  · exact ⟨_, .inr ((Noted.of_bump (Part.draw (learns p die w _) 1) _ _).trans (record_noted _ _ _ _ _ _ _))⟩
  · exact ⟨_, .inl rfl⟩

/-- The units that learning from a window may change. -/
abbrev learnUnits : List Unit_ := [.lats, .evr, .counts, .part, .xct, .seats]

theorem within_learns (die : Nat) (w : AnteWindow) (v : BitVec 8) : Within learnUnits p (learns p die w v) := (within_updLat p die _).mono

theorem within_learnAnte (die : Nat) (w : AnteWindow) (peak : Nat) : Within learnUnits p (p.learnAnte die w peak) := by
  obtain ⟨v, e | noted⟩ := learnAnte_cases p die w peak
  · rw [e]
    exact within_learns p die w v
  · exact ((within_learns p die w v).next (within_draw _ 1)).next (.of_noted noted)

theorem windows_learns (die : Nat) (w : AnteWindow) (v : BitVec 8) : ((learns p die w v).lat die).windows = (p.lat die).windows := by
  rw [learns, lat_updLat_same]

theorem windows_learnAnte (die : Nat) (w : AnteWindow) (peak : Nat) : ((p.learnAnte die w peak).lat die).windows = (p.lat die).windows := by
  obtain ⟨v, e | noted⟩ := learnAnte_cases p die w peak
  · rw [e, windows_learns]
  · rw [lat_of_lats noted.lats]
    exact windows_learns p die w v

/-- The oldest window of a group ends at its time, and leaves the list; it may teach its entry. -/
theorem endAnte_ends {die g : Nat} {w : AnteWindow} (oldest : ((p.lat die).windows.filter (fun w => w.group = g)).getLast? = some w) (peak : BitVec 8) :
    Within learnUnits (p.atTime w.until_) (p.endAnte die g peak) ∧ ((p.endAnte die g peak).lat die).windows = (p.lat die).windows.erase w := by
  unfold Part.endAnte
  simp only [oldest]
  have ended : Within learnUnits (p.atTime w.until_) ((p.atTime w.until_).updLat die (fun l => { l with windows := l.windows.erase w })) :=
    (within_updLat _ die _).mono
  have left : (((p.atTime w.until_).updLat die (fun l => { l with windows := l.windows.erase w })).lat die).windows = (p.lat die).windows.erase w :=
    congrArg Machine.Lat.windows (lat_updLat_same _ _ _)
  generalize (p.atTime w.until_).updLat die (fun l => { l with windows := l.windows.erase w }) = q at ended left ⊢
  have shown : ∀ f, Within learnUnits (p.atTime w.until_) (q.updLat die f) := fun f => ended.next (within_updLat q die f)
  have same : ∀ peaks : Machine.Lat → List (Nat × BitVec 8),
      ((q.updLat die (fun l => { l with peaks := peaks l })).lat die).windows = (p.lat die).windows.erase w :=
    fun peaks => (congrArg Machine.Lat.windows (lat_updLat_same _ _ _)).trans left
  split
  · exact ⟨ended, left⟩
  · split
    · exact ⟨shown _, same _⟩
    · exact ⟨(shown _).next (within_learnAnte _ _ _ _), (windows_learnAnte _ _ _ _).trans (same _)⟩

end

/-- Settles O34: a taken flit's window and demands, and a window that ends, read back in the lattice and the tiles. -/
theorem anteRowsAct : Obligations.AnteRowsAct := by
  refine ⟨fun s die f on hd reaches next ok => ?_, fun s die g peak w on hd hg oldest => ?_⟩
  · obtain ⟨q, ⟨counts, rfl⟩, act⟩ := takeAnte_opens s.toPart reaches next ok
    refine ⟨_, onUnit_on hd on _, ?_⟩
    rw [act]
    extract_lets r
    have demands : Within [.seats] r (if die = 0 then r else r.anteDemand die (field f.bytes 0 1) (field f.bytes 2 2) (s.cycleOf (field f.bytes 4 4))) :=
      .ite .refl (within_anteDemand r _ _ _ _)
    have taken : ChangesOnly [.disp, .counts, .lats] s.toPart r :=
      (((changes_disp s.toPart _).trans (changes_now _ _)).trans (changes_counts _ counts)).trans (within_updLat _ die _).units
    have disp : Part.disp (if die = 0 then r else _) = r.disp := demands.units .disp (by decide)
    have lats : Part.lats (if die = 0 then r else _) = r.lats := demands.units .lats (by decide)
    refine ⟨congrArg DispUnit.flits disp, demands.now, ?_, fun i seat inGroup named asleep free => ?_, (taken.trans demands.units).keeps (by decide)⟩
    · refine (congrArg Machine.Lat.windows ((lat_of_lats lats die).trans (lat_updLat_same _ _ _))).trans ?_
      simp only [after, demands.now]
      rfl
    · simp only [after, if_neg seat]
      exact demand_anteDemand r inGroup named asleep free
  · obtain ⟨ended, left⟩ := endAnte_ends s.toPart oldest peak
    exact ⟨_, onUnit_on (by simp [hd, hg]) on _, left, (Nat.le_max_right s.now _).trans ended.now.ge,
      ((changes_now s.toPart _).trans ended.units).keeps (by decide)⟩

end Sys2Proof.Dispatching

/-! ## The key vault: counters, key reads, erases, mutations and the deck (05); the programs of a transaction unit (06) -/

namespace Sys2Proof.KeyVault

open Sys2Proof.Machine Sys2Proof.Safety Sys2Proof.Laws Sys2Proof.Architecture Sys2Proof.DealRows Sys2Proof.HostTransport

/-! ### The values that CTR_NEXT takes (05 R143, R144) -/

/-- A value is one of a range's. -/
def InRange (r : Nat × Nat) (v : Nat) : Prop := r.1 ≤ v ∧ v < r.2

section
variable {n lo hi : Nat} (rest : List (Nat × Nat))

/-- A range with more values than are asked for keeps the later ones. -/
theorem takeValues_part (more : lo + n < hi) : Part.takeValues n ((lo, hi) :: rest) = (List.range' lo n, (lo + n, hi) :: rest) := by
  have least : min n (hi - lo) = n := Nat.min_eq_left (by omega)
  rw [Part.takeValues, least, if_pos more, List.range'_eq_map_range]

/-- A range with no more values than are asked for gives them all, and the next ranges give the others. -/
theorem takeValues_all (fits : hi ≤ lo + n) : Part.takeValues n ((lo, hi) :: rest) =
    (List.range' lo (hi - lo) ++ (Part.takeValues (n - (hi - lo)) rest).1, (Part.takeValues (n - (hi - lo)) rest).2) := by
  have least : min n (hi - lo) = hi - lo := Nat.min_eq_right (by omega)
  have none_left : ¬lo + (hi - lo) < hi := by omega
  rw [Part.takeValues, least, if_neg none_left, List.range'_eq_map_range]

end

/-- What is taken and what is left are together what the ranges held. -/
theorem mem_takeValues {l : List (Nat × Nat)} (n v : Nat) :
    (v ∈ (Part.takeValues n l).1 ∨ ∃ r ∈ (Part.takeValues n l).2, InRange r v) ↔ ∃ r ∈ l, InRange r v := by
  induction l generalizing n with
  | nil => simp [Part.takeValues]
  | cons r rest ih =>
    obtain ⟨lo, hi⟩ := r
    by_cases more : lo + n < hi
    · rw [takeValues_part rest more]
      simp only [List.mem_range'_1, List.exists_mem_cons_iff, InRange]
      have parts : (lo ≤ v ∧ v < lo + n) ∨ (lo + n ≤ v ∧ v < hi) ↔ lo ≤ v ∧ v < hi := by omega
      rw [← or_assoc, parts]
    · rw [takeValues_all rest (by omega)]
      have all : lo ≤ v ∧ v < lo + (hi - lo) ↔ lo ≤ v ∧ v < hi := by omega
      rw [List.mem_append, List.mem_range'_1, or_assoc, ih, List.exists_mem_cons_iff, all, InRange]

/-- Ranges that follow one another hold their values in order. -/
theorem before_of_ordered {a b : Nat × Nat} {v w : Nat} (order : a.2 ≤ b.1) (hv : InRange a v) (hw : InRange b w) : v < w :=
  Nat.lt_of_lt_of_le hv.2 (order.trans hw.1)

/-- The values taken come in order, and each before every value that is left. -/
theorem takeValues_ordered {l : List (Nat × Nat)} (order : l.Pairwise (fun a b => a.2 ≤ b.1)) (n : Nat) :
    (Part.takeValues n l).1.Pairwise (· < ·) ∧
      ∀ v ∈ (Part.takeValues n l).1, ∀ r ∈ (Part.takeValues n l).2, ∀ w, InRange r w → v < w := by
  induction l generalizing n with
  | nil => simp [Part.takeValues]
  | cons r rest ih =>
    obtain ⟨lo, hi⟩ := r
    obtain ⟨first, later⟩ := List.pairwise_cons.1 order
    by_cases more : lo + n < hi
    · rw [takeValues_part rest more]
      refine ⟨List.pairwise_lt_range', fun v hv r hr w hw => ?_⟩
      rw [List.mem_range'_1] at hv
      obtain rfl | hr := List.mem_cons.1 hr
      · exact hv.2.trans_le hw.1
      · exact before_of_ordered (first r hr) ⟨hv.1, hv.2.trans more⟩ hw
    · rw [takeValues_all rest (by omega)]
      obtain ⟨sorted, apart⟩ := ih later (n - (hi - lo))
      have head : ∀ v ∈ List.range' lo (hi - lo), ∀ w, (∃ r ∈ rest, InRange r w) → v < w := by
        rintro v hv w ⟨r, hr, hw⟩
        rw [List.mem_range'_1] at hv
        exact before_of_ordered (first r hr) ⟨hv.1, by omega⟩ hw
      refine ⟨List.pairwise_append.2 ⟨List.pairwise_lt_range', sorted, fun v hv w hw => ?_⟩, fun v hv r hr w hw => ?_⟩
      · exact head v hv w ((mem_takeValues _ w).1 (.inl hw))
      · obtain hv | hv := List.mem_append.1 hv
        · exact head v hv w ((mem_takeValues _ w).1 (.inr ⟨r, hr, hw⟩))
        · exact apart v hv r hr w hw

/-- As many values are taken as are asked for, where the ranges hold them. -/
theorem length_takeValues {l : List (Nat × Nat)} {n : Nat} (held : n ≤ (l.map (fun r => r.2 - r.1)).sum) :
    (Part.takeValues n l).1.length = n := by
  induction l generalizing n with
  | nil => simp_all [Part.takeValues]
  | cons r rest ih =>
    obtain ⟨lo, hi⟩ := r
    rw [List.map_cons, List.sum_cons] at held
    by_cases more : lo + n < hi
    · rw [takeValues_part rest more, List.length_range']
    · rw [takeValues_all rest (by omega), List.length_append, List.length_range', ih (by omega)]
      omega

/-- Settles O25: by induction on the ranges, each of which gives all its values or keeps its later ones. -/
theorem issuedValuesLeave : Obligations.IssuedValuesLeave := by
  intro n l _ order
  obtain ⟨sorted, apart⟩ := takeValues_ordered order n
  exact ⟨sorted, fun v hv r hr inside => (apart v hv r hr v inside).false, mem_takeValues n, length_takeValues⟩

/-! ### The programs of a transaction unit (05 R129, R130; 06 R165 to R182) -/

section
variable (p : Part) (n u : Nat)

theorem tu_setTu_same (j : Job) : (p.setTu n u (some j)).tu n u = some j := Sparse.get?_put_same _ _ _

/-- A Seat's units have sixteen keys of their own. -/
theorem tu_setTu_other (j : Job) {m k : Nat} (apart : (m, k) ≠ (n, u)) (hk : k < 16) (hu : u < 16) :
    (p.setTu n u (some j)).tu m k = p.tu m k := by
  refine Sparse.get?_put_other _ _ _ _ fun same => apart ?_
  unfold tuKey at same
  exact Prod.ext (by dsimp only; omega) (by dsimp only; omega)

theorem changes_setTu (j : Option Job) : ChangesOnly [.seats] p (p.setTu n u j) := changes_seats p _

theorem tu_drbgTakes (die k m i : Nat) : (p.drbgTakes die k).tu m i = p.tu m i := rfl

theorem draws_drbgTakes (die k : Nat) : (p.drbgTakes die k).draws = p.draws + k := rfl

/-- A program with its own trick on the unit leaves the trick's outcome there, and takes its masks from the Seat's DRBG (R164). -/
theorem runTrick_own {prog : Nat} {j : Job} {c : Cmd} (held : p.tu n u = some j) (own : j.prog = prog) (fresh : j.out = none)
    (found : p.findCmd j.uid = some c) :
    p.runTrick n u prog = (p.setTu n u (some { j with out := some (p.trickOutcome n c) })).drbgTakes n 24 := by
  have runs : ¬(j.prog ≠ prog ∨ j.out.isSome = true) := by simp [own, fresh]
  unfold Part.runTrick
  simp only [held, if_neg runs, found]

end

/-- Settles O14: each row runs its program on the unit, which holds the outcome of its own trick. -/
theorem trickProgramsRun : Obligations.TrickProgramsRun := by
  intro s n u prog i j c row on hn hu held own fresh found
  have runs : exec i s = runOn prog n u s := by fin_cases row <;> rfl
  refine ⟨_, runs.trans (onUnit_on (by simp [hn, hu]) on _), ?_⟩
  rw [runTrick_own s.toPart n u held own fresh found]
  have act := (changes_setTu s.toPart n u (some { j with out := some (s.trickOutcome n c) })).trans (changes_drbgTakes _ n 24)
  exact ⟨tu_setTu_same _ _ _ _, act.xct (by decide), draws_drbgTakes _ _ _,
    fun m k apart hk => tu_setTu_other s.toPart n u _ apart hk hu, act.keeps (by decide)⟩

/-! ### Key reads and counter commands (05 R121, R122, R127, R142 to R144) -/

/-- The house hand's commands do not wait for the vault, the other hands' are served once it is open. -/
theorem withVault_serves {p : Part} {c : Cmd} (served : c.hand = 0 ∨ p.vault.st = .open_) (free : p.mustWait c = false) (f : Part → Part) :
    p.withVault c f = f p := by
  have notShut : ¬(c.hand ≠ 0 ∧ p.vault.st ≠ .open_) := by tauto
  rw [Part.withVault, if_neg notShut, if_neg (ne_true_of_eq_false free)]

/-- A key or counter command whose block has its form is served by the row's act under the open vault. -/
theorem vaultCommand_next {s : State} {o : Origin} {code : Nat} {b : Bytes} {c : Cmd} (ready : Ready s o code b c)
    (served : c.hand = 0 ∨ s.vault.st = .open_) (free : s.mustWait c = false) {bad : Cmd → Prop} [DecidablePred bad] (form : ¬bad c)
    (f : Cmd → Part → Part) :
    powered s (fun p => p.serve o code b (fun p c => if bad c then p.lengthFault c.uid else p.withVault c (f c))) =
      .next (after s (f c s.toPart)) := by
  rw [powered_serve ready, if_neg form, withVault_serves served free]

theorem findCmd_parkCmd (p : Part) (u : Nat) : (p.parkCmd u).findCmd u = (p.findCmd u).map (fun c => { c with place := .waiting }) :=
  findCmd_updCmd_same p

/-- A request for values of a counter that holds too few waits for a grant (R144). -/
def awaitsGrant (p : Part) (i u : Nat) : Part :=
  ((p.parkCmd u).bump (regAddr 0 winCTR 0x0118)).setVault { p.vault with leaseWaits := p.vault.leaseWaits ++ [(i, u)] }

theorem changes_awaitsGrant (p : Part) (i u : Nat) : ChangesOnly [.xct, .counts, .vault] p (awaitsGrant p i u) :=
  ((within_updCmd p u _).units.trans (changes_bump _ _ _)).trans (changes_vault _ _)

theorem header_length (x : Slot) : x.header.length = 32 := by
  unfold Slot.header
  simp only [List.length_append, toBE_length, zeros_length, List.length_singleton]

/-- Settles O24: each command has its form and passes each check of its row, and the row's last branch is its answer or its wait. -/
theorem keyReadsAndCounters : Obligations.KeyReadsAndCounters := by
  refine ⟨fun s o c b ready len served free fault => ?_, fun s o c b ready len zero served free slot mine clean => ?_, header_length,
    fun s o c b ready len zero served free ctr mine clean => ?_,
    fun s o c b ready len least most served free ctr mine clean live held => ?_,
    fun s o c b ready len least most served free ctr mine clean live short more lead below both => ?_,
    fun s o c b ready len zero served free ctr mine clean whole sink => ?_⟩
  · refine (vaultCommand_next ready served free ?_ _).trans ?_
    · rw [ready.block]
      simp [len]
    · rw [ready.block, fault]
  · refine (vaultCommand_next ready served free ?_ _).trans ?_
    · rw [ready.block]
      simp [len, zero, slot]
    · rw [ready.block, if_neg (ne_false_of_eq_true mine), if_neg (ne_true_of_eq_false clean)]
      rfl
  · refine (vaultCommand_next ready served free ?_ _).trans ?_
    · rw [ready.block]
      simp [len, zero, ctr]
    · rw [ready.block, if_neg (ne_false_of_eq_true mine), if_neg (ne_true_of_eq_false clean)]
  · refine (vaultCommand_next ready served free ?_ _).trans ?_
    · rw [ready.block]
      omega
    · rw [ready.block, if_neg (ne_false_of_eq_true mine), if_neg (ne_true_of_eq_false clean), if_neg live, if_pos held]
  · have allowed : ¬((s.solo = true ∧ s.part.lead = false) ∨ s.soloLimit (field b 0 4) = true) := by
      rw [below]
      rintro (⟨solo, follow⟩ | limit)
      · exact absurd (lead solo) (ne_true_of_eq_false follow)
      · exact absurd limit (by decide)
    refine ⟨after s (awaitsGrant s.toPart (field b 0 4) c.uid), (vaultCommand_next ready served free ?_ _).trans ?_, rfl, ?_,
      (changes_awaitsGrant _ _ _).keeps (by decide)⟩
    · rw [ready.block]
      omega
    · rw [ready.block, if_neg (ne_false_of_eq_true mine), if_neg (ne_true_of_eq_false clean), if_neg live, if_neg (Nat.not_le.2 short),
        if_neg more, if_neg allowed, if_neg (ne_false_of_eq_true both)]
      rfl
    · exact (congrArg (Option.map Cmd.place) (findCmd_parkCmd s.toPart c.uid)).trans (Option.map_map _ _ _)
  · refine (vaultCommand_next ready served free ?_ _).trans ?_
    · rw [ready.block]
      simp [len, zero, ctr]
    · rw [ready.block, if_neg (ne_false_of_eq_true mine), if_neg (ne_true_of_eq_false clean),
        if_neg (fun h => ne_true_of_eq_false (whole h.1) h.2), sink]

/-! ### Key erases (05 R136, R137) -/

section
variable (p : Part)

theorem changes_wipeCache (sel : CacheEntry → Bool) : ChangesOnly [.seats, .counts] p (p.wipeCache sel) := by
  obtain ⟨counts, h⟩ := wipeCache_counts p sel
  rw [h]
  exact (changes_seats p _).trans (changes_counts _ counts)

@[simp] theorem cache_wipeCache (sel : CacheEntry → Bool) : (p.wipeCache sel).seats.cache = p.seats.cache.filter (fun e => !(sel e)) := by
  obtain ⟨counts, h⟩ := wipeCache_counts p sel
  rw [h]
  rfl

variable {p} {n slot g te : Nat}

/-- An erase order at a Seat without users and without a register job wipes the key's copies, and does nothing else. -/
theorem eraseOrder_unused (erased : p.erasedGen n slot = some (g, te)) (unused : p.usersOf n slot (g, te) = []) (idle : (p.dgst n 1).reg = none) :
    p.eraseOrder n slot = p.wipeCache (fun e => e.seat == n && e.slot == slot && e.gen ≤ g) := by
  have unfed : p.eraseFeed n slot (g, te) = p := if_neg (by simp [idle])
  unfold Part.eraseOrder
  simp only [erased, unused, List.foldl_nil, unfed]

/-- The only mutation is a committed erase that waits for the Seat: its generation is the one erased. -/
theorem erasedGen_only {m : Mutation} (only : p.vault.muts = [m]) (kind : m.kind = .keyErase slot g) (committed : m.committed = true)
    (waits : m.confirms = [n]) : p.erasedGen n slot = some (g, m.te) := by
  unfold Part.erasedGen
  simp [only, kind, committed, waits]

theorem setVault_setVault (p : Part) (v w : VaultUnit) : (p.setVault v).setVault w = p.setVault w := rfl

/-- With the last confirmation an erase that answers no command is over. -/
theorem eraseConfirm_last {m : Mutation} (only : p.vault.muts = [m]) (kind : m.kind = .keyErase slot g) (committed : m.committed = true)
    (waits : m.confirms = [n]) (unowned : m.owner = none) (unused : p.usersOf n slot (g, m.te) = [])
    (wiped : p.seats.cache.any (fun e => e.seat == n && e.slot == slot && e.gen ≤ g) = false) :
    p.eraseConfirm n slot = p.setVault { p.vault with muts := [] } := by
  unfold Part.eraseConfirm
  simp [erasedGen_only only kind committed waits, wiped, unused, only, kind, committed, waits, Part.dropConfirm, unowned, setVault_setVault]

end

/-- A copy of a slot's key past its cutoff becomes draining (R136). -/
def drained (n slot : Nat) (e : CacheEntry) : CacheEntry :=
  if e.seat = n ∧ e.slot = slot ∧ e.cutoff.isSome = true then { e with draining := true } else e

/-- A copy that is drained is still of its Seat, its slot and its cutoff. -/
theorem drained_same (n slot : Nat) (e : CacheEntry) :
    (drained n slot e).seat = e.seat ∧ (drained n slot e).slot = e.slot ∧ (drained n slot e).cutoff = e.cutoff := by
  unfold drained
  split <;> exact ⟨rfl, rfl, rfl⟩

theorem drained_other {n slot : Nat} {e : CacheEntry} (other : e.seat ≠ n) : drained n slot e = e := if_neg (fun h => other h.1)

theorem drained_draining {n slot : Nat} {e : CacheEntry} (seat : e.seat = n) (at_ : e.slot = slot) (past : e.cutoff.isSome = true) :
    (drained n slot e).draining = true := by rw [drained, if_pos ⟨seat, at_, past⟩]

section
variable (p : Part) (n : Nat)

/-- A sweep wipes copies of its own Seat alone. -/
theorem cache_sweepDraining : ∃ sel : CacheEntry → Bool, (∀ e, sel e = true → e.seat = n) ∧
    (p.sweepDraining n).seats.cache = p.seats.cache.filter (fun e => !(sel e)) := by
  refine ⟨_, fun e wiped => ?_, cache_wipeCache p _⟩
  simp only [Bool.and_eq_true, beq_iff_eq] at wiped
  exact wiped.1.1

variable (slot : Nat)

theorem draining_invalidated {e : CacheEntry} (left : e ∈ ((p.setCache (p.seats.cache.map (drained n slot))).sweepDraining n).seats.cache)
    (seat : e.seat = n) (at_ : e.slot = slot) (past : e.cutoff.isSome = true) : e.draining = true := by
  obtain ⟨sel, -, cache⟩ := cache_sweepDraining (p.setCache (p.seats.cache.map (drained n slot))) n
  rw [cache] at left
  obtain ⟨old, -, rfl⟩ := List.mem_map.1 (List.mem_of_mem_filter left)
  obtain ⟨sameSeat, sameSlot, sameCutoff⟩ := drained_same n slot old
  exact drained_draining (sameSeat ▸ seat) (sameSlot ▸ at_) (sameCutoff ▸ past)

theorem mem_invalidated_other {e : CacheEntry} (other : e.seat ≠ n) :
    e ∈ ((p.setCache (p.seats.cache.map (drained n slot))).sweepDraining n).seats.cache ↔ e ∈ p.seats.cache := by
  obtain ⟨sel, own, cache⟩ := cache_sweepDraining (p.setCache (p.seats.cache.map (drained n slot))) n
  have kept : (!(sel e)) = true := by
    rw [Bool.not_eq_true']
    exact Bool.eq_false_of_not_eq_true fun wiped => other (own e wiped)
  rw [cache, List.mem_filter, and_iff_left kept]
  refine List.mem_map.trans ⟨?_, fun h => ⟨e, h, drained_other other⟩⟩
  rintro ⟨old, h, rfl⟩
  rwa [drained_other ((drained_same n slot old).1 ▸ other)]

end

/-- Settles O26: the command's checks pass; an order without users wipes, a last confirmation ends its erase, an invalidation drains and sweeps. -/
theorem eraseRowsAct : Obligations.EraseRowsAct := by
  refine ⟨fun s o c b ready len served free fault sink => ?_, fun s n slot g te on hn erased unused idle => ?_,
    fun s n slot g m on hn only kind committed waits unowned unused wiped => ?_, fun s n slot on hn => ?_⟩
  · refine (vaultCommand_next ready served free ?_ _).trans ?_
    · rw [ready.block]
      simp [len]
    · rw [ready.block, fault, sink]
  · refine ⟨_, onUnit_on hn on _, ?_⟩
    rw [eraseOrder_unused erased unused idle]
    exact ⟨cache_wipeCache s.toPart _, (changes_wipeCache s.toPart _).keeps (by decide)⟩
  · refine ⟨_, onUnit_on hn on _, ?_⟩
    rw [eraseConfirm_last only kind committed waits unowned unused wiped]
    exact ⟨rfl, (changes_vault s.toPart _).keeps (by decide)⟩
  · refine ⟨_, onUnit_on hn on _, fun e left seat at_ past => draining_invalidated s.toPart n slot left seat at_ past,
      fun e other => mem_invalidated_other s.toPart n slot other, ?_⟩
    exact ((changes_seats s.toPart _).trans (changes_sweepDraining _ n)).keeps (by decide)

/-! ### Mutations and the journal (05 R133, R134, R143, R145, R146) -/

section
variable {p : Part} (alone : p.part.st = .unpaired)
include alone

theorem paired_unpaired : p.paired = false := by simp [Part.paired, alone]

theorem solo_unpaired : p.solo = false := by simp [Part.solo, alone]

theorem mirrored_unpaired : p.mirrored = false := by simp [Part.mirrored, alone]

theorem orders_unpaired : p.orders = true := by simp [Part.orders, paired_unpaired alone]

theorem survivesBoth_unpaired (hand : Nat) : p.survivesBoth hand = true := if_pos (.inl (paired_unpaired alone))

theorem soloLimit_unpaired (i : Nat) : p.soloLimit i = false := by simp [Part.soloLimit, solo_unpaired alone]

/-- An unpaired part grants itself the lease that it wants. -/
theorem grantLease_unpaired {i : Nat} (wants : p.wantsLease i = true) : p.grantLease i = p.mutate (.lease i false) 0 none [.ctr i] true := by
  have free : ¬(p.wantsLease i = false ∨ (p.solo = true ∧ p.part.lead = false)) := by simp [wants, solo_unpaired alone]
  have served : ¬(p.ctrHand i).any (fun h => !(p.survivesBoth h)) = true := by simp [survivesBoth_unpaired alone]
  rw [Part.grantLease, if_neg free, if_neg served, if_neg (ne_true_of_eq_false (soloLimit_unpaired alone i)), if_pos (orders_unpaired alone)]

end

/-- Without mutations no record forms. -/
theorem formReady_none {p : Part} (none_ : p.vault.muts = []) : p.formReady = p := by simp [Part.formReady, none_]

/-! #### A commit -/

section
variable (p : Part)

theorem writeLine_lines (line : Nat) : ∃ poisoned minors reenc,
    p.writeLine line = p.setVault { p.vault with poisoned := poisoned, minors := minors, reenc := reenc } := by
  unfold Part.writeLine
  extract_lets
  split
  · exact ⟨_, _, _, rfl⟩
  · exact ⟨_, _, _, rfl⟩

/-- Writing a line leaves the counters as they are. -/
@[simp] theorem ctrs_writeLine (line : Nat) : (p.writeLine line).vault.ctrs = p.vault.ctrs := by
  obtain ⟨poisoned, minors, reenc, h⟩ := writeLine_lines p line
  rw [h]
  rfl

@[simp] theorem muts_writeLine (line : Nat) : (p.writeLine line).vault.muts = p.vault.muts := by
  obtain ⟨poisoned, minors, reenc, h⟩ := writeLine_lines p line
  rw [h]
  rfl

variable (i : Nat) (st : CtrState) (hw : Nat)

theorem ctr_updCtr_same (f : Counter → Counter) : (p.updCtr i f).ctr i = f (p.ctr i) := Sparse.get_set_same _ _ _ _

theorem setCounter_eq : p.setCounter i st hw = (p.updCtr i (fun c => { c with st := st, hw := hw })).writeLine (ctrLine i) := rfl

theorem ctr_setCounter_same : (p.setCounter i st hw).ctr i = { p.ctr i with st := st, hw := hw } := by
  rw [setCounter_eq, Part.ctr, ctrs_writeLine]
  exact ctr_updCtr_same p i _

theorem muts_setCounter : (p.setCounter i st hw).vault.muts = p.vault.muts := by
  rw [setCounter_eq, muts_writeLine]
  rfl

theorem within_setCounter : Within [.vault] p (p.setCounter i st hw) := (within_vault p _).next (within_writeLine _ _)

/-- Values that are abandoned leave the leases, and are counted. -/
theorem abandon_eq : ∃ leases counts, p.abandon i = { p.setVault { p.vault with leases := leases } with counts := counts } := by
  unfold Part.abandon
  extract_lets held n before dropped
  split
  · exact ⟨dropped.vault.leases, p.counts, rfl⟩
  · exact ⟨dropped.vault.leases, _, rfl⟩

theorem muts_abandon : (p.abandon i).vault.muts = p.vault.muts := by
  obtain ⟨leases, counts, h⟩ := abandon_eq p i
  rw [h]
  rfl

/-- M rises with what the partner holds; the counter's state and high-water stay. -/
theorem ctr_raiseMirrored (m : Mutation) : ∃ mirrored, (p.raiseMirrored m (.counter i st hw)).ctr i = { p.ctr i with mirrored := mirrored } := by
  unfold Part.raiseMirrored
  dsimp only
  split
  · exact ⟨_, ctr_updCtr_same p i _⟩
  · exact ⟨_, rfl⟩

theorem muts_raiseMirrored (m : Mutation) : (p.raiseMirrored m (.counter i st hw)).vault.muts = p.vault.muts := by
  unfold Part.raiseMirrored
  dsimp only
  split <;> rfl

theorem within_raiseMirrored (m : Mutation) : Within [.vault] p (p.raiseMirrored m (.counter i st hw)) := .ite (within_vault p _) .refl

end

/-- The counter's initialisation of an acknowledged record: its old values are abandoned, and it is live at its start (R142). -/
def initialised (p : Part) (m : Mutation) (i start : Nat) : Part :=
  ((((if m.held then p.bump (regAddr 0 winPART 0x0100) else p).dropMut m.id).abandon i).setCounter i .live start).raiseMirrored m
    (.counter i .live start)

section
variable {p : Part} {m : Mutation} {r : JRec} {i start : Nat}

theorem ctr_initialised : ((initialised p m i start).ctr i).st = .live ∧ ((initialised p m i start).ctr i).hw = start := by
  obtain ⟨mirrored, h⟩ := ctr_raiseMirrored
    ((((if m.held then p.bump (regAddr 0 winPART 0x0100) else p).dropMut m.id).abandon i).setCounter i .live start) i .live start m
  rw [initialised, h, ctr_setCounter_same]
  exact ⟨rfl, rfl⟩

theorem muts_initialised (only : p.vault.muts = [m]) : (initialised p m i start).vault.muts = [] := by
  have same : (if m.held then p.bump (regAddr 0 winPART 0x0100) else p).vault.muts = [m] := by split <;> exact only
  rw [initialised, muts_raiseMirrored, muts_setCounter, muts_abandon]
  simp [Part.dropMut, same]

theorem within_initialised : Within tearUnits p (initialised p m i start) := by
  have counted : Within tearUnits p (if m.held then p.bump (regAddr 0 winPART 0x0100) else p) := .ite (within_bump p _ _).mono .refl
  exact (((counted.next (within_vault _ _)).next (within_abandon _ i)).next (within_setCounter _ i _ _)).next (within_raiseMirrored _ _ _ _ _)

/-- The only mutation initialises a counter and answers no command: with its commit it is over. -/
theorem commit_ctrInit (serves : p.solo = false) (kind : m.kind = .ctrInit i start) (body : r.body = .counter i .live start)
    (unowned : m.owner = none) (only : p.vault.muts = [m]) : p.commit m r = initialised p m i start := by
  have act : p.commit m r = (initialised p m i start).formReady := by
    unfold Part.commit
    simp only [serves, kind, body, unowned, Part.commitEffect, Part.applyBody, Bool.false_eq_true, if_false]
    rfl
  rw [act, formReady_none (muts_initialised only)]

end

theorem mutationCommit_next {s : State} {m : Mutation} {r : JRec} (on : s.power.on = true) (found : s.findMut m.id = some m)
    (formed : m.formed = some r) (may : s.mayCommit m = true) : exec (.mutationCommit m.id) s = .next (after s (s.commit m r)) := by
  change execMutationCommit m.id s = _
  rw [execMutationCommit, powered_on on]
  simp only [found, formed, if_pos may]

/-! #### A record that forms -/

/-- A journal without a sink sends no record on. -/
theorem feedSink_none {p : Part} (unsunk : p.vault.journal.sink = none) : p.feedSink = p := by
  unfold Part.feedSink
  simp only [unsunk]

/-- The journal of a part with one more record. -/
def recorded (j : Journal) (r : JRec) : Journal := { j with next := j.next + 1, buffer := j.buffer ++ [r], used := j.used + r.size }

theorem writeJournal_none {p : Part} (unsunk : p.vault.journal.sink = none) (hand : Nat) (o : Bool) (epoch : Nat) (b : JBody) :
    ∃ r : JRec, r.seq = p.vault.journal.next ∧ r.body = b ∧ p.writeJournal hand o epoch b = (p.setJournal (recorded p.vault.journal r), r) := by
  refine ⟨(p.writeJournal hand o epoch b).2, rfl, rfl, ?_⟩
  exact Prod.ext (feedSink_none unsunk) rfl

/-- The part with a record that a mutation has formed. -/
def formedBy (p : Part) (m : Mutation) (r : JRec) : Part :=
  ((p.arbServe 0 m.source).setJournal (recorded p.vault.journal r)).updMut m.id (fun m => { m with formed := some r })

theorem within_formedBy (p : Part) (m : Mutation) (r : JRec) : Within [.disp, .vault] p (formedBy p m r) :=
  ((Within.refl.next (within_arbServe p _ _)).next (within_setJournal _ _)).next (within_vault _ _)

/-- The only mutation of an unpaired part forms its record, where its group is not being re-encrypted and the buffer has room. -/
theorem tryForm_only {p : Part} {m : Mutation} (alone : p.part.st = .unpaired) (only : p.vault.muts = [m]) (unformed : m.formed = none)
    (open_ : m.committed = false) (here : m.forwarded = false) (own : m.own = true) (sound : p.mutFault m = none)
    (unsunk : p.vault.journal.sink = none) (still : m.objs.any p.inReenc = false)
    (room : p.journalRoom true false (48 + (p.bodyOf m.kind).size) = true) (unframed : m.frame = none) :
    ∃ r : JRec, r.seq = p.vault.journal.next ∧ r.body = p.bodyOf m.kind ∧ p.tryForm m.id = formedBy p m r := by
  have found : p.findMut m.id = some m := by simp [Part.findMut, only]
  have first : p.firstFor m = true := by simp [Part.firstFor, only]
  have resync : (p.part.st == .resync) = false := by simp [alone]
  unfold Part.tryForm
  simp only [found, mirrored_unpaired alone, resync, Bool.or_false, Bool.false_and, unformed, open_, here, first, own, still, sound, unframed, room,
    Option.isSome_none, Bool.not_true, Bool.true_or, Bool.false_eq_true, if_false, Bool.true_eq_false]
  obtain ⟨r, seq, body, written⟩ := writeJournal_none (p := p.arbServe 0 m.source) unsunk m.hand _ p.leadEpoch (p.bodyOf m.kind)
  refine ⟨r, seq, body, ?_⟩
  rw [written]
  rfl

/-! #### The sink, and the stream that a block names -/

theorem be_lt (b : Bytes) : be b < 256 ^ b.length := by
  induction b using List.reverseRecOn with
  | nil => decide
  | append_singleton b x ih =>
    have byte : x.toNat < 256 := x.isLt
    rw [be_append_byte, List.length_append, List.length_singleton, Nat.pow_succ]
    omega

theorem field_lt (b : Bytes) (off n : Nat) : field b off n < 256 ^ n :=
  (be_lt _).trans_le (Nat.pow_le_pow_right (by decide) (List.length_take_le _ _))

/-- A stream's number that is not zero is none as 32 bits. -/
theorem streamId_ne_zero {b : Bytes} (named : field b 0 4 ≠ 0) : BitVec.ofNat 32 (field b 0 4) ≠ 0#32 := fun zero => named <| by
  have low : field b 0 4 < 2 ^ 32 := field_lt b 0 4
  have whole : field b 0 4 % 2 ^ 32 = 0 := congrArg BitVec.toNat zero
  rwa [Nat.mod_eq_of_lt low] at whole

/-- With no mutation waiting, an acknowledgement frees the records up to it, and no record forms. -/
theorem ackJournal_frees {p : Part} (none_ : p.vault.muts = []) (n : Nat) : (p.ackJournal n).vault.journal.acked = n ∧
    (p.ackJournal n).vault.journal.buffer = p.vault.journal.buffer.filter (fun r => n < r.seq) := by
  unfold Part.ackJournal
  extract_lets j gone q held
  have settled : (q.setPart { q.part with heldSeq := held, applied := q.part.applied.filter (fun e => n < e.2) }).vault.muts = [] := none_
  rw [formReady_none settled]
  exact ⟨rfl, rfl⟩

/-- Settles O27: a commit, a record that forms and a lease by what each leaves; the sink's rows by their checks. -/
theorem mutationRowsAct : Obligations.MutationRowsAct := by
  refine ⟨fun s m r i start on found formed may kind body unowned serves only => ?_,
    fun s on => powered_on on fun p => p.setJournal { p.vault.journal with inMram := p.vault.journal.acked },
    fun s m on only unformed open_ here own alone sound unsunk still room _ unframed => ?_, fun s i on wants alone => ?_,
    fun s o c b x ready len stream zero session streamed => ?_, fun s o c b x st u ready len session sink fresh sent => ?_,
    fun p n none_ => ackJournal_frees none_ n⟩
  · refine ⟨after s (initialised s.toPart m i start), (mutationCommit_next on found formed may).trans ?_,
      ctr_initialised.1, ctr_initialised.2, muts_initialised only,
      within_initialised.units.keeps (by decide)⟩
    rw [commit_ctrInit serves kind body unowned only]
  · obtain ⟨r, seq, body, act⟩ := tryForm_only alone only unformed open_ here own sound unsunk still room unframed
    refine ⟨after s (formedBy s.toPart m r), r, (powered_on on fun p => p.tryForm m.id).trans (by rw [act]), ?_, seq, body, rfl, rfl,
      (within_formedBy s.toPart m r).units.keeps (by decide)⟩
    exact (congrArg (List.map _) only).trans (by simp)
  · exact (powered_on on fun p => p.grantLease i).trans (by rw [grantLease_unpaired alone wants])
  · refine (powered_house ready _).trans ?_
    rw [ready.block, if_neg ?_]
    · simp only [session]
      rw [if_pos streamed]
    · simp [len, zero, streamId_ne_zero stream]
  · refine (powered_house ready _).trans ?_
    rw [ready.block, if_neg (by omega)]
    simp only [sink, session, beq_self_eq_true, Bool.true_eq_false, if_false]
    rw [if_neg (by omega), if_neg (by omega)]

/-! ### The deck's snapshot (05 R149 to R151) -/

/-- What each act of a list leaves as it was, all of them do. -/
theorem foldl_same {α β : Type} {read : Part → β} {f : Part → α → Part} (hf : ∀ p a, read (f p a) = read p) (l : List α) (p : Part) :
    read (l.foldl f p) = read p := by
  induction l generalizing p with
  | nil => rfl
  | cons a r ih => exact (ih _).trans (hf p a)

section
variable (p : Part)

theorem draws_injected (a i s o : Nat) : (p.injected a i s o).draws = p.draws := (event_noted _ _ _ _ _ _ _ _ _).draws

theorem draws_ite {c : Prop} [Decidable c] {q r : Part} {d : Nat} (h : q.draws = d) (k : r.draws = d) : (if c then q else r).draws = d := by
  split
  · exact h
  · exact k

theorem draws_ageHeld : p.ageHeld.1.draws = p.draws := rfl

/-- A frame that passes the Shuffle draws no free value. -/
theorem draws_inject (f : ShufFrame) (s : Nat) : (p.inject f s).1.draws = p.draws := by
  unfold Part.inject
  extract_lets _ counted idx _ kept now frame
  have counted : counted.draws = p.draws := rfl
  split
  · exact (draws_injected _ _ _ _ _).trans counted
  · split
    next q late aged =>
      have aged : q.draws = p.draws := by
        have := draws_ageHeld kept
        rw [aged] at this
        exact this.trans counted
      extract_lets corrupted doubled
      have corrupted : corrupted.draws = p.draws := draws_ite ((draws_injected _ _ _ _ _).trans aged) aged
      have doubled : doubled.draws = p.draws := draws_ite ((draws_injected _ _ _ _ _).trans corrupted) corrupted
      split
      · exact (draws_injected _ _ _ _ _).trans doubled
      · exact doubled

theorem draws_emit (x : BitVec 32) (r : BitVec 64) (c : Nat) (st : BitVec 16) (b : Bytes) (w : Path) : (p.emit x r c st b w).draws = p.draws := by
  unfold Part.emit
  split
  · rfl
  · extract_lets
    split
    · exact draws_inject _ _ _
    · rfl

theorem draws_pump (x id : BitVec 32) : (p.pump x id).draws = p.draws := by
  unfold Part.pump
  split
  · extract_lets
    split
    · rfl
    · exact (foldl_same (fun p b => draws_emit p _ _ _ _ _ _) _ _).trans rfl
  · rfl

theorem draws_produce (x id : BitVec 32) (b : Bytes) (last : Bool) : (p.produce x id b last).draws = p.draws := draws_pump _ _ _

theorem vault_produce (x id : BitVec 32) (b : Bytes) (last : Bool) : (p.produce x id b last).vault = p.vault :=
  (within_produce p x id b last).units .vault (by decide)

end

/-- The snapshot that a DECK_SNAPSHOT begins: of the next version, from the journal's next record on. -/
def newSnapshot (p : Part) (u : Nat) : Snapshot :=
  { uid := some u, version := p.vault.deckVer + 1, start := p.vault.journal.next, stop := 0, chain := []
    header := p.deckHeader (p.vault.deckVer + 1) (p.drawn 32) }

/-- The part with a snapshot begun for a command: its salt is drawn, and its header is on the stream. -/
def snapshotBegun (p : Part) (u : Nat) (x id : BitVec 32) : Part :=
  (((p.drbgTakes 0 32).setVault { p.vault with snapshot := some (newSnapshot p u) }).parkCmd u).produce x id (newSnapshot p u).header

theorem vault_snapshotBegun (p : Part) (u : Nat) (x id : BitVec 32) :
    (snapshotBegun p u x id).vault = { p.vault with snapshot := some (newSnapshot p u) } := vault_produce _ _ _ _ _

theorem within_snapshotBegun (p : Part) (u : Nat) (x id : BitVec 32) :
    Within (.trngs :: .vault :: sendUnits) p (snapshotBegun p u x id) :=
  (((within_drbgTakes p 0 32).mono.next (within_vault _ _)).next (within_updCmd _ u _)).next (within_produce _ _ _ _ _)

/-- The part once a snapshot is over: its command answers with the version and the chain. -/
def snapshotOver (p : Part) (sn : Snapshot) (u : Nat) : Part :=
  (p.setVault { p.vault with snapshot := none, completed := some { sn with uid := none } }).answer u Status.done (toBE 8 sn.version ++ sn.chain)

/-- The part with the body of a snapshot on its stream. -/
def bodySent (p : Part) (sn : Snapshot) (x id : BitVec 32) : Part := p.produce x id (p.deckBody sn.header sn.version).1 true

/-- A snapshot whose body is written: where the journal stood, and the body's chain. -/
def written (p : Part) (sn : Snapshot) : Snapshot := { sn with stop := p.vault.journal.next, chain := (p.deckBody sn.header sn.version).2 }

/-- A stream that has bytes to send. -/
def owes (y : Stream) : Bool := y.announced < y.data.length

section
variable {s : State} {sn : Snapshot} {u : Nat} {c : Cmd} {x : BitVec 32} (on : s.power.on = true) (taken : s.vault.snapshot = some sn)
  (uid : sn.uid = some u) (found : s.findCmd u = some c) (session : c.session? = some x)
include uid found

theorem snapshotOwner : sn.uid.bind s.findCmd = some c := by rw [uid, Option.bind_some, found]

include on taken session

/-- A snapshot whose body is written is over once its stream has sent it all. -/
theorem deckSnapshotComplete_written (full : sn.stop ≠ 0)
    (sent : (s.findStream x (BitVec.ofNat 32 (field c.params 0 4))).any owes = false) :
    exec .deckSnapshotComplete s = .next (after s (snapshotOver s.toPart sn c.uid)) := by
  change execDeckSnapshotComplete s = _
  rw [execDeckSnapshotComplete, powered_on on]
  simp only [taken, snapshotOwner uid found, session, if_pos full]
  exact congrArg _ (congrArg _ (if_neg (ne_true_of_eq_false sent)))

/-- A snapshot that has only begun has its body written; it is over at once where the stream has sent it all. -/
theorem deckSnapshotComplete_writes (begun : sn.stop = 0) :
    exec .deckSnapshotComplete s = .next (after s (
      let q := bodySent s.toPart sn x (BitVec.ofNat 32 (field c.params 0 4))
      if (q.findStream x (BitVec.ofNat 32 (field c.params 0 4))).any owes = true
        then q.setVault { q.vault with snapshot := some (written s.toPart sn) }
      else snapshotOver q (written s.toPart sn) c.uid)) := by
  change execDeckSnapshotComplete s = _
  rw [execDeckSnapshotComplete, powered_on on]
  simp only [taken, snapshotOwner uid found, session, if_neg (not_not.2 begun)]
  rfl

end

/-! ### Cold start (05 R152) -/

/-- How far the vault's runs and the replay of its journal have come. -/
def runOf (p : Part) : Nat × Nat := (p.vault.incarnation, p.vault.replayNext)

section
variable (p : Part)

theorem runOf_of_within {l : List Unit_} {p q : Part} (h : Within l p q) (apart : Unit_.vault ∉ l) : runOf q = runOf p := by
  have same : q.vault = p.vault := h.units .vault apart
  rw [runOf, same, runOf]

theorem runOf_writeLine (line : Nat) : runOf (p.writeLine line) = runOf p := by
  obtain ⟨poisoned, minors, reenc, h⟩ := writeLine_lines p line
  rw [h]
  rfl

theorem runOf_writeLines (line n : Nat) : runOf (p.writeLines line n) = runOf p := by
  induction n generalizing p line with
  | zero => rfl
  | succ n ih => exact (ih _ _).trans (runOf_writeLine p line)

theorem runOf_sweepLines (line n : Nat) : runOf (p.sweepLines line n) = runOf p := by
  unfold Part.sweepLines
  split <;> rfl

theorem runOf_setSlot (i : Nat) (x : Slot) : runOf (p.setSlot i x) = runOf p := rfl

theorem runOf_emptySlots (gen : Option Nat) (first n : Nat) : runOf (p.emptySlots gen first n) = runOf p := by
  induction n generalizing p first with
  | zero => rfl
  | succ n ih => simp only [Part.emptySlots, ih, runOf_writeLines, runOf_setSlot]

theorem runOf_bump (a n : Nat) : runOf (p.bump a n) = runOf p := rfl

theorem runOf_zeroSlots (hand : Option Nat) (first n : Nat) : runOf (p.zeroSlots hand first n) = runOf p := by
  unfold Part.zeroSlots
  extract_lets inside raise cached counted wiped
  have counted : runOf counted = runOf p := foldl_same (fun p (c : CacheEntry) => runOf_bump p _ _) _ _
  exact (runOf_sweepLines _ _ _).trans counted

theorem runOf_abandon (i : Nat) : runOf (p.abandon i) = runOf p := by
  obtain ⟨leases, counts, h⟩ := abandon_eq p i
  rw [h]
  rfl

theorem runOf_answer (u : Nat) (st : BitVec 16) (b : Bytes) : runOf (p.answer u st b) = runOf p :=
  runOf_of_within (within_answer p u st b) (by decide)

theorem runOf_endWaiters (i : Nat) (st : BitVec 16) (b : Bytes) : runOf (p.endWaiters i st b) = runOf p :=
  (foldl_same (fun p (w : Nat × Nat) => runOf_answer p w.2 st b) _ _).trans rfl

theorem runOf_zeroCtrs (first n : Nat) : runOf (p.zeroCtrs first n) = runOf p := by
  unfold Part.zeroCtrs
  extract_lets inside held abandoned waits ended
  have abandoned : runOf abandoned = runOf p := foldl_same runOf_abandon _ _
  have ended : runOf ended = runOf p := (foldl_same (fun p i => runOf_endWaiters p i _ _) _ _).trans abandoned
  exact (runOf_sweepLines _ _ _).trans ended

theorem runOf_zeroRanges (hand : Option Nat) (s n c m a k : Nat) : runOf (p.zeroRanges hand s n c m a k) = runOf p := by
  unfold Part.zeroRanges
  extract_lets zeroed
  have zeroed : runOf zeroed = runOf p := (runOf_zeroCtrs _ _ _).trans (runOf_zeroSlots p _ _ _)
  exact (runOf_sweepLines _ _ _).trans zeroed

/-- Ranges that no hand holds are torn down within the run. -/
theorem runOf_tearUnheld (hands : List HandEntry) : runOf (p.tearUnheld hands) = runOf p := by
  unfold Part.tearUnheld
  extract_lets slotHeld slotsGone gone emptied ctrsGone
  calc runOf _ = runOf ctrsGone := foldl_same (fun p _ => runOf_zeroRanges p _ _ _ _ _ _ _) _ _
    _ = runOf emptied := foldl_same (fun p _ => runOf_zeroCtrs p _ _) _ _
    _ = runOf slotsGone := foldl_same (fun p _ => runOf_emptySlots p _ _ _) _ _
    _ = runOf p := foldl_same (fun p _ => runOf_zeroSlots p _ _ _) _ _

/-- The part with the ranges torn down that the hands of its Deal do not hold. -/
def tornFor (p : Part) : Part :=
  match p.deal.active with
  | some d => p.tearUnheld d.hands
  | none => p

theorem runOf_tornFor : runOf (tornFor p) = runOf p := by
  unfold tornFor
  split
  · exact runOf_tearUnheld p _
  · rfl

/-- The vault as it opens: its next incarnation, with no lease, its journal empty from the next record on. -/
def openedVault (v : VaultUnit) : VaultUnit :=
  { v with st := .open_, incarnation := v.incarnation + 1, leases := []
           journal := { v.journal with next := v.replayNext, acked := v.replayNext - 1, inMram := v.replayNext - 1, sent := v.replayNext - 1
                                       buffer := [], used := 0 } }

theorem vault_openVault : p.openVault.vault = openedVault (tornFor p).vault :=
  (within_relevel (((tornFor p).setVault (openedVault (tornFor p).vault)).setCache [])).units .vault (by decide)

end

/-! ### Re-encryption of a group of lines (05 R140) -/

theorem within_setPart (p : Part) (x : PartUnit) : Within [.part] p (p.setPart x) :=
  ⟨fun u hu => by cases u <;> simp [Unit_.Same, Part.setPart, after] at hu ⊢, rfl⟩

theorem within_putOut (p : Part) (l : List (ShufFrame × Bool)) : Within [] p (p.putOut l) :=
  ⟨fun u _ => by cases u <;> simp [Unit_.Same, Part.putOut, after], rfl⟩

theorem within_transmit (p : Part) (f : MirrorOut) : Within sendUnits p (p.transmit f) := by
  unfold Part.transmit
  extract_lets acked wired
  split
  · exact (within_inject p _ _).next (within_putOut _ _)
  · exact (within_putOut p _).mono

theorem within_sendMirror (p : Part) (m : MirrorMsg) : Within sendUnits p (p.sendMirror m) :=
  (within_setPart p _).mono.next (within_transmit _ _)

/-- The units that records which form may change. -/
abbrev formUnits : List Unit_ := .disp :: .vault :: .power :: sendUnits

/-- q is p after mutations have formed records or ended: the vault but for its mutations and its journal is as it was. -/
structure Formed (p q : Part) : Prop where
  within : Within formUnits p q
  vault : ∃ muts journal, q.vault = { p.vault with muts := muts, journal := journal }

namespace Formed

variable {p q r : Part}

theorem refl : Formed p p := ⟨.refl, _, _, rfl⟩

theorem trans (h : Formed p q) (k : Formed q r) : Formed p r := by
  refine ⟨h.within.next k.within, ?_⟩
  obtain ⟨_, _, first⟩ := h.vault
  obtain ⟨muts, journal, second⟩ := k.vault
  exact ⟨muts, journal, by rw [second, first]⟩

theorem of_within {l : List Unit_} (h : Within l p q) (sub : l ⊆ formUnits := by decide) (apart : Unit_.vault ∉ l := by decide) : Formed p q :=
  ⟨h.mono sub, _, _, h.units .vault apart⟩

theorem foldl {α : Type} {f : Part → α → Part} (hf : ∀ p a, Formed p (f p a)) (l : List α) (p : Part) : Formed p (l.foldl f p) := by
  induction l generalizing p with
  | nil => exact refl
  | cons a r ih => exact (hf p a).trans (ih _)

theorem reenc (h : Formed p q) : q.vault.reenc = p.vault.reenc := by
  obtain ⟨_, _, same⟩ := h.vault
  rw [same]

theorem minors (h : Formed p q) : q.vault.minors = p.vault.minors := by
  obtain ⟨_, _, same⟩ := h.vault
  rw [same]

theorem majors (h : Formed p q) : q.vault.majors = p.vault.majors := by
  obtain ⟨_, _, same⟩ := h.vault
  rw [same]

theorem slots (h : Formed p q) : q.vault.slots = p.vault.slots := by
  obtain ⟨_, _, same⟩ := h.vault
  rw [same]

theorem app (h : Formed p q) : q.vault.app = p.vault.app := by
  obtain ⟨_, _, same⟩ := h.vault
  rw [same]

end Formed

section
variable (p : Part)

theorem formed_dropMut (id : Nat) : Formed p (p.dropMut id) := ⟨(within_vault p _).mono, _, _, rfl⟩

theorem formed_updMut (id : Nat) (f : Mutation → Mutation) : Formed p (p.updMut id f) := ⟨(within_vault p _).mono, _, _, rfl⟩

theorem formed_setJournal (j : Journal) : Formed p (p.setJournal j) := ⟨(within_vault p _).mono, _, _, rfl⟩

theorem formed_feedSink : Formed p p.feedSink := by
  unfold Part.feedSink
  split
  · exact .refl
  · exact (formed_setJournal p _).trans (.of_within (within_produce _ _ _ _ _))

theorem formed_writeJournal (hand : Nat) (o : Bool) (epoch : Nat) (b : JBody) : Formed p (p.writeJournal hand o epoch b).1 :=
  (formed_setJournal p _).trans (formed_feedSink _)

/-- A mutation tried forms its record, ends with its command's answer, or waits. -/
theorem formed_tryForm (id : Nat) : Formed p (p.tryForm id) := by
  unfold Part.tryForm
  split
  · exact .refl
  next m found =>
    extract_lets usage follows dropped body remote fromPartner
    split
    · exact .refl
    · split
      · have dropped : Formed p dropped := formed_dropMut p id
        split
        · exact dropped.trans (.of_within (within_answer _ _ _ _))
        · exact dropped
      · split
        · exact .refl
        · split
          next q r formed =>
            have formed : Formed p q := by
              have := (Formed.of_within (within_arbServe p 0 m.source)).trans (formed_writeJournal _ m.hand fromPartner p.leadEpoch body)
              rwa [formed] at this
            split
            · exact (formed.trans (.of_within (within_sendMirror _ _))).trans (formed_updMut _ _ _)
            · extract_lets _ noted
              have noted : Formed p noted := by
                simp only [noted]
                split
                · split
                  · exact formed.trans (.of_within (within_setPart _ _))
                  · exact formed
                · exact formed
              exact noted.trans (formed_updMut _ _ _)

theorem formed_formReady : Formed p p.formReady := .foldl formed_tryForm _ _

end

/-- A group whose lines are re-encrypted: its major counter has risen, and its lines' own counters are clear. -/
def recounted (p : Part) (g : Nat) : Part :=
  (p.setVault { p.vault with
    reenc := p.vault.reenc.filter (fun k => !(k == g))
    majors := Sparse.modify 0 p.vault.majors g (· + 1)
    minors := p.vault.minors.filter (fun e => !(e.1 / 64 == g))
    swept := Sparse.set 0 p.vault.swept g p.vault.sweeps.length }).bump (regAddr 0 winVAULT 0x0130)

theorem within_recounted (p : Part) (g : Nat) : Within [.vault, .counts] p (recounted p g) := (within_vault p _).mono.next (within_bump _ _ _)

theorem major_recounted (p : Part) (g : Nat) : Sparse.get 0 (recounted p g).vault.majors g = Sparse.get 0 p.vault.majors g + 1 :=
  Sparse.get_set_same 0 p.vault.majors g (Sparse.get 0 p.vault.majors g + 1)

theorem vaultReencryptComplete_next {s : State} {g : Nat} (on : s.power.on = true) (mem : g ∈ s.vault.reenc) :
    exec (.vaultReencryptComplete g) s = .next (after s (recounted s.toPart g).formReady) := by
  change execVaultReencryptComplete g s = _
  rw [execVaultReencryptComplete, powered_on on, if_pos (List.contains_iff_mem.2 mem)]
  rfl

/-! ### Poisoned lines (05 R141) -/

theorem groupMask_low {seen : List Witness} {sev : Nat} (low : ∀ w ∈ seen, w.sev < sev) (span now : Nat) : groupMask seen sev span now = 0 := by
  induction seen with
  | nil => rfl
  | cons w rest ih =>
    have lowW : ¬(sev ≤ w.sev ∧ now ≤ w.at_ + span) := fun h => absurd h.1 (Nat.not_le.2 (low w (List.mem_cons_self ..)))
    rw [groupMask, List.foldl_cons, if_neg lowW]
    exact ih fun x hx => low x (List.mem_cons_of_mem _ hx)

theorem bitCount_zero : bitCount 0 = 0 := by decide

/-- Without a witness of the highest severity the floor leaves a Note as it is (R329 to R331). -/
theorem bound_note {p : Part} (low : ∀ w ∈ p.guard.seen, w.sev < 4) : p.bound 0 14 rNote false = (rNote, false, false) := by
  unfold Part.bound
  simp [groupMask_low low, bitCount_zero, rNote, rHold, rShed, rErase]

theorem respond_note (p : Part) (die cls sev index : Nat) (floor : Bool) :
    p.respond die cls sev index rNote floor = p.bump (regAddr 0 winGUARD 0x0100) := rfl

/-- The first witness of a failed line, at a part without a Deal, is noted: no entry fires, and the floor leaves it at that. -/
theorem witness_noted {p : Part} (noDeal : p.deal.active = none) (first : p.guard.seen = []) (mag : Nat) :
    ∃ g, Noted { p with guard := g } (p.witness 0 14 0 mag) := by
  unfold Part.witness
  extract_lets sev w _ shown told fire proposed _
  have low : ∀ x ∈ told.guard.seen, x.sev < 4 := by
    intro x seen
    change x ∈ Part.pruneSeen (w :: p.guard.seen) p.now at seen
    have only : x ∈ w :: p.guard.seen := List.mem_of_mem_filter seen
    rw [first, List.mem_singleton] at only
    rw [only]
    exact (by decide : 3 < 4)
  have quiet : fire = none := by
    have noEntry : told.deal.active = none := noDeal
    simp only [fire, noEntry]
    rfl
  have note : proposed = rNote := congrArg (fun f => (f.map (fun e => e.1.resp)).getD rNote) quiet
  rw [note, bound_note low]
  refine ⟨_, ((event_noted _ _ _ _ _ _ _ _ _).trans (.of_bump _ _ _))⟩

/-- A line is marked poisoned, and counted where it was not. -/
def marked (p : Part) (line : Nat) : Part :=
  if !(p.linePoisoned line) then (p.setVault { p.vault with poisoned := line :: p.vault.poisoned }).bump (regAddr 0 winVAULT 0x0118) else p

theorem marked_poisoned (p : Part) (line : Nat) : (marked p line).linePoisoned line = true := by
  unfold marked
  split
  · simp [Part.linePoisoned, Part.bump]
  · simpa using ‹¬(!(p.linePoisoned line)) = true›

theorem within_marked (p : Part) (line : Nat) : Within [.vault, .counts] p (marked p line) :=
  .ite ((within_vault p _).mono.next (within_bump _ _ _)) .refl

/-- A line is marked for good: the guard notes its witness, and an unpaired part asks nobody for it (R141). -/
theorem poisonLine_poisons {p : Part} (line mag : Nat) (alone : p.part.st = .unpaired) (first : p.guard.seen = []) (noDeal : p.deal.active = none) :
    (p.poisonLine line mag).linePoisoned line = true := by
  have act := (within_marked p line).units
  have deal : (marked p line).deal = p.deal := act .deal (by decide)
  have guard : (marked p line).guard = p.guard := act .guard (by decide)
  have part : (marked p line).part = p.part := act .part (by decide)
  obtain ⟨g, noted⟩ := witness_noted ((congrArg DealUnit.active deal).trans noDeal) ((congrArg GuardUnit.seen guard).trans first) mag
  have unpaired : ((marked p line).witness 0 14 0 mag).paired = false := by
    rw [Part.paired, noted.part, part, alone]
    rfl
  have act : p.poisonLine line mag = (marked p line).witness 0 14 0 mag := if_neg fun h => ne_true_of_eq_false unpaired h.1
  rw [act, Part.linePoisoned, noted.vault, noted.power]
  exact marked_poisoned p line

/-! ### The rows -/

/-- Settles O28: the snapshot's rows, the replay and the opening by what each leaves; a re-encryption and a poisoned line by what may follow it. -/
theorem deckRowsAct : Obligations.DeckRowsAct := by
  refine ⟨fun s o c b x ready len named _ zero idle session stream => ?_, fun s sn u c x on taken uid found session => ?_,
    fun s o c b sn ready len completed version chain => ?_, fun s o c b deck ready streamed shut good => ?_,
    fun s o c b y ready streamed stream shut loaded => ?_, fun s o c b ready len gap shut far => ?_, fun p => ?_,
    fun s g on mem => ?_, fun s on => ?_, fun p line mag alone first noDeal => poisonLine_poisons line mag alone first noDeal⟩
  · refine ⟨after s (snapshotBegun s.toPart c.uid x (BitVec.ofNat 32 (field b 0 4))), newSnapshot s.toPart c.uid, (powered_house ready _).trans ?_,
      congrArg VaultUnit.snapshot (vault_snapshotBegun _ _ _ _), rfl, rfl, rfl, rfl, draws_produce _ _ _ _ _,
      (within_snapshotBegun s.toPart c.uid x _).units.keeps (by decide)⟩
    rw [ready.block, if_neg (by simp [len, zero, streamId_ne_zero named]), if_neg (by simp [idle])]
    simp only [session]
    rw [if_pos stream]
    rfl
  · intro id sent body p full
    refine ⟨fun ended shown => ?_, fun begun shown => ?_, fun begun unsent => ?_⟩
    · exact deckSnapshotComplete_written on taken uid found session ended (Eq.mp (Bool.not_eq_true' _) shown)
    · have all : ¬((bodySent s.toPart sn x id).findStream x id).any owes = true := ne_true_of_eq_false (Eq.mp (Bool.not_eq_true' _) shown)
      exact (deckSnapshotComplete_writes on taken uid found session begun).trans (congrArg _ (congrArg _ (if_neg all)))
    · have some_ : ((bodySent s.toPart sn x id).findStream x id).any owes = true := Eq.mp (Bool.not_eq_false' _) unsent
      exact (deckSnapshotComplete_writes on taken uid found session begun).trans (congrArg _ (congrArg _ (if_pos some_)))
  · refine (powered_house ready _).trans ?_
    rw [ready.block, if_neg (not_not.2 len)]
    simp only [completed]
    rw [if_pos ⟨version, chain⟩]
  · refine (powered_house ready _).trans ?_
    rw [whenStreamed_whole streamed, if_neg shut]
    simp only [good, if_true]
  · intro r done
    have held : ¬(s.vault.deckVer ≠ 0 ∧ s.vault.deckLoaded = false) := by
      rintro ⟨some_, unread⟩
      exact loaded.elim some_ (ne_true_of_eq_false unread)
    refine (powered_house ready _).trans ?_
    rw [if_neg (by simp [streamed.block, streamed.reserved])]
    simp only [stream, decide_eq_true streamed.whole]
    rw [if_neg shut, if_neg held]
    exact congrArg _ (congrArg _ ((if_neg (not_not.2 done)).trans (if_pos trivial)))
  · refine (powered_house ready _).trans ?_
    rw [ready.block]
    simp only [gap]
    rw [if_neg (by simp [len]), if_neg shut, if_neg (by simp),
      if_neg (fun short => absurd short.1 (Nat.not_lt.2 far)), if_neg (by simp [Nat.not_lt.2 far])]
  · obtain ⟨incarnation, next⟩ := Prod.ext_iff.1 (runOf_tornFor p)
    rw [vault_openVault]
    exact ⟨rfl, congrArg (· + 1) incarnation, rfl, next⟩
  · have keeps := formed_formReady (recounted s.toPart g)
    refine ⟨after s (recounted s.toPart g).formReady, vaultReencryptComplete_next on mem, fun left => ?_, fun e left => ?_, ?_,
      keeps.slots, keeps.app,
      ((within_recounted s.toPart g).units.trans keeps.within.units).keeps (by decide), fun none_ => ?_⟩
    · rw [after, keeps.reenc] at left
      simpa using List.of_mem_filter left
    · rw [after, keeps.minors] at left
      simpa using List.of_mem_filter left
    · exact (congrArg (fun m => Sparse.get 0 m g) keeps.majors).trans (major_recounted s.toPart g)
    · rw [formReady_none (p := recounted s.toPart g) none_]
      exact (within_recounted s.toPart g).units.keeps (by decide)
  · exact powered_on on (fun p => p.bump (regAddr 0 winVAULT 0x0138))

end Sys2Proof.KeyVault

/-! ## Transaction units: tricks that start and end, and what the programs compute (06 R156 to R162, R171, R175, R179, R181) -/

namespace Sys2Proof.Tricks

open Sys2Proof.Machine Sys2Proof.Safety Sys2Proof.Laws Sys2Proof.Architecture Sys2Proof.DealRows Sys2Proof.HostTransport Sys2Proof.Dispatching
  Sys2Proof.KeyVault

/-! ### Block ciphers in CBC mode (06 R181) -/

/-- Whole blocks are as many as their bytes hold. -/
theorem length_chunksAux_mul {n : Nat} (pos : 0 < n) {fuel : Nat} {b : Bytes} (enough : b.length ≤ fuel) (whole : n ∣ b.length) :
    (chunksAux n fuel b).length * n = b.length := by
  induction fuel generalizing b with
  | zero => simp [chunksAux, Nat.le_zero.1 enough]
  | succ fuel ih =>
    obtain rfl | ne := eq_or_ne b []
    · simp [chunksAux]
    · have filled : b.isEmpty = false := List.isEmpty_eq_false_iff.2 ne
      have block : n ≤ b.length := Nat.le_of_dvd (List.length_pos_iff.2 ne) whole
      have rest := ih (b := b.drop n) (by rw [List.length_drop]; omega) (by rw [List.length_drop]; exact Nat.dvd_sub whole (dvd_refl n))
      rw [List.length_drop] at rest
      rw [chunksAux, filled, if_neg (by decide), List.length_cons, Nat.succ_mul, rest]
      omega

/-- CBC answers one block of the cipher for each block that it takes. -/
theorem length_cbcEncBlocks {f : Bytes → Bytes} {n : Nat} (size : ∀ b, (f b).length = n) (iv : Bytes) (l : List Bytes) :
    (cbcEncBlocks f iv l).length = l.length * n := by
  induction l generalizing iv with
  | nil => simp [cbcEncBlocks]
  | cons b l ih => rw [cbcEncBlocks, List.length_append, size, ih, List.length_cons, Nat.succ_mul, Nat.add_comm]

/-- CBC of whole blocks keeps their length. -/
theorem length_cbcEnc {f : Bytes → Bytes} {n : Nat} (pos : 0 < n) (size : ∀ b, (f b).length = n) (iv : Bytes) {m : Bytes} (whole : n ∣ m.length) :
    (cbcEnc n f iv m).length = m.length :=
  (length_cbcEncBlocks size iv _).trans (length_chunksAux_mul pos le_rfl whole)

theorem length_tdeaEnc (key b : Bytes) : (tdeaEnc key b).length = 8 := toBE_length _ _

theorem length_tdeaCbc {b : Bytes} (key : Bytes) (whole : 8 ∣ b.length) :
    (Part.tdeaCbc true b key).payload.length = b.length - 24 := by
  have body : (b.drop 24).length = b.length - 24 := List.length_drop
  exact (length_cbcEnc (by decide) (length_tdeaEnc key) _ (body ▸ Nat.dvd_sub whole (by decide))).trans body

/-! ### Words of a Seat that decode (01 R18) -/

section
variable {p : Part} {n : Nat} {c : Cmd} {ecc : Decoded}

theorem tu_decoded (seat : n ≠ 0) (d : Decoded) (loc addr m k : Nat) : (p.decoded n d loc addr).tu m k = p.tu m k := by
  obtain ⟨l, -, noted⟩ := decoded_seat p seat d loc addr
  unfold Part.tu
  rw [noted.seats]

/-- A read that decodes finds its key: it is a decode, or nothing where the command names no key. -/
theorem keyRead_good (good : ecc ≠ .uncorrectable) :
    p.keyRead n c ecc = (p, true) ∨ ∃ h : Handle, p.keyRead n c ecc = (p.decoded n ecc Part.locKeyCache h.slot, true) := by
  unfold Part.keyRead
  cases handlesOf c.code c.params with
  | nil => exact .inl rfl
  | cons h _ => exact .inr ⟨h, if_neg good⟩

theorem keyRead_bad (keyed : handlesOf c.code c.params ≠ []) : (p.keyRead n c .uncorrectable).2 = false := by
  unfold Part.keyRead
  cases named : handlesOf c.code c.params with
  | nil => exact absurd named keyed
  | cons h _ => rfl

theorem keyRead_on (good : ecc ≠ .uncorrectable) : (p.keyRead n c ecc).2 = true := by
  obtain h | ⟨_, h⟩ := keyRead_good (p := p) (n := n) (c := c) good <;> rw [h]

theorem tu_keyRead (seat : n ≠ 0) (good : ecc ≠ .uncorrectable) (m k : Nat) : (p.keyRead n c ecc).1.tu m k = p.tu m k := by
  obtain h | ⟨_, h⟩ := keyRead_good (p := p) (n := n) (c := c) good
  · rw [h]
  · rw [h, tu_decoded seat]

theorem findCmd_keyRead (seat : n ≠ 0) (good : ecc ≠ .uncorrectable) (u : Nat) : (p.keyRead n c ecc).1.findCmd u = p.findCmd u := by
  obtain h | ⟨_, h⟩ := keyRead_good (p := p) (n := n) (c := c) good
  · rw [h]
  · rw [h, findCmd_decoded p seat]

end

/-! ### A trick that starts (06 R159) -/

/-- Unit u of Seat n runs, is free and can draw its masks, and c is the command that it takes next. -/
structure Takes (p : Part) (n u : Nat) (c : Cmd) : Prop where
  up : p.tileUp (siteTile n .tu u) = true
  free : p.tu n u = none
  serving : p.seatIn n .inService = true
  masks : p.drbgServes n = true
  next : p.nextFor n .tu (fun _ => true) = some c

/-- The part once the unit has read the keys of its next command, no earlier than its tile is free for it. -/
def keysRead (p : Part) (n u : Nat) (c : Cmd) (ecc : Decoded) : Part := ((p.atTime (p.tile (siteTile n .tu u)).since).keyRead n c ecc).1

/-- A check has failed: the command is counted and answered at once, and its unit is busy for 400 cycles (R159). -/
def refused (p : Part) (n u : Nat) (c : Cmd) (st : BitVec 16) (pl : Bytes) : Part :=
  (((p.bump (regAddr n (swinTU + u * 0x1000) 0x0108)).passTurn n c.hand .tu).refuse n c.uid st pl).tileFrom (siteTile n .tu u) (p.now + 400)

/-- The trick has the unit, for its count. -/
def running (q : Part) (n u : Nat) (c : Cmd) (count : Nat) : Part :=
  (q.takeEngine c n .tu u count).setTu n u (some { uid := c.uid, prog := progOf c.code, start := q.now, count := count })

section
variable {p : Part} {n u : Nat} {c : Cmd} (takes : Takes p n u c)
include takes

/-- A unit that takes a command reads its keys; with them, it does as its checks and the keys' charges say. -/
theorem startTrick_takes (ecc : Decoded) : p.startTrick n u ecc =
    if ((p.atTime (p.tile (siteTile n .tu u)).since).keyRead n c ecc).2 = false then keysRead p n u c ecc
    else match (keysRead p n u c ecc).tuCheck n c with
      | .refuse st pl => refused (keysRead p n u c ecc) n u c st pl
      | .go count uses => match (keysRead p n u c ecc).chargeAll n c uses with
        | .exhausted => refused (keysRead p n u c ecc) n u c Status.keyExhausted []
        | .wait q => q
        | .ok q => running q n u c count := by
  have able : ¬(p.tileUp (siteTile n .tu u) = false ∨ (p.tu n u).isSome = true ∨ p.seatIn n .inService = false ∨ p.drbgServes n = false) := by
    simp [takes.up, takes.free, takes.serving, takes.masks]
  unfold Part.startTrick
  simp only [if_neg able, takes.next]
  rfl

theorem startTrick_keyLost (keyed : handlesOf c.code c.params ≠ []) : p.startTrick n u .uncorrectable = keysRead p n u c .uncorrectable := by
  rw [startTrick_takes takes, if_pos (keyRead_bad keyed)]

section
variable {ecc : Decoded} (good : ecc ≠ .uncorrectable)
include good

theorem startTrick_runs {count : Nat} {uses : List Part.KeyUse} {q : Part} (passed : (keysRead p n u c ecc).tuCheck n c = .go count uses)
    (charged : (keysRead p n u c ecc).chargeAll n c uses = .ok q) : p.startTrick n u ecc = running q n u c count := by
  rw [startTrick_takes takes, if_neg (by rw [keyRead_on good]; decide)]
  simp only [passed, charged]

theorem startTrick_refuses {st : BitVec 16} {pl : Bytes} (failed : (keysRead p n u c ecc).tuCheck n c = .refuse st pl) :
    p.startTrick n u ecc = refused (keysRead p n u c ecc) n u c st pl := by
  rw [startTrick_takes takes, if_neg (by rw [keyRead_on good]; decide)]
  simp only [failed]

end

end

theorem findCmd_markStart {p : Part} {c : Cmd} (found : p.findCmd c.uid = some c) :
    (p.markStart c.uid).findCmd c.uid = some { c with startMark := true } := by
  unfold Part.markStart
  rw [findCmd_updCmd_same, found]
  rfl

theorem now_refuse (p : Part) (n u : Nat) (st : BitVec 16) (pl : Bytes) : (p.refuse n u st pl).now = p.now := (within_seatAnswer _ n u st pl).now

section
variable {p : Part} {n : Nat} {c : Cmd} {st : BitVec 16} {pl : Bytes} (found : p.findCmd c.uid = some c) (host : c.isCall = false)
  (kept : c.retract = none)
include found host kept

/-- What leaves a Seat for a host changes no unit of the Seat. -/
theorem seats_seatAnswer : (p.seatAnswer n c.uid st pl).seats = p.seats := by
  rw [seatAnswer_host found host kept]
  rfl

theorem rising_refuse (s : State) : Rising (after s (p.refuse n c.uid st pl)) c.uid n st pl :=
  rising_seatAnswer s (c := { c with startMark := true }) (findCmd_markStart found) host kept

theorem seats_refuse : (p.refuse n c.uid st pl).seats = p.seats :=
  seats_seatAnswer (c := { c with startMark := true }) (findCmd_markStart found) host kept

/-- A host's command that fails a check leaves its Seat with the refusal; its unit stays free, and rests for 400 cycles. -/
theorem refused_host (s : State) {u : Nat} (free : p.tu n u = none) :
    Rising (after s (refused p n u c st pl)) c.uid n st pl ∧ (refused p n u c st pl).tu n u = none ∧
      ((refused p n u c st pl).tile (siteTile n .tu u)).since = (refused p n u c st pl).now + 400 := by
  have known : ((p.bump (regAddr n (swinTU + u * 0x1000) 0x0108)).passTurn n c.hand .tu).findCmd c.uid = some c := found
  have now : (refused p n u c st pl).now = p.now := now_refuse _ n c.uid st pl
  refine ⟨rising_refuse known host kept s, ?_, ?_⟩
  · exact (congrArg (fun x : SeatsUnit => Sparse.get? x.tus (tuKey n u)) (seats_refuse known host kept)).trans free
  · exact (congrArg Tile.since (tile_updTile_same _ _ _)).trans (congrArg (· + 400) now.symm)

end

/-! ### A trick that ends (06 R156 to R162) -/

theorem get?_erase_same {α : Type} (l : List (Nat × α)) (a : Nat) : Sparse.get? (Sparse.erase l a) a = none := by
  induction l with
  | nil => rfl
  | cons e l ih =>
    obtain same | other := eq_or_ne e.1 a
    · rw [Sparse.erase, List.filter_cons_of_neg (by simp [same])]
      exact ih
    · rw [Sparse.erase, List.filter_cons_of_pos (by simp [other])]
      exact (if_neg other).trans ih

theorem tu_setTu_none (p : Part) (n u : Nat) : (p.setTu n u none).tu n u = none := get?_erase_same _ _

/-- Sweeping the key caches leaves the commands, the units and the time as they were. -/
theorem sweepDraining_leaves (p : Part) (n : Nat) : (∀ u, (p.sweepDraining n).findCmd u = p.findCmd u) ∧ (p.sweepDraining n).seats.tus = p.seats.tus ∧
    (p.sweepDraining n).now = p.now := by
  obtain ⟨cache, counts, h⟩ := sweepDraining_eq p n
  rw [h]
  exact ⟨fun _ => rfl, rfl, rfl⟩

theorem release_answers (p : Part) (n u : Nat) {o : Outcome} (answer : o.effect = .none) :
    p.release n u o = p.seatAnswer n u o.status o.payload := by
  unfold Part.release
  rw [answer]

/-- The part once the trick's time is over and the unit has read its operand. -/
def timeUp (p : Part) (n u : Nat) (j : Job) (ecc : Decoded) : Part := (p.atTime (j.start + j.count)).decoded n ecc Part.locOperand u

/-- The end of a trick is counted. -/
def counted (p : Part) (n u : Nat) : Part := p.bump (regAddr n (swinTU + u * 0x1000) 0x0100)

/-- The unit is free, and rests for 600 cycles. -/
def freed (p : Part) (n u : Nat) : Part := (p.setTu n u none).tileFrom (siteTile n .tu u) (p.now + 600)

/-- A trick has ended with its outcome, which is released, and its unit is free. -/
def ended (p : Part) (n u : Nat) (j : Job) (o : Outcome) : Part := ((freed (counted p n u) n u).release n j.uid o).sweepDraining n

section
variable {p : Part} {n u : Nat} {j : Job} {o : Outcome} {ecc : Decoded} (held : p.tu n u = some j) (out : j.out = some o)
include held out

/-- An operand that does not decode aborts its trick (01 R19). -/
theorem endTrick_aborts (ok : Bool) :
    p.endTrick n u ok .uncorrectable = (timeUp p n u j .uncorrectable).stopWork j.uid (some Status.abortedScrubbed) := by
  unfold Part.endTrick
  simp only [held, out]
  rfl

/-- A trick that spends no ceremony's authorisation is released where its fault check passes; else its unit reports the fault and scrubs. -/
theorem endTrick_checks (good : ecc ≠ .uncorrectable) (plain : j.prog ≠ 0x84) (ok : Bool) : p.endTrick n u ok ecc =
    if ok then ended (timeUp p n u j ecc) n u j o
    else ((counted (timeUp p n u j ecc) n u).bump (regAddr n (swinTU + u * 0x1000) 0x0110)).engineFault n .tu u j.uid := by
  unfold Part.endTrick
  simp only [held, out, Part.operandRead, if_neg good, if_neg plain]
  rfl

end

/-- An outcome that leaves only an answer behind is that of its host's command, which leaves the Seat. -/
theorem ended_host (s : State) {p : Part} {n : Nat} {c : Cmd} {j : Job} {o : Outcome} (u : Nat) (found : p.findCmd j.uid = some c)
    (answer : o.effect = .none) (host : c.isCall = false) (kept : c.retract = none) :
    Rising (after s (ended p n u j o)) j.uid n o.status o.payload ∧ (ended p n u j o).tu n u = none ∧ (ended p n u j o).now = p.now := by
  have named := uid_of_findCmd found
  rw [← named] at found
  have known : (freed (counted p n u) n u).findCmd c.uid = some c := found
  unfold ended
  rw [release_answers _ _ _ answer, ← named]
  obtain ⟨cmds, tus, now⟩ := sweepDraining_leaves ((freed (counted p n u) n u).seatAnswer n c.uid o.status o.payload) n
  refine ⟨?_, ?_, now.trans (within_seatAnswer _ _ _ _ _).now⟩
  · obtain ⟨d, foundD, rest⟩ := rising_seatAnswer (n := n) (status := o.status) (payload := o.payload) s known host kept
    exact ⟨d, (cmds _).trans foundD, rest⟩
  · unfold Part.tu
    rw [tus, seats_seatAnswer known host kept]
    exact tu_setTu_none (counted p n u) n u

/-! ### The rows -/

/-- Settles O15: a start by what reading the keys, the checks and the charges leave; an end by its fault check; the programs by their definitions,
CBC by its blocks. -/
theorem trickRowsAct : Obligations.TrickRowsAct := by
  refine ⟨fun s n u ecc c on there unit up free serving masks next => ?_, fun s n u ecc j o c on there unit held out found => ?_,
    fun f1 f2 k1 k2 pan b1 b2 x y first second => ?_, fun len mac expected => ⟨rfl, rfl⟩, fun b key d done whole _ => ?_⟩
  · have takes : Takes s.toPart n u c := ⟨up, free, serving, masks, next⟩
    have seat := ne_zero_of_hasSeat there
    have row : exec (.trickStart n u ecc) s = .next (after s (s.startTrick n u ecc)) := onUnit_on (by simp [there, unit]) on _
    refine ⟨fun lost keyed => ?_, fun good count uses q passed charged => ?_, fun good st pl failed found host kept => ?_⟩
    · subst lost
      rw [row, startTrick_keyLost takes keyed]
      rfl
    · rw [row, startTrick_runs takes good passed charged]
      rfl
    · have known : (keysRead s.toPart n u c ecc).findCmd c.uid = some c := (findCmd_keyRead seat good _).trans found
      have idle : (keysRead s.toPart n u c ecc).tu n u = none := (tu_keyRead seat good _ _).trans free
      exact ⟨_, row.trans (congrArg _ (congrArg _ (startTrick_refuses takes good failed))), refused_host known host kept s idle⟩
  · have seat := ne_zero_of_hasSeat there
    have row : ∀ ok, exec (.trickComplete n u ok ecc) s = .next (after s (s.endTrick n u ok ecc)) := fun ok =>
      onUnit_on (by simp [there, unit]) on _
    refine ⟨fun good answer plain host kept => ?_, fun good plain => ?_, fun bad ok => ?_⟩
    · have known : (timeUp s.toPart n u j ecc).findCmd j.uid = some c := (findCmd_decoded _ seat _ _ _ _).trans found
      obtain ⟨rises, idle, now⟩ := ended_host s u known answer host kept
      refine ⟨_, (row true).trans (congrArg _ (congrArg _ (endTrick_checks held out good plain true))), rises, idle, ?_⟩
      have due := (now.trans (within_decoded _ seat _ _ _).now).ge
      exact (Nat.le_max_right _ _).trans due
    · exact (row false).trans (congrArg _ (congrArg _ (endTrick_checks held out good plain false)))
    · subst bad
      exact (row ok).trans (congrArg _ (congrArg _ (endTrick_aborts held out ok)))
  · simp only [Part.verifyPin, first, second]
    rfl
  · rw [← length_tdeaCbc key (Nat.dvd_of_mod_eq_zero whole), done]

end Sys2Proof.Tricks

/-! ## Cipher lanes: the modes, residence, completion, mask seeds and saved contexts (07 R186 to R216) -/

namespace Sys2Proof.CipherLanes

open Sys2Proof.Machine Sys2Proof.Safety Sys2Proof.Laws Sys2Proof.Architecture Sys2Proof.DealRows Sys2Proof.HostTransport Sys2Proof.Dispatching
  Sys2Proof.KeyVault Sys2Proof.Tricks

/-! ### Frames leave the lanes alone -/

theorem lanes_of_noted {p q : Part} (h : Noted p q) : q.seats.lanes = p.seats.lanes := by rw [h.seats]

theorem same_ite {β : Type} {read : Part → β} {a : Prop} [Decidable a] {q r : Part} {x : β} (h : read q = x) (k : read r = x) :
    read (if a then q else r) = x := by
  rw [apply_ite read, h, k, ite_self]

section
variable (p : Part)

theorem lanes_injected (a i s o : Nat) : (p.injected a i s o).seats.lanes = p.seats.lanes := by
  unfold Part.injected
  exact (lanes_of_noted (event_noted _ _ _ _ _ _ _ _ _)).trans rfl

/-- A frame that passes the Shuffle changes no lane. -/
theorem lanes_inject (f : ShufFrame) (s : Nat) : (p.inject f s).1.seats.lanes = p.seats.lanes := by
  unfold Part.inject
  extract_lets _ counted idx _ kept now frame
  split
  · exact lanes_injected _ _ _ _ _
  · split
    next q late aged =>
      have aged : q.seats.lanes = p.seats.lanes := (congrArg (·.1.seats.lanes) aged).symm
      extract_lets corrupted doubled
      have corrupted : corrupted.seats.lanes = p.seats.lanes :=
        same_ite (read := (·.seats.lanes)) ((lanes_injected _ _ _ _ _).trans aged) aged
      have doubled : doubled.seats.lanes = p.seats.lanes :=
        same_ite (read := (·.seats.lanes)) ((lanes_injected _ _ _ _ _).trans corrupted) corrupted
      split
      · exact (lanes_injected _ _ _ _ _).trans doubled
      · exact doubled

theorem lanes_emit (x : BitVec 32) (r : BitVec 64) (c : Nat) (st : BitVec 16) (b : Bytes) (w : Path) :
    (p.emit x r c st b w).seats.lanes = p.seats.lanes := by
  unfold Part.emit
  split
  · rfl
  · extract_lets
    split
    · exact lanes_inject _ _ _
    · rfl

theorem lanes_pump (x id : BitVec 32) : (p.pump x id).seats.lanes = p.seats.lanes := by
  unfold Part.pump
  split
  · extract_lets
    split
    · rfl
    · exact (foldl_same (read := (·.seats.lanes)) (fun p b => lanes_emit p _ _ _ _ _ _) _ _).trans rfl
  · rfl

theorem lane_produce (x id : BitVec 32) (b : Bytes) (last : Bool) (n l : Nat) : (p.produce x id b last).lane n l = p.lane n l :=
  congrArg (fun lanes => Sparse.get ({} : Lane) lanes (laneKey n l)) (lanes_pump _ _ _)

end

/-! ### Rows and slots of a lane -/

/-- A row of a lane leaves the part that its act leaves. -/
theorem onLane_act {s : State} {n l : Nat} {f : Part → Part} {q : Part} (on : s.power.on = true) (there : s.hasSeat n = true) (hl : l < 2)
    (act : f s.toPart = q) : onLane n l s f = .next (after s q) := act ▸ onUnit_on (by simp [there, hl]) on f

theorem onSlot_act {s : State} {n l slot : Nat} {f : Part → Part} {q : Part} (on : s.power.on = true) (there : s.hasSeat n = true) (hl : l < 2)
    (hs : slot < 12) (act : f s.toPart = q) : onSlot n l slot s f = .next (after s q) := act ▸ onUnit_on (by simp [there, hl, hs]) on f

/-- A job stands in a slot of a lane. -/
def seated (p : Part) (n l slot : Nat) (j : LaneJob) : Part := p.updLane n l (fun x => { x with slots := Sparse.put x.slots slot j })

section
variable (p : Part) (n l slot : Nat) (j : LaneJob)

theorem slot_seated : Sparse.get? ((seated p n l slot j).lane n l).slots slot = some j :=
  (congrArg (fun x : Lane => Sparse.get? x.slots slot) (lane_updLane_same p n l _)).trans (Sparse.get?_put_same _ _ _)

theorem within_seated : Within [.seats] p (seated p n l slot j) := within_seats p _

end

/-! ### The modes of a lane (07 R186 to R203) -/

/-- The bytes of a command's input that a lane has worked on: all of them once they are there, else the whole blocks, or data units, of what has
come (R192). -/
def workedText (p : Part) (c : Cmd) (r : Lane.Req) (k : Lane.Peek) : Bytes :=
  let come := ((p.laneInput c r).1.drop r.aad).take r.len
  let grain := if r.mode = 5 then max 1 k.unit else 16
  if (p.laneInput c r).2 then come else come.take (come.length / grain * grain)

/-- What a command streams leaves its lane as it comes: all but a MAC's, and what the hold buffer keeps (R197). -/
def streams (j : LaneJob) (r : Lane.Req) : Bool := r.outId != 0 && j.mode != 6 && j.holdBytes == 0

/-- A command's job after work with its keys on what has come of its input (R192, R197). -/
def workedJob (p : Part) (c : Cmd) (j : LaneJob) (key key2 : Bytes) : LaneJob :=
  let r := Lane.req c.code c.params
  let rec_ := j.resumed.getD []
  let k := Lane.peek r c.params rec_
  let chain := if r.resume then slice rec_ 56 16 else Lane.chain0 r c.params j.iv
  let width := if r.resume then field rec_ 6 1 else field c.params 64 1
  let text := workedText p c r k
  let out := Lane.run r key key2 chain k.unit width text
  { j with
    output := out, released := if streams j r then out.length else j.released
    out := if (p.laneInput c r).2 then some (Part.laneOutcome c r j key k chain ((p.laneInput c r).1.take r.aad) text out (p.drawn 16)) else none
    issued := max j.issued ((text.length + 15) / 16 + (if j.mode = 5 then Lane.units text.length k.unit else 0)) }

/-- The part once a lane has worked: its slot holds the job, a finished one has drawn a free value, and the blocks are counted. -/
def worked (p : Part) (n l slot : Nat) (c : Cmd) (j j' : LaneJob) : Part :=
  let r := Lane.req c.code c.params
  let k := Lane.peek r c.params (j.resumed.getD [])
  let text := workedText p c r k
  ((seated p n l slot j').draw (if (p.laneInput c r).2 then 16 else 0)).bump (regAddr n (laneWin l) 0x0108)
    ((text.length + 15) / 16 + (if j.mode = 5 then Lane.units text.length k.unit else 0) - j.issued)

/-- What has come out of a lane goes to its output stream, and is what a failure would retract (R197, R199). -/
def streamed (q : Part) (n l : Nat) (c : Cmd) (j j' : LaneJob) (whole : Bool) : Part :=
  let r := Lane.req c.code c.params
  (match c.session? with
    | some x => q.produce x (BitVec.ofNat 32 r.outId) (j'.output.drop j.released) whole
    | none => q).updCmd c.uid (fun c => { c with retract := some (Part.retractFrom n l r j' j'.output.length) })

/-- The key that a handle has named; no bytes where it names none. -/
def materialOf : Except (BitVec 16) Slot → Bytes
  | .ok k => k.material
  | .error _ => []

section
variable {p : Part} {n l slot : Nat} {j : LaneJob} {c : Cmd} {k : Slot} {key2 : Bytes}
  (held : Sparse.get? (p.lane n l).slots slot = some j) (moded : j.mode ≠ 0) (fresh : j.out = none) (masked : p.maskFresh n l = true)
  (found : p.findCmd j.uid = some c) (first : p.keyOf n c (slice c.params 0 8) = .ok k)
  (second : key2 = materialOf (p.keyOf n c (slice c.params 8 8)))
include held moded fresh masked found first second

/-- A resident command of the row's own mode works with its keys; one with equal XTS keys is denied (R194). -/
theorem runLane_own : p.runLane n l slot j.mode =
    if j.mode = 5 ∧ k.material = key2 then seated p n l slot { j with out := some (Part.endsAs Status.keyUsageDenied) }
    else if streams j (Lane.req c.code c.params) then
      streamed (worked p n l slot c j (workedJob p c j k.material key2)) n l c j (workedJob p c j k.material key2)
        (p.laneInput c (Lane.req c.code c.params)).2
    else worked p n l slot c j (workedJob p c j k.material key2) := by
  have runs : ¬(j.mode ≠ j.mode ∨ j.mode = 0 ∨ j.out.isSome = true ∨ p.maskFresh n l = false) := by simp [moded, fresh, masked]
  subst second
  unfold Part.runLane
  simp only [held, found, if_neg runs, first]
  rfl

end

section
variable (p : Part) (n l slot : Nat) (c : Cmd) (j j' : LaneJob)

theorem slot_worked : Sparse.get? ((worked p n l slot c j j').lane n l).slots slot = some j' := slot_seated p n l slot j'

theorem within_worked : Within [.seats, .counts] p (worked p n l slot c j j') :=
  ((within_seated p n l slot j').mono.next (within_draw _ _)).next (within_bump _ _ _)

theorem slot_streamed (whole : Bool) : ((streamed p n l c j j' whole).lane n l).slots = (p.lane n l).slots := by
  unfold streamed
  split
  · exact congrArg Lane.slots (lane_produce p _ _ _ _ n l)
  · rfl

theorem within_streamed (whole : Bool) : Within sendUnits p (streamed p n l c j j' whole) := by
  unfold streamed
  split
  · exact (within_produce p _ _ _ _).next (within_updCmd _ _ _)
  · exact (within_updCmd p _ _).mono

end

/-- Settles O16: the row is the lane's work with the command's keys; the slot holds the job worked on, and what streams leaves the lanes alone. -/
theorem laneModesRun : Obligations.LaneModesRun := by
  intro s n l slot mode i j c k key2 row on there hl hs held own fresh masked found first second
  have runs : exec i s = onSlot n l slot s (fun p => p.runLane n l slot mode) := by fin_cases row <;> rfl
  have moded : mode ≠ 0 := by fin_cases row <;> decide
  subst own
  have works := runLane_own held moded fresh masked found first second
  extract_lets r rec_ pk chain width whole aad come grain text out streamed_
  refine ⟨fun five same => ?_, fun differ => ?_⟩
  · rw [if_pos ⟨five, same⟩] at works
    exact ⟨_, runs.trans (onSlot_act on there hl hs works), slot_seated _ _ _ _ _, rfl⟩
  · rw [if_neg (fun both => differ both.1 both.2)] at works
    have act := within_worked s.toPart n l slot c j (workedJob s.toPart c j k.material key2)
    have holds := slot_worked s.toPart n l slot c j (workedJob s.toPart c j k.material key2)
    by_cases leaves : streams j r = true
    · rw [if_pos leaves] at works
      have sent := (act.mono (l := .seats :: .counts :: sendUnits)).next (within_streamed _ n l c j (workedJob s.toPart c j k.material key2) whole)
      exact ⟨_, runs.trans (onSlot_act on there hl hs works), (congrArg (Sparse.get? · slot) (slot_streamed _ _ _ _ _ _ _)).trans holds,
        fun kept => absurd (leaves.symm.trans kept) (by decide), sent.units.keeps (by decide)⟩
    · rw [if_neg leaves] at works
      exact ⟨_, runs.trans (onSlot_act on there hl hs works), holds, fun _ => act.units.xct (by decide), act.units.keeps (by decide)⟩

/-! ### Frames of jobs that start, and of the charges of their keys (05 R131, R132) -/

section
variable (p : Part)

theorem within_passTurn (n hand : Nat) (site : Site) : Within [.seats] p (p.passTurn n hand site) := within_seats p _

theorem within_takeEngine (c : Cmd) (n : Nat) (site : Site) (i fixed : Nat) : Within [.xct, .disp, .seats] p (p.takeEngine c n site i fixed) :=
  ((within_updCmd p _ _).mono.next (within_disp _ _)).next (within_passTurn _ _ _ _)

theorem within_refuse (n u : Nat) (st : BitVec 16) (b : Bytes) : Within answerUnits p (p.refuse n u st b) :=
  (within_updCmd p _ _).mono.next (within_seatAnswer _ _ _ _ _)

theorem within_keyRead {n : Nat} {c : Cmd} {ecc : Decoded} (seat : n ≠ 0) (good : ecc ≠ .uncorrectable) :
    Within decodeUnits p (p.keyRead n c ecc).1 := by
  obtain h | ⟨_, h⟩ := keyRead_good (p := p) (n := n) (c := c) good <;> rw [h]
  · exact .refl
  · exact within_decoded p seat _ _ _

theorem within_updCache (n hand slot gen : Nat) (f : CacheEntry → CacheEntry) : Within [.seats] p (p.updCache n hand slot gen f) := within_seats p _

theorem within_mutate (kind : MutKind) (hand : Nat) (owner : Option Nat) (objs : List Obj) (own : Bool) (pub : Bytes) :
    Within formUnits p (p.mutate kind hand owner objs own pub) :=
  (within_vault p _).mono.next (formed_tryForm _ _).within

theorem within_tdeaReached (hand slot old new : Nat) (pol : Policy) : Within formUnits p (p.tdeaReached hand slot old new pol) := by
  unfold Part.tdeaReached
  split
  · exact .refl
  · exact .ite ((within_vault p _).mono.next (within_event _ _ _ _ _ _ _ _ _)) .refl

theorem within_requestAllowance (n slot : Nat) (pol : Policy) (uses blocks : Bool) :
    Within formUnits p (p.requestAllowance n slot pol uses blocks) := by
  unfold Part.requestAllowance
  extract_lets key _ room _ new
  refine .ite .refl (.ite .refl (.ite (within_mutate p _ _ _ _ _ _) (.ite ?_ .refl)))
  have written : Within formUnits p ((p.setSlot slot new).writeLines (slotLine slot) 1) := (within_setSlot p _ _).mono.next (within_writeLines _ _ _)
  split
  next q _ journaled =>
    have journaled : Within formUnits p q := by
      have := written.next (formed_writeJournal _ key.hand false p.leadEpoch (.allowance slot new.uses new.tdea)).within
      rwa [journaled] at this
    exact ((Within.ite (journaled.next (within_sendMirror _ _)) journaled).next (within_updCache _ _ _ _ _ _)).next (within_tdeaReached _ _ _ _ _ _)

variable {p}

/-- A charge that is met spends the Seat's allowance of the key, and may ask for the next. -/
theorem within_charge {n hand slot gen uses blocks : Nat} {pol : Policy} {q : Part} (met : p.charge n hand slot gen uses blocks pol = .ok q) :
    Within formUnits p q := by
  unfold Part.charge at met
  split at met
  · cases met
  · extract_lets spend asked at met
    have asked : Within formUnits p asked := .ite (within_requestAllowance p _ _ _ _ _) .refl
    split at met
    · cases met
      exact (within_updCache p _ _ _ _ _).mono
    · split at met
      · cases met
      · extract_lets need at met
        split at met
        · cases met
          exact (asked.next (within_updCache _ _ _ _ _ _)).next (within_requestAllowance _ _ _ _ _ _)
        · (repeat' split at met) <;> cases met

theorem within_chargeAll {n : Nat} {c : Cmd} {l : List Part.KeyUse} {q : Part} (met : p.chargeAll n c l = .ok q) : Within formUnits p q := by
  refine List.foldlRecOn (motive := fun r : Part.Charge => ∀ q, r = .ok q → Within formUnits p q) l _ ?_ ?_ q met
  · rintro _ ⟨⟩
    exact .refl
  · intro r before u _ q met
    split at met
    next q0 =>
      have before := before q0 rfl
      split at met
      · split at met
        next q1 charged =>
          cases met
          have charged := before.next (within_charge charged)
          exact .ite charged (charged.next (within_bump _ _ _))
        · cases met
        · split at met <;> cases met
      · cases met
        exact before
    · exact before q met

end

/-! ### Residence (07 R193, R202) -/

/-- Lane l of Seat n runs and has a free slot, and c is the command that it takes next. -/
structure Feeds (p : Part) (n l slot : Nat) (c : Cmd) : Prop where
  up : p.tileUp (siteTile n .lane l) = true
  serving : p.seatIn n .inService = true
  free : Part.freeSlot (p.lane n l) = some slot
  next : p.nextFor n .lane (p.laneFit n) = some c

/-- A command takes a slot of its lane, with its job. -/
def admitted (p : Part) (n l slot : Nat) (c : Cmd) (j : LaneJob) : Part :=
  seated ((p.takeEngine c n .lane l j.count).bump (regAddr n (laneWin l) 0x0100)) n l slot j

/-- The job of a context command, which takes no time of its lane's. -/
def ctxJob (now : Nat) (c : Cmd) : LaneJob := { uid := c.uid, mode := 0, chained := false, start := now }

/-- The first fragment of a command, which draws no counter value. -/
def firstJob (now : Nat) (c : Cmd) : LaneJob :=
  let r := Lane.req c.code c.params
  { uid := c.uid, mode := r.mode, chained := r.mode == 6 || (r.mode == 2 && r.op == 1), start := now
    count := Lane.cycles r (Lane.peek r c.params []).unit, firstSession := (c.session?).getD 0, firstRequest := c.request
    provisional := r.mode == 4 && r.op == 2 && !r.held, holdBytes := if r.held then r.len else 0
    iv := if r.mode = 4 then slice c.params 64 12 else [] }

/-- A lane command is checked, reads its keys and becomes resident, or is refused. -/
def checkedIn (p : Part) (n l slot : Nat) (c : Cmd) (ecc : Decoded) : Part :=
  match p.laneCheck n c with
  | .error (st, pl) => p.refuse n c.uid st pl
  | .ok keys => if (p.keyRead n c ecc).2 then (p.keyRead n c ecc).1.makeResident n l slot c keys else (p.keyRead n c ecc).1

section
variable (p : Part) (n l slot : Nat) (c : Cmd) (j : LaneJob)

theorem slot_admitted : Sparse.get? ((admitted p n l slot c j).lane n l).slots slot = some j := slot_seated _ _ _ _ _

theorem within_admitted : Within [.xct, .disp, .seats, .counts] p (admitted p n l slot c j) :=
  (((within_takeEngine p c n .lane l j.count).mono).next (within_bump _ _ _)).next (within_seated _ _ _ _ _)

end

section
variable {p : Part} {n l slot : Nat} {c : Cmd} {ecc : Decoded}

/-- A lane that takes a command passes its turn; a context command takes a slot, any other is checked. -/
theorem feedLane_takes (feeds : Feeds p n l slot c) : p.feedLane n l ecc =
    if Lane.modeOf c.code = 0 then admitted (p.passTurn n c.hand .lane) n l slot c (ctxJob p.now c)
    else checkedIn (p.passTurn n c.hand .lane) n l slot c ecc := by
  have able : ¬(p.tileUp (siteTile n .lane l) = false ∨ p.seatIn n .inService = false) := by simp [feeds.up, feeds.serving]
  unfold Part.feedLane
  simp only [if_neg able, feeds.free, feeds.next]
  split
  · rfl
  · cases checked : (p.passTurn n c.hand .lane).laneCheck n c with
    | error e => simp only [checkedIn, checked]
    | ok keys =>
      simp only [checkedIn, checked]
      split <;> simp [*]

theorem checkedIn_refuses {st : BitVec 16} {pl : Bytes} (failed : p.laneCheck n c = .error (st, pl)) :
    checkedIn p n l slot c ecc = p.refuse n c.uid st pl := by
  unfold checkedIn
  rw [failed]

theorem checkedIn_reads {keys : List Slot} (passed : p.laneCheck n c = .ok keys) (good : ecc ≠ .uncorrectable) :
    checkedIn p n l slot c ecc = (p.keyRead n c ecc).1.makeResident n l slot c keys := by
  unfold checkedIn
  simp only [passed, keyRead_on good, if_true]

/-- A first fragment that draws no counter value becomes resident once its keys are charged. -/
theorem makeResident_first {keys : List Slot} {q : Part} (first : (Lane.req c.code c.params).resume = false)
    (uncounted : (Lane.req c.code c.params).mode = 4 → (Lane.req c.code c.params).op = 2)
    (charged : p.chargeAll n c (Part.usesOf keys [0, 8] c.params [0, 0]) = .ok q) :
    p.makeResident n l slot c keys = admitted q n l slot c (firstJob q.now c) := by
  have drawsNone : ((Lane.req c.code c.params).mode == 4 && (Lane.req c.code c.params).op == 1 && !false) = false := by
    by_cases gcm : (Lane.req c.code c.params).mode = 4
    · simp [uncounted gcm]
    · simp [gcm]
  have unrecorded : p.ticketRec c.hand (Lane.req c.code c.params) = [] := by simp [Part.ticketRec, first]
  unfold Part.makeResident
  simp only [charged, drawsNone, first, unrecorded, Bool.false_eq_true, if_false, false_and]
  rfl

end

/-! ### Completion (07 R190, R193, R203, R209) -/

/-- A command's time is over: it leaves its slot, its lane is free from now on, and a tag or MAC that fails is counted. -/
def vacated (p : Part) (n l slot : Nat) (j : LaneJob) (o : Outcome) : Part :=
  let ends := max p.now (j.start + j.count)
  let q := ((p.atTime (j.start + j.count)).leaveLane n l slot).updTile (siteTile n .lane l) (fun t => { t with since := ends })
  if o.status = Status.tagFail ∨ o.status = TuStatus.macMismatch then q.bump (regAddr n (laneWin l) 0x0118) else q

/-- Inline output keeps its room in the hold buffer until its response is sent (R198). -/
def inlined (p : Part) (n : Nat) (c : Cmd) (j : LaneJob) (o : Outcome) : Part :=
  if o.status = Status.done ∧ 0 < j.holdBytes then p.updCmd c.uid (fun c => { c with hold := j.holdBytes, seat := n }) else p

section
variable (p : Part) (n l slot : Nat) (j : LaneJob) (o : Outcome)

theorem slot_leaveLane : Sparse.get? ((p.leaveLane n l slot).lane n l).slots slot = none := by
  unfold Part.leaveLane
  rw [lane_updLane_same]
  exact get?_erase_same _ _

theorem now_vacated : (vacated p n l slot j o).now = max p.now (j.start + j.count) := by
  unfold vacated
  exact same_ite (read := (·.now)) rfl rfl

theorem slot_vacated : Sparse.get? ((vacated p n l slot j o).lane n l).slots slot = none := by
  unfold vacated
  have left := slot_leaveLane (p.atTime (j.start + j.count)) n l slot
  exact same_ite (read := fun q : Part => Sparse.get? (q.lane n l).slots slot) left left

theorem findCmd_vacated (u : Nat) : (vacated p n l slot j o).findCmd u = p.findCmd u := by
  unfold vacated
  exact same_ite (read := (·.findCmd u)) rfl rfl

theorem seats_inlined (c : Cmd) : (inlined p n c j o).seats = p.seats := by
  unfold inlined
  exact same_ite (read := (·.seats)) rfl rfl

theorem now_inlined (c : Cmd) : (inlined p n c j o).now = p.now := by
  unfold inlined
  exact same_ite (read := (·.now)) rfl rfl

variable {p} in
/-- A command whose output waits with it is the same host's command. -/
theorem findCmd_inlined {c : Cmd} (found : p.findCmd c.uid = some c) : ∃ d, (inlined p n c j o).findCmd c.uid = some d ∧ d.uid = c.uid ∧
    d.isCall = c.isCall ∧ d.retract = c.retract := by
  unfold inlined
  split
  · exact ⟨_, (findCmd_updCmd_same p).trans (congrArg _ found), rfl, rfl, rfl⟩
  · exact ⟨c, found, rfl, rfl, rfl⟩

theorem lane_sweepDraining (m k : Nat) : (p.sweepDraining n).lane m k = p.lane m k := by
  obtain ⟨cache, counts, h⟩ := sweepDraining_eq p n
  rw [h]
  rfl

end

/-- A word that a Seat decodes leaves its lanes as they were. -/
theorem lane_decoded {p : Part} {n : Nat} (seat : n ≠ 0) (d : Decoded) (loc addr m k : Nat) : (p.decoded n d loc addr).lane m k = p.lane m k := by
  obtain ⟨_, -, noted⟩ := decoded_seat p seat d loc addr
  simp only [Part.lane, lanes_of_noted noted]

theorem lane_of_seats {p q : Part} (same : q.seats = p.seats) (n l : Nat) : q.lane n l = p.lane n l := by simp only [Part.lane, same]

section
variable {p : Part} {n l slot : Nat} {j : LaneJob} {o : Outcome} {c : Cmd} (held : Sparse.get? (p.lane n l).slots slot = some j)
  (out : j.out = some o) (answer : o.effect = .none)
include held out answer

/-- A command that saves no context reads its lane's memory and ends, whatever its link does. -/
theorem endLaneRead_reads (ecc : Decoded) : p.endLaneRead n l slot ecc = p.operandRead n l j.uid ecc (fun p => p.endLane n l slot) := by
  unfold Part.endLaneRead
  simp only [held, out, answer, Bool.false_and, Bool.false_eq_true, if_false]

variable (found : p.findCmd j.uid = some c) (inline : (Lane.req c.code c.params).outId = 0)
include found inline

/-- A command without an output stream ends with its answer. -/
theorem endLane_answers : p.endLane n l slot =
    ((inlined (vacated p n l slot j o) n c j o).seatAnswer n c.uid o.status o.payload).sweepDraining n := by
  unfold Part.endLane
  simp only [held, out, found, answer, inline, ne_eq, not_true_eq_false, and_false, and_true, if_false]
  cases c.session? <;> rfl

/-- A host's command that ends has its outcome on the way to the Dealer, and its slot is free. -/
theorem endLane_host (s : State) (host : c.isCall = false) (kept : c.retract = none) :
    Rising (after s (p.endLane n l slot)) c.uid n o.status o.payload ∧ Sparse.get? ((p.endLane n l slot).lane n l).slots slot = none ∧
      j.start + j.count ≤ (p.endLane n l slot).now := by
  have known : (vacated p n l slot j o).findCmd c.uid = some c := by rw [findCmd_vacated, uid_of_findCmd found, found]
  obtain ⟨d, foundD, uid, hostD, keptD⟩ := findCmd_inlined n j o known
  rw [← uid] at foundD
  replace hostD := hostD.trans host
  replace keptD := keptD.trans kept
  obtain ⟨cmds, -, now⟩ := sweepDraining_leaves ((inlined (vacated p n l slot j o) n c j o).seatAnswer n d.uid o.status o.payload) n
  rw [endLane_answers held out answer found inline, ← uid]
  refine ⟨?_, ?_, ?_⟩
  · obtain ⟨e, foundE, rest⟩ := rising_seatAnswer (n := n) (status := o.status) (payload := o.payload) s foundD hostD keptD
    exact ⟨e, (cmds _).trans foundE, rest⟩
  · rw [lane_sweepDraining, lane_of_seats (seats_seatAnswer foundD hostD keptD), lane_of_seats (seats_inlined _ n j o c)]
    exact slot_vacated p n l slot j o
  · rw [now, (within_seatAnswer _ _ _ _ _).now, now_inlined, now_vacated]
    exact Nat.le_max_right _ _

end

/-! ### A compare that fails (07 R208) -/

/-- A command stops on its lane, which goes on with its other residents; it will answer this status. -/
def halted (p : Part) (n l u : Nat) (st : BitVec 16) : Part :=
  ((p.forget u).freeEngine n .lane l u).updCmd u (fun c => { c with place := .scrubbing n .lane l, status := st, payload := [] })

theorem stopWork_lane {p : Part} {n l u : Nat} {c : Cmd} {st : BitVec 16} (found : p.findCmd u = some c) (place : c.place = .engine n .lane l) :
    p.stopWork u (some st) = halted p n l u st := by
  unfold Part.stopWork
  simp only [found, place]
  rfl

theorem within_halted (p : Part) (n l u : Nat) (st : BitVec 16) : Within [.vault, .seats, .xct] p (halted p n l u st) :=
  (((within_forget p u).mono).next (within_freeEngine _ _ _ _ _)).next (within_updCmd _ _ _)

theorem slots_halted (p : Part) (n l u : Nat) (st : BitVec 16) :
    ((halted p n l u st).lane n l).slots = (p.lane n l).slots.filter (fun e => !(e.2.uid == u)) :=
  congrArg Lane.slots (lane_updLane_same (p.forget u) n l (fun x => { x with slots := x.slots.filter (fun e => !(e.2.uid == u)) }))

theorem findCmd_halted (p : Part) (n l u : Nat) (st : BitVec 16) : (halted p n l u st).findCmd u =
    (p.findCmd u).map (fun c => { c with place := .scrubbing n .lane l, status := st, payload := [] }) :=
  findCmd_updCmd_same ((p.forget u).freeEngine n .lane l u)

/-- The failure is counted, its lane's only resident stops, and the lane scrubs. -/
def compareFailed (p : Part) (n l u : Nat) : Part :=
  (halted (p.bump (regAddr n (laneWin l) 0x0110)) n l u Status.faultDetected).startScrub (siteTile n .lane l)

section
variable {p : Part} {n l slot : Nat} {j : LaneJob} {c : Cmd}

theorem within_compareFailed (u : Nat) : Within [.counts, .vault, .seats, .xct] p (compareFailed p n l u) :=
  ((within_bump p _ _).mono.next (within_halted _ n l u Status.faultDetected)).next (within_startScrub _ _)

/-- A lane's only resident leaves its slots. -/
theorem slots_compareFailed (only : (p.lane n l).slots = [(slot, j)]) : ((compareFailed p n l j.uid).lane n l).slots = [] := by
  have left := slots_halted (p.bump (regAddr n (laneWin l) 0x0110)) n l j.uid Status.faultDetected
  have same : (p.bump (regAddr n (laneWin l) 0x0110)).lane n l = p.lane n l := rfl
  exact left.trans (by simp [same, only])

theorem tile_startScrub (p : Part) (key : Nat) : (p.startScrub key).tile key =
    { p.tile key with st := .scrubbing, since := p.now, scrubEnd := p.now + scrubCycles } := tile_updTile_same _ _ _

theorem tile_compareFailed (p : Part) (n l u : Nat) : ((compareFailed p n l u).tile (siteTile n .lane l)).st = .scrubbing ∧
    ((compareFailed p n l u).tile (siteTile n .lane l)).scrubEnd = p.now + 2048 := by
  unfold compareFailed
  rw [tile_startScrub]
  exact ⟨rfl, congrArg (· + scrubCycles) (within_halted (p.bump _) n l u Status.faultDetected).now⟩

theorem compareFail_only (only : (p.lane n l).slots = [(slot, j)]) (found : p.findCmd j.uid = some c) (place : c.place = .engine n .lane l) :
    p.compareFail n l = (compareFailed p n l j.uid).latWitness n 13 l (512 + l) := by
  have known : (p.bump (regAddr n (laneWin l) 0x0110)).findCmd j.uid = some c := found
  unfold Part.compareFail
  simp only [only, List.cons_ne_nil, if_false, List.foldl_cons, List.foldl_nil, stopWork_lane known place]
  rfl

theorem scrubbing_compareFailed (s : State) (found : p.findCmd j.uid = some c) :
    Scrubbing (after s (compareFailed p n l j.uid)) c.uid n .lane l Status.faultDetected := by
  have stopped := findCmd_halted (p.bump (regAddr n (laneWin l) 0x0110)) n l j.uid Status.faultDetected
  have same : (p.bump (regAddr n (laneWin l) 0x0110)).findCmd j.uid = some c := found
  rw [same] at stopped
  rw [uid_of_findCmd found]
  exact ⟨_, stopped, rfl, rfl, rfl⟩

end

/-! ### The mask generator (07 R205, R206) -/

@[simp] theorem lane_setLane_same (p : Part) (n l : Nat) (x : Lane) : (p.setLane n l x).lane n l = x := Sparse.get_set_same _ _ _ _

theorem within_setLane (p : Part) (n l : Nat) (x : Lane) : Within [.seats] p (p.setLane n l x) := within_seats p _

/-- A lane's seed, once due, is drawn from the Seat's DRBG, and the stall until then is counted. -/
def seedTaken (p : Part) (n l : Nat) : Part :=
  (((p.atTime (p.lane n l).seedDue).drbgTakes n 64).bump (regAddr n (laneWin l) 0x0128)).bump (regAddr n (laneWin l) 0x0130)
    ((p.atTime (p.lane n l).seedDue).stalled n l)

theorem changes_seedTaken (p : Part) (n l : Nat) : ChangesOnly [.counts, .trngs] p (seedTaken p n l) :=
  ((((changes_now p _).trans (changes_drbgTakes _ _ _)).trans (changes_bump _ _ _)).trans (changes_bump _ _ _)).mono (by decide)

section
variable {p : Part} {n l : Nat} (up : p.tileUp (siteTile n .lane l) = true)
include up

theorem requestReseed_up : p.requestReseed n l = (p.atTime ((p.lane n l).seedDue - 8192)).setLane n l { p.lane n l with requested := true } :=
  if_neg (by simp [up])

/-- A seed that has come by the time it falls due is used (R206). -/
theorem maskReseed_seeds (asked : (p.lane n l).requested = true) (serves : p.drbgServes n = true) : ∃ starved,
    p.maskReseed n l = (seedTaken p n l).setLane n l { p.lane n l with
      seeded := true, requested := false, seedDue := max p.now (p.lane n l).seedDue + 65536, starved := starved } := by
  unfold Part.maskReseed
  simp only [up, asked, drbgServes_atTime, serves, Bool.true_eq_false, and_self, if_true, if_false]
  exact ⟨_, rfl⟩

theorem maskReseed_starves (missing : (p.lane n l).requested = false ∨ p.drbgServes n = false) :
    p.maskReseed n l = (p.atTime (p.lane n l).seedDue).setLane n l { p.lane n l with seeded := false, starved := true } := by
  have none_ : ¬((p.lane n l).requested = true ∧ p.drbgServes n = true) := by
    rintro ⟨asked, serves⟩
    obtain h | h := missing <;> simp_all
  unfold Part.maskReseed
  simp only [up, drbgServes_atTime, Bool.true_eq_false, if_false]
  exact if_neg none_

end

/-! ### Context commands (07 R210, R212 to R216) -/

/-- A context command that has answered leaves its slot, and its lane is free from then on. -/
def ctxOver (q : Part) (n l slot : Nat) : Part := (q.leaveLane n l slot).updTile (siteTile n .lane l) (fun t => { t with since := q.now })

theorem within_ctxOver (q : Part) (n l slot : Nat) : Within [.seats] q (ctxOver q n l slot) := (within_seats q _).next (within_updTile _ _ _)

theorem findCmd_ctxOver (q : Part) (n l slot u : Nat) : (ctxOver q n l slot).findCmd u = q.findCmd u := rfl

section
variable {p r : Part} {n l slot : Nat} {j : LaneJob} {c : Cmd} {code : Nat} {f : Part → Cmd → Part} {st : BitVec 16} {pl : Bytes}
  (held : Sparse.get? (p.lane n l).slots slot = some j) (found : p.findCmd j.uid = some c) (named : c.code = code) (link : p.linkUp n = true)
  (host : c.isCall = false) (kept : c.retract = none) (act : f p c = r.refuse n c.uid st pl) (known : r.findCmd c.uid = some c)
include held found named link host kept act known

/-- A context command of a host that answers leaves its lane. -/
theorem runCtx_answers (s : State) : p.runCtx n l slot code f = ctxOver (r.refuse n c.uid st pl) n l slot := by
  obtain ⟨d, foundD, place, -⟩ := rising_refuse (n := n) (st := st) (pl := pl) known host kept s
  have foundD : (r.refuse n c.uid st pl).findCmd c.uid = some d := foundD
  have gone : ((r.refuse n c.uid st pl).findCmd c.uid).any (fun x => x.place == .engine n .lane l) = false := by simp [foundD, place]
  have served : ¬(c.code ≠ code ∨ p.linkUp n = false) := by simp [named, link]
  unfold Part.runCtx
  simp only [held, found, if_neg served, act, gone]
  rfl

end

/-- A context command whose act leaves the part r but for its answer has answered, and the vault is r's. -/
theorem ctxRow_next {s : State} {r : Part} {n l slot : Nat} {j : LaneJob} {c : Cmd} {f : Part → Cmd → Part} {st : BitVec 16} {pl : Bytes}
    (on : s.power.on = true) (there : s.hasSeat n = true) (hl : l < 2) (hs : slot < 12) (held : Sparse.get? (s.lane n l).slots slot = some j)
    (found : s.findCmd j.uid = some c) (link : s.linkUp n = true) (host : c.isCall = false) (kept : c.retract = none)
    (act : f s.toPart c = r.refuse n c.uid st pl) (store : Within [.vault] s.toPart r) :
    ∃ t : State, onSlot n l slot s (fun p => p.runCtx n l slot c.code f) = .next t ∧ Rising t c.uid n st pl ∧ t.vault = r.vault ∧
      Keeps [.fuses, .deal, .ports, .disp, .lats, .trngs, .guard, .cers, .joker, .shuffle] s t := by
  have known : r.findCmd c.uid = some c := by rw [store.units.findCmd (by decide), uid_of_findCmd found, found]
  have finished := (within_refuse r n c.uid st pl).next (within_ctxOver _ n l slot)
  refine ⟨_, onSlot_act on there hl hs (runCtx_answers held found rfl link host kept act known s), ?_, ?_, ?_⟩
  · obtain ⟨d, foundD, rest⟩ := rising_refuse (n := n) (st := st) (pl := pl) known host kept s
    exact ⟨d, (findCmd_ctxOver _ n l slot c.uid).trans foundD, rest⟩
  · exact finished.units .vault (by decide)
  · exact ((store.mono (l := .vault :: answerUnits)).next finished).units.keeps (by decide)

section
variable (p : Part)

theorem ctx_of_vault {p q : Part} (same : q.vault = p.vault) (k : Nat) : q.ctx k = p.ctx k := by rw [Part.ctx, same, Part.ctx]

theorem ctx_setCtx_same (k : Nat) (x : Ctx) : (p.setCtx k x).ctx k = x := Sparse.get_set_same _ _ _ _

theorem within_setCtx (k : Nat) (x : Ctx) : Within [.vault] p (p.setCtx k x) := within_vault p _

theorem ctx_freeCtx (t : Ticket) : (p.freeCtx t).ctx (Part.ctxKey t.hand t.index) = { gen := min (t.gen + 1) 0xFFFFFF, used := false, data := [] } :=
  ctx_setCtx_same _ _ _

theorem within_freeCtx (t : Ticket) : Within [.vault] p (p.freeCtx t) := within_setCtx p _ _

theorem ctx_writeLine (line k : Nat) : (p.writeLine line).ctx k = p.ctx k := by
  obtain ⟨poisoned, minors, reenc, h⟩ := writeLine_lines p line
  rw [h]
  rfl

theorem ctx_writeLines (line m k : Nat) : (p.writeLines line m).ctx k = p.ctx k := by
  induction m generalizing p line with
  | zero => rfl
  | succ m ih => exact (ih _ _).trans (ctx_writeLine p line k)

/-- A context saved in free place g of a hand (R210). -/
def saved (hand g : Nat) (d : Bytes) : Part :=
  (p.setCtx (Part.ctxKey hand g) { gen := (p.ctx (Part.ctxKey hand g)).gen + 1, used := true, data := d }).writeLines (ctxLine hand g) 4

theorem ctx_saved (hand g : Nat) (d : Bytes) : (saved p hand g d).ctx (Part.ctxKey hand g) =
    { gen := (p.ctx (Part.ctxKey hand g)).gen + 1, used := true, data := d } :=
  (ctx_writeLines _ _ _ _).trans (ctx_setCtx_same _ _ _)

theorem within_saved (hand g : Nat) (d : Bytes) : Within [.vault] p (saved p hand g d) := (within_setCtx p _ _).next (within_writeLines _ _ _)

variable {p}

theorem saveCtx_free {hand g : Nat} (free : p.freeRecord hand = some g) (d : Bytes) : p.saveCtx hand d = (saved p hand g d,
    some { hand := hand, gen := (p.ctx (Part.ctxKey hand g)).gen + 1, inc := p.vault.incarnation % 65536, index := g }) := by
  unfold Part.saveCtx saved
  simp only [free]

variable {n : Nat} {c : Cmd}

/-- A clear record, which needs no key, is exported, and its ticket is spent (R214). -/
theorem laneExport_clear {rec_ : Bytes} (len : c.params.length = 16) (noKey : allZero (slice c.params 8 8) = true)
    (sound : p.ticketFault c.hand (ticketOf (c.params.take 8)) = none)
    (stored : (p.ctx (Part.ctxKey (ticketOf (c.params.take 8)).hand (ticketOf (c.params.take 8)).index)).data = rec_)
    (version : field rec_ 0 1 = 1) (clear : field rec_ 1 1 = 2 ∨ field rec_ 1 1 = 3) :
    p.laneExport n c = (p.freeCtx (ticketOf (c.params.take 8))).refuse n c.uid Status.done ([1, 0, 0, 0] ++ toBE 4 rec_.length ++ rec_) := by
  have notGcm : field rec_ 1 1 ≠ 4 := by omega
  have keyless : (field rec_ 1 1 == 2 || field rec_ 1 1 == 3) = true := by simpa using clear
  unfold Part.laneExport
  simp only [len, noKey, sound, stored, version, notGcm, keyless, ne_eq, not_true_eq_false, false_and, if_false, if_true]
  rfl

/-- Bytes within a slice are the block's own. -/
theorem slice_slice {b : Bytes} {off len i m : Nat} (inside : i + m ≤ len) : slice (slice b off len) i m = slice b (off + i) m := by
  rw [slice, slice, slice, List.drop_take, List.take_take, List.drop_drop, Nat.min_eq_left (by omega)]

/-- A clear record of the command's own hand is stored in a free place, and its ticket is answered (R215). -/
theorem laneImport_clear {g : Nat} (len : c.params.length = 144) (noKey : allZero (slice c.params 0 8) = true)
    (form : slice c.params 8 8 = [1, 0, 0, 0, 0, 0, 0, 128]) (wellFormed : Part.laneRecordOk (c.params.drop 16) = true)
    (clear : field (c.params.drop 16) 1 1 = 2 ∨ field (c.params.drop 16) 1 1 = 3) (own : field (c.params.drop 16) 4 1 = c.hand)
    (free : p.freeRecord c.hand = some g) :
    p.laneImport n c = (saved p c.hand g (c.params.drop 16)).refuse n c.uid Status.done
      (toBE 1 c.hand ++ toBE 3 ((p.ctx (Part.ctxKey c.hand g)).gen + 1) ++ toBE 2 (p.vault.incarnation % 65536) ++ toBE 2 g) := by
  have keyless : (field (c.params.drop 16) 1 1 == 2 || field (c.params.drop 16) 1 1 == 3) = true := by simpa using clear
  have within : ∀ i m, i + m ≤ 8 → slice c.params (8 + i) m = slice [1, 0, 0, 0, 0, 0, 0, 128] i m := fun i m inside => by
    rw [← form, slice_slice inside]
  have formByte : field c.params 8 1 = 1 := congrArg be (within 0 1 (by decide))
  have formZero : allZero (slice c.params 9 3) = true := congrArg allZero (within 1 3 (by decide))
  have formLen : field c.params 12 4 = 128 := congrArg be (within 4 4 (by decide))
  unfold Part.laneImport
  simp only [len, noKey, formByte, formZero, formLen, wellFormed, keyless, own, saveCtx_free free, Nat.reduceLT, Nat.reduceAdd, ne_eq,
    not_true_eq_false, or_self, if_false, if_true, OfNat.one_ne_ofNat, not_false_eq_true, and_true, Bool.true_eq_false, BEq.rfl]
  rfl

/-- A lane's record that is discarded is freed at its next generation (R216). -/
theorem laneDiscard_own (len : c.params.length = 8) (sound : p.ticketFault c.hand (ticketOf c.params) = none)
    (own : field (p.ctx (Part.ctxKey (ticketOf c.params).hand (ticketOf c.params).index)).data 0 1 = 1) :
    p.laneDiscard n c = (p.freeCtx (ticketOf c.params)).refuse n c.uid Status.done [] := by
  unfold Part.laneDiscard
  simp only [len, sound, own]
  rfl

end

/-! ### The rows -/

/-- A frame speaks of each unit of a part of its list too. -/
theorem keeps_mono {l m : List Unit_} {s t : State} (keeps : Keeps l s t) (sub : m ⊆ l := by decide) : Keeps m s t := fun u mem => keeps u (sub mem)

/-- LANE_COMMAND_RESIDENT of a lane that takes a command. -/
theorem laneCommandResident_next {s : State} {n l slot : Nat} {c : Cmd} {ecc : Decoded} (on : s.power.on = true) (there : s.hasSeat n = true)
    (hl : l < 2) (feeds : Feeds s.toPart n l slot c) : exec (.laneCommandResident n l ecc) s = .next (after s
      (if Lane.modeOf c.code = 0 then admitted (s.passTurn n c.hand .lane) n l slot c (ctxJob s.now c)
        else checkedIn (s.passTurn n c.hand .lane) n l slot c ecc)) :=
  onLane_act on there hl (feedLane_takes feeds)

/-- Settles O17: residence by what the turn, the key's words and its charges leave; an end by its answer; the others by what each act leaves in
its lane, and the context commands by the record that each takes or frees. -/
theorem laneRowsAct : Obligations.LaneRowsAct := by
  refine ⟨fun s n l slot ecc c keys q on there hl up serving free next mode passed good first uncounted charged => ?_,
    fun s n l slot ecc c st pl on there hl up serving free next mode failed found host kept => ?_,
    fun s n l slot ecc c on there hl up serving free next mode => ?_,
    fun s n l slot ecc j o c on there hl hs held out found answer => ?_,
    fun s n l slot j c on there hl only found place => ?_, fun s n l on there hl up => ?_, fun s n l on there hl up asked serves => ?_,
    fun s n l on there hl up missing => ?_,
    fun s n l slot j c on there hl hs held found _ code link host kept len noKey sound version clear => ?_,
    fun s n l slot j c g on there hl hs held found _ code link host kept len noKey form wellFormed clear own free => ?_,
    fun s n l slot j c on there hl hs held found _ code link host kept len sound own => ?_⟩
  · have turned := (within_passTurn s.toPart n c.hand .lane).mono (l := formUnits)
    have act := ((turned.next (within_keyRead _ (ne_zero_of_hasSeat there) good)).next (within_chargeAll charged)).next
      (within_admitted q n l slot c (firstJob q.now c))
    refine ⟨_, firstJob q.now c, laneCommandResident_next on there hl ⟨up, serving, free, next⟩, ?_⟩
    rw [if_neg mode, checkedIn_reads passed good, makeResident_first first uncounted charged]
    exact ⟨slot_admitted _ _ _ _ _ _, rfl, rfl, rfl, rfl, rfl, act.units.keeps (by decide)⟩
  · have known : (s.passTurn n c.hand .lane).findCmd c.uid = some c := found
    have act := ((within_passTurn s.toPart n c.hand .lane).mono (l := answerUnits)).next (within_refuse _ n c.uid st pl)
    refine ⟨_, laneCommandResident_next on there hl ⟨up, serving, free, next⟩, ?_⟩
    rw [if_neg mode, checkedIn_refuses failed]
    exact ⟨rising_refuse known host kept s, lane_of_seats (seats_refuse known host kept) n l, act.units.keeps (by decide)⟩
  · have turned := (within_passTurn s.toPart n c.hand .lane).mono (l := [.xct, .disp, .seats, .counts])
    have act := turned.next (within_admitted _ n l slot c (ctxJob s.now c))
    refine ⟨_, laneCommandResident_next on there hl ⟨up, serving, free, next⟩, ?_⟩
    rw [if_pos mode]
    exact ⟨slot_admitted _ _ _ _ _ _, act.units.keeps (by decide)⟩
  · have seat := ne_zero_of_hasSeat there
    have row : exec (.laneCommandComplete n l slot ecc) s = .next (after s (s.operandRead n l j.uid ecc (fun p => p.endLane n l slot))) :=
      onSlot_act on there hl hs (endLaneRead_reads held out answer ecc)
    refine ⟨fun good host kept inline => ⟨_, row, ?_⟩, fun bad => ?_⟩
    · rw [Part.operandRead, if_neg good]
      have held : Sparse.get? ((s.decoded n ecc Part.locOperand l).lane n l).slots slot = some j := by rw [lane_decoded seat, held]
      exact endLane_host held out answer ((findCmd_decoded _ seat _ _ _ _).trans found) inline s host kept
    · rw [row, Part.operandRead, if_pos bad]
  · obtain ⟨st, scrubEnd⟩ := tile_compareFailed s.toPart n l j.uid
    exact ⟨compareFailed s.toPart n l j.uid, onLane_act on there hl (compareFail_only only found place), slots_compareFailed only, st, scrubEnd,
      scrubbing_compareFailed s found, (within_compareFailed j.uid).units.keeps (by decide)⟩
  · exact ⟨_, onLane_act on there hl (requestReseed_up up), lane_setLane_same _ _ _ _, Nat.le_max_right _ _,
      ((changes_now _ _).trans (within_setLane _ n l _).units).keeps (by decide)⟩
  · obtain ⟨starved, seeds⟩ := maskReseed_seeds up asked serves
    have lane := lane_setLane_same (seedTaken s.toPart n l) n l { s.lane n l with
      seeded := true, requested := false, seedDue := max s.now (s.lane n l).seedDue + 65536, starved := starved }
    exact ⟨_, onLane_act on there hl seeds, congrArg Lane.seeded lane, congrArg Lane.requested lane, congrArg Lane.seedDue lane,
      Nat.le_max_right _ _, rfl, ((changes_seedTaken _ n l).trans (within_setLane _ n l _).units).keeps (by decide)⟩
  · exact ⟨_, onLane_act on there hl (maskReseed_starves up missing), lane_setLane_same _ _ _ _, rfl,
      ((changes_now _ _).trans (within_setLane _ n l _).units).keeps (by decide)⟩
  · obtain ⟨t, runs, rises, vault, keeps⟩ := ctxRow_next (f := fun p c => p.laneExport n c) on there hl hs held found link host kept
      (laneExport_clear len noKey sound rfl version clear) (within_freeCtx _ _)
    rw [code] at runs
    exact ⟨t, runs, rises, congrArg Ctx.used ((ctx_of_vault vault _).trans (ctx_freeCtx _ _)), keeps_mono keeps⟩
  · obtain ⟨t, runs, rises, vault, keeps⟩ := ctxRow_next (f := fun p c => p.laneImport n c) on there hl hs held found link host kept
      (laneImport_clear len noKey form wellFormed clear own free) (within_saved _ _ _ _)
    rw [code] at runs
    exact ⟨t, runs, rises, (ctx_of_vault vault _).trans (ctx_saved _ _ _ _), keeps_mono keeps⟩
  · obtain ⟨t, runs, rises, vault, keeps⟩ := ctxRow_next (f := fun p c => p.laneDiscard n c) on there hl hs held found link host kept
      (laneDiscard_own len sound own) (within_freeCtx _ _)
    rw [code] at runs
    exact ⟨t, runs, rises, (ctx_of_vault vault _).trans (ctx_freeCtx _ _), keeps⟩

end Sys2Proof.CipherLanes

/-! ## Public-key engine: the operations, starts, ends, yields and RSA key generation (08 R222 to R243) -/

namespace Sys2Proof.PublicKey

open Sys2Proof.Machine Sys2Proof.Safety Sys2Proof.Laws Sys2Proof.Architecture Sys2Proof.DealRows Sys2Proof.HostTransport Sys2Proof.Dispatching
  Sys2Proof.KeyVault Sys2Proof.Tricks Sys2Proof.CipherLanes

/-! ### Rows and banks of a core -/

/-- A row of a core leaves the part that its act leaves. -/
theorem onPke_act {s : State} {n k : Nat} {f : Part → Part} {q : Part} (on : s.power.on = true) (there : s.hasSeat n = true) (hk : k < 8)
    (act : f s.toPart = q) : onPke n k s f = .next (after s q) := act ▸ onUnit_on (by simp [there, hk]) on f

section
variable (p : Part) (n k : Nat)

@[simp] theorem pke_setPke_same (x : PkeCore) : (p.setPke n k x).pke n k = x := Sparse.get_set_same _ _ _ _

@[simp] theorem pke_updPke_same (f : PkeCore → PkeCore) : (p.updPke n k f).pke n k = f (p.pke n k) := pke_setPke_same p n k _

theorem within_setPke (x : PkeCore) : Within [.seats] p (p.setPke n k x) := within_seats p _

theorem within_setBank (b : Nat) (j : Option Job) : Within [.seats] p (p.setBank n k b j) := within_seats p _

@[simp] theorem bank_setBank_same (b : Nat) (j : Option Job) : Part.bank ((p.setBank n k b j).pke n k) b = j := by
  rw [Part.setBank, pke_updPke_same, Part.bank]
  split <;> rfl

theorem bank_setBank_other {b : Nat} (two : b < 2) (j : Option Job) :
    Part.bank ((p.setBank n k b j).pke n k) (1 - b) = Part.bank (p.pke n k) (1 - b) := by
  rw [Part.setBank, pke_updPke_same]
  interval_cases b <;> rfl

theorem keygen_setBank (b : Nat) (j : Option Job) : ((p.setBank n k b j).pke n k).keygen = (p.pke n k).keygen := by
  rw [Part.setBank, pke_updPke_same]
  split <;> rfl

end

theorem pke_of_seats {p q : Part} (same : q.seats = p.seats) (n k : Nat) : q.pke n k = p.pke n k := by simp only [Part.pke, same]

/-- A word that a Seat decodes leaves its cores as they were. -/
theorem pke_decoded {p : Part} {n : Nat} (seat : n ≠ 0) (d : Decoded) (loc addr m k : Nat) : (p.decoded n d loc addr).pke m k = p.pke m k := by
  obtain ⟨_, -, noted⟩ := decoded_seat p seat d loc addr
  unfold Part.pke
  rw [noted.seats]

theorem pke_sweepDraining (p : Part) (n m k : Nat) : (p.sweepDraining n).pke m k = p.pke m k := by
  obtain ⟨cache, counts, h⟩ := sweepDraining_eq p n
  rw [h]
  rfl

theorem drbgServes_decoded {p : Part} {n : Nat} (seat : n ≠ 0) (d : Decoded) (loc addr die : Nat) :
    (p.decoded n d loc addr).drbgServes die = p.drbgServes die := by
  have same : (p.decoded n d loc addr).trngs = p.trngs := (within_decoded p seat d loc addr).units .trngs (by decide)
  simp only [Part.drbgServes, Part.trng, same]

theorem runningBank_lt {x : PkeCore} {b : Nat} (running : Part.runningBank x = some b) : b < 2 := by
  unfold Part.runningBank at running
  split_ifs at running <;> cases running <;> decide

theorem runningBank_zero {x : PkeCore} {j : Job} (held : x.bank0 = some j) : Part.runningBank x = some 0 := by simp [Part.runningBank, held]

theorem runningBank_one {x : PkeCore} {j : Job} (free : x.bank0 = none) (held : x.bank1 = some j) (unparked : x.parked = false) :
    Part.runningBank x = some 1 := by simp [Part.runningBank, free, held, unparked]

/-- An operation that draws random values where the Seat's DRBG serves does not stall (R238). -/
theorem not_stalled {p : Part} {n : Nat} {c : Cmd} (serves : Part.drawsRandom c = true → p.drbgServes n = true) :
    ¬(Part.drawsRandom c = true ∧ p.drbgServes n = false) := fun ⟨random, stalled⟩ => by simp [serves random] at stalled

/-! ### The operations (08 R222, R225 to R237, R242) -/

/-- An operation has its outcome, and whether the core's check of it holds; it has taken its random values from the Seat's DRBG. -/
def computed (p : Part) (n k b : Nat) (j : Job) (c : Cmd) : Part :=
  (p.setBank n k b (some { j with out := some (Part.pkeOutcome c (p.pkeResult n c).1), sound := (p.pkeResult n c).2 })).drbgTakes n
    (Part.drawCount c)

/-- RSA key generation has drawn its first candidate (R243). -/
def firstDrawn (p : Part) (n k : Nat) (c : Cmd) : Part :=
  (p.setPke n k { p.pke n k with
    keygen := { stage := 1, candidate := Pk.candidate (32 * field c.params 5 1) (p.drawn 512) } }).drbgTakes n 512

theorem within_computed (p : Part) (n k b : Nat) (j : Job) (c : Cmd) : Within [.seats, .counts, .trngs] p (computed p n k b j c) :=
  (within_setBank p n k b _).mono.next (within_drbgTakes _ _ _)

theorem within_firstDrawn (p : Part) (n k : Nat) (c : Cmd) : Within [.seats, .counts, .trngs] p (firstDrawn p n k c) :=
  (within_setPke p n k _).mono.next (within_drbgTakes _ _ _)

/-- The job of the row's own operation runs on the core: RSA key generation draws its first candidate, any other operation computes. -/
theorem runPke_own {p : Part} {n k b : Nat} {j : Job} {c : Cmd} (running : Part.runningBank (p.pke n k) = some b)
    (held : Part.bank (p.pke n k) b = some j) (fresh : j.out = none) (found : p.findCmd j.uid = some c)
    (serves : Part.drawsRandom c = true → p.drbgServes n = true) : p.runPke n k j.prog =
      if j.prog = 0x40 ∧ field c.params 4 1 = 0x20 then if (p.pke n k).keygen.stage ≠ 0 then p else firstDrawn p n k c
      else computed p n k b j c := by
  have own : ¬(j.prog ≠ j.prog ∨ j.out.isSome = true) := by simp [fresh]
  unfold Part.runPke
  simp only [running, held, found]
  rw [if_neg own, if_neg (not_stalled serves)]
  rfl

/-- Settles O18: an operation with its own job leaves what it has computed in the job's bank; RSA key generation its first candidate. -/
theorem pkeOperationsRun : Obligations.PkeOperationsRun := by
  refine ⟨fun s n k b op i j c row on there hk running held own fresh found whole serves => ?_,
    fun s n k j c on there hk free held unparked prog fresh found rsa first serves => ?_⟩
  · have runs : exec i s = onPke n k s (fun p => p.runPke n k op) := by fin_cases row <;> rfl
    subst own
    have computes := runPke_own running held fresh found serves
    rw [if_neg fun rsa => whole rsa.1 rsa.2] at computes
    exact ⟨_, runs.trans (onPke_act on there hk computes), bank_setBank_same s.toPart n k b _,
      bank_setBank_other s.toPart n k (runningBank_lt running) _, rfl, (within_computed s.toPart n k b j c).units.keeps (by decide)⟩
  · have draws := runPke_own (runningBank_one free held unparked) held fresh found fun _ => serves
    rw [if_pos ⟨prog, rsa⟩, if_neg (not_not.2 first), prog] at draws
    exact ⟨_, onPke_act on there hk draws, pke_setPke_same s.toPart n k _, rfl, (within_firstDrawn s.toPart n k c).units.keeps (by decide)⟩

/-! ### A job that starts (08 R223, R224) -/

/-- A command that writes a slot has noted its generation. -/
def targeted (q : Part) (c : Cmd) : Cmd := { c with target := (Part.targetOf c.code c.params).map (fun t => (q.slot t.head).gen) }

/-- A command has its core: a Trump job in bank 0, a Long one in bank 1. -/
def jobSeated (q : Part) (n k : Nat) (c : Cmd) (count : Nat) : Part :=
  (((q.updCmd c.uid (targeted q)).takeEngine c n .pke k count).setBank n k (if c.cls = .long then 1 else 0)
    (some { uid := c.uid, prog := opOf c.code, start := q.now, count := count })).bump (regAddr n (Part.pkeWin k) 0x0100)

/-- A check has failed: the command is counted and answered at once, and its core is busy for 400 cycles (R223). -/
def jobRefused (p : Part) (n k : Nat) (c : Cmd) (st : BitVec 16) (pl : Bytes) : Part :=
  (((p.bump (regAddr n (Part.pkeWin k) 0x0108)).passTurn n c.hand .pke).refuse n c.uid st pl).tileFrom (siteTile n .pke k) (p.now + 400)

/-- Core k of Seat n runs and holds no job, and c is the command that it takes next. -/
structure CoreTakes (p : Part) (n k : Nat) (c : Cmd) : Prop where
  up : p.tileUp (siteTile n .pke k) = true
  free : p.engineBusy n .pke k = false
  serving : p.seatIn n .inService = true
  next : p.nextFor n .pke (fun c => c.cls != .long || p.longCores n < p.disp.longCap.toNat) = some c

theorem bank_jobSeated (q : Part) (n k : Nat) (c : Cmd) (count : Nat) :
    Part.bank ((jobSeated q n k c count).pke n k) (if c.cls = .long then 1 else 0) = some
      { uid := c.uid, prog := opOf c.code, start := q.now, count := count } := bank_setBank_same _ _ _ _ _

theorem within_jobSeated (q : Part) (n k : Nat) (c : Cmd) (count : Nat) : Within [.xct, .disp, .seats, .counts] q (jobSeated q n k c count) :=
  (((within_updCmd q _ _).mono.next (within_takeEngine _ c n .pke k count)).next (within_setBank _ _ _ _ _)).next (within_bump _ _ _)

theorem within_jobRefused (p : Part) (n k : Nat) (c : Cmd) (st : BitVec 16) (pl : Bytes) : Within answerUnits p (jobRefused p n k c st pl) :=
  (((within_bump p _ _).mono.next (within_passTurn _ _ _ _)).next (within_refuse _ _ _ _ _)).next
    (within_updTile _ (siteTile n .pke k) (fun x => { x with since := p.now + 400 }))

section
variable {p : Part} {n k : Nat} {c : Cmd} {ecc : Decoded}

/-- A command that passes its checks, and whose keys are charged, takes the core. -/
theorem giveJob_starts {count : Nat} {uses : List Part.KeyUse} {q : Part} (passed : p.pkeCheck n c = .go count uses) (good : ecc ≠ .uncorrectable)
    (charged : (p.keyRead n c ecc).1.chargeAll n c uses = .ok q) : p.giveJob n k c ecc = (jobSeated q n k c count, true) := by
  have read : p.keyRead n c ecc = ((p.keyRead n c ecc).1, true) := Prod.ext rfl (keyRead_on good)
  unfold Part.giveJob
  rw [read]
  simp only [passed, charged]
  rfl

/-- Words that decode clean are a read that leaves no trace. -/
theorem keyRead_clean : p.keyRead n c .clean = (p, true) := by
  obtain h | ⟨_, h⟩ := keyRead_good (p := p) (n := n) (c := c) (ecc := .clean) (by decide) <;> exact h

theorem giveJob_clean {count : Nat} {uses : List Part.KeyUse} {q : Part} (passed : p.pkeCheck n c = .go count uses)
    (charged : p.chargeAll n c uses = .ok q) : p.giveJob n k c .clean = (jobSeated q n k c count, true) :=
  giveJob_starts passed (by decide) (by rw [keyRead_clean, charged])

theorem giveJob_refuses {st : BitVec 16} {pl : Bytes} (failed : p.pkeCheck n c = .refuse st pl) :
    p.giveJob n k c ecc = (jobRefused p n k c st pl, true) := by
  unfold Part.giveJob
  simp only [failed]
  rfl

theorem startPke_takes (takes : CoreTakes p n k c) : p.startPke n k ecc = ((p.atTime (p.tile (siteTile n .pke k)).since).giveJob n k c ecc).1 := by
  have able : ¬(p.tileUp (siteTile n .pke k) = false ∨ p.engineBusy n .pke k = true ∨ p.seatIn n .inService = false) := by
    simp [takes.up, takes.free, takes.serving]
  unfold Part.startPke
  simp only [if_neg able, takes.next]

/-- A host's command that fails a check leaves its Seat with the refusal; its core holds what it held, and rests for 400 cycles. -/
theorem jobRefused_host (s : State) {st : BitVec 16} {pl : Bytes} (found : p.findCmd c.uid = some c) (host : c.isCall = false)
    (kept : c.retract = none) : Rising (after s (jobRefused p n k c st pl)) c.uid n st pl ∧ (jobRefused p n k c st pl).pke n k = p.pke n k ∧
      ((jobRefused p n k c st pl).tile (siteTile n .pke k)).since = (jobRefused p n k c st pl).now + 400 := by
  have known : ((p.bump (regAddr n (Part.pkeWin k) 0x0108)).passTurn n c.hand .pke).findCmd c.uid = some c := found
  have now : (jobRefused p n k c st pl).now = p.now := (within_jobRefused p n k c st pl).now
  exact ⟨rising_refuse known host kept s, pke_of_seats (p := (p.bump (regAddr n (Part.pkeWin k) 0x0108)).passTurn n c.hand .pke)
    (seats_refuse known host kept) n k, (congrArg Tile.since (tile_updTile_same _ _ _)).trans (congrArg (· + 400) now.symm)⟩

end

/-! ### A job that ends (08 R235, R237, R239) -/

/-- A Trump job's time is over: it has left bank 0, and an edge outcome is counted. -/
def bankLeft (p : Part) (n k : Nat) (j : Job) (o : Outcome) : Part :=
  let q := (p.atTime (j.start + j.elapsed + j.count)).updPke n k (fun x => { x with bank0 := none })
  if Part.isEdge o.status then q.bump (regAddr n (Part.pkeWin k) 0x0110) else q

/-- A Trump job has ended with its outcome, which is released, and its core is free from now on. -/
def jobEnded (p : Part) (n k : Nat) (j : Job) (o : Outcome) : Part :=
  (((bankLeft p n k j o).tileFrom (siteTile n .pke k) (bankLeft p n k j o).now).release n j.uid o).sweepDraining n

section
variable (p : Part) (n k : Nat) (j : Job) (o : Outcome)

theorem pke_bankLeft : (bankLeft p n k j o).pke n k = { p.pke n k with bank0 := none } := by
  unfold bankLeft
  have left := pke_updPke_same (p.atTime (j.start + j.elapsed + j.count)) n k (fun x => { x with bank0 := none })
  exact same_ite (read := (·.pke n k)) left left

theorem findCmd_bankLeft (u : Nat) : (bankLeft p n k j o).findCmd u = p.findCmd u := by
  unfold bankLeft
  exact same_ite (read := (·.findCmd u)) rfl rfl

theorem now_bankLeft : (bankLeft p n k j o).now = max p.now (j.start + j.elapsed + j.count) := by
  unfold bankLeft
  exact same_ite (read := (·.now)) rfl rfl

variable {p n k j o}

/-- The end of a Trump job that has its outcome reads its bank's memory. -/
theorem endPkeRead_reads (held : (p.pke n k).bank0 = some j) (out : j.out = some o) (ok : Bool) (ecc : Decoded) :
    p.endPkeRead n k ok ecc = p.operandRead n k j.uid ecc (fun p => p.endPke n k ok) := by
  have bank : (Part.runningBank (p.pke n k)).bind (Part.bank (p.pke n k)) = some j := by rw [runningBank_zero held]; exact held
  unfold Part.endPkeRead
  simp only [bank, out, Option.isSome_some, if_true]

section
variable {c : Cmd} {ok : Bool} (held : (p.pke n k).bank0 = some j) (out : j.out = some o) (found : p.findCmd j.uid = some c)
  (serves : Part.drawsRandom c = true → p.drbgServes n = true)
include held out found serves

/-- A Trump job ends with its outcome where its fault check passes; else its core, with no other job, reports the fault and scrubs. -/
theorem endPke_checks (alone : (ok && j.sound) = false → (p.pke n k).bank1 = none) : p.endPke n k ok =
    if ok && j.sound then jobEnded p n k j o
    else (((p.atTime (j.start + j.elapsed + j.count)).bump (regAddr n (Part.pkeWin k) 0x0118)).countScrub n .pke k).engineFault n .pke k j.uid := by
  have bank : Part.bank (p.pke n k) 0 = some j := held
  unfold Part.endPke
  simp only [runningBank_zero held, bank, out, found, if_neg (not_stalled serves), zero_ne_one, if_false, if_true]
  cases passed : ok && j.sound with
  | true =>
    simp only [if_true]
    rfl
  | false => simp only [alone passed, Bool.false_eq_true, if_false]

end

/-- An outcome that leaves only an answer behind is that of its host's command, which leaves the Seat; the core's Long job stays in its bank. -/
theorem jobEnded_host (s : State) {c : Cmd} (found : p.findCmd j.uid = some c) (answer : o.effect = .none) (host : c.isCall = false)
    (kept : c.retract = none) : Rising (after s (jobEnded p n k j o)) j.uid n o.status o.payload ∧
      (jobEnded p n k j o).pke n k = { p.pke n k with bank0 := none } ∧
      (jobEnded p n k j o).now = max p.now (j.start + j.elapsed + j.count) := by
  have named := uid_of_findCmd found
  rw [← named] at found ⊢
  have known : ((bankLeft p n k j o).tileFrom (siteTile n .pke k) (bankLeft p n k j o).now).findCmd c.uid = some c :=
    (findCmd_bankLeft p n k j o c.uid).trans found
  unfold jobEnded
  rw [release_answers _ _ _ answer, ← named]
  obtain ⟨cmds, -, now⟩ := sweepDraining_leaves
    (((bankLeft p n k j o).tileFrom (siteTile n .pke k) (bankLeft p n k j o).now).seatAnswer n c.uid o.status o.payload) n
  refine ⟨?_, ?_, ?_⟩
  · obtain ⟨d, foundD, rest⟩ := rising_seatAnswer (n := n) (status := o.status) (payload := o.payload) s known host kept
    exact ⟨d, (cmds _).trans foundD, rest⟩
  · rw [pke_sweepDraining, pke_of_seats (seats_seatAnswer known host kept)]
    exact pke_bankLeft p n k j o
  · rw [now, (within_seatAnswer _ _ _ _ _).now]
    exact now_bankLeft p n k j o

end

/-! ### A Long job that yields and resumes (08 R240, R241) -/

/-- A Long job has parked at a yield point, and 256 cycles have passed. -/
def parkedAt (p : Part) (n k : Nat) (j : Job) (o : Nat) : Part :=
  (((p.atTime (j.start + j.elapsed + o)).wait 256).setPke n k { p.pke n k with parked := true, bank1 := some { j with offset := o } }).bump
    (regAddr n (Part.pkeWin k) 0x0120)

theorem changes_parkedAt (p : Part) (n k : Nat) (j : Job) (o : Nat) : ChangesOnly [.seats, .counts] p (parkedAt p n k j o) :=
  ((changes_now p _).trans ((within_setPke _ n k _).units)).trans (changes_bump _ _ _)

/-- The core's Long job has resumed: the time of the Trump job is none of its own. -/
def longResumed (p : Part) (n k : Nat) (j : Job) : Part :=
  let now := max p.now (p.tile (siteTile n .pke k)).since + 256
  ((p.atTime (p.tile (siteTile n .pke k)).since).wait 256).setPke n k
    { p.pke n k with parked := false, bank1 := some { j with elapsed := now - j.start - j.offset } }

theorem changes_longResumed (p : Part) (n k : Nat) (j : Job) : ChangesOnly [.seats] p (longResumed p n k j) :=
  (changes_now p _).trans (within_setPke _ n k _).units

section
variable {p : Part} {n k : Nat} {j : Job} (held : (p.pke n k).bank1 = some j) (free : (p.pke n k).bank0 = none)
include held free

/-- At a yield point of a Long job, with no core idle and none of a lower number yielding, a Trump job that can start takes the core. -/
theorem yieldPke_gives {o : Nat} {c tr : Cmd} {q : Part} (unparked : (p.pke n k).parked = false)
    (noIdle : (List.range 8).any (fun i => p.idleCore n i) = false) (serving : p.seatIn n .inService = true)
    (first : (List.range k).any (fun i => p.yieldTime n i == p.yieldTime n k) = false) (found : p.findCmd j.uid = some c)
    (waits : p.firstTrump n = some tr) (yields : p.nextYield c j (p.pke n k).keygen = some o)
    (taken : (parkedAt p n k j o).giveJob n k tr .clean = (q, true)) : p.yieldPke n k = q := by
  have able : ¬((p.pke n k).parked = true ∨ (p.pke n k).bank0.isSome = true ∨ (List.range 8).any (fun i => p.idleCore n i) = true ∨
      p.seatIn n .inService = false ∨ (List.range k).any (fun i => p.yieldTime n i == p.yieldTime n k) = true) := by
    simp only [unparked, free, noIdle, serving, first, Option.isSome_none, Bool.false_eq_true, Bool.true_eq_false, or_self, not_false_eq_true]
  unfold parkedAt at taken
  unfold Part.yieldPke
  simp only [held, if_neg able, found, waits, yields, taken, if_true]

theorem resumePke_resumes (parked : (p.pke n k).parked = true) (unscrubbed : (p.tile (siteTile n .pke k)).st ≠ .scrubbing) :
    p.resumePke n k = longResumed p n k j := by
  have able : ¬((p.pke n k).parked = false ∨ (p.pke n k).bank0.isSome = true ∨ (p.tile (siteTile n .pke k)).st = .scrubbing) := by
    simp [parked, free, unscrubbed]
  unfold Part.resumePke
  simp only [held, if_neg able]
  rfl

end

/-! ### Steps of RSA key generation (08 R243) -/

/-- A step for a key of m units has taken its time and its random values. -/
def stepTaken (p : Part) (n k : Nat) (j : Job) (m : Nat) : Part :=
  (p.atTime (j.start + j.elapsed + (p.pke n k).keygen.cycles + PkCount.stepCycles m (p.pke n k).keygen.stage)).drbgTakes n 2048

/-- Key generation goes on from here, and its step is counted. -/
def generating (p : Part) (n k : Nat) (g : KeyGen) : Part :=
  (p.setPke n k { p.pke n k with keygen := g }).bump (regAddr n (Part.pkeWin k) 0x0100)

/-- Key generation draws its next candidate. -/
def candidateDrawn (p : Part) (n k m : Nat) (g : KeyGen) : Part :=
  (generating p n k { g with stage := 1, candidate := Pk.candidate (32 * m) (p.drawn 512) }).drbgTakes n 512

/-- The job of a key whose primes are there, with its outcome; it ends after the finishing step. -/
def finishedJob (p : Part) (m : Nat) (c : Cmd) (j : Job) (g : KeyGen) (a b : Nat) : Job := { j with
  count := g.cycles + PkCount.fin m
  out := some (Part.pkeOutcome c (.key (Pk.rsaKey (32 * m) a b).1 (Pk.rsaKey (32 * m) a b).2))
  sound := Pk.signsAndVerifies (32 * m) (Pk.rsaKey (32 * m) a b).1 (p.drawn 1200) }

/-- Both primes are there, and the key is computed. -/
def keyFinished (p : Part) (n k m : Nat) (c : Cmd) (j : Job) (g : KeyGen) (a b : Nat) : Part :=
  ((generating p n k { g with stage := 3 }).setBank n k 1 (some (finishedJob p m c j g a b))).drbgTakes n 1200

/-- Key generation has kept a prime: with two it finishes, else it draws the candidate of the next. -/
def primeKept (p : Part) (n k m : Nat) (c : Cmd) (j : Job) (g : KeyGen) : Part :=
  match g.primes with
  | a :: b :: _ => keyFinished p n k m c j g a b
  | _ => candidateDrawn p n k m g

/-- The candidate passes the step that the key generation stands at. -/
def passes (m : Nat) (g : KeyGen) (rand : Bytes) : Bool :=
  if g.stage = 1 then Pk.keepCandidate (32 * m) g.candidate g.primes rand else Pk.confirmed (32 * m) g.candidate rand

/-- The step's cycles are spent. -/
def spent (m : Nat) (g : KeyGen) : KeyGen := { g with cycles := g.cycles + PkCount.stepCycles m g.stage }

section
variable (p : Part) (n k : Nat)

theorem keygen_generating (g : KeyGen) : ((generating p n k g).pke n k).keygen = g := congrArg PkeCore.keygen (pke_setPke_same p n k _)

theorem keygen_candidateDrawn (m : Nat) (g : KeyGen) : ((candidateDrawn p n k m g).pke n k).keygen =
    { g with stage := 1, candidate := Pk.candidate (32 * m) (p.drawn 512) } := keygen_generating p n k _

theorem keygen_keyFinished (m : Nat) (c : Cmd) (j : Job) (g : KeyGen) (a b : Nat) :
    ((keyFinished p n k m c j g a b).pke n k).keygen = { g with stage := 3 } :=
  (keygen_setBank (generating p n k { g with stage := 3 }) n k 1 _).trans (keygen_generating p n k _)

theorem bank_keyFinished (m : Nat) (c : Cmd) (j : Job) (g : KeyGen) (a b : Nat) :
    ((keyFinished p n k m c j g a b).pke n k).bank1 = some (finishedJob p m c j g a b) :=
  bank_setBank_same (generating p n k { g with stage := 3 }) n k 1 _

theorem within_generating (g : KeyGen) : Within [.seats, .counts, .trngs] p (generating p n k g) :=
  (within_setPke p n k _).mono.next (within_bump _ _ _)

theorem within_candidateDrawn (m : Nat) (g : KeyGen) : Within [.seats, .counts, .trngs] p (candidateDrawn p n k m g) :=
  (within_generating p n k _).next (within_drbgTakes _ _ _)

theorem within_keyFinished (m : Nat) (c : Cmd) (j : Job) (g : KeyGen) (a b : Nat) :
    Within [.seats, .counts, .trngs] p (keyFinished p n k m c j g a b) :=
  ((within_generating p n k _).next (within_setBank _ _ _ _ _)).next (within_drbgTakes _ _ _)

theorem changes_stepTaken (j : Job) (m : Nat) : ChangesOnly [.seats, .counts, .trngs] p (stepTaken p n k j m) :=
  ((changes_now p _).trans (changes_drbgTakes _ _ _)).mono (by decide)

end

/-- What follows a step changes no more units than the step. -/
theorem keeps_step {s : State} {n k : Nat} {j : Job} {m : Nat} {q : Part}
    (act : Within [.seats, .counts, .trngs] (stepTaken s.toPart n k j m) q) :
    Keeps [.fuses, .power, .deal, .ports, .xct, .disp, .vault, .lats, .guard, .part, .evr, .cers, .joker, .shuffle] s (after s q) :=
  ((changes_stepTaken _ _ _ _ _).trans act.units).keeps (by decide)

section
variable {m : Nat} {g : KeyGen} {rand : Bytes}

theorem passes_first (first : g.stage = 1) : passes m g rand = Pk.keepCandidate (32 * m) g.candidate g.primes rand := if_pos first

theorem passes_second (second : g.stage = 2) : passes m g rand = Pk.confirmed (32 * m) g.candidate rand := if_neg (by omega)

theorem spent_first (first : g.stage = 1) : spent m g = { g with cycles := g.cycles + PkCount.cand m } := by
  rw [spent, PkCount.stepCycles, if_pos first]

theorem spent_second (second : g.stage = 2) : spent m g = { g with cycles := g.cycles + 4 * PkCount.mr m } := by
  rw [spent, PkCount.stepCycles, if_neg (by omega), if_pos second]

variable {p : Part} {n k a b : Nat} {c : Cmd} {j : Job}

theorem primeKept_one (primes : g.primes = [a]) : primeKept p n k m c j g = candidateDrawn p n k m g := by
  unfold primeKept
  simp only [primes]

theorem primeKept_two (primes : g.primes = [a, b]) : primeKept p n k m c j g = keyFinished p n k m c j g a b := by
  unfold primeKept
  simp only [primes]

end

section
variable {p : Part} {n k : Nat} {j : Job} {c : Cmd} (held : (p.pke n k).bank1 = some j) (found : p.findCmd j.uid = some c)
  (unparked : (p.pke n k).parked = false) (serves : p.drbgServes n = true)
include held found unparked serves

/-- A step keeps its candidate, or counts it as rejected and draws another; a candidate that both steps keep is a prime. -/
theorem keygenStep_ends (steps : (p.pke n k).keygen.stage = 1 ∨ (p.pke n k).keygen.stage = 2) {m : Nat} (units : m = field c.params 5 1) :
    p.keygenStep n k =
      if passes m (p.pke n k).keygen (p.drawn 2048) = false then
        candidateDrawn ((stepTaken p n k j m).bump (regAddr n (Part.pkeWin k) 0x0130)) n k m
          (if (p.pke n k).keygen.stage = 1 then { spent m (p.pke n k).keygen with rejected := (p.pke n k).keygen.rejected + 1 }
            else spent m (p.pke n k).keygen)
      else if (p.pke n k).keygen.stage = 1 then generating (stepTaken p n k j m) n k { spent m (p.pke n k).keygen with stage := 2 }
      else primeKept (stepTaken p n k j m) n k m c j { spent m (p.pke n k).keygen with
        primes := (p.pke n k).keygen.primes ++ [(p.pke n k).keygen.candidate] } := by
  have able : ¬((p.pke n k).parked = true ∨ ((p.pke n k).keygen.stage ≠ 1 ∧ (p.pke n k).keygen.stage ≠ 2)) := by
    rintro (parked | ⟨one, two⟩)
    · exact absurd (unparked.symm.trans parked) (by decide)
    · exact steps.elim one two
  subst units
  unfold Part.keygenStep
  simp only [held, found, if_neg able, serves, Bool.true_eq_false, if_false]
  rw [← held]
  rfl

end

/-! ### The rows -/

/-- Settles O19: a start by what the key's words and its charges leave; an end by its fault check; a yield by the Trump job's start in the part that
the parked job leaves; a step of RSA key generation by its stage and whether its candidate passes. -/
theorem pkeRowsAct : Obligations.PkeRowsAct := by
  refine ⟨fun s n k ecc c count uses q on there hk up free serving next passed good charged => ?_,
    fun s n k ecc c st pl on there hk up free serving next failed found host kept => ?_,
    fun s n k ecc j o c on there hk held out found serves => ?_,
    fun s n k o count j c tr uses q on there hk held unparked free noIdle serving found waits trump yields first passed charged => ?_,
    fun s n k j on there hk held parked free unscrubbed => ?_,
    fun s n k m j c on there hk held found unparked serves units => ?_⟩
  · have starts := startPke_takes (ecc := ecc) ⟨up, free, serving, next⟩
    rw [giveJob_starts passed good charged] at starts
    have read := within_keyRead (p := s.atTime (s.tile (siteTile n .pke k)).since) (c := c) (ne_zero_of_hasSeat there) good
    have act := ((read.mono (l := formUnits)).next (within_chargeAll charged)).next (within_jobSeated q n k c count)
    exact ⟨_, onPke_act on there hk starts, bank_jobSeated q n k c count, keeps_timed act (by decide)⟩
  · have refuses := startPke_takes (ecc := ecc) ⟨up, free, serving, next⟩
    rw [giveJob_refuses failed] at refuses
    obtain ⟨rises, same, rests⟩ := jobRefused_host (p := s.atTime (s.tile (siteTile n .pke k)).since) (n := n) (k := k) (st := st) (pl := pl)
      s found host kept
    exact ⟨_, onPke_act on there hk refuses, rises, same, rests, keeps_timed (within_jobRefused _ n k c st pl) (by decide)⟩
  · have seat := ne_zero_of_hasSeat there
    intro p
    have row : ∀ ok, exec (.pkeJobComplete n k ok ecc) s = .next (after s (s.operandRead n k j.uid ecc (fun p => p.endPke n k ok))) :=
      fun ok => onPke_act on there hk (endPkeRead_reads held out ok ecc)
    have core : p.pke n k = s.pke n k := pke_decoded seat _ _ _ _ _
    have heldP : (p.pke n k).bank0 = some j := core.symm ▸ held
    have foundP : p.findCmd j.uid = some c := (findCmd_decoded _ seat _ _ _ _).trans found
    have servesP : Part.drawsRandom c = true → p.drbgServes n = true := fun random => (drbgServes_decoded seat _ _ _ _).trans (serves random)
    refine ⟨fun good sound answer host kept => ?_, fun good ok faulty alone => ?_, fun bad ok => ?_⟩
    · have ends := endPke_checks (ok := true) heldP out foundP servesP fun faulty => absurd (sound.symm.trans faulty) (by decide)
      rw [Bool.true_and, if_pos sound] at ends
      obtain ⟨rises, left, now⟩ := jobEnded_host s foundP answer host kept (n := n) (k := k)
      have row := row true
      rw [Part.operandRead, if_neg good] at row
      exact ⟨_, row.trans (congrArg _ (congrArg _ ends)), rises, congrArg PkeCore.bank0 left,
        (congrArg PkeCore.bank1 left).trans (congrArg PkeCore.bank1 core :), (Nat.le_max_right _ _).trans now.ge⟩
    · have ends := endPke_checks (ok := ok) heldP out foundP servesP fun _ => (congrArg PkeCore.bank1 core).trans alone
      rw [faulty, if_neg Bool.false_ne_true] at ends
      rw [row ok, Part.operandRead, if_neg good]
      exact congrArg _ (congrArg _ ends)
    · rw [row ok, Part.operandRead, if_pos bad]
  · have starts := yieldPke_gives held free unparked noIdle serving first found waits yields (giveJob_clean passed charged)
    have act := (within_chargeAll charged).next (within_jobSeated q n k tr count)
    have bank := bank_jobSeated q n k tr count
    rw [if_neg (by simp [trump])] at bank
    exact ⟨_, onPke_act on there hk starts, bank, ((changes_parkedAt s.toPart n k j o).trans act.units).keeps (by decide)⟩
  · have core := pke_setPke_same ((s.toPart.atTime (s.tile (siteTile n .pke k)).since).wait 256) n k
    exact ⟨_, onPke_act on there hk (resumePke_resumes held free parked unscrubbed), congrArg PkeCore.parked (core _), rfl,
      congrArg PkeCore.bank1 (core _), (changes_longResumed s.toPart n k j).keeps (by decide)⟩
  · intro g rest
    have ends := fun stage => keygenStep_ends held found unparked serves stage units
    refine ⟨fun one kept => ?_, fun one lost => ?_, fun (two : (s.pke n k).keygen.stage = 2) kept empty => ?_,
      fun a (two : (s.pke n k).keygen.stage = 2) kept single => ?_⟩
    · have step := ends (.inl one)
      rw [passes_first one, kept, if_neg (by decide), if_pos one, spent_first one] at step
      exact ⟨_, onPke_act on there hk step, keygen_generating _ n k _, rfl, keeps_step (within_generating _ n k _)⟩
    · have step := ends (.inl one)
      rw [passes_first one, lost, if_pos rfl, if_pos one, spent_first one] at step
      have counted := within_bump (stepTaken s.toPart n k j m) (regAddr n (Part.pkeWin k) 0x0130) 1
      exact ⟨_, onPke_act on there hk step, keygen_candidateDrawn _ n k m _, Nat.add_assoc _ _ _,
        keeps_step (counted.mono.next (within_candidateDrawn _ n k m _))⟩
    · have step := ends (.inr two)
      rw [passes_second two, kept, if_neg (by decide), if_neg (by omega), spent_second two, empty,
        primeKept_one (a := g.candidate) rfl] at step
      exact ⟨_, onPke_act on there hk step, keygen_candidateDrawn _ n k m _, keeps_step (within_candidateDrawn _ n k m _)⟩
    · have step := ends (.inr two)
      rw [passes_second two, kept, if_neg (by decide), if_neg (by omega), spent_second two, single,
        primeKept_two (a := a) (b := g.candidate) rfl] at step
      exact ⟨_, _, onPke_act on there hk step, congrArg KeyGen.stage (keygen_keyFinished _ n k m c j _ _ _), bank_keyFinished _ n k m c j _ _ _,
        rfl, rfl, keeps_step (within_keyFinished _ n k m c j _ _ _)⟩

end Sys2Proof.PublicKey

/-! ## Digest engines: the commands, starts, ends and faults, and the register feed of engine B (09 R248 to R266) -/

namespace Sys2Proof.DigestEngine

open Sys2Proof.Machine Sys2Proof.Safety Sys2Proof.Laws Sys2Proof.Architecture Sys2Proof.DealRows Sys2Proof.HostTransport Sys2Proof.Dispatching
  Sys2Proof.KeyVault Sys2Proof.Tricks Sys2Proof.CipherLanes Sys2Proof.PublicKey

/-! ### Rows and state of an engine -/

/-- A row of an engine leaves the part that its act leaves. -/
theorem onDigest_act {s : State} {n e : Nat} {f : Part → Part} {q : Part} (on : s.power.on = true) (there : s.hasSeat n = true) (he : e < 2)
    (act : f s.toPart = q) : onDigest n e s f = .next (after s q) := act ▸ onUnit_on (by simp [there, he]) on f

section
variable (p : Part) (n e : Nat)

@[simp] theorem dgst_setDgst_same (x : Dgst) : (p.setDgst n e x).dgst n e = x := Sparse.get_set_same _ _ _ _

@[simp] theorem dgst_updDgst_same (f : Dgst → Dgst) : (p.updDgst n e f).dgst n e = f (p.dgst n e) := dgst_setDgst_same p n e _

@[simp] theorem dgst_bump (a m : Nat) : (p.bump a m).dgst n e = p.dgst n e := rfl

@[simp] theorem dgst_tileFrom (key t : Nat) : (p.tileFrom key t).dgst n e = p.dgst n e := rfl

@[simp] theorem findCmd_tileFrom (key t u : Nat) : (p.tileFrom key t).findCmd u = p.findCmd u := rfl

theorem within_setDgst (x : Dgst) : Within [.seats] p (p.setDgst n e x) := within_seats p _

theorem within_tileFrom (key t : Nat) : Within [.seats] p (p.tileFrom key t) := within_updTile p _ _

theorem dgst_sweepDraining (m : Nat) : (p.sweepDraining m).dgst n e = p.dgst n e := by
  obtain ⟨cache, counts, h⟩ := sweepDraining_eq p m
  rw [h]
  rfl

end

theorem dgst_of_seats {p q : Part} (same : q.seats = p.seats) (n e : Nat) : q.dgst n e = p.dgst n e := by simp only [Part.dgst, same]

/-- A word that a Seat decodes leaves its digest engines as they were. -/
theorem dgst_decoded {p : Part} {n : Nat} (seat : n ≠ 0) (d : Decoded) (loc addr m e : Nat) : (p.decoded n d loc addr).dgst m e = p.dgst m e := by
  obtain ⟨_, -, noted⟩ := decoded_seat p seat d loc addr
  unfold Part.dgst
  rw [noted.seats]

/-! ### DGST_HASH (09 R250 to R256) -/

/-- A job of an engine with the outcome of its whole data, and its count (R248). -/
def hashedJob (p : Part) (n : Nat) (c : Cmd) (j : Job) (data : Bytes) : Job :=
  let r := Dg.req c.params
  let rec_ := j.resumed.getD []
  { j with
    out := some (p.digestOutcome n c r rec_ data)
    count := Dg.count r data.length (field rec_ 16 8) (((p.heldKey n c (slice c.params 0 8)).map (·.material.length)).getD 0) }

theorem runDigest_whole {p : Part} {n e : Nat} {j : Job} {c : Cmd} {data : Bytes} (held : (p.dgst n e).job = some j) (own : j.prog = 0x6001)
    (fresh : j.out = none) (found : p.findCmd j.uid = some c) (whole : p.digestFeed c (Dg.req c.params) = .whole data) :
    p.runDigest n e = p.updDgst n e (fun d => { d with job := some (hashedJob p n c j data) }) := by
  have runs : ¬(j.prog ≠ 0x6001 ∨ j.out.isSome = true) := by simp [own, fresh]
  unfold Part.runDigest
  simp only [held, found, if_neg runs, whole]
  rfl

/-! ### Context commands (09 R264) -/

/-- A context command that has answered leaves its engine, which is free from then on. -/
def ctxLeft (q : Part) (n e : Nat) : Part := (q.updDgst n e (fun d => { d with job := none })).tileFrom (siteTile n .digest e) q.now

theorem within_ctxLeft (q : Part) (n e : Nat) : Within [.seats] q (ctxLeft q n e) := (within_updDgst q n e _).next (within_tileFrom _ _ _)

theorem findCmd_ctxLeft (q : Part) (n e u : Nat) : (ctxLeft q n e).findCmd u = q.findCmd u := rfl

/-- A context command of a host that answers leaves its engine. -/
theorem runDigestCtx_answers {p r : Part} {n e : Nat} {j : Job} {c : Cmd} {f : Part → Cmd → Part} {st : BitVec 16} {pl : Bytes} (s : State)
    (held : (p.dgst n e).job = some j) (found : p.findCmd j.uid = some c) (link : p.linkUp n = true) (host : c.isCall = false)
    (kept : c.retract = none) (act : f p c = r.refuse n c.uid st pl) (known : r.findCmd c.uid = some c) :
    p.runDigestCtx n e c.code f = ctxLeft (r.refuse n c.uid st pl) n e := by
  obtain ⟨d, foundD, place, -⟩ := rising_refuse (n := n) (st := st) (pl := pl) known host kept s
  have foundD : (r.refuse n c.uid st pl).findCmd c.uid = some d := foundD
  have gone : ((r.refuse n c.uid st pl).findCmd c.uid).any (fun x => x.place == .engine n .digest e) = false := by simp [foundD, place]
  have served : ¬(c.code ≠ c.code ∨ p.linkUp n = false) := by simp [link]
  unfold Part.runDigestCtx
  simp only [held, found, if_neg served, act, gone]
  rfl

/-- A context command whose act leaves the part r but for its answer has answered, and the vault is r's. -/
theorem digestCtxRow_next {s : State} {r : Part} {n e : Nat} {j : Job} {c : Cmd} {f : Part → Cmd → Part} {st : BitVec 16} {pl : Bytes}
    (on : s.power.on = true) (there : s.hasSeat n = true) (he : e < 2) (held : (s.dgst n e).job = some j) (found : s.findCmd j.uid = some c)
    (link : s.linkUp n = true) (host : c.isCall = false) (kept : c.retract = none) (act : f s.toPart c = r.refuse n c.uid st pl)
    (store : Within [.vault] s.toPart r) :
    ∃ t : State, onDigest n e s (fun p => p.runDigestCtx n e c.code f) = .next t ∧ Rising t c.uid n st pl ∧ t.vault = r.vault ∧
      Keeps [.fuses, .deal, .ports, .disp, .lats, .trngs, .guard, .cers, .joker, .shuffle] s t := by
  have known : r.findCmd c.uid = some c := by rw [store.units.findCmd (by decide), uid_of_findCmd found, found]
  have finished := (within_refuse r n c.uid st pl).next (within_ctxLeft _ n e)
  refine ⟨_, onDigest_act on there he (runDigestCtx_answers s held found link host kept act known), ?_, ?_, ?_⟩
  · obtain ⟨d, foundD, rest⟩ := rising_refuse (n := n) (st := st) (pl := pl) known host kept s
    exact ⟨d, (findCmd_ctxLeft _ n e c.uid).trans foundD, rest⟩
  · exact finished.units .vault (by decide)
  · exact ((store.mono (l := .vault :: answerUnits)).next finished).units.keeps (by decide)

section
variable {p : Part} {n e : Nat} {c : Cmd}

/-- A record without a key, exported without one, is answered in the clear, and its ticket is spent. -/
theorem digestExport_clear {rec_ : Bytes} (len : c.params.length = 16) (noKey : allZero (slice c.params 8 8) = true)
    (sound : p.ticketFault c.hand (ticketOf (c.params.take 8)) = none)
    (stored : (p.ctx (Part.ctxKey (ticketOf (c.params.take 8)).hand (ticketOf (c.params.take 8)).index)).data = rec_)
    (digest : field rec_ 0 1 = 2) (clear : field rec_ 2 1 = 0) :
    p.digestExport n e c = (p.freeCtx (ticketOf (c.params.take 8))).refuse n c.uid Status.done ([1, 0, 0, 0] ++ toBE 4 rec_.length ++ rec_) := by
  have keyless : ¬true ≠ (field rec_ 2 1 == 0) := by simp [clear]
  unfold Part.digestExport
  simp only [len, noKey, sound, stored, digest, if_neg keyless, ne_eq, not_true_eq_false, if_false, if_true]
  rfl

/-- The form, reserved bytes and length of an import are those of its eight bytes of head. -/
theorem importHead {b head : Bytes} (form : slice b 8 8 = head) :
    field b 8 1 = field head 0 1 ∧ slice b 9 3 = slice head 1 3 ∧ field b 12 4 = field head 4 4 := by
  have within : ∀ i m, i + m ≤ 8 → slice b (8 + i) m = slice head i m := fun i m inside => by rw [← form, slice_slice inside]
  exact ⟨congrArg be (within 0 1 (by decide)), within 1 3 (by decide), congrArg be (within 4 4 (by decide))⟩

/-- A clear record of the command's own hand is stored in a free place, and its ticket is answered. -/
theorem digestImport_clear {g : Nat} (len : c.params.length = 272) (noKey : allZero (slice c.params 0 8) = true)
    (form : slice c.params 8 8 = [1, 0, 0, 0, 0, 0, 1, 0]) (wellFormed : Dg.recordOk (c.params.drop 16) = true)
    (clear : field (c.params.drop 16) 2 1 = 0) (own : field (c.params.drop 16) 4 1 = c.hand) (free : p.freeRecord c.hand = some g) :
    p.digestImport n e c = (saved p c.hand g (c.params.drop 16)).refuse n c.uid Status.done
      (toBE 1 c.hand ++ toBE 3 ((p.ctx (Part.ctxKey c.hand g)).gen + 1) ++ toBE 2 (p.vault.incarnation % 65536) ++ toBE 2 g) := by
  obtain ⟨formByte, formZero, formLen⟩ := importHead form
  replace formByte : field c.params 8 1 = 1 := formByte
  replace formZero : allZero (slice c.params 9 3) = true := congrArg allZero formZero
  replace formLen : field c.params 12 4 = 256 := formLen
  unfold Part.digestImport
  simp only [len, noKey, formByte, formZero, formLen, wellFormed, clear, own, saveCtx_free free, Nat.reduceLT, Nat.reduceAdd, ne_eq,
    not_true_eq_false, or_self, if_false, if_true, false_and, Bool.true_eq_false, BEq.rfl]
  rfl

/-- A digest's record that is discarded is freed at its next generation. -/
theorem digestDiscard_own (len : c.params.length = 8) (sound : p.ticketFault c.hand (ticketOf c.params) = none)
    (own : field (p.ctx (Part.ctxKey (ticketOf c.params).hand (ticketOf c.params).index)).data 0 1 = 2) :
    p.digestDiscard n e c = (p.freeCtx (ticketOf c.params)).refuse n c.uid Status.done [] := by
  unfold Part.digestDiscard
  simp only [len, sound, own]
  rfl

end

/-- Settles O20: a hash with its whole data leaves its job with the outcome and the count; a context command answers, and its record is exported,
stored or freed. -/
theorem digestCommandsRun : Obligations.DigestCommandsRun := by
  refine ⟨fun s n e j c data on there he held own fresh found whole => ?_,
    fun s n e j c on there he held found _ code link host kept len noKey sound digest clear => ?_,
    fun s n e j c g on there he held found _ code link host kept len noKey form wellFormed clear own free => ?_,
    fun s n e j c on there he held found _ code link host kept len sound own => ?_⟩
  · exact ⟨_, hashedJob s.toPart n c j data, onDigest_act on there he (runDigest_whole held own fresh found whole),
      congrArg Dgst.job (dgst_updDgst_same s.toPart n e _), rfl, rfl, (within_updDgst s.toPart n e _).units.keeps (by decide)⟩
  · obtain ⟨t, runs, rises, vault, keeps⟩ := digestCtxRow_next (f := fun p c => p.digestExport n e c) on there he held found link host kept
      (digestExport_clear len noKey sound rfl digest clear) (within_freeCtx _ _)
    rw [code] at runs
    exact ⟨t, runs, rises, congrArg Ctx.used ((ctx_of_vault vault _).trans (ctx_freeCtx _ _)), keeps_mono keeps⟩
  · obtain ⟨t, runs, rises, vault, keeps⟩ := digestCtxRow_next (f := fun p c => p.digestImport n e c) on there he held found link host kept
      (digestImport_clear len noKey form wellFormed clear own free) (within_saved _ _ _ _)
    rw [code] at runs
    exact ⟨t, runs, rises, (ctx_of_vault vault _).trans (ctx_saved _ _ _ _), keeps_mono keeps⟩
  · obtain ⟨t, runs, rises, vault, keeps⟩ := digestCtxRow_next (f := fun p c => p.digestDiscard n e c) on there he held found link host kept
      (digestDiscard_own len sound own) (within_freeCtx _ _)
    rw [code] at runs
    exact ⟨t, runs, rises, (ctx_of_vault vault _).trans (ctx_freeCtx _ _), keeps⟩

/-! ### A job that starts (09 R248, R252) -/

/-- Engine e of Seat n runs and holds no job and no claim, and c is the hash that it takes next. -/
structure EngineTakes (p : Part) (n e : Nat) (c : Cmd) : Prop where
  up : p.tileUp (siteTile n .digest e) = true
  jobless : (p.dgst n e).job = none
  unfed : (p.dgst n e).reg = none
  unclaimed : (p.dgst n e).claim = none
  unwanted : (p.dgst n e).wanted = none
  serving : p.seatIn n .inService = true
  next : p.nextFor n .digest (p.dgstFit n e) = some c
  hash : c.code = 0x6001

/-- The job of a hash that resumes no context (R248). -/
def firstHash (now : Nat) (c : Cmd) (k : Option Slot) : Job :=
  let r := Dg.req c.params
  { uid := c.uid, prog := 0x6001, start := now, count := Dg.count r (r.len.getD 0) 0 ((k.map (·.material.length)).getD 0) }

/-- A hash has its engine, with its job; the engine's last output is gone. -/
def hashSeated (q : Part) (n e : Nat) (c : Cmd) (j : Job) : Part :=
  ((q.takeEngine c n .digest e j.count).updDgst n e (fun d =>
    { d with job := some j, hand := BitVec.ofNat 8 c.hand, res := [], output := [] })).bump (regAddr n (dgstWin e) 0x0100)

/-- A check has failed: the command is counted and answered at once, and its engine is busy for 400 cycles (R252). -/
def hashRefused (p : Part) (n e : Nat) (c : Cmd) (st : BitVec 16) (pl : Bytes) : Part :=
  (((p.bump (regAddr n (dgstWin e) 0x0108)).passTurn n c.hand .digest).refuse n c.uid st pl).tileFrom (siteTile n .digest e) (p.now + 400)

theorem job_hashSeated (q : Part) (n e : Nat) (c : Cmd) (j : Job) : ((hashSeated q n e c j).dgst n e).job = some j := by
  rw [hashSeated, dgst_bump, dgst_updDgst_same]

theorem within_hashSeated (q : Part) (n e : Nat) (c : Cmd) (j : Job) : Within [.xct, .disp, .seats, .counts] q (hashSeated q n e c j) :=
  ((within_takeEngine q c n .digest e j.count).mono.next (within_updDgst _ _ _ _)).next (within_bump _ _ _)

theorem within_hashRefused (p : Part) (n e : Nat) (c : Cmd) (st : BitVec 16) (pl : Bytes) : Within answerUnits p (hashRefused p n e c st pl) :=
  (((within_bump p _ _).mono.next (within_passTurn _ _ _ _)).next (within_refuse _ _ _ _ _)).next (within_tileFrom _ _ _)

section
variable {p : Part} {n e : Nat} {c : Cmd} {ecc : Decoded} (takes : EngineTakes p n e c)
include takes

theorem not_withheld : ¬(p.tileUp (siteTile n .digest e) = false ∨ (p.dgst n e).job.isSome = true ∨ (p.dgst n e).reg.isSome = true ∨
    (p.dgst n e).claim.isSome = true ∨ (p.dgst n e).wanted.isSome = true ∨ p.seatIn n .inService = false) := by
  simp [takes.up, takes.jobless, takes.unfed, takes.unclaimed, takes.unwanted, takes.serving]

/-- A hash that resumes nothing, passes its checks and whose key is charged takes the engine. -/
theorem startDigest_runs {k : Option Slot} {q : Part} (fresh : (Dg.req c.params).resume = false)
    (passed : (p.atTime (p.tile (siteTile n .digest e)).since).dgstCheck n c = .ok k) (good : ecc ≠ .uncorrectable)
    (charged : ((p.atTime (p.tile (siteTile n .digest e)).since).keyRead n c ecc).1.chargeAll n c (Part.digestUses k c.params) = .ok q) :
    p.startDigest n e ecc = hashSeated q n e c (firstHash q.now c k) := by
  have read : (p.atTime (p.tile (siteTile n .digest e)).since).keyRead n c ecc =
      (((p.atTime (p.tile (siteTile n .digest e)).since).keyRead n c ecc).1, true) := Prod.ext rfl (keyRead_on good)
  have unsaved : ∀ r : Part, r.digestRec c (Dg.req c.params) = [] := fun r => if_neg (by simp [fresh])
  unfold Part.startDigest
  simp only [if_neg (not_withheld takes), takes.next, takes.hash, passed, ne_eq, not_true_eq_false, if_false]
  rw [read]
  simp only [charged, fresh, unsaved, Bool.false_eq_true, false_and, if_false]
  rfl

theorem startDigest_refuses {st : BitVec 16} {pl : Bytes}
    (failed : (p.atTime (p.tile (siteTile n .digest e)).since).dgstCheck n c = .error (st, pl)) :
    p.startDigest n e ecc = hashRefused (p.atTime (p.tile (siteTile n .digest e)).since) n e c st pl := by
  unfold Part.startDigest
  simp only [if_neg (not_withheld takes), takes.next, takes.hash, failed, ne_eq, not_true_eq_false, if_false]
  rfl

end

/-- A host's command that fails a check leaves its Seat with the refusal; its engine holds what it held, and rests for 400 cycles. -/
theorem hashRefused_host (s : State) {p : Part} {n e : Nat} {c : Cmd} {st : BitVec 16} {pl : Bytes} (found : p.findCmd c.uid = some c)
    (host : c.isCall = false) (kept : c.retract = none) : Rising (after s (hashRefused p n e c st pl)) c.uid n st pl ∧
      (hashRefused p n e c st pl).dgst n e = p.dgst n e ∧
      ((hashRefused p n e c st pl).tile (siteTile n .digest e)).since = (hashRefused p n e c st pl).now + 400 := by
  have known : ((p.bump (regAddr n (dgstWin e) 0x0108)).passTurn n c.hand .digest).findCmd c.uid = some c := found
  have seats := seats_refuse (n := n) (st := st) (pl := pl) known host kept
  have now : (hashRefused p n e c st pl).now = p.now := (within_hashRefused p n e c st pl).now
  obtain ⟨d, foundD, rest⟩ := rising_refuse (n := n) (st := st) (pl := pl) known host kept s
  refine ⟨⟨d, ?_, rest⟩, ?_, (congrArg Tile.since (tile_updTile_same _ _ _)).trans (congrArg (· + 400) now.symm)⟩
  · exact (findCmd_tileFrom _ (siteTile n .digest e) (p.now + 400) c.uid).trans foundD
  · exact (dgst_tileFrom _ n e (siteTile n .digest e) (p.now + 400)).trans (dgst_of_seats seats n e)

/-! ### A job that ends, and one whose parity fails (09 R248, R251, R256, R262, R266) -/

/-- An engine whose job has ended shows the output that its outcome answers (R262). -/
def shownOutput (o : Outcome) (c : Cmd) (d : Dgst) : Dgst :=
  let out := slice o.payload 24 (field o.payload 16 1)
  { d with job := none, res := out, output := out, resHand := c.hand
           matched := if (Dg.req c.params).compare then o.status == Status.done else d.matched }

/-- A digest's time is over: its output is in RES, its engine is free from now on, and a compare that fails is counted. -/
def outputShown (p : Part) (n e : Nat) (j : Job) (o : Outcome) (c : Cmd) : Part :=
  let q := (p.atTime (j.start + j.count)).setDgst n e (shownOutput o c (p.dgst n e))
  let q := q.tileFrom (siteTile n .digest e) q.now
  if o.status = DgStatus.mismatch then q.bump (regAddr n (dgstWin e) 0x0118) else q

section
variable (p : Part) (n e : Nat) (j : Job) (o : Outcome) (c : Cmd)

theorem dgst_outputShown : (outputShown p n e j o c).dgst n e = shownOutput o c (p.dgst n e) := by
  have shown := dgst_setDgst_same (p.atTime (j.start + j.count)) n e (shownOutput o c (p.dgst n e))
  unfold outputShown
  exact same_ite (read := (·.dgst n e)) shown shown

theorem findCmd_outputShown (u : Nat) : (outputShown p n e j o c).findCmd u = p.findCmd u := by
  unfold outputShown
  exact same_ite (read := (·.findCmd u)) rfl rfl

theorem now_outputShown : (outputShown p n e j o c).now = max p.now (j.start + j.count) := by
  unfold outputShown
  exact same_ite (read := (·.now)) rfl rfl

end

section
variable {p : Part} {n e : Nat} {j : Job} {o : Outcome} {c : Cmd} (held : (p.dgst n e).job = some j)
include held

theorem parityFault_job : p.parityFault n e = ((p.bump (regAddr n (dgstWin e) 0x0120)).bump (regAddr n (dgstWin e) 0x0110)).engineFault
    n .digest e j.uid := by
  unfold Part.parityFault
  simp only [held]

variable (out : j.out = some o) (answer : o.effect = .none)
include out answer

/-- A job that saves no context reads its engine's memory and ends, whatever its link does. -/
theorem endDigestRead_reads (ecc : Decoded) : p.endDigestRead n e ecc = p.operandRead n e j.uid ecc (fun p => p.endDigest n e) := by
  unfold Part.endDigestRead
  simp only [held, out, answer, Bool.false_and, Bool.false_eq_true, if_false]

variable (found : p.findCmd j.uid = some c) (masked : allZero (slice c.params 0 8) = true ∨ p.drbgServes n = true)
  (compared : o.status = Status.done ∨ o.status = DgStatus.mismatch)
include found masked compared

/-- A digest that is neither poisoned nor refused its data shows its output and answers. -/
theorem endDigest_answers : p.endDigest n e = ((outputShown p n e j o c).seatAnswer n j.uid o.status o.payload).sweepDraining n := by
  have unstarved : ¬((!(allZero (slice c.params 0 8))) = true ∧ p.drbgServes n = false) := by
    rintro ⟨keyed, stopped⟩
    obtain h | h := masked <;> simp_all
  have sound : o.status ≠ Status.digestContextPoisoned := by obtain h | h := compared <;> rw [h] <;> decide
  have read : o.status ≠ Status.accessFault := by obtain h | h := compared <;> rw [h] <;> decide
  unfold Part.endDigest
  simp only [held, out, found, answer, if_neg unstarved, if_neg sound, if_neg read]
  rfl

/-- A host's digest that ends has its outcome on the way to the Dealer, and its output is in RES. -/
theorem endDigest_host (s : State) (host : c.isCall = false) (kept : c.retract = none) :
    Rising (after s (p.endDigest n e)) j.uid n o.status o.payload ∧ ((p.endDigest n e).dgst n e).job = none ∧
      ((p.endDigest n e).dgst n e).res = slice o.payload 24 (field o.payload 16 1) ∧ j.start + j.count ≤ (p.endDigest n e).now := by
  rw [endDigest_answers held out answer found masked compared]
  have named := uid_of_findCmd found
  rw [← named] at found ⊢
  have known : (outputShown p n e j o c).findCmd c.uid = some c := (findCmd_outputShown p n e j o c c.uid).trans found
  obtain ⟨cmds, -, now⟩ := sweepDraining_leaves ((outputShown p n e j o c).seatAnswer n c.uid o.status o.payload) n
  rw [dgst_sweepDraining, dgst_of_seats (seats_seatAnswer known host kept), dgst_outputShown, now, (within_seatAnswer _ _ _ _ _).now,
    now_outputShown]
  obtain ⟨d, foundD, rest⟩ := rising_seatAnswer (n := n) (status := o.status) (payload := o.payload) s known host kept
  exact ⟨⟨d, (cmds _).trans foundD, rest⟩, rfl, rfl, Nat.le_max_right _ _⟩

end

/-! ### Writes to the register feed (09 R259; 10 R282) -/

/-- A row of the feed leaves the part that its act leaves. -/
theorem onFeed_act {s : State} {n k : Nat} {f : Part → Part} {q : Part} (on : s.power.on = true) (there : s.hasSeat n = true) (hk : k < 4)
    (act : f s.toPart = q) : onFeed n k s f = .next (after s q) := act ▸ onUnit_on (by simp [there, hk]) on f

/-- A row of engine B alone leaves the part that its act leaves. -/
theorem onSeat_act {s : State} {n : Nat} {f : Part → Part} {q : Part} (on : s.power.on = true) (there : s.hasSeat n = true)
    (act : f s.toPart = q) : onUnit (s.hasSeat n) s f = .next (after s q) := act ▸ onUnit_on there on f

/-- Core k of Seat n runs, with the grant of the register feed. -/
structure FeedGranted (p : Part) (n k : Nat) : Prop where
  running : (p.core n k).run = .running
  awake : (p.core n k).stalledAt = none
  grant : (p.grantsOf (p.core n k)).getLsbD 0 = true

/-- The claiming core has accessed its feed. -/
def accessed (p : Part) (n : Nat) : Part := p.updDgst n 1 (fun d => { d with lastAccess := p.now })

section
variable {p : Part} {n k : Nat}

theorem dgst_accessed (p : Part) (n : Nat) : (accessed p n).dgst n 1 = { p.dgst n 1 with lastAccess := p.now } := dgst_updDgst_same p n 1 _

theorem within_accessed (p : Part) (n : Nat) : Within [.seats] p (accessed p n) := within_updDgst p n 1 _

section
variable (granted : FeedGranted p n k)
include granted

theorem fixedSlot_feed {off : Nat} (inside : off < 0x10000) (reg : feedRegister off = true) : p.fixedSlot n k .write (swinDGSTB + off) = true := by
  have window : swinDGSTB ≤ swinDGSTB + off ∧ swinDGSTB + off < swinDGSTB + 0x10000 := ⟨by omega, by omega⟩
  unfold Part.fixedSlot
  simp [window, granted.grant, reg]

theorem coreRegister_feed {off : Nat} (inside : off < 0x10000) (reg : feedRegister off = true) (f : Part → Part) :
    p.coreRegister n k .write (swinDGSTB + off) f = f p := by
  unfold Part.coreRegister
  simp [granted.running, granted.awake, fixedSlot_feed granted inside reg]

variable (claim : (p.dgst n 1).claim = some k)
include claim

theorem feedWrite_ctrl (f : Part → Part) : p.feedWrite n k 0x08 f = f p := by
  unfold Part.feedWrite
  rw [coreRegister_feed granted (by decide) (by decide), if_pos claim, if_pos rfl]

/-- A write to another register of the feed keeps the claim alive (R261). -/
theorem feedWrite_accessed {off : Nat} (other : off ≠ 0x08) (inside : off < 0x10000) (reg : feedRegister off = true) (f : Part → Part) :
    p.feedWrite n k off f = f (accessed p n) := by
  unfold Part.feedWrite
  rw [coreRegister_feed granted inside reg, if_pos claim, if_neg other]
  rfl

end

section
variable {s : State} {f : Part → Part} {q : Part} (on : s.power.on = true) (there : s.hasSeat n = true) (hk : k < 4)
  (granted : FeedGranted s.toPart n k)
include on there hk granted

/-- A core with the grant writes CLAIM. -/
theorem claimWrite_next (act : f s.toPart = q) :
    onFeed n k s (fun p => p.coreRegister n k .write (swinDGSTB + 0x04) f) = .next (after s q) :=
  onFeed_act on there hk ((coreRegister_feed granted (by decide) (by decide) f).trans act)

/-- The claiming core writes CTRL. -/
theorem ctrlWrite_next (claim : (s.dgst n 1).claim = some k) (act : f s.toPart = q) :
    onFeed n k s (fun p => p.feedWrite n k 0x08 f) = .next (after s q) :=
  onFeed_act on there hk ((feedWrite_ctrl granted claim f).trans act)

/-- The claiming core writes another register of the feed. -/
theorem feedWrite_next (claim : (s.dgst n 1).claim = some k) {off : Nat} (act : f (accessed s.toPart n) = q) (other : off ≠ 0x08 := by decide)
    (inside : off < 0x10000 := by decide) (reg : feedRegister off = true := by decide) :
    onFeed n k s (fun p => p.feedWrite n k off f) = .next (after s q) :=
  onFeed_act on there hk ((feedWrite_accessed granted claim other inside reg f).trans act)

end

/-! ### Claims of the feed (09 R259, R261) -/

/-- The rotating pointer over the cores has turned. -/
def pointed (p : Part) (n ptr : Nat) : Part := p.setDgst n 1 { p.dgst n 1 with claimPtr := ptr }

theorem dgst_pointed (p : Part) (n ptr : Nat) : (pointed p n ptr).dgst n 1 = { p.dgst n 1 with claimPtr := ptr } := dgst_setDgst_same p n 1 _

theorem within_pointed (p : Part) (n ptr : Nat) : Within [.seats] p (pointed p n ptr) := within_setDgst p n 1 _

/-- The first claim turns the pointer and takes the feed. -/
theorem claimFeed_first (unclaimed : (p.dgst n 1).claim = none) (unwanted : (p.dgst n 1).wanted = none) :
    ∃ ptr, p.claimFeed n k = (pointed p n ptr).claimTakes n k := ⟨_, if_pos ⟨unclaimed, unwanted⟩⟩

theorem claimTakes_free (jobless : (p.dgst n 1).job = none) (up : p.tileUp (siteTile n .digest 1) = true) : p.claimTakes n k =
    p.setDgst n 1 { p.dgst n 1 with claimAt := some p.now, claimBy := k, claim := some k, wanted := none, lastAccess := p.now } :=
  if_pos ⟨by simp [jobless], up⟩

theorem claimTakes_waits (busy : (p.dgst n 1).job ≠ none ∨ p.tileUp (siteTile n .digest 1) = false) : p.claimTakes n k =
    p.setDgst n 1 { p.dgst n 1 with claimAt := some p.now, claimBy := k, claim := none, wanted := some k } :=
  if_neg (by rintro ⟨jobless, up⟩; obtain h | h := busy <;> simp_all)

theorem grantClaim_grants (wanted : (p.dgst n 1).wanted = some k) (jobless : (p.dgst n 1).job = none) (unclaimed : (p.dgst n 1).claim = none)
    (up : p.tileUp (siteTile n .digest 1) = true) : p.grantClaim n =
      (p.atTime (p.tile (siteTile n .digest 1)).scrubEnd).setDgst n 1 { p.dgst n 1 with
        claim := some k, wanted := none, lastAccess := (p.atTime (p.tile (siteTile n .digest 1)).scrubEnd).now } := by
  rw [← wanted]
  exact if_pos ⟨by simp [wanted], by simp [jobless], by simp [unclaimed], up⟩

theorem dropClaim_own (claim : (p.dgst n 1).claim = some k) : p.dropClaim n k = p.releaseClaim n Status.abortedScrubbed := if_pos claim

theorem claimTimeout_held (claim : (p.dgst n 1).claim = some k) :
    p.claimTimeout n = (p.atTime ((p.dgst n 1).lastAccess + usec 10)).releaseClaim n Status.digestContextPoisoned := if_pos (by simp [claim])

/-- A register job that runs is charged to its hand. -/
def feedPaid (p : Part) (n : Nat) : Part :=
  match (p.dgst n 1).reg with
  | some j => p.payFeed n j
  | none => p

/-- Engine B with no register job: the last one has ended without output, and its status shows. -/
def stoppedFeed (st : BitVec 16) (d : Dgst) : Dgst :=
  { d with reg := none, busy := false, done := true, status := st, res := [], output := [] }

/-- A register job has stopped. -/
def feedStopped (p : Part) (n : Nat) (st : BitVec 16) : Part := (feedPaid p n).updDgst n 1 (stoppedFeed st)

section
variable (p : Part) (n : Nat) (st : BitVec 16)

theorem endRegJob_eq : p.endRegJob n st = (if st = Status.digestContextPoisoned then (feedStopped p n st).bump (regAddr n swinDGSTB 0x0110)
    else feedStopped p n st).startScrub (siteTile n .digest 1) := rfl

theorem within_feedStopped : Within [.disp, .seats, .counts] p (feedStopped p n st) := by
  have paid : Within [.disp, .seats, .counts] p (feedPaid p n) := by
    unfold feedPaid
    split
    · exact (within_payFeed p n _).mono
    · exact .refl
  exact paid.next (within_updDgst _ n 1 _)

theorem within_feedEnd : Within [.disp, .seats, .counts] p (p.endRegJob n st) := by
  have stopped := within_feedStopped p n st
  rw [endRegJob_eq]
  exact (Within.ite (stopped.next (within_bump _ _ _)) stopped).next (within_startScrub _ _)

theorem dgst_endRegJob : (p.endRegJob n st).dgst n 1 = stoppedFeed st (p.dgst n 1) := by
  have paid : (feedPaid p n).dgst n 1 = p.dgst n 1 := by
    unfold feedPaid
    split <;> rfl
  have stopped := dgst_updDgst_same (feedPaid p n) n 1 (stoppedFeed st)
  rw [paid] at stopped
  rw [endRegJob_eq]
  exact same_ite (read := (·.dgst n 1)) stopped stopped

/-- A claim that ends leaves the feed free; a job that still runs on it leaves its status. -/
theorem dgst_releaseClaim : (p.releaseClaim n st).dgst n 1 =
    if (p.dgst n 1).claim.isSome ∧ (p.dgst n 1).reg.isSome then
      stoppedFeed st { p.dgst n 1 with claim := none }
    else { p.dgst n 1 with claim := none } := by
  have released := dgst_setDgst_same p n 1 { p.dgst n 1 with claim := none }
  unfold Part.releaseClaim
  extract_lets d q
  rw [apply_ite (fun r : Part => r.dgst n 1), dgst_endRegJob, show (q.countScrub n .digest 1).dgst n 1 = q.dgst n 1 from rfl, released]

theorem claim_releaseClaim : ((p.releaseClaim n st).dgst n 1).claim = none := by
  rw [dgst_releaseClaim]
  split <;> rfl

theorem within_feedRelease : Within [.disp, .seats, .counts] p (p.releaseClaim n st) := by
  have released := (within_setDgst p n 1 { p.dgst n 1 with claim := none }).mono (l := [.disp, .seats, .counts])
  exact .ite ((released.next (within_countScrub _ n .digest 1)).next (within_feedEnd _ n st)) released

end

/-! ### Register jobs (09 R260, R262) -/

/-- The unkeyed job that CTRL and LEN name. -/
def unkeyedJob (now : Nat) (ctrl : Word) (len : BitVec 64) : RegJob :=
  { alg := ctrl.toNat % 16, inject := 0, outLen := ctrl.toNat / 65536 % 64 + 1, len := len.toNat, key := 0, begun := now }

/-- Engine B with an unkeyed job's fields, and nothing of what the last job left. -/
def clearedFeed (hand : Byte) (ctrl : Word) (len : BitVec 64) (d : Dgst) : Dgst :=
  { d with ctrl := ctrl &&& 0x003F030F, key := 0, len := len, reg := none, res := [], output := [], matched := false, done := false
           busy := false, status := 0, hand := hand }

/-- GO clears what the last job left. -/
def cleared (p : Part) (n k : Nat) (ctrl : Word) (len : BitVec 64) : Part :=
  p.setDgst n 1 (clearedFeed (p.core n k).hand ctrl len (p.dgst n 1))

/-- A register job has begun, and is counted. -/
def begun (q : Part) (n : Nat) (j : RegJob) : Part :=
  (q.updDgst n 1 (fun d => { d with reg := some j })).bump (regAddr n swinDGSTB 0x0100)

theorem dgst_begun (q : Part) (n : Nat) (j : RegJob) : (begun q n j).dgst n 1 = { q.dgst n 1 with reg := some j } := by
  rw [begun, dgst_bump, dgst_updDgst_same]

theorem dgst_cleared (p : Part) (n k : Nat) (ctrl : Word) (len : BitVec 64) :
    (cleared p n k ctrl len).dgst n 1 = clearedFeed (p.core n k).hand ctrl len (p.dgst n 1) := dgst_setDgst_same p n 1 _

theorem within_begun (p : Part) (n k : Nat) (ctrl : Word) (len : BitVec 64) (j : RegJob) :
    Within [.seats, .counts] p (begun (cleared p n k ctrl len) n j) :=
  ((within_setDgst p n 1 _).mono.next (within_updDgst _ n 1 _)).next (within_bump _ _ _)

/-- A digest that needs no key and names none passes its key rules. -/
theorem hmacKey_none (c : Cmd) (tag mayHide : Bool) : p.hmacKey n c (toBE 8 0) false tag mayHide = .ok none := if_pos ⟨rfl, by decide⟩

theorem heldKey_none (c : Cmd) : p.heldKey n c (toBE 8 0) = none := if_pos (by decide)

theorem feedGo_begins {ctrl : Word} {len : BitVec 64} (inject : ctrl.toNat / 256 % 4 = 0) (low : 1 ≤ ctrl.toNat % 16) (high : ctrl.toNat % 16 ≤ 8)
    (outLen : Dg.isShake (ctrl.toNat % 16) = false → ctrl.toNat / 65536 % 64 = 0) (short : len.toNat ≤ 2 ^ 48)
    (invoked : (p.core n k).uid.bind p.findCmd ≠ none) (unscrubbed : (p.tile (siteTile n .digest 1)).st ≠ .scrubbing) :
    p.feedGo n k ctrl 0 len = begun (cleared p n k ctrl len) n (unkeyedJob p.now ctrl len) := by
  have valid : ¬(ctrl.toNat % 16 = 0 ∨ 9 ≤ ctrl.toNat % 16 ∨ ctrl.toNat / 256 % 4 = 3 ∨
      (Dg.isShake (ctrl.toNat % 16) = true ∧ ctrl.toNat / 256 % 4 ≠ 0) ∨
      (Dg.isShake (ctrl.toNat % 16) = false ∧ ctrl.toNat / 65536 % 64 ≠ 0) ∨ 2 ^ 48 < len.toNat ∨ (ctrl.toNat / 256 % 4 = 0 ∧ (0 : BitVec 64) ≠ 0)) := by
    rintro (h | h | h | h | h | h | h)
    · omega
    · omega
    · omega
    · exact h.2 inject
    · exact h.2 (outLen h.1)
    · omega
    · exact h.2 rfl
  obtain ⟨c, invocation⟩ := Option.ne_none_iff_exists'.1 invoked
  have named : (cleared p n k ctrl len).regCmd n k 0 = some { c with code := 0x6001, params := toBE 8 0 } := by
    have same : ((cleared p n k ctrl len).core n k).uid.bind (cleared p n k ctrl len).findCmd = some c := invocation
    rw [Part.regCmd, same]
    rfl
  unfold cleared clearedFeed at named
  unfold Part.feedGo
  simp only [if_neg unscrubbed, if_neg valid]
  simp only [inject, named, show (0 : BitVec 64).toNat = 0 from rfl, show ((0 : Nat) != 0) = false from rfl, hmacKey_none]
  rfl

section
variable {j : RegJob} {value : Word} (held : (p.dgst n 1).reg = some j) (idle : (p.dgst n 1).busy = false) (unfinished : j.lastSeen = false)
include held idle unfinished

/-- Four bytes are fed; the engine is busy once they complete a block. -/
theorem feedData_feeds (room : j.fed.length + 4 ≤ j.len) : ∃ due, p.feedData n value = p.setDgst n 1 { p.dgst n 1 with
    reg := some { j with fed := j.fed ++ toBE 4 value.toNat }, busy := (j.fed.length + 4) % Dg.block j.alg == 0, due := due } := by
  have length : (j.fed ++ toBE 4 value.toNat).length = j.fed.length + 4 := by rw [List.length_append, toBE_length]
  have fits : ¬((p.dgst n 1).busy = true ∨ j.lastSeen = true ∨ j.len < (j.fed ++ toBE 4 value.toNat).length) := by
    simp [length, idle, unfinished, room]
  unfold Part.feedData
  simp only [held, if_neg fits]
  rw [length]
  by_cases block : (j.fed.length + 4) % Dg.block j.alg = 0
  · exact ⟨p.now + Dg.cycles j.alg, by rw [if_pos block, beq_iff_eq.2 block]; rfl⟩
  · exact ⟨(p.dgst n 1).due, by rw [if_neg block, beq_eq_false_iff_ne.2 block, ← idle]; rfl⟩

/-- The last bytes are fed, and the engine is busy until its output is ready. -/
theorem feedLast_feeds (reserved : value.toNat / 4 % 64 = 0) (whole : j.fed.length + value.toNat % 4 = j.len) :
    ∃ due, p.feedLast n value = p.setDgst n 1 { p.dgst n 1 with
      reg := some { j with fed := j.fed ++ (toBE 4 value.toNat).take (value.toNat % 4), lastSeen := true }, busy := true, due := due } := by
  have length : (j.fed ++ (toBE 4 value.toNat).take (value.toNat % 4)).length = j.len := by
    rw [List.length_append, List.length_take, toBE_length]
    omega
  have fits : ¬((p.dgst n 1).busy = true ∨ j.lastSeen = true ∨ value.toNat / 4 % 64 ≠ 0 ∨
      (j.fed ++ (toBE 4 value.toNat).take (value.toNat % 4)).length ≠ j.len) := by simp [idle, unfinished, reserved, length]
  unfold Part.feedLast
  simp only [held, if_neg fits]
  exact ⟨_, rfl⟩

end

/-- What an unkeyed register job has come to. -/
def unkeyedOutput (j : RegJob) : Bytes :=
  let m := Dg.injected j.alg j.inject [] ++ j.fed
  Dg.finish j.alg (Dg.start j.alg) m m.length (Dg.outLen j.alg j.outLen)

/-- Engine B with the output of an unkeyed register job that has ended. -/
def readyFeed (j : RegJob) (d : Dgst) : Dgst :=
  { d with busy := false, done := true, status := Status.done, reg := none, output := unkeyedOutput j, resHand := d.hand.toNat
           res := if j.inject = 2 then [] else unkeyedOutput j }

/-- An unkeyed register job's output is ready. -/
def outputReady (p : Part) (n : Nat) (j : RegJob) : Part :=
  let q := (p.atTime (p.dgst n 1).due).setDgst n 1 (readyFeed j (p.dgst n 1))
  (q.payFeed n j).tileFrom (siteTile n .digest 1) q.now

/-- The block that an unkeyed register job was busy with has ended. -/
def blockEnded (p : Part) (n : Nat) (j : RegJob) : Part :=
  if j.lastSeen = false then (p.atTime (p.dgst n 1).due).setDgst n 1 { p.dgst n 1 with busy := false } else outputReady p n j

theorem feedBlock_unkeyed {j : RegJob} (held : (p.dgst n 1).reg = some j) (claim : (p.dgst n 1).claim = some k)
    (busy : (p.dgst n 1).busy = true) (unkeyed : j.key = 0) : p.feedBlock n = blockEnded p n j := by
  have noKey : ∀ q : Part, (q.regCmd n k j.key).bind (fun c => q.heldKey n c (toBE 8 j.key.toNat)) = none := fun q => by
    rw [unkeyed]
    exact Option.bind_eq_none_iff.2 fun c _ => heldKey_none c
  have zero : allZero (toBE 8 j.key.toNat) = true := by rw [unkeyed]; decide
  have masked : ¬(j.key ≠ 0 ∧ p.drbgServes n = false) := fun starved => starved.1 unkeyed
  unfold Part.feedBlock blockEnded outputReady readyFeed unkeyedOutput
  simp only [held, claim, busy, if_neg masked, noKey, zero, Bool.true_eq_false, if_false, false_and]
  split
  · rfl
  · cases (p.atTime (p.dgst n 1).due).regCmd n k j.key <;> simp only [and_true] <;> rfl

theorem dgst_outputReady (p : Part) (n : Nat) (j : RegJob) : (outputReady p n j).dgst n 1 = readyFeed j (p.dgst n 1) :=
  dgst_setDgst_same (p.atTime (p.dgst n 1).due) n 1 _

theorem busy_blockEnded (p : Part) (n : Nat) (j : RegJob) : ((blockEnded p n j).dgst n 1).busy = false := by
  unfold blockEnded
  exact same_ite (read := fun q : Part => (q.dgst n 1).busy) (congrArg Dgst.busy (dgst_setDgst_same _ n 1 _))
    (congrArg Dgst.busy (dgst_outputReady p n j))

theorem within_blockEnded (p : Part) (n : Nat) (j : RegJob) : Within [.disp, .seats] (p.atTime (p.dgst n 1).due) (blockEnded p n j) :=
  .ite (within_setDgst _ n 1 _).mono
    (((within_setDgst _ n 1 _).mono.next (within_payFeed _ n j)).next (within_tileFrom _ _ _))

/-- A job without a key block hashes what it was fed. -/
theorem unkeyedOutput_plain {j : RegJob} (plain : j.inject = 0) :
    unkeyedOutput j = Dg.finish j.alg (Dg.start j.alg) j.fed j.fed.length (Dg.outLen j.alg j.outLen) := by
  rw [unkeyedOutput, plain]
  rfl

/-- The engine's output is compared with the expected value, from its first byte (R262). -/
def compared (p : Part) (n : Nat) (value : Word) (expected : Bytes) : Part :=
  let d := { p.dgst n 1 with exp := padTo 64 expected }
  ((p.setDgst n 1 d).wait 32).setDgst n 1 { d with matched := d.output.take (value.toNat % 128) == d.exp.take (value.toNat % 128) }

theorem matched_compared (p : Part) (n : Nat) (value : Word) (expected : Bytes) : ((compared p n value expected).dgst n 1).matched =
    ((p.dgst n 1).output.take (value.toNat % 128) == (padTo 64 expected).take (value.toNat % 128)) :=
  congrArg Dgst.matched (dgst_setDgst_same _ n 1 _)

theorem changes_compared (p : Part) (n : Nat) (value : Word) (expected : Bytes) : ChangesOnly [.seats] p (compared p n value expected) :=
  (((within_setDgst p n 1 _).units.trans (changes_now _ _)).trans (within_setDgst _ n 1 _).units).mono (by decide)

theorem feedCompare_compares {value : Word} {expected : Bytes} (ended : (p.dgst n 1).done = true) (least : 4 ≤ value.toNat % 128)
    (most : value.toNat % 128 ≤ (p.dgst n 1).output.length) : p.feedCompare n value expected = compared p n value expected := by
  have there : (p.dgst n 1).output ≠ [] := fun none_ => by
    rw [none_, List.length_nil] at most
    omega
  have able : ¬((p.dgst n 1).done = false ∨ (p.dgst n 1).output = [] ∨ value.toNat % 128 < 4 ∨
      (p.dgst n 1).output.length < value.toNat % 128) := by
    simp only [ended, there, Bool.true_eq_false, false_or]
    omega
  unfold Part.feedCompare
  simp only [dgst_updDgst_same, if_neg able]
  rfl

end

/-! ### The rows -/

/-- Settles O21: a start by what the key's words and its charge leave; an end by what it shows and answers; each row of the feed by what its act
leaves of engine B, and the units that it stays within. -/
theorem digestRowsAct : Obligations.DigestRowsAct := by
  refine ⟨fun s n e ecc c k q on there he up jobless unfed unclaimed unwanted serving next hash fresh passed good charged => ?_,
    fun s n e ecc c st pl on there he up jobless unfed unclaimed unwanted serving next hash failed found host kept => ?_,
    fun s n e ecc j o c on there he held out answer found => ?_,
    fun s n e j on there he held => onDigest_act on there he (parityFault_job held),
    fun s n k on there hk running awake grant => ?_,
    fun s n k on there wanted jobless unclaimed up => ?_, fun s n k on there claim => ?_,
    fun s n k j on there held claim busy unkeyed => ?_⟩
  · have runs := startDigest_runs ⟨up, jobless, unfed, unclaimed, unwanted, serving, next, hash⟩ fresh passed good charged
    have read := within_keyRead (p := s.atTime (s.tile (siteTile n .digest e)).since) (c := c) (ne_zero_of_hasSeat there) good
    have act := ((read.mono (l := formUnits)).next (within_chargeAll charged)).next (within_hashSeated q n e c (firstHash q.now c k))
    exact ⟨_, firstHash q.now c k, onDigest_act on there he runs, job_hashSeated q n e c _, rfl, rfl, rfl, rfl, rfl, rfl,
      keeps_timed act (by decide)⟩
  · have refuses := startDigest_refuses (ecc := ecc) ⟨up, jobless, unfed, unclaimed, unwanted, serving, next, hash⟩ failed
    obtain ⟨rises, same, rests⟩ := hashRefused_host (p := s.atTime (s.tile (siteTile n .digest e)).since) (n := n) (e := e) (st := st) (pl := pl)
      s found host kept
    exact ⟨_, onDigest_act on there he refuses, rises, same, rests, keeps_timed (within_hashRefused _ n e c st pl) (by decide)⟩
  · have seat := ne_zero_of_hasSeat there
    have row : exec (.digestJobComplete n e ecc) s = .next (after s (s.operandRead n e j.uid ecc (fun p => p.endDigest n e))) :=
      onDigest_act on there he (endDigestRead_reads held out answer ecc)
    refine ⟨fun good host kept masked compared => ⟨_, row, ?_⟩, fun bad => ?_⟩
    · rw [Part.operandRead, if_neg good]
      exact endDigest_host ((congrArg Dgst.job (dgst_decoded seat _ _ _ _ _)).trans held) out answer ((findCmd_decoded _ seat _ _ _ _).trans found)
        (masked.imp_right (drbgServes_decoded seat _ _ _ _).trans) compared s host kept
    · rw [row, Part.operandRead, if_pos bad]
  · have granted : FeedGranted s.toPart n k := ⟨running, awake, grant⟩
    have same := dgst_accessed s.toPart n
    refine ⟨fun unclaimed unwanted => ?_, fun claim idle => ?_, fun ctrl len claim inject low high outLen short invoked unscrubbed => ?_,
      fun j value claim held idle unfinished room => ?_, fun j value claim held idle unfinished reserved whole => ?_,
      fun value expected claim ended least most => ?_⟩
    · obtain ⟨ptr, takes⟩ := claimFeed_first (k := k) unclaimed unwanted
      have row : exec (.dgstbClaim n k) s = .next (after s ((pointed s.toPart n ptr).claimTakes n k)) :=
        claimWrite_next on there hk granted takes
      have job : ((pointed s.toPart n ptr).dgst n 1).job = (s.dgst n 1).job := (congrArg Dgst.job (dgst_pointed s.toPart n ptr) :)
      have reads := dgst_setDgst_same (pointed s.toPart n ptr) n 1
      have act := fun x => (within_pointed s.toPart n ptr).next (within_setDgst _ n 1 x)
      refine ⟨fun jobless up => ⟨_, row, ?_⟩, fun busy => ⟨_, row, ?_⟩⟩
      · rw [claimTakes_free (job.trans jobless) up]
        exact ⟨congrArg Dgst.claim (reads _), congrArg Dgst.wanted (reads _), congrArg Dgst.lastAccess (reads _),
          (congrArg Dgst.job (reads _)).trans (job.trans jobless), (act _).units.keeps (by decide)⟩
      · rw [← job] at busy
        rw [claimTakes_waits (p := pointed s.toPart n ptr) busy]
        exact ⟨congrArg Dgst.claim (reads _), congrArg Dgst.wanted (reads _), (congrArg Dgst.job (reads _)).trans job,
          (act _).units.keeps (by decide)⟩
    · exact ⟨_, claimWrite_next on there hk granted (dropClaim_own claim),
        claim_releaseClaim s.toPart n _, (within_feedRelease s.toPart n _).units.keeps (by decide)⟩
    · have reads := dgst_begun (cleared s.toPart n k ctrl len) n (unkeyedJob s.now ctrl len)
      rw [dgst_cleared] at reads
      exact ⟨_, ctrlWrite_next on there hk granted claim (feedGo_begins inject low high outLen short invoked unscrubbed),
        congrArg Dgst.reg reads, (congrArg Dgst.lastAccess reads :), congrArg Dgst.done reads, congrArg Dgst.busy reads,
        (within_begun s.toPart n k ctrl len _).units.keeps (by decide)⟩
    · obtain ⟨due, feeds⟩ := feedData_feeds (p := accessed s.toPart n) (value := value) ((congrArg Dgst.reg same).trans held)
        ((congrArg Dgst.busy same).trans idle) unfinished room
      have reads := dgst_setDgst_same (accessed s.toPart n) n 1
      exact ⟨_, feedWrite_next on there hk granted claim feeds, congrArg Dgst.reg (reads _), congrArg Dgst.busy (reads _),
        ((within_accessed s.toPart n).next (within_setDgst _ n 1 _)).units.keeps (by decide)⟩
    · obtain ⟨due, feeds⟩ := feedLast_feeds (p := accessed s.toPart n) (value := value) ((congrArg Dgst.reg same).trans held)
        ((congrArg Dgst.busy same).trans idle) unfinished reserved whole
      have reads := dgst_setDgst_same (accessed s.toPart n) n 1
      exact ⟨_, feedWrite_next on there hk granted claim feeds, congrArg Dgst.reg (reads _), congrArg Dgst.busy (reads _),
        ((within_accessed s.toPart n).next (within_setDgst _ n 1 _)).units.keeps (by decide)⟩
    · have output : ((accessed s.toPart n).dgst n 1).output = (s.dgst n 1).output := (congrArg Dgst.output same :)
      have compares := feedCompare_compares (p := accessed s.toPart n) (expected := expected) ((congrArg Dgst.done same).trans ended) least
        (output.symm ▸ most)
      exact ⟨_, feedWrite_next on there hk granted claim compares,
        (matched_compared _ n value expected).trans (by rw [output]), rfl,
        ((within_accessed s.toPart n).units.trans (changes_compared _ n value expected)).keeps (by decide)⟩
  · have reads := dgst_setDgst_same (s.atTime (s.tile (siteTile n .digest 1)).scrubEnd) n 1
    exact ⟨_, onSeat_act on there (grantClaim_grants wanted jobless unclaimed up), congrArg Dgst.claim (reads _), congrArg Dgst.wanted (reads _),
      congrArg Dgst.lastAccess (reads _), keeps_timed (within_setDgst _ n 1 _) (by decide)⟩
  · have released := dgst_releaseClaim (s.atTime ((s.dgst n 1).lastAccess + usec 10)) n Status.digestContextPoisoned
    have act := within_feedRelease (s.atTime ((s.dgst n 1).lastAccess + usec 10)) n Status.digestContextPoisoned
    refine ⟨_, onSeat_act on there (claimTimeout_held claim), claim_releaseClaim _ n _, due_timed act, fun runs => ?_,
      keeps_timed act (by decide)⟩
    rw [if_pos ⟨Option.isSome_iff_exists.2 ⟨k, claim⟩, Option.isSome_iff_ne_none.2 runs⟩] at released
    exact ⟨congrArg Dgst.status released, congrArg Dgst.res released⟩
  · have act := within_blockEnded s.toPart n j
    refine ⟨_, onSeat_act on there (feedBlock_unkeyed held claim busy unkeyed), busy_blockEnded s.toPart n j, due_timed act, fun last plain => ?_,
      keeps_timed act (by decide)⟩
    have shown := dgst_outputReady s.toPart n j
    have visible : (readyFeed j (s.dgst n 1)).res = unkeyedOutput j := if_neg (by omega)
    rw [blockEnded, if_neg (by simp [last])]
    exact ⟨congrArg Dgst.done shown, congrArg Dgst.status shown, congrArg Dgst.reg shown,
      (congrArg Dgst.res shown).trans (visible.trans (unkeyedOutput_plain plain))⟩

end Sys2Proof.DigestEngine

/-! ## Applet instances and the Slot Guard (10 R275 to R288) -/

namespace Sys2Proof.Applets

open Sys2Proof.Machine Sys2Proof.Safety Sys2Proof.Laws Sys2Proof.Architecture Sys2Proof.DealRows Sys2Proof.HostTransport Sys2Proof.Dispatching
  Sys2Proof.KeyVault Sys2Proof.Tricks Sys2Proof.CipherLanes Sys2Proof.DigestEngine

/-! ### Rows and state of a core -/

/-- A row of a core leaves the part that its act leaves. -/
theorem onCore_act {s : State} {n k : Nat} {f : Part → Part} {q : Part} (on : s.power.on = true) (there : s.hasSeat n = true) (hk : k < 4)
    (act : f s.toPart = q) : onCore n k s f = .next (after s q) := act ▸ onUnit_on (by simp [there, hk]) on f

section
variable (p : Part) (n k : Nat)

@[simp] theorem core_setCore_same (x : Core) : (p.setCore n k x).core n k = x := Sparse.get_set_same _ _ _ _

@[simp] theorem core_updCore_same (f : Core → Core) : (p.updCore n k f).core n k = f (p.core n k) := core_setCore_same p n k _

@[simp] theorem core_bump (a m : Nat) : (p.bump a m).core n k = p.core n k := rfl

theorem within_setCore (x : Core) : Within [.seats] p (p.setCore n k x) := within_seats p _

theorem within_setSram (m : List Host.Cell) : Within [.seats] p (p.setSram m) := within_seats p _

theorem within_writeSram (a : Nat) (b : Bytes) : Within [.seats] p (p.writeSram n k a b) := within_setSram p _

end

theorem core_of_cores {p q : Part} (same : q.seats.cores = p.seats.cores) (n k : Nat) : q.core n k = p.core n k := by
  simp only [Part.core, same]

theorem core_of_noted {p q : Part} (h : Noted p q) (n k : Nat) : q.core n k = p.core n k := core_of_cores (by rw [h.seats]) n k

theorem core_sweepDraining (p : Part) (m n k : Nat) : (p.sweepDraining m).core n k = p.core n k := by
  obtain ⟨cache, counts, h⟩ := sweepDraining_eq p m
  rw [h]
  rfl

theorem within_sweepDraining (p : Part) (n : Nat) : Within [.seats, .counts] p (p.sweepDraining n) :=
  ⟨changes_sweepDraining p n, (sweepDraining_leaves p n).2.2⟩

/-- The pages of a write join the instance's, and nothing else of its core changes. -/
theorem core_touch {p : Part} {n k : Nat} {x : Core} (reads : ∃ dirty, p.core n k = { x with dirty := dirty }) (a len : Nat) :
    ∃ dirty, (p.touch n k a len).core n k = { x with dirty := dirty } := by
  obtain ⟨_, same⟩ := reads
  unfold Part.touch
  split
  · exact ⟨_, same⟩
  · exact ⟨_, (core_updCore_same p n k _).trans (by rw [same])⟩

theorem rising_of_findCmd {s : State} {p q : Part} {u n : Nat} {st : BitVec 16} {b : Bytes} (same : q.findCmd u = p.findCmd u)
    (rises : Rising (after s p) u n st b) : Rising (after s q) u n st b := by
  obtain ⟨c, found, rest⟩ := rises
  exact ⟨c, same.trans found, rest⟩

/-! ### An invocation is taken, and its instance starts (10 R275, R276) -/

/-- A core that has taken an invocation loads its image. -/
def taken (p : Part) (n k : Nat) (c : Cmd) : Part :=
  (p.takeEngine c n .core k c.fixed).updCore n k (fun x =>
    { x with run := .loading, uid := some c.uid, hand := BitVec.ofNat 8 c.hand, started := p.now })

theorem core_taken (p : Part) (n k : Nat) (c : Cmd) : (taken p n k c).core n k =
    { p.core n k with run := .loading, uid := some c.uid, hand := BitVec.ofNat 8 c.hand, started := p.now } :=
  core_updCore_same (p.takeEngine c n .core k c.fixed) n k _

theorem within_taken (p : Part) (n k : Nat) (c : Cmd) : Within [.xct, .disp, .seats] p (taken p n k c) :=
  (within_takeEngine p c n .core k c.fixed).next (within_updCore _ n k _)

theorem invoke_takes {p : Part} {n k : Nat} {c : Cmd} {i : Image} (idle : (p.core n k).run = .idle) (serving : p.seatIn n .inService = true)
    (next : p.nextFor n .core (fun c => p.coreServes n k c.hand) = some c) (long : 16 ≤ c.params.length)
    (whole : c.params.length = 16 + field c.params 8 4) (fits : field c.params 8 4 ≤ 8192) (reserved : allZero (slice c.params 4 4) = true)
    (padding : allZero (slice c.params 12 4) = true) (known : p.imageOf c.epoch c.hand (field c.params 0 4) = some i) :
    p.invoke n k = taken p n k c := by
  have formed : ¬(c.params.length < 16 ∨ c.params.length ≠ 16 + field c.params 8 4 ∨ 8192 < field c.params 8 4 ∨
      allZero (slice c.params 4 4) = false ∨ allZero (slice c.params 12 4) = false) := by
    simp only [reserved, padding, Bool.true_eq_false, or_false]
    omega
  unfold Part.invoke
  simp only [idle, serving, next, if_neg formed, known, ne_eq, not_true_eq_false, Bool.true_eq_false, or_self, if_false]
  rfl

/-- The image and the data of an image are loaded over the Seat's link (10 R274). -/
def imageLoaded (p : Part) (n k : Nat) (i : Image) : Part :=
  ((p.wait (usec 1 + (i.code.length + i.data.length) / 50)).writeSram n k codeAt (padTo (i.dataAt - codeAt) i.code ++ i.data)).bump
    (regAddr n (swinCORE + k * 0x1000) 0x0118)

/-- The pages that the last instance wrote are zeroized, and the pristine data copied. -/
def pagesZeroed (p : Part) (n k : Nat) (i : Image) (pages : List Nat) : Part :=
  (p.zeroPages n k codeAt (i.dataAt + i.data.length) pages).wait (nsec (100 + 43 * pages.length) + i.data.length / 32)

/-- Working data, input and notices stand in the core's SRAM. -/
def mailed (p : Part) (n k : Nat) (i : Image) (input note : Bytes) : Part :=
  ((p.writeSram n k i.workAt i.data).writeSram n k mailIn input).writeSram n k mailOut (note.take 8192)

/-- The core of an instance that enters its applet. -/
def enteredCore (now serial notices : Nat) (i : Image) (input : Bytes) (x : Core) : Core :=
  { x with
    run := .running, image := i.id, serial := serial, started := now, dirty := [], calls := [], lastRaise := none, stalledAt := none
    a0 := BitVec.ofNat 64 input.length, a1 := 0x10000, a2 := BitVec.ofNat 64 notices, pc := BitVec.ofNat 64 (codeAt + i.entry) }

/-- The applet is entered; the pages of what was copied are the instance's. -/
def entered (p : Part) (n k serial : Nat) (i : Image) (input : Bytes) (notices : List Notice) : Part :=
  let note := notices.flatMap (Notice.bytes 0)
  let q := mailed p n k i input note
  ((((q.updCore n k (enteredCore q.now serial notices.length i input)).touch n k mailIn input.length).touch n k mailOut
    (min note.length 8192)).touch n k i.workAt i.data.length).bump (regAddr n (swinCORE + k * 0x1000) 0x0100)

/-- q is p some time later, with other Seats and other counts. -/
structure Later (p q : Part) : Prop where
  units : ChangesOnly [.seats, .counts] p q
  now : p.now ≤ q.now

namespace Later

variable {p q r : Part}

theorem refl (p : Part) : Later p p := ⟨(ChangesOnly.refl p).mono (by decide), le_rfl⟩

theorem wait (h : Later p q) (d : Nat) : Later p (q.wait d) :=
  ⟨(h.units.trans (changes_now q _)).mono (by decide), h.now.trans (Nat.le_add_right _ _)⟩

theorem within (h : Later p q) {l : List Unit_} (k : Within l q r) (sub : l ⊆ [.seats, .counts] := by decide) : Later p r :=
  ⟨(h.units.trans k.units).mono (List.append_subset.2 ⟨List.Subset.refl _, sub⟩), h.now.trans k.now.ge⟩

end Later

theorem later_imageLoaded (p : Part) (n k : Nat) (i : Image) : Later p (imageLoaded p n k i) :=
  (((Later.refl p).wait _).within (within_writeSram _ n k _ _)).within (within_bump _ _ _)

theorem later_pagesZeroed {p q : Part} (h : Later p q) (n k : Nat) (i : Image) (pages : List Nat) : Later p (pagesZeroed q n k i pages) :=
  (h.within (within_setSram _ _)).wait _

theorem within_takeNotices (p : Part) (n hand : Nat) : Within [.seats] p (p.takeNotices n hand).1 :=
  .foldl (fun p _ => within_seats p _) _ _

theorem within_mailed (p : Part) (n k : Nat) (i : Image) (input note : Bytes) : Within [.seats] p (mailed p n k i input note) :=
  ((within_writeSram p n k _ _).next (within_writeSram _ n k _ _)).next (within_writeSram _ n k _ _)

theorem within_entered (p : Part) (n k serial : Nat) (i : Image) (input : Bytes) (notices : List Notice) :
    Within [.seats, .counts] p (entered p n k serial i input notices) :=
  ((((((within_mailed p n k i _ _).mono (l := [.seats, .counts])).next (within_updCore _ n k _)).next (within_touch _ n k _ _)).next
    (within_touch _ n k _ _)).next (within_touch _ n k _ _)).next (within_bump _ _ _)

theorem core_entered (p : Part) (n k serial : Nat) (i : Image) (input : Bytes) (notices : List Notice) : ∃ now x dirty,
    (entered p n k serial i input notices).core n k = { enteredCore now serial notices.length i input x with dirty := dirty } :=
  ⟨_, _, core_touch (core_touch (core_touch ⟨[], core_updCore_same _ n k _⟩ _ _) _ _) _ _⟩

section
variable {p : Part} {n k u : Nat} {c : Cmd}

/-- The part in which an applet is entered: its image is resident, and the pages are zeroized. -/
def readied (p : Part) (n k : Nat) (i : Image) (load : Bool) (pages : List Nat) : Part :=
  pagesZeroed (if load = true then imageLoaded p n k i else p) n k i pages

theorem later_readied (p : Part) (n k : Nat) (i : Image) (load : Bool) (pages : List Nat) : Later p (readied p n k i load pages) := by
  refine later_pagesZeroed ?_ n k i pages
  split
  · exact later_imageLoaded p n k i
  · exact .refl p

/-- The instance of an invocation enters its applet, if the link is up or the image resident. -/
theorem startInstance_enters {i : Image} (loading : (p.core n k).run = .loading) (invoked : (p.core n k).uid = some u)
    (found : p.findCmd u = some c) (known : p.imageOf c.epoch c.hand (field c.params 0 4) = some i)
    (ready : p.linkUp n = true ∨ ((p.core n k).image = i.id ∧ (p.core n k).serial = ((p.dealOf c.epoch).map (·.serial)).getD 0)) :
    ∃ load pages serial, p.startInstance n k = entered ((readied p n k i load pages).takeNotices n c.hand).1 n k serial i (c.params.drop 16)
      ((readied p n k i load pages).takeNotices n c.hand).2 := by
  have starts : ¬((decide ((p.core n k).image ≠ i.id) || decide ((p.core n k).serial ≠ ((p.dealOf c.epoch).map (·.serial)).getD 0)) = true ∧
      p.linkUp n = false) := by
    rintro ⟨load, down⟩
    obtain up | ⟨image, serial⟩ := ready
    · simp [up] at down
    · simp [image, serial] at load
  unfold Part.startInstance
  simp only [invoked, Option.bind_some, found, loading, if_true, known, if_neg starts]
  exact ⟨_, _, _, rfl⟩

end

/-! ### What the end of an instance leaves (10 R277) -/

/-- The instance's hold on engine B's register feed is gone. -/
def feedLeft (p : Part) (n k : Nat) : Part :=
  (if (p.dgst n 1).claim = some k then p.releaseClaim n Status.abortedScrubbed else p).updDgst n 1 (fun d =>
    if d.wanted = some k then { d with wanted := none } else d)

theorem within_feedLeft (p : Part) (n k : Nat) : Within [.disp, .seats, .counts] p (feedLeft p n k) :=
  (Within.ite (within_feedRelease p n _) .refl).next (within_updDgst _ n 1 _)

/-- In its Seat, the release of the feed changes the digest engines and the tiles alone. -/
theorem seats_releaseClaim (p : Part) (n : Nat) (st : BitVec 16) :
    ∃ dgsts tiles, (p.releaseClaim n st).seats = { p.seats with dgsts := dgsts, tiles := tiles } := by
  unfold Part.releaseClaim
  simp only
  split
  · rw [endRegJob_eq, feedStopped, feedPaid]
    split <;> split <;> exact ⟨_, _, rfl⟩
  · exact ⟨_, _, rfl⟩

theorem seats_feedLeft (p : Part) (n k : Nat) : ∃ dgsts tiles, (feedLeft p n k).seats = { p.seats with dgsts := dgsts, tiles := tiles } := by
  unfold feedLeft
  split
  · obtain ⟨dgsts, tiles, same⟩ := seats_releaseClaim p n Status.abortedScrubbed
    simp only [Part.updDgst, Part.setDgst, same]
    exact ⟨_, _, rfl⟩
  · exact ⟨_, _, rfl⟩

theorem core_feedLeft (p : Part) (n k m l : Nat) : (feedLeft p n k).core m l = p.core m l := by
  obtain ⟨_, _, same⟩ := seats_feedLeft p n k
  exact core_of_cores (by rw [same]) m l

theorem findCmd_feedLeft (p : Part) (n k u : Nat) : (feedLeft p n k).findCmd u = p.findCmd u := (within_feedLeft p n k).units.findCmd (by decide) u

/-! ### A normal exit (10 R277) -/

/-- An invocation without outstanding calls has its outcome, which leaves the Seat; its core is idle. -/
def exited (p : Part) (n k u : Nat) (o : Outcome) : Part :=
  ((p.updCmd u (fun x => { x with place := .up n, status := o.status, payload := o.payload })).ordered u).setCore n k
    { p.core n k with run := .idle, pendingEnd := none, uid := none, lastHand := (p.core n k).hand.toNat, hand := 0 }

theorem finishExit_exits {p : Part} {n k u : Nat} {o : Outcome} (pending : (p.core n k).pendingEnd = some o) (invoked : (p.core n k).uid = some u)
    (alone : (p.core n k).calls = []) : p.finishExit n k = exited p n k u o := by
  unfold Part.finishExit
  dsimp only
  split
  · next hasEnd hasUid _ =>
    obtain rfl := Option.some.inj (hasEnd.symm.trans pending)
    obtain rfl := Option.some.inj (hasUid.symm.trans invoked)
    rfl
  · next none_ => exact absurd alone (none_ o u pending invoked)

theorem core_exited (p : Part) (n k u : Nat) (o : Outcome) : (exited p n k u o).core n k =
    { p.core n k with run := .idle, pendingEnd := none, uid := none, lastHand := (p.core n k).hand.toNat, hand := 0 } := core_setCore_same _ n k _

theorem within_exited (p : Part) (n k u : Nat) (o : Outcome) : Within [.xct, .seats] p (exited p n k u o) :=
  (((within_updCmd p u _).mono (l := [.xct, .seats])).next (within_ordered _ u)).next (within_setCore _ n k _)

theorem rising_exited (s : State) {p : Part} {n k u : Nat} {c : Cmd} {o : Outcome} (found : p.findCmd u = some c) :
    Rising (after s (exited p n k u o)) u n o.status o.payload := by
  refine ⟨{ c with place := .up n, status := o.status, payload := o.payload, doneSeq := p.xct.nextDone, doneAt := p.now / 2 }, ?_, rfl, rfl, rfl⟩
  calc (exited p n k u o).findCmd u
      = ((p.updCmd u (fun x => { x with place := .up n, status := o.status, payload := o.payload })).updCmd u
          (fun x => { x with doneSeq := p.xct.nextDone, doneAt := p.now / 2 })).findCmd u := rfl
    _ = _ := by
      rw [findCmd_updCmd_same, findCmd_updCmd_same, found]
      rfl

/-- What a normal exit answers: a0, the output's length, and the output (R277). -/
def exitPayload (p : Part) (n k : Nat) (a0 a1 : BitVec 64) : Bytes :=
  toBE 4 (a0.toNat % 2 ^ 32) ++ zeros 4 ++ toBE 4 a1.toNat ++ zeros 4 ++ p.readSram n k mailOut a1.toNat

/-- The instance has left the feed, and its end waits for its calls. -/
def leavingCore (p : Part) (n k : Nat) (a0 a1 : BitVec 64) : Part :=
  (feedLeft p n k).updCore n k (fun x => { x with run := .ending, pendingEnd := some (Part.doneWith (exitPayload p n k a0 a1)), a0 := a0, a1 := a1 })

theorem core_leavingCore (p : Part) (n k : Nat) (a0 a1 : BitVec 64) : (leavingCore p n k a0 a1).core n k =
    { p.core n k with run := .ending, pendingEnd := some (Part.doneWith (exitPayload p n k a0 a1)), a0 := a0, a1 := a1 } :=
  (core_updCore_same _ n k _).trans (by rw [core_feedLeft])

theorem within_leavingCore (p : Part) (n k : Nat) (a0 a1 : BitVec 64) : Within [.disp, .seats, .counts] p (leavingCore p n k a0 a1) :=
  (within_feedLeft p n k).next (within_updCore _ n k _)

section
variable {p : Part} {n k u : Nat} {c : Cmd} {a0 a1 : BitVec 64}

theorem ecall_exits (running : (p.core n k).run = .running) (awake : (p.core n k).stalledAt = none) (invoked : (p.core n k).uid = some u)
    (alone : (p.core n k).calls = []) (fits : a1.toNat ≤ 8192) : p.ecall n k 0 a0 a1 =
      (exited (leavingCore p n k a0 a1) n k u (Part.doneWith (exitPayload p n k a0 a1))).sweepDraining n := by
  have core := core_leavingCore p n k a0 a1
  have exits : (leavingCore p n k a0 a1).finishExit n k = exited (leavingCore p n k a0 a1) n k u (Part.doneWith (exitPayload p n k a0 a1)) :=
    finishExit_exits (congrArg Core.pendingEnd core) ((congrArg Core.uid core).trans invoked) ((congrArg Core.calls core).trans alone)
  have runs : ¬((p.core n k).run ≠ .running ∨ (p.core n k).stalledAt.isSome = true) := by simp [running, awake]
  have ends : ¬((0 : BitVec 64) ≠ 0 ∨ 8192 < a1.toNat) := by simp [fits]
  unfold Part.ecall
  simp only [if_neg runs, if_neg ends]
  rw [← exits]
  rfl

/-- A normal exit answers with its output, and leaves its core idle. -/
theorem ecall_answers (s : State) (running : (p.core n k).run = .running) (awake : (p.core n k).stalledAt = none)
    (invoked : (p.core n k).uid = some u) (alone : (p.core n k).calls = []) (found : p.findCmd u = some c) (fits : a1.toNat ≤ 8192) :
    ((p.ecall n k 0 a0 a1).core n k).run = .idle ∧ ((p.ecall n k 0 a0 a1).core n k).uid = none ∧
      Rising (after s (p.ecall n k 0 a0 a1)) u n Status.done (exitPayload p n k a0 a1) ∧
      Within [.disp, .seats, .counts, .xct] p (p.ecall n k 0 a0 a1) := by
  rw [ecall_exits running awake invoked alone fits]
  have core := (core_sweepDraining (exited (leavingCore p n k a0 a1) n k u (Part.doneWith (exitPayload p n k a0 a1))) n n k).trans (core_exited _ n k u _)
  have left := within_leavingCore p n k a0 a1
  refine ⟨congrArg Core.run core, congrArg Core.uid core, rising_of_findCmd ((sweepDraining_leaves _ n).1 u) (rising_exited s (c := c) ?_), ?_⟩
  · exact (left.units.findCmd (by decide) u).trans found
  · exact ((left.mono (l := [.disp, .seats, .counts, .xct])).next (within_exited _ n k u _)).next (within_sweepDraining _ n)

end

/-! ### Another end (10 R277) -/

/-- An instance whose calls are aborted has left its core, and its end is recorded. -/
def instanceOver (p : Part) (n k : Nat) (st : BitVec 16) (cause : Nat) : Part :=
  ((feedLeft (p.updCore n k (fun c => { c with calls := [] })) n k).updCore n k (fun c =>
    { c with run := .idle, uid := none, pendingEnd := none, stalledAt := none, lastHand := c.hand.toNat, hand := 0 })).event (seatSource n (44 + k))
      0x0620 1 n (p.core n k).hand.toNat (p.core n k).image (k * 2 ^ 24 + st.toNat) cause

section
variable {p : Part} {n k u : Nat} {st : BitVec 16} {b : Bytes} {cause : Nat} {c : Cmd}

theorem run_instanceOver : ((instanceOver p n k st cause).core n k).run = .idle := by
  rw [instanceOver, core_of_noted (event_noted _ _ _ _ _ _ _ _ _), core_updCore_same]

theorem findCmd_instanceOver (v : Nat) : (instanceOver p n k st cause).findCmd v = p.findCmd v :=
  (findCmd_of_noted (event_noted _ _ _ _ _ _ _ _ _) v).trans (findCmd_feedLeft _ n k v)

/-- Among its Seat's state, the cores, the digest engines, the tiles and the applets' notices alone have changed. -/
theorem seats_instanceOver : ∃ cores dgsts tiles notices, (instanceOver p n k st cause).seats =
    { p.seats with cores := cores, dgsts := dgsts, tiles := tiles, appNotices := notices } := by
  obtain ⟨dgsts, tiles, same⟩ := seats_feedLeft (p.updCore n k (fun c => { c with calls := [] })) n k
  have left : ∃ cores, ((feedLeft (p.updCore n k (fun c => { c with calls := [] })) n k).updCore n k (fun c =>
      { c with run := .idle, uid := none, pendingEnd := none, stalledAt := none, lastHand := c.hand.toNat, hand := 0 })).seats =
      { p.seats with cores := cores, dgsts := dgsts, tiles := tiles } := by
    simp only [Part.updCore, Part.setCore] at same ⊢
    rw [same]
    exact ⟨_, rfl⟩
  obtain ⟨cores, left⟩ := left
  exact ⟨cores, dgsts, tiles, _, (event_noted _ _ _ _ _ _ _ _ _).seats.trans (by rw [left])⟩

theorem serving_instanceOver (m : Nat) (x : SeatSt) : (instanceOver p n k st cause).seatIn m x = p.seatIn m x := by
  obtain ⟨_, _, _, _, same⟩ := seats_instanceOver (p := p) (n := n) (k := k) (st := st) (cause := cause)
  simp only [Part.seatIn, Part.seat, same]

/-- On a Seat in service an instance without outstanding calls ends with its status. -/
theorem endInstance_over (invoked : (p.core n k).uid = some u) (alone : p.callsOf n k = []) (serving : p.seatIn n .inService = true) :
    p.endInstance n k (some st) b cause = (instanceOver p n k st cause).seatAnswer n u st b := by
  have none_ : ((p.updCore n k (fun c => { c with calls := [] })).callsOf n k).length = 0 := congrArg List.length alone
  have serves := (serving_instanceOver (p := p) (n := n) (k := k) (st := st) (cause := cause) n .inService).trans serving
  unfold Part.endInstance
  simp only [invoked, alone, List.foldl_nil, none_, if_true, Option.getD_some]
  exact if_pos serves

variable (invoked : (p.core n k).uid = some u) (alone : p.callsOf n k = []) (serving : p.seatIn n .inService = true) (found : p.findCmd u = some c)
  (host : c.isCall = false) (kept : c.retract = none)
include invoked alone serving found host kept

/-- The answer leaves the Seats as they were. -/
theorem seats_endInstance : (p.endInstance n k (some st) b cause).seats = (instanceOver p n k st cause).seats := by
  have named := uid_of_findCmd found
  have known : (instanceOver p n k st cause).findCmd c.uid = some c := (findCmd_instanceOver _).trans (named ▸ found)
  rw [endInstance_over invoked alone serving, ← named, seats_seatAnswer known host kept]

/-- The end of a host's invocation: its status leaves the Seat, and its core is idle. -/
theorem endInstance_host (s : State) : Rising (after s (p.endInstance n k (some st) b cause)) u n st b ∧
    ((p.endInstance n k (some st) b cause).core n k).run = .idle := by
  have named := uid_of_findCmd found
  have known : (instanceOver p n k st cause).findCmd c.uid = some c := (findCmd_instanceOver _).trans (named ▸ found)
  refine ⟨?_, ?_⟩
  · rw [endInstance_over invoked alone serving, ← named]
    exact rising_seatAnswer s known host kept
  · rw [core_of_cores (congrArg SeatsUnit.cores (seats_endInstance invoked alone serving found host kept))]
    exact run_instanceOver

/-- An end by a trap, or by the budget. -/
theorem trapEnd_host (s : State) : Rising (after s (p.trapEnd n k st b cause)) u n st b ∧ ((p.trapEnd n k st b cause).core n k).run = .idle := by
  obtain ⟨rises, idle⟩ := endInstance_host (p := p.bump (regAddr n (swinCORE + k * 0x1000) 0x0110)) (st := st) (b := b) (cause := cause) invoked alone
    serving found host kept s
  exact ⟨rising_of_findCmd ((sweepDraining_leaves _ n).1 u) rises, (congrArg Core.run (core_sweepDraining _ n n k)).trans idle⟩

end

theorem within_trapEnd (p : Part) (n k : Nat) (st : BitVec 16) (b : Bytes) (cause : Nat) : Within stopUnits p (p.trapEnd n k st b cause) :=
  (((within_bump p _ _).mono (l := stopUnits)).next (within_endInstance _ n k _ b cause)).next (within_sweepDraining _ n)

section
variable {p : Part} {n k u : Nat} {c : Cmd}

/-- An illegal instruction traps, with its cause and its address. -/
theorem coreException_traps (running : (p.core n k).run = .running) (cause pc : BitVec 64) : p.coreException n k .illegalInstruction cause pc =
    (p.updCore n k (fun x => { x with pc := pc })).trapEnd n k ApStatus.trap (toBE 8 cause.toNat ++ toBE 8 pc.toNat) (cause.toNat % 2 ^ 32) :=
  if_neg (by simp [running])

theorem budgetEnd_traps {i : Image} (running : (p.core n k).run = .running) (invoked : (p.core n k).uid = some u) (found : p.findCmd u = some c)
    (known : p.imageOf c.epoch c.hand (p.core n k).image = some i) :
    p.budgetEnd n k = (p.atTime ((p.core n k).started + 2 * i.budget)).trapEnd n k ApStatus.timeout [] 0 := by
  unfold Part.budgetEnd
  simp only [invoked, Option.bind_some, found, running, if_true, known]

end

/-! ### A doorbell places a call (10 R278, R279) -/

/-- A running core that does not wait for random bits. -/
def Issues (p : Part) (n k : Nat) : Prop := (p.core n k).run = .running ∧ (p.core n k).stalledAt = none

/-- Through its fixed slots, a running core reaches a register. -/
theorem coreRegister_reached {p : Part} {n k off : Nat} {a : Access} (issues : Issues p n k) (slot : p.fixedSlot n k a off = true) (f : Part → Part) :
    p.coreRegister n k a off f = f p := by
  obtain ⟨running, awake⟩ := issues
  unfold Part.coreRegister
  simp [running, awake, slot]

/-- A core reaches its own registers (R282). -/
theorem fixedSlot_own (p : Part) (n k off : Nat) (inside : off < 0x1000) : p.fixedSlot n k .write (swinCORE + k * 0x1000 + off) = true := by
  have own : swinCORE + k * 0x1000 ≤ swinCORE + k * 0x1000 + off ∧ swinCORE + k * 0x1000 + off < swinCORE + k * 0x1000 + 0x1000 :=
    ⟨Nat.le_add_right _ _, Nat.add_lt_add_left inside _⟩
  unfold Part.fixedSlot
  simp only [reduceCtorEq, if_false, if_pos own]

section
variable (p : Part) (n k : Nat) (d : BitVec 32) (code : Nat) (b : Bytes)

/-- The epoch of a call: its instance's (02 R52). -/
def callEpoch : Nat := (((p.core n k).uid.bind p.findCmd).map (·.epoch)).getD p.deal.epoch

/-- The next number of the dealing order is taken. -/
def dealtNext : Part := { p with disp := { p.disp with dealSeq := p.disp.dealSeq + 1 } }

/-- A call has entered, of its instance's epoch, and is among its core's calls. -/
def callEntered : Part :=
  let q := (p.enter (.call n k d) (p.core n k).hand.toNat code b false {}).1
  ((dealtNext q).updCmd p.xct.nextUid (fun c => { c with epoch := callEpoch p n k, dealSeq := q.disp.dealSeq + 1 })).updCore n k
    (fun c => { c with calls := c.calls ++ [{ desc := d, uid := p.xct.nextUid }] })

theorem core_callEntered : (callEntered p n k d code b).core n k =
    { p.core n k with calls := (p.core n k).calls ++ [{ desc := d, uid := p.xct.nextUid }] } := core_updCore_same _ n k _

theorem within_dealtNext : Within [.disp] p (dealtNext p) := within_disp p _

theorem within_enter (o : Origin) (hand : Nat) : Within [.xct] p (p.enter o hand code b false {}).1 := within_xct p _

theorem within_callEntered : Within [.xct, .disp, .seats] p (callEntered p n k d code b) := by
  unfold callEntered
  exact ((((within_enter p code b (.call n k d) (p.core n k).hand.toNat).mono (l := [.xct, .disp, .seats])).next (within_dealtNext _)).next
    (within_updCmd _ _ _)).next (within_updCore _ n k _)

/-- A command that enters has the current epoch, so the epoch of a command of the instance stays. -/
theorem epoch_enter (u : Option Nat) (o : Origin) (hand : Nat) :
    ((u.bind (p.enter o hand code b false {}).1.findCmd).map (·.epoch)).getD (p.enter o hand code b false {}).1.deal.epoch =
      ((u.bind p.findCmd).map (·.epoch)).getD p.deal.epoch := by
  cases u with
  | none => rfl
  | some u =>
    simp only [Option.bind_some, Part.enter, Part.findCmd, List.find?_append]
    cases p.xct.cmds.find? (fun c => c.uid = u) with
    | some c => rfl
    | none =>
      simp only [Option.none_or, List.find?_singleton]
      split <;> rfl

variable {p n k code b}

/-- A call that nothing refuses is placed: at its Seat, if an engine serves its code. -/
theorem placeCall_placed (running : (p.core n k).run = .running) (room : (p.core n k).calls.length < 32) (known : callCodes.contains code = true)
    (joined : p.solo = false) (survives : vaultMutations.contains code = true → p.survivesBoth (p.core n k).hand.toNat = true)
    (free : callEpoch p n k = p.deal.epoch → p.busyWrite (p.core n k).hand.toNat code b = none) :
    p.placeCall n k d code b = if (siteOf code).isSome then
      (callEntered p n k d code b).updCmd p.xct.nextUid (fun c => { c with place := .seatQ n, seat := n }) else callEntered p n k d code b := by
  have epoch := epoch_enter p code b (p.core n k).uid (.call n k d) (p.core n k).hand.toNat
  have solo : (callEntered p n k d code b).solo = false := joined
  have calm : (if callEpoch p n k = p.deal.epoch then p.busyWrite (p.core n k).hand.toNat code b else none) = none := by
    split
    · next current => exact free current
    · rfl
  unfold Part.placeCall
  rw [if_neg (not_not.2 running)]
  dsimp only
  rw [epoch]
  refine (if_neg (Nat.not_le.2 room)).trans ((if_neg (by rw [known]; decide)).trans ((if_neg ?_).trans ((if_neg ?_).trans ?_)))
  · intro refused
    exact Bool.false_ne_true (solo.symm.trans (Bool.and_eq_true_iff.1 (Bool.and_eq_true_iff.1 refused).1).2)
  · intro refused
    obtain ⟨mutates, one⟩ := Bool.and_eq_true_iff.1 refused
    have both : (callEntered p n k d code b).survivesBoth (p.core n k).hand.toNat = true := survives mutates
    exact absurd (both.symm.trans (Bool.not_eq_true' _ ▸ one)) (by decide)
  · split
    · next busy => exact absurd (busy.symm.trans calm) (Option.some_ne_none _)
    · rfl

/-- The frame of a placed call: its core has it among its calls. -/
theorem placeCall_joins (running : (p.core n k).run = .running) (room : (p.core n k).calls.length < 32) (known : callCodes.contains code = true)
    (joined : p.solo = false) (survives : vaultMutations.contains code = true → p.survivesBoth (p.core n k).hand.toNat = true)
    (free : callEpoch p n k = p.deal.epoch → p.busyWrite (p.core n k).hand.toNat code b = none) :
    ((p.placeCall n k d code b).core n k).calls = (p.core n k).calls ++ [{ desc := d, uid := p.xct.nextUid }] ∧
      Within [.xct, .disp, .seats] p (p.placeCall n k d code b) := by
  rw [placeCall_placed d running room known joined survives free]
  have calls := congrArg Core.calls (core_callEntered p n k d code b)
  split
  · exact ⟨calls, (within_callEntered p n k d code b).next (within_updCmd _ _ _)⟩
  · exact ⟨calls, within_callEntered p n k d code b⟩

end

theorem core_requestKeys (p : Part) (m u n k : Nat) : (p.requestKeys m u).core n k = p.core n k := by
  obtain same | ⟨_, _, same⟩ := requestKeys_cases p m u
  · rw [same]
  · rw [same]
    rfl

/-- The descriptor that a doorbell has its Seat fetch. -/
def fetched (p : Part) (n k : Nat) (d : BitVec 32) : Bytes := p.readSram n k d.toNat 32

/-- The parameters that a descriptor names. -/
def fetchedParams (p : Part) (n k : Nat) (d : BitVec 32) : Bytes := p.readSram n k (field (fetched p n k d) 8 8) (field (fetched p n k d) 4 4)

/-- The doorbell of a call that its guard lets through is counted, and the call placed. -/
theorem doorbell_places {p : Part} {n k : Nat} {d : Word} (issues : Issues p n k) (aligned : d.toNat % 32 = 0)
    (fetches : guardAllowsAll (p.masterWindows n 4 k) .read d.toNat 32 = true)
    (follows : guardAllowsAll (p.masterWindows n 4 k) .read (field (fetched p n k d) 8 8) (field (fetched p n k d) 4 4) = true) :
    p.doorbell n k d = (((p.bump (regAddr n (swinCORE + k * 0x1000) 0x0108)).placeCall n k d (field (fetched p n k d) 0 2)
      (fetchedParams p n k d)).updCmd p.xct.nextUid (fun c =>
        { c with frag := field (fetched p n k d) 0 2 == 0x6001 && (byteAt (fetched p n k d) 30).getLsbD 1 })).requestKeys n p.xct.nextUid := by
  unfold Part.doorbell
  rw [coreRegister_reached issues (fixedSlot_own p n k 0x0C (by decide)), if_neg (not_not.2 aligned)]
  exact (if_neg (by simp [fetches])).trans (if_neg (Bool.not_eq_false _ ▸ follows))

/-! ### The rows -/

/-- Settles O22: each row of an applet's life acts as the rules of the instance say. -/
theorem appletRowsAct : Obligations.AppletRowsAct := by
  refine ⟨fun s n k c i on there hk idle serving next long whole fits reserved padding known => ?_,
    fun s n k u c i on there hk loading invoked found known ready => ?_,
    fun s n k u c a0 a1 on there hk running awake invoked alone found fits => ?_,
    fun s n k u c cause pc on there hk running invoked found host kept alone serving => ?_,
    fun s n k u c i on there hk running invoked found host kept alone serving known => ?_,
    fun s n k d on there hk running awake aligned fetches follows room known joined survives free => ?_⟩
  · exact ⟨_, onCore_act on there hk (invoke_takes idle serving next long whole fits reserved padding known), core_taken s.toPart n k c,
      (within_taken s.toPart n k c).units.keeps (by decide)⟩
  · obtain ⟨load, pages, serial, enters⟩ := startInstance_enters loading invoked found known ready
    have later := ((later_readied s.toPart n k i load pages).within (within_takeNotices _ n c.hand)).within
      (within_entered _ n k serial i (c.params.drop 16) ((readied s.toPart n k i load pages).takeNotices n c.hand).2)
    obtain ⟨now, x, dirty, core⟩ := core_entered ((readied s.toPart n k i load pages).takeNotices n c.hand).1 n k serial i (c.params.drop 16)
      ((readied s.toPart n k i load pages).takeNotices n c.hand).2
    exact ⟨_, onCore_act on there hk enters, congrArg Core.run core, congrArg Core.image core, congrArg Core.a0 core, congrArg Core.a1 core,
      congrArg Core.pc core, congrArg Core.calls core, later.now, later.units.keeps (by decide)⟩
  · obtain ⟨idle, released, rises, act⟩ := ecall_answers s running awake invoked alone found fits
    exact ⟨_, onCore_act on there hk rfl, idle, released, rises, act.units.keeps (by decide)⟩
  · have trapped := coreException_traps (p := s.toPart) running cause pc
    obtain ⟨rises, idle⟩ := trapEnd_host (p := s.updCore n k (fun x => { x with pc := pc })) (st := ApStatus.trap)
      (b := toBE 8 cause.toNat ++ toBE 8 pc.toNat) (cause := cause.toNat % 2 ^ 32) ((congrArg Core.uid (core_updCore_same _ n k _)).trans invoked)
      alone serving found host kept s
    exact ⟨_, onCore_act on there hk trapped, idle, rises,
      (((within_updCore s.toPart n k _).mono (l := stopUnits)).next (within_trapEnd _ n k _ _ _)).units.keeps (by decide)⟩
  · have spent := budgetEnd_traps (p := s.toPart) running invoked found known
    obtain ⟨rises, idle⟩ := trapEnd_host (p := s.atTime ((s.core n k).started + 2 * i.budget)) (st := ApStatus.timeout) (b := []) (cause := 0) invoked
      alone serving found host kept s
    have act := within_trapEnd (s.atTime ((s.core n k).started + 2 * i.budget)) n k ApStatus.timeout [] 0
    exact ⟨_, onCore_act on there hk spent, idle, rises, due_timed act, keeps_timed act (by decide)⟩
  · have places := doorbell_places ⟨running, awake⟩ aligned fetches follows
    obtain ⟨calls, act⟩ := placeCall_joins (p := s.bump (regAddr n (swinCORE + k * 0x1000) 0x0108)) (d := d) running room known joined survives free
    refine ⟨_, onCore_act on there hk places, ?_, ?_⟩
    · exact (congrArg Core.calls (core_requestKeys _ n _ n k)).trans calls
    · exact ((((within_bump s.toPart _ _).units.trans act.units).trans (within_updCmd _ _ _).units).trans (changes_requestKeys _ n _)).keeps (by decide)

end Sys2Proof.Applets

/-! ## Services of an applet and the Slot Guard (10 R280, R284 to R288; 11 R321; 14 R390) -/

namespace Sys2Proof.AppletServices

open Sys2Proof.Machine Sys2Proof.Safety Sys2Proof.Laws Sys2Proof.Architecture Sys2Proof.DealRows Sys2Proof.HostTransport Sys2Proof.Dispatching
  Sys2Proof.KeyVault Sys2Proof.Tricks Sys2Proof.CipherLanes Sys2Proof.DigestEngine Sys2Proof.Applets

/-! ### Applet data (10 R280) -/

/-- A row serves the command it names, a host's or a call, at the head of its order and with no Dealer Hold. -/
theorem serve_head {p : Part} {o : Origin} {code : Nat} {c : Cmd} (found : p.findRow o code = some c) (head : p.isHead c = true)
    (free : p.guard.dealerHold = none) (b : Bytes) (f : Part → Cmd → Part) : p.serve o code b f = f p c := by
  simp [Part.serve, found, head, free]

/-- An access to applet data that nothing keeps back reaches the bytes of its area. -/
structure DataReached (p : Part) (code : Nat) (c : Cmd) (off len a : Nat) : Prop where
  offset : field c.params 0 8 = off
  length : field c.params 8 4 = len
  whole : c.params.length = if code = 0x7101 then 16 else 16 + len
  some_ : len ≠ 0
  fits : len ≤ 4096
  reserved : allZero (slice c.params 12 4) = true
  range : p.appRange c off len = some a
  served : c.hand = 0 ∨ p.vault.st = .open_
  unwaiting : p.mustWait c = false
  settled : p.unsettled (.app (a / 4096)) = false
  sound : (List.range ((a % 64 + len + 63) / 64)).any (fun i => p.linePoisoned (appLine (a + 64 * i))) = false
  kept : c.epoch = p.deal.epoch → p.appTearing a = false

section
variable {p : Part} {code off len a : Nat} {c : Cmd} (reached : DataReached p code c off len a)
include reached

/-- A read answers the bytes; a write waits for its mutation, if the journal takes one. -/
theorem appDataRow_reaches (journals : code ≠ 0x7101 → p.journalRefusal = none) : Part.appDataRow code p c =
    if code = 0x7101 then p.answer c.uid Status.done (Memory.readBytes p.vault.app a len)
    else (p.parkCmd c.uid).hostMutation (.appData off (c.params.drop 16)) c.hand c.uid [.app (a / 4096)] := by
  obtain ⟨rfl, rfl, whole, some_, fits, reserved, range, served, unwaiting, settled, sound, kept⟩ := reached
  have formed : ¬(c.params.length < 16 ∨ c.params.length ≠ (if code = 0x7101 then 16 else 16 + field c.params 8 4) ∨ field c.params 8 4 = 0 ∨
      4096 < field c.params 8 4 ∨ allZero (slice c.params 12 4) = false) := by
    rintro (short | other | none_ | long | unreserved)
    · split at whole <;> omega
    · exact other whole
    · exact some_ none_
    · exact absurd fits (Nat.not_le.2 long)
    · exact absurd (reserved.symm.trans unreserved) (by decide)
  have stays : ¬(c.epoch = p.deal.epoch ∧ p.appTearing a = true) := fun ⟨current, tears⟩ => by simp [kept current] at tears
  unfold Part.appDataRow
  rw [if_neg formed, range]
  refine (withVault_serves served unwaiting _).trans ?_
  simp only [settled, sound, Bool.false_eq_true, if_false, if_neg stays]
  by_cases read : code = 0x7101
  · rw [if_pos read, if_pos read]
  · rw [if_neg read, if_neg read, journals read]

end

/-! ### Registers that a grant opens (10 R282, 11 R321, 14 R390) -/

section
variable {p : Part} {n k : Nat} (hk : k < 4)
include hk

theorem fixedSlot_notice (grant : (p.grantsOf (p.core n k)).getLsbD 2 = true) : p.fixedSlot n k .write swinNTC = true := by
  have others : ¬(swinCORE + k * 0x1000 ≤ swinNTC ∧ swinNTC < swinCORE + k * 0x1000 + 0x1000) ∧
      ¬(swinDGSTB ≤ swinNTC ∧ swinNTC < swinDGSTB + 0x10000) ∧ swinNTC ≠ swinTRNG + 0x10 := by
    simp only [swinCORE, swinNTC, swinDGSTB, swinTRNG]
    omega
  obtain ⟨own, feed, random⟩ := others
  unfold Part.fixedSlot
  rw [if_neg (by decide), if_neg own, if_neg feed, if_neg random, if_pos rfl, grant]
  rfl

theorem fixedSlot_random (grant : (p.grantsOf (p.core n k)).getLsbD 1 = true) : p.fixedSlot n k .read (swinTRNG + 0x10) = true := by
  have others : ¬(swinCORE + k * 0x1000 ≤ swinTRNG + 0x10 ∧ swinTRNG + 0x10 < swinCORE + k * 0x1000 + 0x1000) ∧
      ¬(swinDGSTB ≤ swinTRNG + 0x10 ∧ swinTRNG + 0x10 < swinDGSTB + 0x10000) := by
    simp only [swinCORE, swinDGSTB, swinTRNG]
    omega
  obtain ⟨own, feed⟩ := others
  unfold Part.fixedSlot
  rw [if_neg (by decide), if_neg own, if_neg feed, if_pos rfl, grant]
  rfl

/-- A notice that comes no sooner than 10 µs after the core's last goes out. -/
theorem raiseNotice_raises (issues : Issues p n k) (grant : (p.grantsOf (p.core n k)).getLsbD 2 = true)
    (late : ∀ u, (p.core n k).lastRaise = some u → u + usec 10 ≤ p.now) (v : Word) : p.raiseNotice n k v =
      (p.updCore n k (fun c => { c with lastRaise := some p.now })).notice (seatSource n (48 + k)) 0x0F20 1 (p.core n k).hand.toNat
        (toBE 4 (p.core n k).image ++ toBE 4 v.toNat) := by
  have due : (p.core n k).lastRaise.any (fun t => decide (p.now < t + usec 10)) = false := by
    cases last : (p.core n k).lastRaise with
    | none => rfl
    | some u => simp [Nat.not_lt.2 (late u last)]
  unfold Part.raiseNotice
  rw [coreRegister_reached issues (fixedSlot_notice hk grant)]
  exact if_neg (by simp [due])

theorem readRandom_reached (issues : Issues p n k) (grant : (p.grantsOf (p.core n k)).getLsbD 1 = true) : p.readRandom n k =
    if p.drbgServes n then (p.updCore n k (fun c => { c with lastRandom := BitVec.ofNat 32 (be (p.drawn 4)) })).drbgTakes n 4
    else p.updCore n k (fun c => { c with stalledAt := some p.now }) := coreRegister_reached issues (fixedSlot_random hk grant) _

end

theorem randomTimeout_ends {p : Part} {n k t0 : Nat} (stalled : (p.core n k).stalledAt = some t0) (stopped : p.drbgServes n = false) :
    p.randomTimeout n k = ((p.atTime (t0 + usec 20)).endInstance n k (some Status.abortedScrubbed)).sweepDraining n := by
  unfold Part.randomTimeout
  simp [stalled, stopped]

/-! ### A count that the recorder leaves (10 R288, 14 R372 to R390)

The recorder counts at die 0, and what the applets' queues drop at a Seat's NTC window; a count elsewhere stays. -/

/-- The count at an address is the same. -/
def SameCount (a : Nat) (p q : Part) : Prop := q.count a = p.count a

namespace SameCount

variable {a : Nat} {p q r : Part}

theorem refl (p : Part) : SameCount a p p := rfl

theorem trans (h : SameCount a p q) (k : SameCount a q r) : SameCount a p r := Eq.trans k h

theorem bump (h : SameCount a p q) {b : Nat} (apart : a ≠ b) (m : Nat := 1) : SameCount a p (q.bump b m) :=
  (Sparse.get_set_other _ _ _ _ _ apart).trans h

theorem ite {c : Prop} [Decidable c] (hq : SameCount a p q) (hr : SameCount a p r) : SameCount a p (if c then q else r) := by
  split
  · exact hq
  · exact hr

end SameCount

/-- An address that is no count of the recorder, of the notices or of an applets' queue. -/
def CountedElsewhere (a : Nat) : Prop := 0x1000000 ≤ a ∧ ∀ n, a ≠ regAddr n swinNTC 0x0100

theorem elsewhere_guard {n : Nat} (seat : n ≠ 0) : CountedElsewhere (regAddr n swinSGRD 0x0100) := by
  refine ⟨?_, fun m => ?_⟩ <;> simp only [regAddr, swinSGRD, swinNTC] <;> omega

section
variable {a : Nat} (apart : CountedElsewhere a) (p : Part)
include apart

theorem CountedElsewhere.die {b : Nat} (low : b < 0x1000000 := by decide) : a ≠ b := by
  have := apart.1
  omega

theorem sameCount_ringCopy (r : Rec) (t : Bool) : SameCount a p (p.ringCopy r t) := by
  unfold Part.ringCopy
  have copied : SameCount a p (p.setEvr (ringOrHold p.evr r)) := rfl
  simp only
  generalize p.setEvr (ringOrHold p.evr r) = q at copied ⊢
  have logged : SameCount a p (if (q.evr.fatal && !t) = true then q.setEvr (regWriteRec q.evr r) else q) := .ite copied copied
  have lost := SameCount.ite (c := (p.evr.thawAt.isSome && (nextRing p.evr).isSome && !decide (p.evr.hold.length < 4096)) = true)
    (logged.bump (b := regAddr 0 winEVR 0x0120) apart.die) logged
  exact .ite (lost.bump apart.die) lost

theorem sameCount_tookSeq : SameCount a p p.tookSeq := (SameCount.refl p).bump apart.die

omit apart in
theorem sameCount_forwardLater (r : Rec) : SameCount a p (p.forwardLater r) := .ite rfl rfl

theorem sameCount_pinnedFull : SameCount a p p.pinnedFullRec :=
  ((sameCount_tookSeq apart p).trans (sameCount_forwardLater _ _)).trans (sameCount_ringCopy apart _ _ _)

theorem sameCount_kittyCopy (r : Rec) : SameCount a p (p.kittyCopy r) := .ite rfl ((SameCount.refl p).bump apart.die)

theorem sameCount_copies (r : Rec) (kitty : Bool) : SameCount a p ((if kitty = true then p.kittyCopy r else p).ringCopy r) :=
  (SameCount.ite (sameCount_kittyCopy apart p r) rfl).trans (sameCount_ringCopy apart _ r false)

theorem sameCount_store (r : Rec) (kitty : Bool) : SameCount a p (p.store r kitty) := by
  have taken : SameCount a p (p.tookSeq.forwardLater r) := (sameCount_tookSeq apart p).trans (sameCount_forwardLater _ r)
  have copied {q : Part} (h : SameCount a p q) (r : Rec) := h.trans (sameCount_copies apart q r kitty)
  unfold Part.store
  simp only
  generalize p.tookSeq.forwardLater r = q at taken ⊢
  split
  · split
    · have pinned (e : EvrUnit) : SameCount a p (q.setEvr e) := taken
      exact .ite ((copied (pinned _) _).trans (sameCount_pinnedFull apart _)) (copied (pinned _) _)
    · exact copied (taken.bump apart.die) r
  · exact copied taken r

theorem sameCount_queueApplet (seat hand : Nat) (n : Notice) : SameCount a p (p.queueApplet seat hand n) :=
  .ite rfl ((SameCount.refl p).bump (apart.2 seat))

theorem sameCount_toApplets (hand : Nat) (n : Notice) : SameCount a p (p.toApplets hand n) :=
  .ite (foldl_same (read := fun p => p.count a) (fun p k => sameCount_queueApplet apart p k hand n) _ _) rfl

theorem sameCount_raise (n : Notice) (l : List (BitVec 32)) : SameCount a p (p.raise n l) := by
  have raised : SameCount a p (p.bump (regAddr 0 winNTC 0x0100)) := (SameCount.refl p).bump apart.die
  unfold Part.raise
  simp only
  generalize p.bump (regAddr 0 winNTC 0x0100) = q at raised ⊢
  split
  · exact raised
  · next route _ =>
    have spoken {q : Part} (h : SameCount a p q) (sel : Session → Bool) : SameCount a p (q.toSessions sel n) := h
    have housed {q : Part} (h : SameCount a p q) (e : EvrUnit) : SameCount a p (q.setEvr e) := h
    have withheld := SameCount.ite (c := (decide (route.minsev ≤ n.sev) && route.dest.toNat.testBit 1 &&
      !(decide (route.minsev ≤ n.sev) && route.dest.toNat.testBit 1 && noticeFor route.hand n)) = true)
      (raised.bump (b := regAddr 0 winNTC 0x0108) apart.die) raised
    refine .ite (.trans ?_ (sameCount_toApplets apart _ _ _)) ?_ <;> exact .ite (housed (spoken withheld _) _) (spoken withheld _)

theorem sameCount_notice (source : Nat) (code : BitVec 16) (sev hand : Nat) (b : Bytes) (l : List (BitVec 32)) :
    SameCount a p (p.notice source code sev hand b l) := sameCount_raise apart p _ l

theorem sameCount_create (code : BitVec 16) (sev : Nat) (f : Byte) (d : Nat) (x y z : Word) (kitty : Bool) :
    SameCount a p (p.create code sev f d x y z kitty) := by
  unfold Part.create
  simp only
  split
  · exact (SameCount.refl p).bump apart.die
  · have stored : SameCount a p ((p.setEvr { p.evr with supp := Sparse.erase p.evr.supp (Part.bucketKey d code) }).store
        (p.makeRec code sev f (BitVec.ofNat 8 d) x y z (Sparse.get 0 p.evr.supp (Part.bucketKey d code))) kitty) :=
      sameCount_store apart (p.setEvr { p.evr with supp := Sparse.erase p.evr.supp (Part.bucketKey d code) }) _ kitty
    exact .ite (stored.trans (sameCount_notice apart _ _ _ _ _ _ _)) stored

theorem sameCount_suppress (d : Nat) (code : BitVec 16) : SameCount a p (p.suppress d code) :=
  have counted : SameCount a p _ := (SameCount.refl (p.setEvr _)).bump apart.die
  .ite (counted.bump apart.die) counted

theorem sameCount_record (code : BitVec 16) (sev d : Nat) (x y z : Word) : SameCount a p (p.record code sev d x y z) :=
  .ite (sameCount_create apart p _ _ _ _ _ _ _ _) (.ite (sameCount_create apart (p.takeTokens d code) _ _ _ _ _ _ _ _)
    (sameCount_suppress apart p d code))

theorem sameCount_event (source : Nat) (code : BitVec 16) (sev d hand x y z : Nat) : SameCount a p (p.event source code sev d hand x y z) :=
  (sameCount_record apart p code sev d _ _ _).trans (sameCount_notice apart _ _ _ _ _ _ _)

end

/-! ### A violation of a core's own access (10 R284, R286, R288) -/

section
variable {a : Nat} (apart : CountedElsewhere a) (p : Part) (n k : Nat)

/-- A release of the feed counts at the feed's own window. -/
theorem sameCount_releaseClaim (feed : a ≠ regAddr n swinDGSTB 0x0128) : SameCount a p (p.releaseClaim n Status.abortedScrubbed) := by
  have freed (x : Dgst) : SameCount a p (p.setDgst n 1 x) := rfl
  have scrubbed (q : Part) : SameCount a q (q.endRegJob n Status.abortedScrubbed) := by
    rw [endRegJob_eq, if_neg (by decide), feedStopped, feedPaid]
    split <;> rfl
  exact .ite (((freed _).bump feed).trans (scrubbed _)) (freed _)

theorem sameCount_feedLeft (feed : a ≠ regAddr n swinDGSTB 0x0128) : SameCount a p (feedLeft p n k) := by
  have left (q : Part) (f : Dgst → Dgst) : SameCount a q (q.updDgst n 1 f) := rfl
  exact (SameCount.ite (sameCount_releaseClaim p n feed) (.refl p)).trans (left _ _)

include apart in
theorem sameCount_instanceOver (feed : a ≠ regAddr n swinDGSTB 0x0128) (st : BitVec 16) (cause : Nat) :
    SameCount a p (instanceOver p n k st cause) := by
  have cleared : SameCount a p (p.updCore n k (fun c => { c with calls := [] })) := rfl
  have left (q : Part) (f : Core → Core) : SameCount a q (q.updCore n k f) := rfl
  exact ((cleared.trans (sameCount_feedLeft _ n k feed)).trans (left _ _)).trans (sameCount_event apart _ _ _ _ _ _ _ _ _)

end

/-- The address of a violation stands in the register of its master. -/
def lastSet (p : Part) (n k addr : Nat) : Part :=
  { p with seats := { p.seats with sgrdLast := Sparse.set 0 p.seats.sgrdLast (n * 8 + k) (BitVec.ofNat 32 addr) } }

/-- A precise violation is counted and recorded. -/
def violated (p : Part) (n k addr pc : Nat) : Part :=
  ((lastSet p n k addr).bump (regAddr n swinSGRD 0x0100)).record 0x0610 2 n
    (BitVec.ofNat 32 (k * 2 ^ 24 + (p.core n k).hand.toNat * 2 ^ 16 + (p.core n k).image % 65536)) (BitVec.ofNat 32 addr) (BitVec.ofNat 32 pc)

section
variable (p : Part) (n k addr pc : Nat)

theorem noted_violated : Noted ((lastSet p n k addr).bump (regAddr n swinSGRD 0x0100)) (violated p n k addr pc) := record_noted _ _ _ _ _ _ _

theorem within_violated : Within [.seats, .counts, .evr, .part, .xct] p (violated p n k addr pc) :=
  (((within_seats p _).mono (l := [.seats, .counts, .evr, .part, .xct])).next (within_bump (lastSet p n k addr) _ _)).next
    (.of_noted (noted_violated p n k addr pc))

theorem last_violated : Sparse.get 0 (violated p n k addr pc).seats.sgrdLast (n * 8 + k) = BitVec.ofNat 32 addr := by
  rw [(noted_violated p n k addr pc).seats]
  exact Sparse.get_set_same _ _ _ _

theorem count_violated (seat : n ≠ 0) :
    (violated p n k addr pc).count (regAddr n swinSGRD 0x0100) = p.count (regAddr n swinSGRD 0x0100) + 1 :=
  Eq.trans (sameCount_record (elsewhere_guard seat) _ _ _ _ _ _ _) (Sparse.get_set_same _ _ _ _)

variable {p n k addr}

theorem violate_precise {len : Nat} (clear : guardConflict (p.masterWindows n k k) addr len = false) :
    p.violate n k k .precise addr len pc = (violated p n k addr pc).endInstance n k (some Status.accessFault) := by
  have clear : guardConflict ((lastSet p n k addr).masterWindows n k k) addr len = false := clear
  exact congrArg (fun q : Part => q.endInstance n k (some Status.accessFault)) (if_neg (Bool.eq_false_iff.1 clear))

end

section
variable {p : Part} {n k u : Nat} {c : Cmd} (invoked : (p.core n k).uid = some u) (alone : p.callsOf n k = [])
  (serving : p.seatIn n .inService = true) (found : p.findCmd u = some c) (host : c.isCall = false) (kept : c.retract = none)
include invoked alone serving found host kept

/-- The end of an instance leaves the addresses of the violations. -/
theorem last_endInstance (st : BitVec 16) (b : Bytes) (cause : Nat) :
    (p.endInstance n k (some st) b cause).seats.sgrdLast = p.seats.sgrdLast := by
  obtain ⟨_, _, _, _, same⟩ := seats_instanceOver (p := p) (n := n) (k := k) (st := st) (cause := cause)
  rw [seats_endInstance invoked alone serving found host kept, same]

/-- The end of an instance leaves the counts of the violations. -/
theorem count_endInstance (seat : n ≠ 0) (st : BitVec 16) (b : Bytes) (cause : Nat) :
    SameCount (regAddr n swinSGRD 0x0100) p (p.endInstance n k (some st) b cause) := by
  have named := uid_of_findCmd found
  have known : (instanceOver p n k st cause).findCmd c.uid = some c := (findCmd_instanceOver _).trans (named ▸ found)
  have feed : regAddr n swinSGRD 0x0100 ≠ regAddr n swinDGSTB 0x0128 := by
    simp only [regAddr, swinSGRD, swinDGSTB]
    omega
  have answered (q : Part) (f : Cmd → Cmd) (a : Nat) : SameCount a q (((q.closeStreams u).updCmd u f).ordered u) := rfl
  rw [endInstance_over invoked alone serving, ← named, seatAnswer_host known host kept, named]
  exact (sameCount_instanceOver (elsewhere_guard seat) p n k feed st cause).trans (answered _ _ _)

end

section
variable {s : State} {n k u addr : Nat} {c : Cmd} (invoked : (s.core n k).uid = some u) (alone : s.callsOf n k = [])
  (serving : s.seatIn n .inService = true) (found : s.findCmd u = some c) (host : c.isCall = false) (kept : c.retract = none) (seat : n ≠ 0)
include invoked alone serving found host kept seat

/-- A violating instance of a host's invocation has ended; its address and the count of the violation stand. -/
theorem violated_ends (pc : Nat) : ∃ q, (violated s.toPart n k addr pc).endInstance n k (some Status.accessFault) = q ∧
    (q.core n k).run = .idle ∧ Rising (after s q) u n Status.accessFault [] ∧ Sparse.get 0 q.seats.sgrdLast (n * 8 + k) = BitVec.ofNat 32 addr ∧
      q.count (regAddr n swinSGRD 0x0100) = s.count (regAddr n swinSGRD 0x0100) + 1 := by
  have noted := noted_violated s.toPart n k addr pc
  have invoked : ((violated s.toPart n k addr pc).core n k).uid = some u := (congrArg Core.uid (core_of_noted noted n k)).trans invoked
  have alone : (violated s.toPart n k addr pc).callsOf n k = [] := by
    unfold Part.callsOf
    rw [noted.cmds]
    exact alone
  have serving : (violated s.toPart n k addr pc).seatIn n .inService = true := by
    unfold Part.seatIn Part.seat
    rw [noted.seats]
    exact serving
  have found : (violated s.toPart n k addr pc).findCmd u = some c := (findCmd_of_noted noted u).trans found
  have last := last_violated s.toPart n k addr pc
  have count := count_violated s.toPart n k addr pc seat
  generalize violated s.toPart n k addr pc = q at invoked alone serving found last count
  obtain ⟨rises, idle⟩ := endInstance_host (st := Status.accessFault) (b := []) (cause := 0) invoked alone serving found host kept s
  exact ⟨_, rfl, idle, rises, (congrArg (Sparse.get 0 · (n * 8 + k)) (last_endInstance invoked alone serving found host kept _ _ _)).trans last,
    Eq.trans (count_endInstance invoked alone serving found host kept seat _ _ _) count⟩

end

/-! ### A store of which every byte is allowed (10 R285) -/

theorem guardedWrite_allowed {ws : List GuardWindow} {n k addr : Nat} {d : Bytes} (allowed : guardAllowsAll ws .write addr d.length = true) (p : Part) :
    p.guardedWrite ws n k addr d = p.writeSram n k addr d := by
  induction d generalizing addr p with
  | nil => rfl
  | cons b d ih =>
    simp only [guardAllowsAll, List.all_eq_true, List.mem_range, List.length_cons] at allowed ih
    have first : guardAllows ws .write addr = true := allowed 0 (Nat.succ_pos _)
    have rest : ∀ i < d.length, guardAllows ws .write (addr + 1 + i) = true := fun i hi => by
      rw [Nat.add_right_comm]
      exact allowed (i + 1) (Nat.succ_lt_succ hi)
    rw [Part.guardedWrite, if_pos first, ih rest]
    simp only [Part.writeSram, Part.setSram, Memory.writeBytes, Nat.add_assoc]

theorem sram_touch (p : Part) (n k addr len : Nat) : (p.touch n k addr len).seats.sram = p.seats.sram := by
  unfold Part.touch
  split <;> rfl

/-! ### The rows -/

section
variable {s : State} {n k : Nat} (on : s.power.on = true) (there : s.hasSeat n = true) (hk : k < 4) (running : (s.core n k).run = .running)
include on there hk running

/-- A violation of a running core's own access. -/
theorem slotGuardViolation_next {a : Access} {addr pc : BitVec 32} {len : Nat} (refused : s.accessOk n k k a addr.toNat len = false)
    (clear : guardConflict (s.masterWindows n k k) addr.toNat len = false) : exec (.slotGuardViolation n k k a addr len pc) s =
      .next (after s ((violated s.toPart n k addr.toNat pc.toNat).endInstance n k (some Status.accessFault))) := by
  refine (onUnit_on (by simp [there, hk, Nat.lt_trans hk (by decide : 4 < 7)]) on _).trans ?_
  simp only [if_pos hk, running, refused, beq_self_eq_true, Bool.true_or, Bool.true_eq_false, Bool.false_eq_true, or_self, if_false]
  rw [violate_precise _ clear]

/-- A store of a running core of which every byte is allowed. -/
theorem slotGuardStoreDrain_next {addr : BitVec 32} {d : Bytes} (some_ : d ≠ [])
    (clear : guardConflict (s.masterWindows n k k) addr.toNat d.length = false)
    (allowed : guardAllowsAll (s.masterWindows n k k) .write addr.toNat d.length = true) : exec (.slotGuardStoreDrain n k addr d) s =
      .next (after s ((s.writeSram n k addr.toNat d).touch n k addr.toNat d.length)) := by
  refine (onUnit_on (by simp [there, hk]) on _).trans ?_
  simp only [running, some_, clear, allowed, guardedWrite_allowed allowed, ne_eq, not_true_eq_false, or_self, Bool.false_eq_true, if_false, if_true]

end

/-- Settles O23: what an applet's data accesses, notices, random values, violations and stores leave. -/
theorem appletServicesAct : Obligations.AppletServicesAct := by
  refine ⟨fun s n k d c b a on free found head block long some_ fits reserved range served unwaiting settled sound kept => ?_,
    fun s n k d c b a on free found head block long some_ fits reserved range served unwaiting settled sound kept journals => ?_,
    fun s n k v on there hk running awake grant late => onCore_act on there hk (raiseNotice_raises hk ⟨running, awake⟩ grant late v),
    fun s n k on there hk running awake grant => ?_,
    fun s n k u t0 c on there hk stalled stopped invoked found host kept alone serving => ?_,
    fun s n k u len a addr pc c on there hk running refused clear invoked found host kept alone serving => ?_,
    fun s n k addr d on there hk running some_ clear allowed _ => ?_⟩
  · subst block
    have reached : DataReached s.toPart 0x7101 c (field c.params 0 8) (field c.params 8 4) a :=
      ⟨rfl, rfl, long, some_, fits, reserved, range, served, unwaiting, settled, sound, kept⟩
    change powered s (fun p => p.serve (.call n k d) 0x7101 c.params (Part.appDataRow 0x7101)) = _
    rw [powered_on on, serve_head found head free, appDataRow_reaches reached (absurd rfl), if_pos rfl]
  · subst block
    have reached : DataReached s.toPart 0x7102 c (field c.params 0 8) (field c.params 8 4) a :=
      ⟨rfl, rfl, long, some_, fits, reserved, range, served, unwaiting, settled, sound, kept⟩
    change powered s (fun p => p.serve (.call n k d) 0x7102 c.params (Part.appDataRow 0x7102)) = _
    rw [powered_on on, serve_head found head free, appDataRow_reaches reached (fun _ => journals), if_neg (by decide)]
  · have reads := readRandom_reached (p := s.toPart) hk ⟨running, awake⟩ grant
    refine ⟨fun serves => ?_, fun stopped => ?_⟩
    · rw [if_pos serves] at reads
      exact ⟨_, onCore_act on there hk reads, core_updCore_same s.toPart n k (fun c => { c with lastRandom := BitVec.ofNat 32 (be (s.drawn 4)) }), rfl,
        (((within_updCore s.toPart n k _).mono (l := [.seats, .counts, .trngs])).next (within_drbgTakes _ n 4)).units.keeps (by decide)⟩
    · rw [if_neg (Bool.eq_false_iff.1 stopped)] at reads
      exact ⟨_, onCore_act on there hk reads, core_updCore_same s.toPart n k (fun c => { c with stalledAt := some s.now }), rfl,
        (within_updCore s.toPart n k _).units.keeps (by decide)⟩
  · have ends := randomTimeout_ends (p := s.toPart) stalled stopped
    obtain ⟨rises, idle⟩ := endInstance_host (p := s.atTime (t0 + usec 20)) (st := Status.abortedScrubbed) (b := []) (cause := 0) invoked alone
      serving found host kept s
    have act := (within_endInstance (s.atTime (t0 + usec 20)) n k (some Status.abortedScrubbed) [] 0).next (within_sweepDraining _ n)
    exact ⟨_, onCore_act on there hk ends, due_timed act, (congrArg Core.run (core_sweepDraining _ n n k)).trans idle,
      rising_of_findCmd ((sweepDraining_leaves _ n).1 u) rises, keeps_timed act (by decide)⟩
  · obtain ⟨q, ends, left⟩ := violated_ends (addr := addr.toNat) invoked alone serving found host kept (ne_zero_of_hasSeat there) pc.toNat
    rw [BitVec.ofNat_toNat, BitVec.setWidth_eq] at left
    obtain ⟨idle, rises, last, count⟩ := left
    have act := ((within_violated s.toPart n k addr.toNat pc.toNat).mono (l := .seats :: stopUnits)).next
      (within_endInstance _ n k (some Status.accessFault) [] 0)
    rw [ends] at act
    exact ⟨_, (slotGuardViolation_next on there hk running refused clear).trans (by rw [ends]), idle, rises, last, count, act.units.keeps (by decide)⟩
  · have sram := sram_touch (s.writeSram n k addr.toNat d) n k addr.toNat d.length
    refine ⟨_, slotGuardStoreDrain_next on there hk running some_ clear allowed, ?_, fun a outside => ?_,
      ((within_writeSram s.toPart n k _ d).next (within_touch _ n k _ _)).units.keeps (by decide)⟩
    · exact (congrArg (fun m => Memory.readBytes m (sramBase n k + addr.toNat) d.length) sram).trans (Memory.readBytes_writeBytes _ _ _)
    · exact (congrArg (fun m => Memory.read m a) sram).trans (Memory.read_writeBytes_outside _ _ _ _ outside)

end Sys2Proof.AppletServices

/-! ## The Joker port and boundary scan (10 R289 to R295) -/

namespace Sys2Proof.JokerPort

open Sys2Proof.Machine Sys2Proof.Safety Sys2Proof.Laws Sys2Proof.Architecture Sys2Proof.DealRows Sys2Proof.HostTransport Sys2Proof.Dispatching
  Sys2Proof.KeyVault Sys2Proof.Tricks Sys2Proof.CipherLanes Sys2Proof.Scope Sys2Proof.Applets

/-! ### The TAP's instruction (R289, R290) -/

section
variable (p : Part)

theorem within_setJoker (x : Joker) : Within [.joker] p (p.setJoker x) := ⟨fun u hu => by cases u <;> simp [Unit_.Same, after] at hu ⊢, rfl⟩

theorem within_startCard (port : Nat) : Within [.cers] p (p.startCard port) := by
  unfold Part.startCard
  dsimp only
  split
  · split
    · exact ((within_draw p 2).mono (l := [.cers])).next (within_updCer _ port _)
    · exact .refl
  · exact .refl

/-- While EXTEST is selected no card is activated (R290). -/
theorem startCard_extesting (port : Nat) (extesting : p.extesting = true) : p.startCard port = p := by
  unfold Part.startCard
  dsimp only
  split
  · exact if_neg fun ⟨_, _, _, out⟩ => by simp [extesting] at out
  · rfl

variable (ir : Byte) (dr : Nat)

theorem within_setIr : Within [.joker, .cers] p (p.setIr ir dr) :=
  have selected := (within_setJoker p { p.joker with ir := ir, dr := BitVec.ofNat 128 dr }).mono (l := [.joker, .cers])
  .ite ((selected.next (within_startCard _ 0)).next (within_startCard _ 1)) selected

theorem joker_setIr : (p.setIr ir dr).joker = { p.joker with ir := ir, dr := BitVec.ofNat 128 dr } := by
  have started := fun q : Part => ((within_startCard q 0).next (within_startCard _ 1)).units .joker (by decide)
  unfold Part.setIr
  dsimp only
  split
  · exact started _
  · rfl

/-- The selection of EXTEST leaves the ceremony ports. -/
theorem cers_extest : (p.setIr 0 dr).cera = p.cera ∧ (p.setIr 0 dr).cerb = p.cerb := by
  unfold Part.setIr
  dsimp only
  split
  · rw [startCard_extesting _ 0 rfl, startCard_extesting _ 1 rfl]
    exact ⟨rfl, rfl⟩
  · exact ⟨rfl, rfl⟩

end

/-! ### Tokens (R291, R292) -/

/-- JKR_STATUS shows an outcome. -/
def shown (p : Part) (code : BitVec 16) (reason : Byte) : Part := p.setJoker { p.joker with code := code, reason := reason }

theorem within_newChallenge (p : Part) : Within [.joker, .counts, .trngs] p p.newChallenge :=
  ((within_setJoker p _).mono (l := [.joker, .counts, .trngs])).next (within_drbgTakes _ 0 32)

/-- JKR_STATUS shows a token's outcome, which is counted, and the challenge is fresh. -/
def tokenAnswered (p : Part) (code : BitVec 16) (reason : Byte) (off : Nat) : Part := ((shown p code reason).bump (regAddr 0 winJKR off)).newChallenge

section
variable (p : Part) (code : BitVec 16) (reason : Byte) (off : Nat)

theorem within_tokenAnswered : Within [.joker, .counts, .trngs] p (tokenAnswered p code reason off) :=
  (((within_setJoker p _).mono (l := [.joker, .counts, .trngs])).next (within_bump (shown p code reason) _ _)).next (within_newChallenge _)

theorem joker_tokenAnswered : (tokenAnswered p code reason off).joker = { p.joker with code := code, reason := reason, chal := p.drawn 32 } := rfl

variable {p} {b : Bytes} (selected : p.joker.ir = 0x10)
include selected

theorem jokerAuth_refuses {r : Nat} (refused : p.tokenFault b = some r) :
    p.jokerAuth b = tokenAnswered p jokerInvalid (BitVec.ofNat 8 r) 0x0108 := by
  have same : p.setJoker { p.joker with ir := 0x10 } = p := by
    rw [← selected]
    rfl
  unfold Part.jokerAuth
  simp only [same, refused]
  rfl

theorem jokerAuth_opens {k : Token} (accepted : p.tokenFault b = none) (parsed : parseToken b = some k) :
    p.jokerAuth b = (tokenAnswered p Status.done 0 0x0100).openJoker k := by
  have same : p.setJoker { p.joker with ir := 0x10 } = p := by
    rw [← selected]
    rfl
  unfold Part.jokerAuth
  simp only [same, accepted, parsed]
  rfl

end

theorem openJoker_scan {p : Part} {k : Token} (scope : k.scope = 1 ∨ k.scope = 2) : p.openJoker k = p.setJoker
    { p.joker with scope := BitVec.ofNat 3 k.scope, hand := BitVec.ofNat 8 k.hand, seats := k.seats, expiry := k.expiry } := by
  unfold Part.openJoker
  dsimp only
  rw [if_neg (by omega), if_neg (by omega)]

/-! ### Accesses of a debug master (R289, R295) -/

section
variable {p : Part} {t : DebugTarget} {write : Bool} {data : Word}

theorem joker_shiftAccess (p : Part) (a : Nat) (v : Word) : (p.shiftAccess a v).joker = { p.joker with
    ir := 0x11, dr := BitVec.ofNat 128 (a % 2 ^ 32 * 2 ^ 64 + v.toNat * 2 ^ 32 + p.joker.code.toNat * 65536 + p.joker.reason.toNat) } :=
  joker_setIr p _ _

theorem within_shiftAccess (p : Part) (a : Nat) (v : Word) : Within [.joker, .cers] p (p.shiftAccess a v) := within_setIr p _ _

/-- What an access that is performed shifts out: its address and its data, with DONE. -/
theorem joker_performed (p : Part) (a : Nat) (v : Word) : ((shown p Status.done 0).shiftAccess a v).joker =
    { p.joker with code := Status.done, reason := 0, ir := 0x11, dr := BitVec.ofNat 128 (a % 2 ^ 32 * 2 ^ 64 + v.toNat * 2 ^ 32) } := by
  have status : (shown p Status.done 0).joker = { p.joker with code := Status.done, reason := 0 } := rfl
  rw [joker_shiftAccess, status]
  simp [Status.done]

/-- Beside what it does, an access that is performed shifts out its outcome. -/
theorem within_performed {l : List Unit_} {q : Part} (act : Within l p q) (a : Nat) (v : Word) :
    Within (l ++ [.joker, .cers]) p ((shown q Status.done 0).shiftAccess a v) :=
  ((act.mono (List.subset_append_left _ _)).next (within_setJoker q _) (by simp)).next (within_shiftAccess _ a v) (List.subset_append_right _ _)

/-- An access out of scope is counted and recorded. -/
def denied (p : Part) (t : DebugTarget) : Part :=
  ((shown p Status.debugDenied 0).bump (regAddr 0 winJKR 0x0110)).record 0x0E10 3 0 (BitVec.ofNat 32 (p.joker.scope.toNat * 2 ^ 24))
    (BitVec.ofNat 32 (Part.debugAddr t)) 0

theorem noted_denied (p : Part) (t : DebugTarget) : Noted ((shown p Status.debugDenied 0).bump (regAddr 0 winJKR 0x0110)) (denied p t) :=
  record_noted _ _ _ _ _ _ _

theorem within_denied (p : Part) (t : DebugTarget) : Within [.joker, .counts, .evr, .part, .xct, .seats] p (denied p t) :=
  (((within_setJoker p _).mono (l := [.joker, .counts, .evr, .part, .xct, .seats])).next (within_bump (shown p Status.debugDenied 0) _ _)).next
    (.of_noted (noted_denied p t))

theorem debugAccess_denies (refused : p.debugAllowed t write = false) : p.debugAccess t write data = (denied p t).shiftAccess (Part.debugAddr t) 0 :=
  if_neg (Bool.eq_false_iff.1 refused)

theorem debugAccess_acts (allowed : p.debugAllowed t write = true) : p.debugAccess t write data =
    (shown (p.debugDo t write data).1 Status.done 0).shiftAccess (Part.debugAddr t) (p.debugDo t write data).2 := if_pos allowed

end

/-- A register read changes a latch at most, and no unit. -/
theorem within_readReg (p : Part) (addr : Nat) : Within [] p (p.readReg addr).1 := by
  rw [readReg_frame]
  exact ⟨fun u _ => by cases u <;> simp [Unit_.Same, after], rfl⟩

/-- A running core halts. -/
def halted (p : Part) (n k : Nat) : Part := p.updCore n k (fun c => { c with run := .halted, regs := [] })

theorem debugDo_halts {p : Part} {n k : Nat} (running : (p.core n k).run = .running) (write : Bool) (data : Word) :
    p.debugDo (.halt n k) write data = (halted p n k, 0) := congrArg (·, 0) (if_pos (.inl running))

/-! ### A session closes (R292 to R294) -/

/-- No session is open. -/
def shut (p : Part) : Part := p.setJoker { p.joker with scope := 0, hand := 0, seats := 0, expiry := 0, next := none }

section
variable (p : Part)

theorem within_unhalt (n k : Nat) : Within [.seats] p (p.unhalt n k) := .ite (within_setCore p n k _) .refl

theorem within_returnSeat (n : Nat) : Within [.seats] p (p.returnSeat n) := by
  unfold Part.returnSeat
  extract_lets unhalted
  have unhalts : Within [.seats] p unhalted := .foldl (fun p k => within_unhalt p n k) _ p
  exact .ite (unhalts.next (within_seats _ _)) unhalts

/-- The Seats of a mask have come back from debug. -/
def returned (m : Byte) : Part := (p.maskedSeats m).foldl (fun p n => p.returnSeat n) p

theorem within_returned (m : Byte) : Within [.seats] p (returned p m) := .foldl (fun p n => within_returnSeat p n) _ p

variable {p}

theorem closeJoker_shut (open_ : p.joker.scope ≠ 0) (seats : p.joker.scope ≠ 3) (hand : p.joker.scope ≠ 4) (torn : p.joker.scope ≠ 5) :
    p.closeJoker = shut p := by
  unfold Part.closeJoker
  dsimp only
  rw [if_neg open_, if_neg seats, if_neg hand, if_neg torn]
  rfl

theorem closeJoker_returns (seats : p.joker.scope = 3) : p.closeJoker = (shut (returned p p.joker.seats)).relevel := by
  unfold Part.closeJoker
  dsimp only
  rw [if_neg (by rw [seats]; decide), if_pos seats]
  rfl

theorem closeJoker_zeroizes (hand : p.joker.scope = 4) : ∃ q : Part, p.closeJoker =
    q.zeroizeHand p.joker.hand.toNat ∧ q.joker.scope = 5 ∧ q.joker.next = none := by
  unfold Part.closeJoker
  dsimp only
  rw [if_neg (by rw [hand]; decide), if_neg (by rw [hand]; decide), if_pos hand]
  exact ⟨_, rfl, rfl, rfl⟩

/-- A session that zeroizes no hand closes: no session is open, and the TAP's instruction stays. -/
theorem closeJoker_closes (keeps : p.joker.scope ≠ 4) (untorn : p.joker.scope ≠ 5) :
    p.closeJoker.joker.scope = 0 ∧ p.closeJoker.joker.ir = p.joker.ir ∧ Within (.joker :: levelUnits) p p.closeJoker := by
  by_cases closed : p.joker.scope = 0
  · have same : p.closeJoker = p := if_pos closed
    rw [same]
    exact ⟨closed, rfl, .refl⟩
  by_cases seats : p.joker.scope = 3
  · have joker : (returned p p.joker.seats).joker = p.joker := (within_returned p _).units .joker (by decide)
    have level : (shut (returned p p.joker.seats)).relevel.joker = (shut (returned p p.joker.seats)).joker :=
      (within_relevel _).units .joker (by decide)
    have ir : (shut (returned p p.joker.seats)).joker.ir = p.joker.ir := (congrArg Joker.ir joker :)
    rw [closeJoker_returns seats, level]
    exact ⟨rfl, ir, (((within_returned p _).mono (l := .joker :: levelUnits)).next (within_setJoker _ _)).next (within_relevel _)⟩
  · rw [closeJoker_shut closed seats keeps untorn]
    exact ⟨rfl, rfl, (within_setJoker p _).mono⟩

end

/-! ### EXTEST takes the cards off (R289, R290, R394) -/

/-- Of the two ceremony ports, 0 and another number, m is not the one. -/
def OtherPort (port m : Nat) : Prop := m = 0 ↔ port ≠ 0

/-- The card of a port is off, and the other port is as it was. -/
structure CardOff (port : Nat) (p q : Part) : Prop where
  units : Within cerUnits p q
  off : (q.cerPort port).active = false
  other : ∀ m, OtherPort port m → q.cerPort m = p.cerPort m

theorem cerPort_of_within {l : List Unit_} {p q : Part} (act : Within l p q) (apart : Unit_.cers ∉ l) (m : Nat) : q.cerPort m = p.cerPort m := by
  obtain ⟨a, b⟩ : q.cera = p.cera ∧ q.cerb = p.cerb := act.units .cers apart
  rw [Part.cerPort, a, b]
  rfl

section
variable (p : Part) (port : Nat)

theorem cerPort_updCer_same (f : CerPort → CerPort) : (p.updCer port f).cerPort port = f (p.cerPort port) := by
  unfold Part.updCer Part.setCer
  split
  · next zero => rw [Part.cerPort, if_pos zero]
  · next other => rw [Part.cerPort, if_neg other]

theorem cerPort_updCer_other (f : CerPort → CerPort) {m : Nat} (other : OtherPort port m) : (p.updCer port f).cerPort m = p.cerPort m := by
  unfold Part.updCer Part.setCer
  split
  · next zero =>
    have second : m ≠ 0 := fun h => other.1 h zero
    exact (if_neg second).trans (if_neg second).symm
  · next second =>
    have first : m = 0 := other.2 second
    exact (if_pos first).trans (if_pos first).symm

theorem deactivate_off : CardOff port p (p.deactivate port) :=
  ⟨(within_deactivate p port).mono, congrArg CerPort.active (cerPort_updCer_same p port _), fun _ => cerPort_updCer_other p port _⟩

end

namespace CardOff

variable {port : Nat} {p q r : Part}

theorem before (h : CardOff port q r) (act : Within cerUnits p q) (same : ∀ m, OtherPort port m → q.cerPort m = p.cerPort m) : CardOff port p r :=
  ⟨act.next h.units, h.off, fun m other => (h.other m other).trans (same m other)⟩

theorem next (h : CardOff port p q) {l : List Unit_} (act : Within l q r) (apart : Unit_.cers ∉ l := by decide)
    (sub : l ⊆ cerUnits := by decide) : CardOff port p r :=
  ⟨h.units.next act sub, (congrArg CerPort.active (cerPort_of_within act apart port)).trans h.off,
    fun m other => (cerPort_of_within act apart m).trans (h.other m other)⟩

theorem updCer (h : CardOff port (p.updCer port f) r) : CardOff port p r :=
  h.before (within_updCer p port f).mono (fun _ => cerPort_updCer_other p port f)

end CardOff

section
variable {p : Part} {port : Nat} {x : CardStep} (running : (p.cerPort port).step = some x)
include running

theorem endStep_off (st : BitVec 16) (b : Bytes) : CardOff port p (p.endStep port st b) := by
  unfold Part.endStep
  simp only [running]
  have ended {q : Part} (act : Within [.counts] p q) :
      CardOff port p (((q.updCer port (fun c => { c with step := none })).deactivate port).answer x.uid st b) :=
    ((deactivate_off _ port).updCer.before act.mono (fun m _ => cerPort_of_within act (by decide) m)).next (within_answer _ _ _ _)
  exact ended (.ite ((Within.ite (within_bump p _ _) .refl).next (within_bump _ _ _)) (.ite (within_bump p _ _) .refl))

theorem voidCeremony_off : CardOff port p (p.voidCeremony port) := by
  have ended := endStep_off running CerStatus.void []
  unfold Part.voidCeremony
  dsimp only
  split
  · exact ended
  · exact ((deactivate_off _ port).updCer.before ended.units ended.other).next (within_cerEvent _ _ _ _ _ _ _)

theorem finishStep_off (st : BitVec 16) (b : Bytes) : CardOff port p (p.finishStep port st b) := by
  unfold Part.finishStep
  split
  · split
    · exact voidCeremony_off running
    · exact endStep_off running st b
  · exact endStep_off running st b

end

/-- A card that goes is off. -/
theorem cardGone_off (p : Part) (port : Nat) : CardOff port p (p.cardGone port) := by
  unfold Part.cardGone
  split
  · next x running =>
    split
    · have noted := within_cerEvent p port 0x0A12 3 (x.index.getD 0xFF) x.counter.toNat 0xFFFFFFFF
      have kept := cerPort_of_within noted (by decide)
      refine CardOff.before (CardOff.updCer (finishStep_off (x := x) ?_ _ _)) noted.mono (fun m _ => kept m)
      exact (congrArg CerPort.step (cerPort_updCer_same _ port _)).trans ((congrArg CerPort.step (kept port)).trans running)
    · split
      · exact deactivate_off p port
      · exact finishStep_off running _ _
  · exact deactivate_off p port

/-- What EXTEST does first with a port: its step ends as for a removed card, and its card is off. -/
def cardOut (p : Part) (port : Nat) : Part :=
  match (p.cerPort port).step with
  | some st => if st.stage = .awaiting then p.finishStep port Status.cardRemoved else p.cardGone port
  | none => p.deactivate port

theorem cardOut_off (p : Part) (port : Nat) : CardOff port p (cardOut p port) := by
  unfold cardOut
  split
  · next x running =>
    split
    · exact finishStep_off running _ _
    · exact cardGone_off p port
  · exact deactivate_off p port

/-! ### The cells that SAMPLE_PRELOAD samples (R289, R290, 18 R441) -/

section
variable (p : Part) (port free : Nat)

theorem portCells_lt : p.portCells port free < 2 ^ 12 := by
  have masked : free &&& 0b101001111111 ≤ 0b101001111111 := Nat.and_le_right
  unfold Part.portCells
  dsimp only
  split <;> split <;> split <;> omega

/-- Cell 7, PRES_N, is low for a card that is present. -/
theorem portCells_present : p.portCells port free / 2 ^ 7 % 2 = if (p.cerPort port).present then 0 else 1 := by
  have clear : (free &&& 0b101001111111) / 2 ^ 7 % 2 = 0 := by
    have bit : (free &&& 0b101001111111).testBit 7 = false := by
      rw [Nat.testBit_and, (by decide : Nat.testBit 0b101001111111 7 = false), Bool.and_false]
    simpa [Nat.testBit_eq_decide_div_mod_eq] using bit
  unfold Part.portCells
  dsimp only
  split <;> split <;> split <;> omega

/-- The 24 cells as they are sampled. -/
def sampledCells : Nat :=
  let b := (p.drawn 4).map (·.toNat)
  p.portCells 0 (b.getD 0 0 * 256 + b.getD 1 0) + 2 ^ 12 * p.portCells 1 (b.getD 2 0 * 256 + b.getD 3 0)

theorem sampledCells_present : sampledCells p / 2 ^ 7 % 2 = (if p.cera.present then 0 else 1) ∧
    sampledCells p / 2 ^ 19 % 2 = if p.cerb.present then 0 else 1 := by
  unfold sampledCells
  extract_lets b
  have first : _ = if p.cera.present then 0 else 1 := portCells_present p 0 (b.getD 0 0 * 256 + b.getD 1 0)
  have second : _ = if p.cerb.present then 0 else 1 := portCells_present p 1 (b.getD 2 0 * 256 + b.getD 3 0)
  have low := portCells_lt p 0 (b.getD 0 0 * 256 + b.getD 1 0)
  exact ⟨by rw [← first]; omega, by rw [← second]; omega⟩

end

theorem getLsbD_ofNat_of_div {w n i : Nat} (inside : i < w) (b : Bool) (bit : n / 2 ^ i % 2 = if b then 0 else 1) :
    (BitVec.ofNat w n).getLsbD i = !b := by
  rw [BitVec.getLsbD_ofNat, Nat.testBit_eq_decide_div_mod_eq, bit]
  cases b <;> simp [inside]

/-! ### The rows -/

section
variable {s : State} {q : Part} (on : s.power.on = true)
include on

/-- JOKER_ACCESS with a session open. -/
theorem jokerAccess_next {t : DebugTarget} {write : Bool} {data : Word} (open_ : s.joker.scope ≠ 0) (untorn : s.joker.scope ≠ 5)
    (act : s.debugAccess t write data = q) : exec (.jokerAccess t write data) s = .next (after s q) := by
  change powered s (fun p => if p.joker.scope = 0 ∨ p.joker.scope = 5 then p.bypass else p.debugAccess t write data) = _
  rw [powered_on on, if_neg (not_or.2 ⟨open_, untorn⟩), act]

/-- JOKER_AUTH in Dealt and Tamper, of a part whose start has not failed. -/
theorem jokerAuth_next {b : Bytes} (life : s.power.life = 1 ∨ s.power.life = 2) (stage : s.power.stage ≠ 8)
    (act : (s.setIr 0x10 0).jokerAuth b = q) : exec (.jokerAuth b) s = .next (after s q) := by
  change powered s (fun p => if (p.power.life = 1 ∨ p.power.life = 2) ∧ p.power.stage ≠ 8 then (p.setIr 0x10 0).jokerAuth b else p.bypass) = _
  rw [powered_on on, if_pos ⟨life, stage⟩, act]

/-- JOKER_CLOSE with a session open. -/
theorem jokerClose_next (open_ : s.joker.scope ≠ 0) (act : (s.setIr 0x12 0).closeJoker = q) : exec .jokerClose s = .next (after s q) := by
  change powered s (fun p => if p.joker.scope = 0 then p.bypass else (p.setIr 0x12 0).closeJoker) = _
  rw [powered_on on, if_neg open_, act]

/-- JOKER_EXPIRY of a session with an end. -/
theorem jokerExpiry_next (open_ : s.joker.scope ≠ 0) (expires : s.joker.expiry ≠ 0) (act : (s.untilOptime s.joker.expiry).closeJoker = q) :
    exec .jokerExpiry s = .next (after s q) := by
  change powered s (fun p => if p.joker.scope = 0 ∨ p.joker.expiry = 0 then p else (p.untilOptime p.joker.expiry).closeJoker) = _
  rw [powered_on on, if_neg (not_or.2 ⟨open_, expires⟩), act]

/-- TRST_N low. -/
theorem trstNLow_next : exec .trstNLow s = .next (after s (s.setIr 0x01 0).closeJoker) := powered_on on (fun p => (p.setIr 0x01 0).closeJoker)

/-- IDCODE of an XF2408. -/
theorem idcode_next (variant : s.fuses.variant = .xf2408) :
    exec .idcode s = .next (after s (s.setIr 0x01 (s.fuses.sirev.toNat % 16 * 2 ^ 28 + 0x024085A7))) := by
  change execIdcode s = _
  unfold execIdcode
  rw [powered_on on]
  simp only [variant, Nat.add_assoc]
  rfl

/-- SAMPLE_PRELOAD. -/
theorem samplePreload_next : exec .samplePreload s = .next (after s ((s.draw 4).setIr 0x02 (sampledCells s.toPart))) :=
  powered_on on (fun p => (p.draw 4).setIr 0x02 (sampledCells p))

/-- EXTEST in Blank or under a boundary token, of a part whose start has not failed. -/
theorem extest_next (scope : s.power.life = 0 ∨ s.joker.scope = 1) (stage : s.power.stage ≠ 8) :
    exec .extest s = .next (after s ((cardOut (cardOut s.toPart 0) 1).setIr 0 0)) := by
  change powered s (fun p => if (p.power.life = 0 ∨ p.joker.scope = 1) ∧ p.power.stage ≠ 8 then (cardOut (cardOut p 0) 1).setIr 0 0 else p.bypass) = _
  rw [powered_on on, if_pos ⟨scope, stage⟩]

end

/-- The session of a boundary or a register token closes at once. -/
theorem closeJoker_scan {p : Part} (scope : p.joker.scope = 1 ∨ p.joker.scope = 2) : p.closeJoker = shut p := by
  obtain one | two := scope
  · exact closeJoker_shut (by rw [one]; decide) (by rw [one]; decide) (by rw [one]; decide) (by rw [one]; decide)
  · exact closeJoker_shut (by rw [two]; decide) (by rw [two]; decide) (by rw [two]; decide) (by rw [two]; decide)

/-- Settles O38: what the Joker port's rows answer and leave. -/
theorem jokerRowsAct : Obligations.JokerRowsAct := by
  refine ⟨fun s b r on life stage refused => ?_, fun s b k on life stage accepted parsed => ?_, fun s t write data on open_ untorn refused => ?_,
    fun s a data on open_ untorn allowed => ?_, fun s n k write data on open_ untorn allowed running => ?_, fun s on scope => ?_, fun s on scope => ?_,
    fun s on scope expires => ?_, fun s on keeps untorn => ?_, fun s on scope stage => ?_, fun s on => ?_, fun s on variant => ?_, fun s on => ?_⟩
  · have selected := joker_setIr s.toPart 0x10 0
    have refuses := jokerAuth_refuses (congrArg Joker.ir selected) refused
    refine ⟨_, jokerAuth_next on life stage refuses, ?_, ?_⟩
    · refine (joker_tokenAnswered _ _ _ _).trans ?_
      rw [selected]
      rfl
    · exact (((within_setIr s.toPart 0x10 0).mono (l := [.joker, .cers, .counts, .trngs])).next (within_tokenAnswered _ _ _ _)).units.keeps (by decide)
  · have selected := joker_setIr s.toPart 0x10 0
    have opens := jokerAuth_opens (congrArg Joker.ir selected) accepted parsed
    refine ⟨_, jokerAuth_next on life stage opens, ?_, ?_, openJoker_scan⟩
    · refine (joker_tokenAnswered _ _ _ _).trans ?_
      rw [selected]
      rfl
    · exact (((within_setIr s.toPart 0x10 0).mono (l := [.joker, .cers, .counts, .trngs])).next (within_tokenAnswered _ _ _ _)).units.keeps (by decide)
  · have joker : (denied s.toPart t).joker = { s.joker with code := Status.debugDenied, reason := 0 } := (noted_denied s.toPart t).joker
    refine ⟨_, jokerAccess_next on open_ untorn (debugAccess_denies refused), ?_, ?_⟩
    · refine (joker_shiftAccess _ _ _).trans ?_
      rw [joker]
      simp
    · exact (((within_denied s.toPart t).mono (l := [.joker, .cers, .counts, .evr, .part, .xct, .seats])).next (within_shiftAccess _ _ _)).units.keeps
        (by decide)
  · have joker := joker_performed (s.readReg a.toNat).1 a.toNat (s.readReg a.toNat).2
    refine ⟨_, jokerAccess_next on open_ untorn (debugAccess_acts allowed), ?_, ?_, ?_, ?_⟩
    · exact congrArg Joker.code joker
    · exact congrArg Joker.ir joker
    · exact congrArg Joker.dr joker
    · exact (within_performed (within_readReg s.toPart a.toNat) _ _).units.keeps (by decide)
  · have halts := debugAccess_acts (data := data) allowed
    rw [debugDo_halts running] at halts
    have act := within_shiftAccess (shown (halted s.toPart n k) Status.done 0) k 0
    refine ⟨_, jokerAccess_next on open_ untorn halts, ?_, ?_⟩
    · exact (core_of_cores (congrArg SeatsUnit.cores (act.units.seats (by decide))) n k).trans
        (core_updCore_same s.toPart n k (fun c => { c with run := .halted, regs := [] }))
    · exact (within_performed (within_updCore s.toPart n k _) k 0).units.keeps (by decide)
  · have joker := joker_setIr s.toPart 0x12 0
    have shuts := closeJoker_scan (p := s.setIr 0x12 0) (by rw [joker]; exact scope)
    have open_ : s.joker.scope ≠ 0 := fun closed => by simp [closed] at scope
    refine ⟨_, jokerClose_next on open_ shuts, ?_, ?_⟩
    · change ({ (s.setIr 0x12 0).joker with scope := 0, hand := 0, seats := 0, expiry := 0, next := none } : Joker) = _
      rw [joker]
      rfl
    · exact ((within_setIr s.toPart 0x12 0).next (within_setJoker _ _)).units.keeps (by decide)
  · have joker := joker_setIr s.toPart 0x12 0
    obtain ⟨q, zeroizes, torn, next⟩ := closeJoker_zeroizes (p := s.setIr 0x12 0) (by rw [joker]; exact scope)
    rw [joker] at zeroizes
    exact ⟨q, jokerClose_next on (by rw [scope]; decide) zeroizes, torn, next⟩
  · have open_ : s.joker.scope ≠ 0 := fun closed => by simp [closed] at scope
    exact ⟨_, jokerExpiry_next on open_ expires (closeJoker_scan scope), rfl, rfl,
      keeps_timed (within_setJoker _ _) (by decide)⟩
  · have joker := joker_setIr s.toPart 1 0
    obtain ⟨closed, ir, act⟩ := closeJoker_closes (p := s.setIr 1 0) (by rw [joker]; exact keeps) (by rw [joker]; exact untorn)
    exact ⟨_, trstNLow_next on, ir.trans (congrArg Joker.ir joker), closed,
      (((within_setIr s.toPart 1 0).mono (l := .cers :: .joker :: levelUnits)).next act).units.keeps (by decide)⟩
  · have first := cardOut_off s.toPart 0
    have second := cardOut_off (cardOut s.toPart 0) 1
    obtain ⟨a, b⟩ := cers_extest (cardOut (cardOut s.toPart 0) 1) 0
    refine ⟨_, extest_next on scope stage, ?_, ?_, ?_, ?_⟩
    · exact congrArg Joker.ir (joker_setIr _ 0 0)
    · exact (congrArg CerPort.active (a.trans (second.other 0 (by simp [OtherPort])))).trans first.off
    · exact (congrArg CerPort.active b).trans second.off
    · exact (((first.units.mono (l := .joker :: cerUnits)).next second.units).next (within_setIr _ 0 0)).units.keeps (by decide)
  · exact ⟨_, powered_on on _, joker_setIr s.toPart 0xFF 0, (within_setIr s.toPart 0xFF 0).units.keeps (by decide)⟩
  · refine ⟨_, idcode_next on variant, joker_setIr s.toPart 1 _, (within_setIr s.toPart 1 _).units.keeps (by decide)⟩
  · have joker := joker_setIr (s.draw 4) 2 (sampledCells s.toPart)
    refine ⟨_, samplePreload_next on, congrArg Joker.ir joker, ?_, ?_, (congrArg Joker.scope joker :), ?_⟩
    · exact (congrArg (fun j : Joker => j.dr.getLsbD 7) joker).trans (getLsbD_ofNat_of_div (by decide) _ (sampledCells_present s.toPart).1)
    · exact (congrArg (fun j : Joker => j.dr.getLsbD 19) joker).trans (getLsbD_ofNat_of_div (by decide) _ (sampledCells_present s.toPart).2)
    · exact (((within_draw s.toPart 4).mono (l := [.joker, .cers])).next (within_setIr _ 2 _)).units.keeps (by decide)

end Sys2Proof.JokerPort

/-! ## The guard's responses and its rows (12 R325 to R345) -/

namespace Sys2Proof.GuardRows

/- The proofs are checked one after the other: side by side, those of the whole text need more stacks than the check's memory holds. -/
set_option Elab.async false

open Sys2Proof.Machine Sys2Proof.Safety Sys2Proof.Laws Sys2Proof.Architecture Sys2Proof.DealRows Sys2Proof.HostTransport Sys2Proof.Dispatching

/-! ### Frames of the responses (R331, R335, R338) -/

section
variable (p : Part)

theorem within_guard (g : GuardUnit) : Within [.guard] p { p with guard := g } :=
  ⟨fun u hu => by cases u <;> simp [Unit_.Same, after] at hu ⊢, rfl⟩

theorem within_setGuard (g : GuardUnit) : Within [.guard] p (p.setGuard g) := within_guard p g

theorem within_updSeat (n : Nat) (f : Seat → Seat) : Within [.seats] p (p.updSeat n f) := within_seats p _

theorem within_record (code : BitVec 16) (sev die : Nat) (x y z : Word) :
    Within [.evr, .counts, .part, .xct, .seats] p (p.record code sev die x y z) := .of_noted (record_noted p code sev die x y z)

theorem within_guardEvent (code : BitVec 16) (sev die cls wsev index p2 p3 : Nat) :
    Within [.evr, .counts, .part, .xct, .seats] p (p.guardEvent code sev die cls wsev index p2 p3) := within_event p _ _ _ _ _ _ _ _

theorem within_redeal (n : Nat) (c : Cmd) : Within stopUnits p (p.redeal n c) :=
  ((Within.refl.next (within_updCmd p _ _)).next (within_bump _ _ _)).next (within_event _ _ _ _ _ _ _ _ _)

theorem within_loseSeat (n : Nat) (st : BitVec 16) : Within stopUnits p (p.loseSeat n st) := by
  unfold Part.loseSeat
  refine ((Within.foldl (fun p c => ?_) _ p).next (within_releaseClaim _ _ _)).next (within_updDgst _ _ _ _)
  refine .ite (within_redeal p n c) ?_
  split
  · exact (within_updCmd p _ _).mono
  · exact within_stopCommand p _ _ _

theorem now_wipeCache (sel : CacheEntry → Bool) : (p.wipeCache sel).now = p.now :=
  KeyVault.foldl_same (read := Part.now) (f := fun p (c : CacheEntry) => p.bump (regAddr c.seat swinKCACHE 0x0110)) (fun _ _ => rfl) _ _

theorem within_wipeCache (sel : CacheEntry → Bool) : Within [.seats, .counts] p (p.wipeCache sel) :=
  ⟨KeyVault.changes_wipeCache p sel, now_wipeCache p sel⟩

theorem within_emptyEngines (n : Nat) : Within [.seats] p (p.emptyEngines n) := within_seats p _

theorem within_dropConfirm (n : Nat) : Within (.vault :: answerUnits) p (p.dropConfirm n) := by
  unfold Part.dropConfirm
  extract_lets ms due _ dropped
  have dropped : Within (.vault :: answerUnits) p dropped := (within_vault p _).mono
  refine dropped.next (l := .vault :: answerUnits) (m := answerUnits) (.foldl (fun p m => ?_) _ _)
  split
  · exact within_answer p _ _ _
  · exact .refl

theorem within_voidSeatCeremonies (n : Nat) : Within cerUnits p (p.voidSeatCeremonies n) := by
  unfold Part.voidSeatCeremonies
  refine .foldl (fun p port => ?_) _ p
  extract_lets voided
  have voided : Within cerUnits p voided := by
    unfold voided
    split
    · exact .ite (within_voidCeremony p port) .refl
    · exact .refl
  split
  · exact .ite (voided.next (within_lapseAuth _ port)) voided
  · exact voided

/-- The units that a Hold or a Shed of a Seat may change. -/
abbrev shedUnits : List Unit_ := .cers :: stopUnits

theorem within_holdSeat (n cls sev index : Nat) : Within stopUnits p (p.holdSeat n cls sev index) :=
  ((((Within.refl.next (within_updSeat p n _)).next (within_bump _ _ _)).next (within_guardEvent _ _ _ _ _ _ _ _ _)).next
    (within_loseSeat _ _ _)).next (within_relevel _)

theorem within_holdDealer (cls sev index : Nat) : Within (.guard :: answerUnits) p (p.holdDealer cls sev index) :=
  (((Within.refl.next (within_setGuard p _)).next (within_bump _ _ _)).next (within_guardEvent _ _ _ _ _ _ _ _ _)).next
    (.foldl (fun p _ => within_answer p _ _ _) _ _)

theorem within_shedSeat (n : Nat) (thermal : Bool) (cls sev index : Nat) : Within shedUnits p (p.shedSeat n thermal cls sev index) := by
  unfold Part.shedSeat
  extract_lets old sheds shed noted wiped emptied clear left
  have shed : Within shedUnits p shed := (within_updSeat p n _).mono
  have noted : Within shedUnits p noted := (shed.next (within_bump _ _ _)).next (within_guardEvent _ _ _ _ _ _ _ _ _)
  have wiped : Within shedUnits p wiped :=
    ((noted.next (within_loseSeat _ _ _)).next (within_voidSeatCeremonies _ _)).next (within_wipeCache _ _)
  have emptied : Within shedUnits p emptied := (wiped.next (within_emptyEngines _ _)).next (within_dropConfirm _ _)
  exact (emptied.next (within_disp _ _)).next (within_relevel _)

theorem within_disarmed (cause : Nat) : Within sendUnits p (p.disarmed cause) := by
  unfold Part.disarmed
  exact ((Within.refl.next (.of_noted (create_noted _ _ _ _ _ _ _ _ _))).next (.of_noted (notice_noted _ _ _ _ _ _ _))).next (within_shuffle _ _)

/-- All units but the fuses and the lattices: what a response may change. -/
abbrev responseUnits : List Unit_ :=
  [.power, .deal, .ports, .xct, .disp, .vault, .seats, .trngs, .guard, .part, .evr, .cers, .joker, .shuffle, .counts]

/-- What an Erase has done before it clears the rest: the ceremonies' ends, the sessions, the vault, Shuffle and the Seats. -/
abbrev tearCerUnits : List Unit_ := .cers :: tearUnits

/-- What an Erase clears of a part whose sessions, vault and Seats are already gone. -/
theorem eraseNow_after (die cls sev index groups : Nat) :
    ∃ q r : Part, Within responseUnits p q ∧ q.guard = p.guard ∧ ChangesOnly responseUnits q r ∧ r.guard.seen = q.guard.seen ∧
      r.now = q.now ∧ p.eraseNow die cls sev index groups =
        ((r.wait (usec 40)).guardEvent 0x0713 4 die cls sev index groups r.guard.erases.toNat).relevel := by
  unfold Part.eraseNow
  extract_lets voided closed disarmed parkSeat parked bare _ _ _ _ _ _ _ cleared
  have voided : Within tearCerUnits p voided :=
    ((within_voidCeremony p 0).mono (l := tearCerUnits)).next (within_voidCeremony _ 1)
  have closed : Within tearCerUnits p closed := (voided.next (within_xct _ _)).next (within_vault _ _)
  have disarmed : Within tearCerUnits p disarmed := .ite (closed.next (within_disarmed _ _)) closed
  have parked : Within tearCerUnits p parked :=
    disarmed.next (.foldl (fun p n => (Within.refl.next (within_emptyEngines p n)).next (within_updSeat _ n _) : _) _ _) (m := [.seats])
  refine ⟨_, cleared, parked.mono, parked.units .guard (by decide), fun u hu => ?_, rfl, rfl, rfl⟩
  cases u <;> simp [Unit_.Same, after] at hu ⊢
  · rfl
  · rfl

/-- What a response may do: it leaves the fuses, the lattices and the witnesses seen, and takes no time back. -/
structure Responds (p q : Part) : Prop where
  units : ChangesOnly responseUnits p q
  seen : q.guard.seen = p.guard.seen
  clock : p.now ≤ q.now

namespace Responds

variable {p q r : Part}

theorem refl (p : Part) : Responds p p := ⟨(ChangesOnly.refl p).mono (by decide), rfl, le_rfl⟩

theorem trans (h : Responds p q) (k : Responds q r) : Responds p r :=
  ⟨(h.units.trans k.units).mono (by decide), k.seen.trans h.seen, h.clock.trans k.clock⟩

theorem of_within {l : List Unit_} (act : Within l p q) (inside : l ⊆ responseUnits := by decide) (apart : Unit_.guard ∉ l := by decide) :
    Responds p q := ⟨act.units.mono inside, congrArg GuardUnit.seen (act.units .guard apart), act.now.ge⟩

theorem setGuard (p : Part) (g : GuardUnit) (seen : g.seen = p.guard.seen) : Responds p (p.setGuard g) :=
  ⟨(within_setGuard p g).units.mono (by decide), seen, le_rfl⟩

theorem ite {c : Prop} [Decidable c] (h : Responds p q) (k : Responds p r) : Responds p (if c then q else r) := by
  split
  · exact h
  · exact k

end Responds

theorem eraseNow_responds (die cls sev index groups : Nat) : Responds p (p.eraseNow die cls sev index groups) := by
  obtain ⟨q, r, gone, guard, cleared, seen, now, act⟩ := eraseNow_after p die cls sev index groups
  have said := within_guardEvent (r.wait (usec 40)) 0x0713 4 die cls sev index groups r.guard.erases.toNat
  rw [act]
  have waited : Responds p (r.wait (usec 40)) :=
    ⟨((gone.units.trans cleared).trans (changes_now r _)).mono (by decide), seen.trans (congrArg GuardUnit.seen guard),
      (gone.now.ge.trans now.ge).trans (Nat.le_add_right _ _)⟩
  exact (waited.trans (.of_within said)).trans (.of_within (within_relevel _))

/-- A Dealer Hold stands for 100 µs, whatever it answers. -/
theorem holdDealer_guard (cls sev index : Nat) : (p.holdDealer cls sev index).guard =
    { p.guard with dealerHold := some (p.now + usec 100), dealerHolds := p.now :: p.guard.dealerHolds.filter (fun t => p.now ≤ t + sec 1) } := by
  unfold Part.holdDealer
  extract_lets holds _ held said
  have said : said.guard = held.guard :=
    (((within_bump held (regAddr 0 winGUARD 0x0108) 1).mono (l := [.evr, .counts, .part, .xct, .seats])).next
      (within_guardEvent _ _ _ _ _ _ _ _ _)).units .guard (by decide)
  exact ((Within.foldl (l := answerUnits) (fun p _ => within_answer p _ _ _) _ _).units .guard (by decide)).trans said

theorem holdDealer_responds (cls sev index : Nat) : Responds p (p.holdDealer cls sev index) :=
  ⟨(within_holdDealer p cls sev index).units.mono (by decide), (congrArg GuardUnit.seen (holdDealer_guard p cls sev index)).trans rfl,
    (within_holdDealer p cls sev index).now.ge⟩

theorem respond_responds (die cls sev index r : Nat) (floor : Bool) : Responds p (p.respond die cls sev index r floor) :=
  .ite (eraseNow_responds p _ _ _ _ _) (.ite (.of_within (within_shedSeat p _ _ _ _ _)) (.ite
    (.ite (.ite (.refl p) (holdDealer_responds p _ _ _)) (.ite (.refl p) (.of_within (within_holdSeat p _ _ _ _))))
    (.of_within (within_bump p _ _))))

/-! ### Witnesses (R325 to R333, 11 R305) -/

theorem witness_of_none {cls mag : Nat} (none : severity cls mag = 0) (die index : Nat) : p.witness die cls index mag = p := if_pos none

/-- A witness is listed; what follows is a response, which leaves the list. -/
theorem witness_responds {cls mag : Nat} (some : severity cls mag ≠ 0) (die index : Nat) : Responds (p.setGuard { p.guard with
    seen := Part.pruneSeen ({ die := die, cls := cls, sev := severity cls mag, at_ := p.now } :: p.guard.seen) p.now }) (p.witness die cls index mag) := by
  unfold Part.witness
  extract_lets _ _ _ listed quiet
  rw [if_neg some]
  split
  next taken up down _ =>
    extract_lets _ shown said doubted must
    have quiet : Responds listed quiet := .ite (.refl _) (.of_within (within_updSeat _ _ _))
    have shown : Responds listed shown := quiet.trans (.setGuard _ _ rfl)
    have said : Responds listed said := shown.trans (.of_within (within_guardEvent _ _ _ _ _ _ _ _ _))
    have doubted : Responds listed doubted :=
      .ite ((said.trans (.of_within (within_bump _ _ _))).trans (.of_within (within_guardEvent _ _ _ _ _ _ _ _ _))) said
    exact doubted.trans (respond_responds _ _ _ _ _ _ _)

/-- A guard shell shows a witness and counts it, and the guard has it. -/
def shellShown (p : Part) (die cls index mag : Nat) : Part :=
  p.updLat die (fun l => { l with
    lastW := BitVec.ofNat 32 (cls * 2 ^ 28 + index % 4096 * 2 ^ 16 + mag % 65536)
    windows := if cls = 1 then l.windows.map (fun w => { w with spoiled := w.spoiled || (w.from_ ≤ p.now && p.now ≤ w.until_) }) else l.windows
    shield := if cls = 9 then l.shield ||| BitVec.ofNat 24 (2 ^ (mag % 256)) else l.shield })

/-- The count of a die's witnesses. -/
abbrev witnessCount (die : Nat) : Nat := regAddr die (if die = 0 then winLAT else swinLAT) 0x0128

/-- The part once a guard shell has shown and counted a witness. -/
def shellCounted (p : Part) (die cls index mag : Nat) : Part :=
  (if mag = 0xFFFF ∧ (cls = 4 ∨ (cls = 3 ∧ index = 0)) then (shellShown p die cls index mag).bump (regAddr 0 winCLKPWR 0x0110)
    else shellShown p die cls index mag).bump (witnessCount die)

theorem latWitness_eq (die cls index mag : Nat) : p.latWitness die cls index mag = (shellCounted p die cls index mag).witness die cls index mag := rfl

theorem within_shellCounted (die cls index mag : Nat) : Within [.lats, .counts] p (shellCounted p die cls index mag) := by
  have shown : Within [.lats, .counts] p (shellShown p die cls index mag) := (within_updLat p die _).mono
  exact (Within.ite (shown.next (within_bump _ _ _)) shown).next (within_bump _ _ _)

theorem lats_shellCounted (die cls index mag : Nat) : (shellCounted p die cls index mag).lats = (shellShown p die cls index mag).lats := by
  unfold shellCounted
  split <;> rfl

theorem count_shellCounted (die cls index mag : Nat) : (shellCounted p die cls index mag).count (witnessCount die) = p.count (witnessCount die) + 1 := by
  unfold shellCounted
  split
  · refine (Sparse.get_set_same _ _ _ _).trans (congrArg (· + 1) ((Sparse.get_set_other _ _ _ _ _ ?_).trans rfl))
    simp only [witnessCount, regAddr, winCLKPWR, winLAT, swinLAT]
    split <;> omega
  · exact Sparse.get_set_same _ _ _ _

/-! ### Thermal reports (R332) -/

theorem lat_of_within {l : List Unit_} {p q : Part} (act : Within l p q) (apart : Unit_.lats ∉ l := by decide) (die : Nat) : q.lat die = p.lat die :=
  lat_of_lats (act.units .lats apart) die

/-- A die's thermal report stands, or does not. -/
def reported (p : Part) (die : Nat) (raised : Bool) : Part := p.updLat die (fun l => { l with thermal := raised })

@[simp] theorem lat_reported (die : Nat) (raised : Bool) : (reported p die raised).lat die = { p.lat die with thermal := raised } := lat_updLat_same _ _ _

theorem thermalReport_clears (die : Nat) : p.thermalReport die false =
    if die = 0 then (reported p die false).setGuard { p.guard with dealerCap := false } else reported p die false := rfl

theorem within_thermalReport (die : Nat) : Within (.guard :: shedUnits) (reported p die true) (p.thermalReport die true) := by
  unfold Part.thermalReport
  extract_lets raised _ acted counted half _ capped _ halved
  rw [if_neg (by decide)]
  have counted : Within (.guard :: shedUnits) raised counted := .ite (within_bump _ _ _).mono .refl
  have halved : Within (.guard :: shedUnits) raised halved := (counted.next (within_setGuard _ _)).next (within_seats _ _)
  exact .ite .refl (.ite (.ite halved (halved.next (within_holdDealer _ _ _ _)))
    (.ite (.ite (counted.next (within_shedSeat _ _ _ _ _ _)) (counted.next (within_holdSeat _ _ _ _ _))) counted))

theorem thermal_thermalReport (die : Nat) : ((p.thermalReport die true).lat die).thermal = true := by
  rw [lat_of_within (within_thermalReport p die), lat_reported]

/-- A thermal report on the Dealer caps its duty and holds it (R332). -/
theorem thermalReport_dealer (life : p.power.life ≠ 3) :
    (p.thermalReport 0 true).guard.dealerCap = true ∧ (p.thermalReport 0 true).guard.dealerHold.isSome = true := by
  unfold Part.thermalReport
  extract_lets raised _ acted counted half _ capped _ halved
  have capped : halved.guard.dealerCap = true := rfl
  rw [if_neg (by decide), if_neg (show ¬ raised.power.life = 3 from life), if_pos rfl]
  split
  · next held => exact ⟨capped, held⟩
  · rw [holdDealer_guard]
    exact ⟨capped, rfl⟩

/-! ### The end of a Hold, and re-admission (R334, R336, R337) -/

theorem endHold_dealer {t0 : Nat} (held : p.guard.dealerHold = some t0) :
    p.endHold 0 = (p.atTime t0).setGuard { p.guard with dealerHold := none, dealerFree := max p.now t0 + usec 400 } := by
  unfold Part.endHold
  simp only [held, if_true]
  rfl

/-- A Seat is back in service after its Hold, armed where a Deal was armed meanwhile. -/
def released (p : Part) (n e : Nat) : Part :=
  (p.atTime e).updSeat n (fun s => { s with
    st := .inService, holdEnd := none, armed := s.armed || (p.deal.st == .armed || p.deal.st == .cutting) })

theorem endHold_seat {n e : Nat} (seat : n ≠ 0) (held : p.seatIn n .held = true) (ends : (p.seat n).holdEnd = some e)
    (cool : (p.lat n).thermal = false) : p.endHold n = (released p n e).relevel := by
  unfold Part.endHold
  rw [if_neg seat, if_pos held, ends]
  exact if_neg (ne_true_of_eq_false cool)

/-- The Seat that an act leaves alone, read after it. -/
theorem seat_relevel (n : Nat) : p.relevel.seat n = p.seat n := by
  unfold Part.relevel
  extract_lets old new
  split
  · rfl
  · exact seat_of_noted (event_noted _ _ _ _ _ _ _ _ _) n

/-- A shed Seat is in its self-tests, once it has been quiet for a second, and cool where it was shed for its heat. -/
def testing (p : Part) (n : Nat) : Part :=
  (p.atTime (max ((p.seat n).quiet + sec 1) (if (p.seat n).thermal then (p.seat n).cool + sec 1 else 0))).updSeat n (fun s => { s with st := .selfTest })

theorem startReadmit_starts {n : Nat} (shed : (p.seat n).st = .shed) (free : (p.seat n).parked = false) (life : p.power.life = 1)
    (kept : ¬ (p.joker.scope = 3 ∧ p.joker.seats.getLsbD n = true)) : p.startReadmit n = (testing p n).relevel :=
  if_pos ⟨shed, free, life, kept⟩

theorem endReadmit_fails {n : Nat} (testing : (p.seat n).st = .selfTest) :
    p.endReadmit n false = ((p.wait (msec 2)).updSeat n (fun s => { s with st := .shed, quiet := p.now + msec 2 })).relevel :=
  (if_pos testing).trans (if_neg (by decide))

/-- A Seat as the resets of its re-admission leave it: its errors and its link's counts are none, its epoch is the Deal's. -/
def resetSeat (epoch : Nat) (s : Seat) : Seat := { s with
  ecc1 := 0, ecc2 := 0, eccu := 0, replay := 0, retrain := 0, fails := 0, failsUp := 0, failedTrainings := 0, thermal := false, cool := 0
  epoch := epoch, armed := true }

theorem seat_readmitResets (n : Nat) : (p.readmitResets n).seat n = resetSeat p.deal.epoch (p.seat n) :=
  seat_updSeat_same p n (resetSeat p.deal.epoch)

theorem changes_readmitResets (n : Nat) : ChangesOnly [.seats, .disp, .counts, .lats] p (p.readmitResets n) := fun u hu => by
  cases u with
  | seats | disp | counts | lats => simp at hu
  | ports => exact ⟨rfl, rfl, rfl, rfl, rfl, rfl⟩
  | cers => exact ⟨rfl, rfl⟩
  | _ => rfl

/-- A Seat back in service after its self-tests (R336). -/
def backInService (s : Seat) : Seat := { s with st := .inService, parked := false, readmitBy := false, power := true, pll := true, link := 1 }

theorem endReadmit_passes {n : Nat} (testing : (p.seat n).st = .selfTest) :
    ∃ q : Part, ChangesOnly [.seats, .disp, .counts, .lats] p q ∧ q.seat n = backInService (resetSeat p.deal.epoch (p.seat n)) ∧ p.endReadmit n true =
      ((q.bump (regAddr 0 winDISP 0x0128)).guardEvent 0x0712 1 n 0 0 0 n (if (p.seat n).readmitBy then 1 else 0)).relevel := by
  refine ⟨_, ?_, ?_, (if_pos testing).trans (if_pos rfl)⟩
  · exact (((changes_now p _).trans (changes_readmitResets _ n)).trans (changes_updSeat _ n _)).mono (by decide)
  · exact (seat_updSeat_same _ n backInService).trans (congrArg backInService (seat_readmitResets _ n))

end

/-! ### The rows of the guard -/

theorem hasDie_dealer (p : Part) : p.hasDie 0 = true := decide_eq_true (Nat.zero_le _)

theorem hasDie_of_hasSeat {p : Part} {n : Nat} (there : p.hasSeat n = true) : p.hasDie n = true :=
  (Bool.and_eq_true_iff.1 there).2

theorem seatIn_iff {p : Part} {n : Nat} {st : SeatSt} : p.seatIn n st = true ↔ (p.seat n).st = st := beq_iff_eq

theorem seatReadmit_next {s : State} {n : Nat} (on : s.power.on = true) (there : s.hasSeat n = true) :
    exec (.seatReadmit n) s = .next (after s (s.toPart.startReadmit n)) := onUnit_on there on _

/-- A shed Seat that may return starts its self-tests. -/
theorem seatReadmit_tests {s : State} {n : Nat} (on : s.power.on = true) (there : s.hasSeat n = true) (shed : (s.seat n).st = .shed)
    (free : (s.seat n).parked = false) (life : s.power.life = 1) (kept : ¬ (s.joker.scope = 3 ∧ s.joker.seats.getLsbD n = true)) :
    ∃ t, exec (.seatReadmit n) s = .next t ∧ t.seatIn n .selfTest = true ∧ (s.seat n).quiet + sec 1 ≤ t.now ∧
      Keeps [.fuses, .deal, .ports, .disp, .vault, .lats, .trngs, .guard, .cers, .joker, .shuffle] s t := by
  refine ⟨_, seatReadmit_next on there, ?_⟩
  rw [startReadmit_starts s.toPart shed free life kept]
  have tests := (seat_relevel (testing s.toPart n) n).trans (seat_updSeat_same _ n _)
  exact ⟨seatIn_iff.2 (congrArg Seat.st tests),
    ((Nat.le_max_left _ _).trans (Nat.le_max_right s.now _)).trans (within_relevel (testing s.toPart n)).now.ge,
    (((changes_now s.toPart _).trans (changes_updSeat _ n _)).trans (within_relevel _).units).keeps (by decide)⟩

theorem holdEnd_next {s : State} {die : Nat} (on : s.power.on = true) (hd : s.hasDie die = true) :
    exec (.holdEnd die) s = .next (after s (if die = 0 then (s.toPart.endHold 0).drainInbox else s.toPart.endHold die)) := onUnit_on hd on _

theorem thermalReport_next {s : State} {die : Nat} {raised : Bool} (on : s.power.on = true) (hd : s.hasDie die = true)
    (anew : (s.lat die).thermal ≠ raised) : exec (.thermalReport die raised) s = .next (after s (s.toPart.thermalReport die raised)) :=
  (onUnit_on hd on _).trans (by rw [if_neg anew])

/-- A guard shell's report, where its sensor takes part: the witness of an unretired sensor reaches the guard. -/
theorem witnessReport_shell {s : State} {die cls index : Nat} {mag : BitVec 16} (on : s.power.on = true) (hd : s.hasDie die = true)
    (sensed : cls < 10 → (s.sensor die cls index).retired = false) (shell : cls ≠ 12 ∧ cls ≠ 14) :
    exec (.witnessReport die cls index mag) s = .next (after s (s.toPart.latWitness die cls index mag.toNat)) := by
  refine (onUnit_on hd on _).trans ?_
  rw [if_neg (by rintro ⟨low, retired⟩; simp [sensed low] at retired), if_neg (by omega)]

theorem witnessReport_direct {s : State} {die cls index : Nat} {mag : BitVec 16} (on : s.power.on = true) (hd : s.hasDie die = true)
    (direct : cls = 12 ∨ cls = 14) : exec (.witnessReport die cls index mag) s = .next (after s (s.toPart.witness die cls index mag.toNat)) := by
  refine (onUnit_on hd on _).trans ?_
  rw [if_neg (by omega), if_pos direct]

/-- Settles O9: a witness is shown, counted and listed before any response, which leaves the list; the other rows are their acts on the Seat, read back. -/
theorem guardRowsAct : Obligations.GuardRowsAct := by
  refine ⟨fun s die cls index mag on hd low none sensed => ?_, fun s die cls index mag on hd some sensed => ?_, fun s t0 on held => ?_,
    fun s n e on hn held ends cool => ?_, fun s n on hn shed free life kept => ?_, fun s n on hn testing => ?_, fun s n on hn testing => ?_,
    fun s die on hd raised => ?_, fun s on cool life => ?_⟩
  · refine ⟨_, witnessReport_shell on hd sensed (by omega), ?_⟩
    rw [latWitness_eq, witness_of_none _ none]
    have act := within_shellCounted s.toPart die cls index mag.toNat
    refine ⟨count_shellCounted _ _ _ _ _, ?_, act.units .guard (by decide), act.units.keeps (by decide)⟩
    refine (congrArg Machine.Lat.lastW ((lat_of_lats (lats_shellCounted s.toPart die cls index mag.toNat) die).trans (lat_updLat_same _ _ _))).trans ?_
    simp only [Nat.mod_eq_of_lt (show mag.toNat < 65536 from mag.isLt)]
  · by_cases direct : cls = 12 ∨ cls = 14
    · have act := witness_responds s.toPart some die index
      exact ⟨_, witnessReport_direct on hd direct, act.seen, ((within_setGuard s.toPart _).units.trans act.units).keeps (by decide)⟩
    · have shown := within_shellCounted s.toPart die cls index mag.toNat
      have guard : (shellCounted s.toPart die cls index mag.toNat).guard = s.guard := shown.units .guard (by decide)
      have act := witness_responds (shellCounted s.toPart die cls index mag.toNat) some die index
      refine ⟨_, witnessReport_shell on hd sensed (not_or.1 direct), ?_,
        ((shown.units.trans (within_setGuard _ _).units).trans act.units).keeps (by decide)⟩
      rw [latWitness_eq]
      refine act.seen.trans ?_
      rw [guard, shown.now]
      rfl
  · refine ⟨_, holdEnd_next on (hasDie_dealer s.toPart), ?_⟩
    rw [if_pos rfl, endHold_dealer s.toPart held]
  · have seat := ne_zero_of_hasSeat hn
    refine ⟨_, holdEnd_next on (hasDie_of_hasSeat hn), ?_⟩
    rw [if_neg seat, endHold_seat s.toPart seat held ends cool]
    have back : (released s.toPart n e).relevel.seat n = _ := (seat_relevel _ n).trans (seat_updSeat_same (s.toPart.atTime e) n _)
    exact ⟨seatIn_iff.2 (congrArg Seat.st back), congrArg Seat.holdEnd back, (Nat.le_max_right s.now e).trans (within_relevel (released s.toPart n e)).now.ge,
      (((changes_now s.toPart _).trans (changes_updSeat _ n _)).trans (within_relevel _).units).keeps (by decide)⟩
  · exact seatReadmit_tests on hn (seatIn_iff.1 shed) free life kept
  · obtain ⟨q, changes, seat, act⟩ := endReadmit_passes s.toPart (seatIn_iff.1 testing)
    refine ⟨_, onUnit_on hn on _, ?_⟩
    rw [act]
    have said := within_guardEvent (q.bump (regAddr 0 winDISP 0x0128)) 0x0712 1 n 0 0 0 n (if (s.seat n).readmitBy then 1 else 0)
    have back := (seat_relevel _ n).trans ((seat_of_noted (event_noted (q.bump (regAddr 0 winDISP 0x0128)) 10 0x0712 1 n 0
      (0 * 2 ^ 28 + n * 2 ^ 24 + 0 * 2 ^ 20 + 0) n (if (s.seat n).readmitBy then 1 else 0)) n).trans seat)
    exact ⟨seatIn_iff.2 (congrArg Seat.st back), congrArg Seat.ecc1 back, congrArg Seat.ecc2 back, congrArg Seat.eccu back,
      congrArg Seat.replay back, congrArg Seat.retrain back,
      (((changes.trans (changes_bump _ _ _)).trans said.units).trans (within_relevel _).units).keeps (by decide)⟩
  · refine ⟨_, onUnit_on hn on _, ?_⟩
    rw [endReadmit_fails s.toPart (seatIn_iff.1 testing)]
    have shed := (seat_relevel _ n).trans (seat_updSeat_same (s.toPart.wait (msec 2)) n (fun x => { x with st := .shed, quiet := s.now + msec 2 }))
    exact ⟨seatIn_iff.2 (congrArg Seat.st shed),
      (((changes_now s.toPart _).trans (changes_updSeat _ n _)).trans (within_relevel _).units).keeps (by decide)⟩
  · refine ⟨_, thermalReport_next on hd (by simp [raised]), ?_⟩
    rw [thermalReport_clears]
    have cleared := within_updLat s.toPart die (fun l => { l with thermal := false })
    refine ⟨?_, fun dealer => ?_, ?_⟩
    · split
      · exact congrArg Machine.Lat.thermal (lat_reported s.toPart die false)
      · exact congrArg Machine.Lat.thermal (lat_reported s.toPart die false)
    · rw [if_pos dealer]
      rfl
    · exact (Within.ite (l := [.lats, .guard]) (cleared.mono.next (within_setGuard _ _)) cleared.mono).units.keeps (by decide)
  · obtain ⟨cap, held⟩ := thermalReport_dealer s.toPart life
    exact ⟨_, thermalReport_next on (hasDie_dealer s.toPart) (by simp [cool]), cap, held,
      ((within_updLat s.toPart 0 _).units.trans (within_thermalReport s.toPart 0).units).keeps (by decide)⟩

/-- The house hand releases a parked Seat: it may start its self-tests. -/
theorem readmit_releases {s : State} {o : Origin} {b : Bytes} {c : Cmd} (ready : HouseReady s o 0x1201 b c) (len : b.length = 8)
    (zero : allZero (b.drop 1) = true) (there : s.hasSeat (field b 0 1) = true) (idle : s.seatIn (field b 0 1) .selfTest = false)
    (parked : (s.seat (field b 0 1)).parked = true) : exec (.guardReadmit o b) s = .next (after s
      ((s.updSeat (field b 0 1) (fun x => { x with parked := false, readmitBy := true })).answer c.uid Status.done)) := by
  refine (powered_house ready _).trans ?_
  rw [ready.block, if_neg (not_or.2 ⟨not_not_intro len, ne_false_of_eq_true zero⟩), if_neg (by simp [there]), if_neg (by simp [idle]), if_neg (by simp [parked])]

/-- Settles O46: each answer is a branch of the row; a parked Seat it releases may start its self-tests at once. -/
theorem guardReadmitAnswers : Obligations.GuardReadmitAnswers := by
  refine ⟨fun s o c b ready hand => ?_, fun s o b c ready shape => ?_, fun s o c b ready len zero absent => ?_, fun s o c b ready len zero there testing => ?_,
    fun s o c b ready len zero there idle unparked => ?_, fun s o c b ready len zero there idle parked => ?_⟩
  · exact (powered_serve ready _).trans (by rw [Part.houseOnly, if_pos hand])
  · refine (powered_house ready _).trans ?_
    rw [ready.block, if_pos shape]
    rfl
  · refine (powered_house ready _).trans ?_
    rw [ready.block, if_neg (not_or.2 ⟨not_not_intro len, ne_false_of_eq_true zero⟩), if_pos absent]
  · refine ⟨2000, (powered_house ready _).trans ?_⟩
    rw [ready.block, if_neg (not_or.2 ⟨not_not_intro len, ne_false_of_eq_true zero⟩), if_neg (by simp [there]), if_pos testing]
  · refine (powered_house ready _).trans ?_
    rw [ready.block, if_neg (not_or.2 ⟨not_not_intro len, ne_false_of_eq_true zero⟩), if_neg (by simp [there]), if_neg (by simp [idle]), if_pos unparked]
  · refine ⟨_, readmit_releases ready len zero there idle parked, ?_, fun life kept shed => ?_⟩
    · exact congrArg Seat.parked (seat_updSeat_same s.toPart _ _)
    · have seat := seat_updSeat_same s.toPart (field b 0 1) (fun s => { s with parked := false, readmitBy := true })
      obtain ⟨t, next, tests, -⟩ := seatReadmit_tests (s := after s (s.updSeat (field b 0 1) (fun x => { x with parked := false, readmitBy := true })))
        ready.on there ((congrArg Seat.st seat).trans (seatIn_iff.1 shed)) (congrArg Seat.parked seat) life (fun h => kept h.1)
      exact ⟨t, next, tests⟩

end Sys2Proof.GuardRows

/-! ## The sensor lattice and the TRNG (11 R298 to R321; 12 R326) -/

namespace Sys2Proof.Lattice

/- The proofs are checked one after the other: side by side, those of the whole text need more stacks than the check's memory holds. -/
set_option Elab.async false

open Sys2Proof.Machine Sys2Proof.Safety Sys2Proof.Laws Sys2Proof.Architecture Sys2Proof.DealRows Sys2Proof.HostTransport Sys2Proof.Dispatching
  Sys2Proof.GuardRows

/-! ### The bounds of an ante entry (R309, R310) -/

theorem anteNominal_le (die group cls : Nat) : anteNominal die group cls ≤ 240 := by
  induction cls with
  | zero => exact Nat.min_le_left _ _
  | succ cls ih => exact Nat.max_le.2 ⟨ih, Nat.min_le_left _ _⟩

/-- The bounds stand around the nominal, within the range of a table entry. -/
theorem anteMin_le_nominal (die group cls : Nat) : anteMin die group cls ≤ anteNominal die group cls := Nat.sub_le _ _

theorem nominal_le_anteMax (die group cls : Nat) : anteNominal die group cls ≤ anteMax die group cls :=
  le_min (anteNominal_le _ _ _) (le_min (Nat.le_add_right _ _) (Nat.le_add_right _ _))

theorem anteMax_le (die group cls : Nat) : anteMax die group cls ≤ 240 := Nat.min_le_left _ _

/-- Rounding a value in eighths between two bounds in units stays between them. -/
theorem anteRound_between {nominal lo hi v : Nat} (low : 8 * lo ≤ v) (high : v ≤ 8 * hi) : lo ≤ anteRound nominal v ∧ anteRound nominal v ≤ hi := by
  unfold anteRound
  split <;> omega

/-- What an entry learns from a peak: a step towards it, clamped and rounded (R309). -/
def learned (p : Part) (die : Nat) (w : AnteWindow) (peak : Nat) : Nat :=
  anteRound (anteNominal die w.group w.cls) (max (8 * anteMin die w.group w.cls)
    (min (anteStep (p.anteEntry die w.group w.cls) peak) (8 * anteMax die w.group w.cls)))

theorem learned_between (p : Part) (die : Nat) (w : AnteWindow) (peak : Nat) :
    anteMin die w.group w.cls ≤ learned p die w peak ∧ learned p die w peak ≤ anteMax die w.group w.cls := by
  have room := (anteMin_le_nominal die w.group w.cls).trans (nominal_le_anteMax die w.group w.cls)
  exact anteRound_between (Nat.le_max_left _ _) (Nat.max_le.2 ⟨Nat.mul_le_mul_left 8 room, Nat.min_le_right _ _⟩)

theorem anteEntry_of_lats {p q : Part} (same : q.lats = p.lats) (die group cls : Nat) : q.anteEntry die group cls = p.anteEntry die group cls := by
  unfold Part.anteEntry
  rw [lat_of_lats same]

theorem anteEntry_learns (p : Part) (die : Nat) (w : AnteWindow) (v : BitVec 8) : (learns p die w v).anteEntry die w.group w.cls = v.toNat := by
  unfold Part.anteEntry learns
  simp

theorem learnAnte_lats (p : Part) (die : Nat) (w : AnteWindow) (peak : Nat) :
    (p.learnAnte die w peak).lats = (learns p die w (BitVec.ofNat 8 (learned p die w peak))).lats := by
  unfold Part.learnAnte
  simp only
  split
  · exact (record_noted _ _ _ _ _ _ _).lats
  · rfl

theorem learnAnte_entry (p : Part) (die : Nat) (w : AnteWindow) (peak : Nat) :
    (p.learnAnte die w peak).anteEntry die w.group w.cls = learned p die w peak := by
  rw [anteEntry_of_lats (learnAnte_lats p die w peak), anteEntry_learns, BitVec.toNat_ofNat, Nat.mod_eq_of_lt]
  have top := anteMax_le die w.group w.cls
  have inside := (learned_between p die w peak).2
  omega

/-- Settles O35: the entry learned is the clamped step, rounded between the bounds, and fits its byte. -/
theorem anteEntryBounded : Obligations.AnteEntryBounded := by
  intro p die w peak
  rw [learnAnte_entry]
  exact learned_between p die w peak

/-! ### Independence groups (12 R326) -/

theorem groupMask_testBit (seen : List Witness) (sev span now g m : Nat) :
    (seen.foldl (fun m w => if sev ≤ w.sev ∧ now ≤ w.at_ + span then (match groupOf w.cls with
      | some g => m ||| 2 ^ g
      | none => m) else m) m).testBit g = true ↔
      m.testBit g = true ∨ ∃ w ∈ seen, groupOf w.cls = some g ∧ sev ≤ w.sev ∧ now ≤ w.at_ + span := by
  induction seen generalizing m with
  | nil => simp
  | cons w r ih =>
    rw [List.foldl_cons, ih]
    by_cases recent : sev ≤ w.sev ∧ now ≤ w.at_ + span
    · cases named : groupOf w.cls with
      | none => simp [recent, named]
      | some k => simp [recent, named, Nat.testBit_two_pow, or_assoc]
    · simp [recent]

/-- Settles O50: the table of classes, and a group's bit as the fold over the witnesses sets it. -/
theorem groupsLit : Obligations.GroupsLit := by
  refine ⟨fun cls g => ?_, fun p g => ?_⟩
  · unfold groupOf
    split
    case h_14 => simp_all
    all_goals simp [eq_comm]
  · exact (groupMask_testBit p.guard.seen 3 (sec 1) p.now g 0).trans (by simp)

/-! ### Temperature, supply, clocks and shield (R300 to R304) -/

theorem put_put {α : Type} (l : List (Nat × α)) (a : Nat) (v w : α) : Sparse.put (Sparse.put l a v) a w = Sparse.put l a w := by
  induction l with
  | nil => simp [Sparse.put]
  | cons e r ih =>
    obtain ⟨k, x⟩ := e
    simp only [Sparse.put]
    split_ifs with low same <;> simp [Sparse.put, *]

theorem foldl_max_le {b : Int} (l : List Int) (a : Int) (first : a ≤ b) (rest : ∀ x ∈ l, x ≤ b) : l.foldl max a ≤ b := by
  induction l generalizing a with
  | nil => exact first
  | cons x r ih => exact ih _ (max_le first (rest x (List.mem_cons_self ..))) (fun y hy => rest y (List.mem_cons_of_mem _ hy))

theorem greatestInt_le {b : Int} {l : List Int} (some : l ≠ []) (all : ∀ x ∈ l, x ≤ b) : Part.greatestInt l ≤ b := by
  cases l with
  | nil => exact absurd rfl some
  | cons a r => exact foldl_max_le r a (all a (List.mem_cons_self ..)) (fun y hy => all y (List.mem_cons_of_mem _ hy))

section
variable {p : Part} {die : Nat}

/-- The lattice of a die whose diodes read within their bounds. -/
def sampled (p : Part) (die : Nat) (l : List (BitVec 16)) (hot : Nat) : Machine.Lat := { p.lat die with
  diodes := l, tj := BitVec.ofInt 16 (Part.greatestInt ((p.goodDiodes die l).map (·.2)))
  tmin := BitVec.ofInt 16 (Part.leastInt ((p.goodDiodes die l).map (·.2))), badTemp := [], tempRun := [], hotRun := hot }

/-- The die with its readings shown; a warm Seat's cool time starts anew. -/
def shownTemp (p : Part) (die : Nat) (l : List (BitVec 16)) (hot : Nat) : Part :=
  if die ≠ 0 ∧ 440 ≤ Part.greatestInt ((p.goodDiodes die l).map (·.2)) then
    (p.setLat die (sampled p die l hot)).updSeat die (fun s => { s with cool := p.now })
  else p.setLat die (sampled p die l hot)

theorem within_shownTemp (l : List (BitVec 16)) (hot : Nat) : Within [.lats, .seats] p (shownTemp p die l hot) := by
  have shown : Within [.lats, .seats] p (p.setLat die (sampled p die l hot)) := (within_lats p _).mono
  exact .ite (shown.next (within_updSeat _ _ _)) shown

theorem lat_shownTemp (l : List (BitVec 16)) (hot : Nat) : (shownTemp p die l hot).lat die = sampled p die l hot := by
  have set : (p.setLat die (sampled p die l hot)).lat die = sampled p die l hot := Sparse.get_set_same _ _ _ _
  unfold shownTemp
  split
  · exact set
  · exact set

/-- Readings within their bounds are shown, and make no witness; what follows is the thermal report alone. -/
theorem sampleTemp_inBounds {l : List (BitVec 16)} (some : p.goodDiodes die l ≠ []) (bounds : ∀ e ∈ p.goodDiodes die l, -200 ≤ e.2 ∧ e.2 ≤ 540)
    (clear : (p.lat die).thermal = false) : p.sampleTemp die l =
      let hot := if 480 < Part.greatestInt ((p.goodDiodes die l).map (·.2)) then (p.lat die).hotRun + 1 else 0
      if 2 ≤ hot then (shownTemp p die l hot).thermalReport die true else shownTemp p die l hot := by
  have good : ((p.goodDiodes die l).filter (fun e => e.2 < -200 || 540 < e.2)) = [] := by
    refine List.filter_eq_nil_iff.2 fun e he => ?_
    have := bounds e he
    simp only [Bool.or_eq_true, decide_eq_true_eq]
    omega
  unfold Part.sampleTemp
  simp only [if_neg some, good, List.map_nil, List.filter_nil, List.foldl_nil]
  have clear (hot : Nat) : ((shownTemp p die l hot).lat die).thermal = false := (congrArg Machine.Lat.thermal (lat_shownTemp l hot)).trans clear
  generalize (if 480 < Part.greatestInt ((p.goodDiodes die l).map (·.2)) then (p.lat die).hotRun + 1 else 0) = hot
  change (if 2 ≤ hot ∧ ((shownTemp p die l hot).lat die).thermal = false then (shownTemp p die l hot).thermalReport die true
    else if _ ∧ ((shownTemp p die l hot).lat die).thermal = true then _ else shownTemp p die l hot) = _
  simp [clear hot]

/-- A mean within its window clears the rail's excursion (R300). -/
theorem voltageMean_inBounds {w mv : Nat} (rail : die ≠ 0 ∨ w ≠ 6) (sensed : (p.sensor die 2 w).retired = false)
    (low : Part.railNominal die w * 94 ≤ mv * 100) (high : mv * 100 ≤ Part.railNominal die w * 106) : p.voltageMean die w mv =
      p.setLat die { p.lat die with badMeans := (p.lat die).badMeans.erase w, meanRun := (p.lat die).meanRun.erase w } := by
  have other : ¬ (die = 0 ∧ w = 6) := by omega
  unfold Part.voltageMean
  simp only [if_neg other, sensed, Bool.false_eq_true, if_false]
  exact if_pos (decide_eq_false (by omega))

/-- A second mean in a row below the window is a witness (R300). -/
theorem voltageMean_low {w mv : Nat} (rail : die ≠ 0 ∨ w ≠ 6) (sensed : (p.sensor die 2 w).retired = false)
    (low : mv * 100 < Part.railNominal die w * 94) (again : w ∈ (p.lat die).badMeans) (anew : w ∉ (p.lat die).meanRun) : p.voltageMean die w mv =
      (p.setLat die { p.lat die with meanRun := w :: (p.lat die).meanRun }).latWitness die 2 w (min (Part.railNominal die w - mv) 0xFFFF) := by
  have other : ¬ (die = 0 ∧ w = 6) := by omega
  have below : mv < Part.railNominal die w := by omega
  have out : ¬ (mv * 100 < Part.railNominal die w * 94 ∨ Part.railNominal die w * 106 < mv * 100) = false := by simp [low]
  unfold Part.voltageMean
  simp [other, sensed, low, again, anew, below]

theorem refclkWindow_runs {count : Nat} (xtal : p.power.xtalOk = true) (sensed : (p.sensor 0 4 0).retired = false) (lost : Bool) :
    p.refclkWindow count lost =
      let q := p.updLat 0 (fun l => { l with refclk := BitVec.ofInt 16 (((count : Int) - 305176) * 1000000 / 305176) })
      if lost then q.latWitness 0 4 0 0xFFFF
      else if 153 < ((count : Int) - 305176).natAbs then
        q.latWitness 0 4 0 (min (((count : Int) - 305176).natAbs * 1000000 / 305176) 0xFFFD)
      else q :=
  if_neg (by simp [xtal, sensed])

/-- Until 25 rates have been computed there is none to judge (R303). -/
theorem computeRate_early (some : p.goodDiodes die (p.lat die).diodes ≠ []) (early : (p.lat die).history.length < 25) : ∃ h band,
    p.computeRate die = (p.setLat die { p.lat die with
      history := (h :: (p.lat die).history).take 25, meas := 0, pred := 0, rateRun := 0 }).setBand die band := by
  have none : (p.lat die).history[24]? = none := List.getElem?_eq_none (by omega)
  unfold Part.computeRate
  simp only [if_neg some, none]
  exact ⟨_, _, rfl⟩

theorem lat_setLat_same (x : Machine.Lat) : (p.setLat die x).lat die = x := Sparse.get_set_same _ _ _ _

theorem within_setLat (x : Machine.Lat) : Within [.lats] p (p.setLat die x) := within_lats p _

theorem setLat_setLat {x y : Machine.Lat} (hx : x ≠ {}) (hy : y ≠ {}) : (p.setLat die x).setLat die y = p.setLat die y := by
  have twice : Sparse.set {} (Sparse.set {} p.lats die x) die y = Sparse.set {} p.lats die y := by
    simp only [Sparse.set, if_neg hx, if_neg hy, put_put]
  simp only [Part.setLat, twice]

section
variable {net mo : Nat}

theorem netCheck_inBounds (inside : Part.netOut (Config.netResistance net) (((p.lat 0).diodes.getD 0 0).toInt) mo = false) :
    p.netCheck net mo = p.setLat 0 { p.lat 0 with
      shield := (p.lat 0).shield &&& ~~~ BitVec.ofNat 24 (2 ^ net), badNets := (p.lat 0).badNets.erase net, netRun := (p.lat 0).netRun.erase net } :=
  if_neg (ne_true_of_eq_false inside)

variable (out : Part.netOut (Config.netResistance net) (((p.lat 0).diodes.getD 0 0).toInt) mo = true)
include out

theorem netCheck_first (first : net ∉ (p.lat 0).badNets) : p.netCheck net mo = p.setLat 0 { p.lat 0 with
    shield := (p.lat 0).shield ||| BitVec.ofNat 24 (2 ^ net), badNets := net :: (p.lat 0).badNets } := by
  unfold Part.netCheck
  simp only [out, (by simpa using first : (p.lat 0).badNets.contains net = false), if_true, Bool.false_eq_true, false_and, if_false]

/-- A net's second check out of bounds is a breach (R304, R305). -/
theorem netCheck_breach (again : net ∈ (p.lat 0).badNets) (anew : net ∉ (p.lat 0).netRun) : p.netCheck net mo = (p.setLat 0 { p.lat 0 with
    shield := (p.lat 0).shield ||| BitVec.ofNat 24 (2 ^ net), netRun := net :: (p.lat 0).netRun }).latWitness 0 9 net (256 + net) := by
  unfold Part.netCheck
  simp only [out, List.contains_iff_mem.2 again, (by simpa using anew : (p.lat 0).netRun.contains net = false), if_true, and_self]
  refine congrArg (fun q : Part => q.latWitness 0 9 net (256 + net)) ?_
  rw [Part.updLat, lat_setLat_same]
  refine setLat_setLat (fun e => ?_) (fun e => ?_)
  · exact List.ne_nil_of_mem again (congrArg Machine.Lat.badNets e)
  · exact absurd (congrArg Machine.Lat.netRun e) (List.cons_ne_nil _ _)

end

theorem getLsbD_bit {net : Nat} (inside : net < 24) : (BitVec.ofNat 24 (2 ^ net)).getLsbD net = true := by
  simp only [BitVec.getLsbD_ofNat, Nat.testBit_two_pow_self, inside, decide_true, Bool.and_self]

/-! ### Calibration (R311 to R314) -/

section
variable {cls i b : Nat} {d : Int}

theorem sensor_of_lats {q : Part} (same : q.lats = p.lats) : q.sensor die cls i = p.sensor die cls i := by
  unfold Part.sensor
  rw [lat_of_lats same]

theorem sensor_setSensor_same (x : Sensor) : (p.setSensor die cls i x).sensor die cls i = x := by
  unfold Part.sensor Part.setSensor
  rw [lat_updLat_same]
  exact Sparse.get_set_same _ _ _ _

theorem within_setSensor (x : Sensor) : Within [.lats] p (p.setSensor die cls i x) := within_updLat p die _

theorem within_latBump (off : Nat) : Within [.counts] p (p.latBump die off) := within_bump p _ _

theorem within_latRecord (code : BitVec 16) (sev x y z : Nat) : Within [.evr, .counts, .part, .xct, .seats] p (p.latRecord die code sev cls x y z) :=
  within_record p _ _ _ _ _ _

/-- The trim a slice asks for: a step at most from the one that stands. -/
abbrev wanted (p : Part) (die cls i : Nat) (d : Int) : Int := (p.sensor die cls i).trim + max (-1) (min 1 d)

theorem slice_accepts (inUse : (p.sensor die cls i).retired = false) (bound : Part.trimBound cls = some b) (within_ : (wanted p die cls i d).natAbs ≤ b) :
    p.slice_ die cls i d true = (p.latBump die 0x0118).setSensor die cls i { p.sensor die cls i with trim := wanted p die cls i d, refusals := 0 } := by
  unfold Part.slice_
  simp only [inUse, Bool.false_eq_true, if_false, bound, true_and, if_pos within_]

theorem slice_outOfBound (inUse : (p.sensor die cls i).retired = false) (bound : Part.trimBound cls = some b) (beyond : b < (wanted p die cls i d).natAbs) :
    p.slice_ die cls i d true = (p.latBump die 0x0118).refuseTrim die cls i (p.sensor die cls i) (wanted p die cls i d) := by
  unfold Part.slice_
  simp only [inUse, Bool.false_eq_true, if_false, bound, true_and, if_neg (Nat.not_le.2 beyond)]

theorem slice_refused (inUse : (p.sensor die cls i).retired = false) : ∃ want,
    p.slice_ die cls i d false = (p.latBump die 0x0118).refuseTrim die cls i (p.sensor die cls i) want := by
  unfold Part.slice_
  simp only [inUse, Bool.false_eq_true, if_false, false_and]
  split
  · exact ⟨_, rfl⟩
  · exact ⟨_, rfl⟩

/-- The record of a refused slice. -/
def refusalNoted (p : Part) (die cls i : Nat) (want : Int) : Part :=
  (p.latBump die 0x0120).latRecord die 0x0740 1 cls i (Part.trimCode die cls i 0).toNat (Part.trimCode die cls i want).toNat

/-- The units that the record of a refused slice may change. -/
abbrev noteUnits : List Unit_ := [.counts, .evr, .part, .xct, .seats]

theorem within_refusalNoted (want : Int) : Within noteUnits p (refusalNoted p die cls i want) :=
  (within_latBump (p := p) (die := die) 0x0120).mono.next (within_latRecord _ _ _ _ _)

theorem refuseTrim_counts {x : Sensor} (few : x.refusals < 2) (want : Int) :
    p.refuseTrim die cls i x want = (refusalNoted p die cls i want).setSensor die cls i { x with refusals := x.refusals + 1 } :=
  if_pos (show x.refusals + 1 < 3 by omega)

end

end

/-! ### The rows of the lattice -/

theorem slice_next {s : State} {die cls i : Nat} {d : Int} {ok : Bool} (on : s.power.on = true) (hd : s.hasDie die = true) (hc : cls < 8)
    (hi : i < Part.sensorCount die cls) : exec (.calibrationSlice die cls i d ok) s = .next (after s (s.toPart.slice_ die cls i d ok)) :=
  onUnit_on (by simp [hd, hc, hi]) on _

theorem voltage_next {s : State} {die w mv : Nat} (on : s.power.on = true) (hd : s.hasDie die = true) (hw : w < 8) :
    exec (.slowVoltageMean die w mv) s = .next (after s (s.toPart.voltageMean die w mv)) := onUnit_on (by simp [hd, hw]) on _

theorem shield_next {s : State} {net mo : Nat} (on : s.power.on = true) (hn : net < 24) :
    exec (.shieldResistanceCheck net mo) s = .next (after s (s.toPart.netCheck net mo)) := onUnit_on (by simpa using hn) on _

theorem refclk_next {s : State} {count : Nat} {lost : Bool} (on : s.power.on = true) :
    exec (.refclkMonitorWindow count lost) s = .next (after s (s.toPart.refclkWindow count lost)) :=
  powered_on on (fun p => p.refclkWindow count lost)

/-- Settles O36: each row is its act on the lattice, with a witness where the statement names one, and its readings read back. -/
theorem latticeRowsAct : Obligations.LatticeRowsAct := by
  refine ⟨fun s die l on hd some bounds clear => ?_, fun s die l on hd bounds some hot run clear => ?_, fun s die on hd some early => ?_,
    fun s die w mv on hd hw rail sensed low high => ?_, fun s die w mv on hd hw rail sensed low again anew => ?_,
    fun s count on xtal sensed low high => ?_, fun s count on xtal sensed => ?_, fun s net mo on hn => ⟨fun inside => ?_, fun out first => ?_,
      fun out again anew => ?_⟩, fun s die cls i b d on hd hc hi inUse bound within_ => ?_, fun s die cls i d on hd hc hi inUse few => ?_⟩
  · have cool : ¬ 480 < Part.greatestInt ((s.goodDiodes die l).map (·.2)) := by
      refine not_lt.2 (greatestInt_le (by simpa using some) fun x hx => ?_)
      obtain ⟨e, mem, rfl⟩ := List.mem_map.1 hx
      exact (bounds e mem).2
    refine ⟨_, onUnit_on hd on _, ?_⟩
    rw [sampleTemp_inBounds some (fun e mem => ⟨(bounds e mem).1, (bounds e mem).2.trans (by decide)⟩) clear]
    simp only [if_neg cool, Nat.le_zero, OfNat.ofNat_ne_zero, if_false]
    have act := within_shownTemp (p := s.toPart) (die := die) l 0
    have lat := lat_shownTemp (p := s.toPart) (die := die) l 0
    exact ⟨congrArg Machine.Lat.tj lat, congrArg Machine.Lat.tmin lat, congrArg Machine.Lat.diodes lat, congrArg Machine.Lat.hotRun lat,
      act.units .guard (by decide), act.units.keeps (by decide)⟩
  · refine ⟨_, onUnit_on hd on _, ?_⟩
    rw [sampleTemp_inBounds some bounds clear]
    simp only [if_pos hot, if_pos (show 2 ≤ (s.lat die).hotRun + 1 by omega)]
    exact ⟨thermal_thermalReport _ die, (((within_shownTemp l _).units.trans (within_updLat _ die _).units).trans
      (within_thermalReport _ die).units).keeps (by decide)⟩
  · obtain ⟨h, band, act⟩ := computeRate_early some early
    refine ⟨_, onUnit_on hd on _, ?_⟩
    rw [act]
    have lat := lat_setLat_same (p := s.toPart) (die := die)
      { s.lat die with history := (h :: (s.lat die).history).take 25, meas := 0, pred := 0, rateRun := 0 }
    refine ⟨congrArg Machine.Lat.meas lat, congrArg Machine.Lat.pred lat, congrArg Machine.Lat.rateRun lat,
      (congrArg (fun l : Machine.Lat => l.history.length) lat).trans ?_, rfl, ((within_setLat _).units.trans (changes_trngs _ _)).keeps (by decide)⟩
    simp only [List.length_take, List.length_cons]
    omega
  · rw [voltage_next on hd hw, voltageMean_inBounds rail sensed low high]
  · rw [voltage_next on hd hw, voltageMean_low rail sensed low again anew]
  · rw [refclk_next on, refclkWindow_runs xtal sensed]
    simp only [Bool.false_eq_true, if_false, if_neg (show ¬ 153 < ((count : Int) - 305176).natAbs by omega)]
  · rw [refclk_next on, refclkWindow_runs xtal sensed]
    simp only [if_true]
  · refine ⟨_, shield_next on hn, ?_⟩
    rw [netCheck_inBounds inside]
    refine ⟨(congrArg (fun l : Machine.Lat => l.shield.getLsbD net) (lat_setLat_same _)).trans ?_, congrArg Machine.Lat.badNets (lat_setLat_same _),
      congrArg Machine.Lat.netRun (lat_setLat_same _), rfl⟩
    simp only [BitVec.getLsbD_and, BitVec.getLsbD_not, getLsbD_bit hn, Bool.not_true, Bool.and_false]
  · refine ⟨_, shield_next on hn, ?_⟩
    rw [netCheck_first out first]
    refine ⟨(congrArg (fun l : Machine.Lat => l.shield.getLsbD net) (lat_setLat_same _)).trans ?_, congrArg Machine.Lat.badNets (lat_setLat_same _), rfl⟩
    simp only [BitVec.getLsbD_or, getLsbD_bit hn, Bool.or_true]
  · rw [shield_next on hn, netCheck_breach out again anew]
  · refine ⟨_, slice_next on hd hc hi, ?_⟩
    rw [slice_accepts inUse bound within_]
    have act := (within_latBump (p := s.toPart) (die := die) 0x0118).units.trans
      (within_setSensor (die := die) (cls := cls) (i := i) { s.sensor die cls i with trim := wanted s.toPart die cls i d, refusals := 0 }).units
    refine ⟨(sensor_setSensor_same _).trans ?_, act .guard (by decide), act.keeps (by decide)⟩
    exact congrArg (fun r => ({ trim := wanted s.toPart die cls i d, refusals := 0, retired := r } : Sensor)) inUse
  · obtain ⟨want, act⟩ := slice_refused (d := d) inUse
    refine ⟨_, slice_next on hd hc hi, ?_⟩
    rw [act, refuseTrim_counts few]
    have frame := ((within_latBump (p := s.toPart) (die := die) 0x0118).units.trans (within_refusalNoted (die := die) (cls := cls) (i := i) want).units).trans
      (within_setSensor (die := die) (cls := cls) (i := i) { s.sensor die cls i with refusals := (s.sensor die cls i).refusals + 1 }).units
    exact ⟨sensor_setSensor_same _, frame .guard (by decide), frame.keeps (by decide)⟩

/-! ### Noise sources and DRBG (R316, R319) -/

section
variable {p : Part} {die src : Nat}

theorem trng_setTrng_same (x : Trng) : (p.setTrng die x).trng die = x := Sparse.get_set_same _ _ _ _

theorem trng_of_trngs {q : Part} (same : q.trngs = p.trngs) (die : Nat) : q.trng die = p.trng die := by rw [Part.trng, same, Part.trng]

theorem within_setTrng (x : Trng) : Within [.trngs] p (p.setTrng die x) :=
  ⟨fun u hu => by cases u <;> simp [Unit_.Same, after, Part.setTrng] at hu ⊢, rfl⟩

theorem srcState_setSrc (t : Trng) (v : BitVec 2) : Part.srcState (Part.setSrc t src v) src = v := by
  unfold Part.srcState Part.setSrc
  split <;> rfl

/-- A DRBG that has served its first request after a reseed: what it gives the stalled cores brings no reseed nearer. -/
structure Reseeded (p : Part) (die n : Nat) : Prop where
  drbg : (p.trng die).drbg = 1
  due : (p.trng die).due = p.now + msec 10
  requests : (p.trng die).requests ≤ n

/-- A stalled core gets its value, a unit of four bytes, from the DRBG (R321). -/
def coreServed (die : Nat) (p : Part) (k : Nat) : Part :=
  if (p.core die k).stalledAt.isSome then
    (p.setCore die k { p.core die k with stalledAt := none, lastRandom := BitVec.ofNat 32 (be (p.drawn 4)) }).drbgTakes die 4
  else p

theorem within_coreServed (k : Nat) : Within [.seats, .counts, .trngs] p (coreServed die p k) :=
  .ite ((Within.refl.next (within_seats p _)).next (within_drbgTakes _ _ _)) .refl

theorem coreServed_reseeded {n : Nat} (h : Reseeded p die n) (few : n + 1 < 2 ^ 24) (k : Nat) : Reseeded (coreServed die p k) die (n + 1) := by
  unfold coreServed
  split
  · have given := trng_setTrng_same (p := ((p.setCore die k { p.core die k with stalledAt := none, lastRandom := BitVec.ofNat 32 (be (p.drawn 4)) }).draw 4).bump
      (regAddr die (trngWin die) 0x0118) ((4 + 15) / 16)) (die := die) { p.trng die with
        requests := (p.trng die).requests + (4 + 63) / 64
        due := if 2 ^ 24 ≤ (p.trng die).requests + (4 + 63) / 64 then min (p.trng die).due p.now else (p.trng die).due }
    have requests := h.requests
    refine ⟨(congrArg Trng.drbg given).trans h.drbg, ((congrArg Trng.due given).trans (if_neg ?_)).trans h.due, (congrArg Trng.requests given).trans_le ?_⟩
    · simp only [Nat.reduceAdd, Nat.reduceDiv]
      omega
    · simp only [Nat.reduceAdd, Nat.reduceDiv]
      omega
  · exact ⟨h.drbg, h.due, h.requests.trans (Nat.le_succ n)⟩

theorem foldl_coreServed (l : List Nat) (p : Part) (n : Nat) (few : n + l.length < 2 ^ 24) (h : Reseeded p die n) :
    Reseeded (l.foldl (coreServed die) p) die (n + l.length) := by
  induction l generalizing p n with
  | nil => exact h
  | cons k r ih =>
    have more : n + (k :: r).length = n + 1 + r.length := by simp only [List.length_cons]; omega
    rw [more] at few ⊢
    exact ih (coreServed die p k) (n + 1) few (coreServed_reseeded h (by omega) k)

/-- The DRBG of a die takes its entropy, 20 Dealer cycles after it fell due at the earliest. -/
def seeded (p : Part) (die : Nat) : Part :=
  (((p.atTime (p.trng die).due).wait 40).setTrng die { p.trng die with drbg := 1, due := max p.now (p.trng die).due + 40 + msec 10, requests := 0 }).bump
    (regAddr die (trngWin die) 0x0100)

theorem changes_seeded : ChangesOnly [.trngs, .counts] p (seeded p die) :=
  ((changes_now p _).trans (within_setTrng _).units).trans (changes_bump _ _ _)

theorem seeded_reseeded : Reseeded (seeded p die) die 0 := by
  have set := trng_setTrng_same (p := (p.atTime (p.trng die).due).wait 40) (die := die)
    { p.trng die with drbg := 1, due := max p.now (p.trng die).due + 40 + msec 10, requests := 0 }
  exact ⟨congrArg Trng.drbg set, congrArg Trng.due set, (congrArg Trng.requests set).le⟩

theorem reseed_serves (running : (p.trng die).drbg ≠ 0) (source : Part.anySource (p.trng die) = true) : p.reseed die =
    if die = 0 then seeded p die else (List.range 4).foldl (coreServed die) (seeded p die) :=
  (if_neg running).trans (if_pos source)

theorem reseed_overdue (running : (p.trng die).drbg = 1) (none : Part.anySource (p.trng die) = false) :
    p.reseed die = (p.atTime (p.trng die).due).setTrng die { p.trng die with drbg := 2 } := by
  refine (if_neg (by simp [running])).trans ((if_neg ?_).trans (if_pos running))
  simp [none]

/-- A source's failed test, in the counts of its die and in a record. -/
def failNoted (p : Part) (die src : Nat) (test : TrngTest) : Part :=
  match test with
  | .repetition => (p.bump (regAddr die (trngWin die) 0x0108)).latRecord die 0x0743 2 10 src src 1
  | .proportion => (p.bump (regAddr die (trngWin die) 0x0110)).latRecord die 0x0743 2 10 src src 2
  | .startUp => p.latRecord die 0x0743 2 10 src src 3

theorem within_failNoted (test : TrngTest) : Within noteUnits p (failNoted p die src test) := by
  cases test with
  | repetition => exact (within_bump p _ _).mono.next (within_latRecord _ _ _ _ _)
  | proportion => exact (within_bump p _ _).mono.next (within_latRecord _ _ _ _ _)
  | startUp => exact (within_latRecord _ _ _ _ _).mono

/-- The failures of the last second, with the one that happens now. -/
def failsNow (p : Part) (die src : Nat) : List (Nat × Nat) := (src, p.now) :: (p.trng die).fails.filter (fun f => p.now ≤ f.2 + sec 1)

theorem failsNow_length : ((failsNow p die src).filter (fun f => f.1 = src)).length = p.recentFails die src + 1 := by
  simp [failsNow, Part.recentFails, List.filter_filter]

theorem sourceFail_eq (test : TrngTest) (inUse : Part.srcState (p.trng die) src ≠ 3) : p.sourceFail die src test =
    if 3 ≤ p.recentFails die src + 1 then
      ((failNoted p die src test).setTrng die (Part.setSrc { p.trng die with fails := failsNow p die src } src 3)).latWitness die 10 src src
    else (failNoted p die src test).setTrng die (Part.setSrc { p.trng die with fails := failsNow p die src } src 2) := by
  rw [← failsNow_length]
  cases test <;> exact if_neg inUse

end

theorem fail_next {s : State} {die src : Nat} {test : TrngTest} (on : s.power.on = true) (hd : s.hasDie die = true) (hs : src < 2) :
    exec (.trngSourceFail die src test) s = .next (after s (s.toPart.sourceFail die src test)) := onUnit_on (by simp [hd, hs]) on _

/-- Settles O37: each row is its act on the die's TRNG, read back; a reseed leaves the new due time to all the cores it serves. -/
theorem trngRowsAct : Obligations.TrngRowsAct := by
  refine ⟨fun s die on hd running source => ?_, fun s die on hd running none => ?_, fun s die on hd running none => ?_,
    fun s die src test on hd hs inUse few => ?_, fun s die src test on hd hs inUse third => ?_, fun s die src on hd hs restarting => ?_⟩
  · refine ⟨_, onUnit_on hd on _, ?_⟩
    rw [reseed_serves running source]
    have first := seeded_reseeded (p := s.toPart) (die := die)
    have served := foldl_coreServed (List.range 4) _ 0 (by decide) first
    have act : Within [.seats, .counts, .trngs] (seeded s.toPart die)
        (if die = 0 then seeded s.toPart die else (List.range 4).foldl (coreServed die) (seeded s.toPart die)) :=
      .ite .refl (.foldl (fun p k => within_coreServed k) _ _)
    have clock : (s.trng die).due ≤ (seeded s.toPart die).now := (Nat.le_max_right s.now _).trans (Nat.le_add_right _ 40)
    refine ⟨?_, ?_, clock.trans act.now.ge, (changes_seeded.trans act.units).keeps (by decide)⟩
    · split
      · exact first.drbg
      · exact served.drbg
    · split
      · exact first.due
      · exact served.due
  · refine ⟨_, onUnit_on hd on _, ?_⟩
    rw [reseed_overdue running none]
    exact ⟨trng_setTrng_same _, ((changes_now s.toPart _).trans (within_setTrng _).units).keeps (by decide)⟩
  · refine ⟨_, (onUnit_on hd on _).trans (congrArg (fun q => Host.Outcome.next (after s q)) (if_pos ⟨running, none⟩)), ?_, ?_⟩
    · exact (trng_of_trngs (record_noted _ _ _ _ _ _ _).trngs die).trans (trng_setTrng_same _)
    · rw [(within_latRecord _ _ _ _ _).now]
      exact Nat.le_max_right _ _
  · refine ⟨_, fail_next on hd hs, ?_⟩
    rw [sourceFail_eq test inUse, if_neg (by omega)]
    have act := (within_failNoted (p := s.toPart) (die := die) (src := src) test).units.trans (within_setTrng (die := die)
      (Part.setSrc { s.trng die with fails := failsNow s.toPart die src } src 2)).units
    exact ⟨(congrArg (Part.srcState · src) (trng_setTrng_same _)).trans (srcState_setSrc _ 2), act .guard (by decide), act.keeps (by decide)⟩
  · exact ⟨_, (fail_next on hd hs).trans (congrArg (fun q => Host.Outcome.next (after s q)) ((sourceFail_eq test inUse).trans (if_pos (by omega)))),
      (congrArg (Part.srcState · src) (trng_setTrng_same _)).trans (srcState_setSrc _ 3)⟩
  · refine ⟨_, (onUnit_on (by simp [hd, hs]) on _).trans (congrArg (fun q => Host.Outcome.next (after s q)) (if_pos restarting)), ?_⟩
    have act := (within_setTrng (p := s.toPart) (die := die) (Part.setSrc (s.trng die) src 1)).units.trans
      (within_latRecord (die := die) (cls := 10) 0x0744 1 src src (s.recentFails die src)).units
    exact ⟨(congrArg (Part.srcState · src) ((trng_of_trngs (record_noted _ _ _ _ _ _ _).trngs die).trans (trng_setTrng_same _))).trans (srcState_setSrc _ 1),
      act .guard (by decide), act.keeps (by decide)⟩

end Sys2Proof.Lattice

/-! ## The count of refused slices, through a sensor's retirement (11 R313, R314) -/

namespace Sys2Proof.Refusals

/- The proofs are checked one after the other: side by side, those of the whole text need more stacks than the check's memory holds. -/
set_option Elab.async false

open Sys2Proof.Machine Sys2Proof.Safety Sys2Proof.Laws Sys2Proof.Architecture Sys2Proof.DealRows Sys2Proof.HostTransport Sys2Proof.Dispatching
  Sys2Proof.GuardRows Sys2Proof.Lattice

/-! ### LAT_RETRIM_REF apart from every other count

The count stands at 0x0C0120 of the Dealer and at 0x0A0120 of a Seat; no response counts at either. -/

/-- An address that is no die's count of refused slices. -/
def Elsewhere (b : Nat) : Prop := b % 0x1000000 ≠ 0x0C0120 ∧ b % 0x1000000 ≠ 0x0A0120

theorem elsewhere_reg (n : Nat) {w o : Nat} (apart : (w + o) % 0x1000000 ≠ 0x0C0120 ∧ (w + o) % 0x1000000 ≠ 0x0A0120 := by decide) :
    Elsewhere (regAddr n w o) := by
  unfold Elsewhere regAddr
  omega

/-- The counts of refused slices are the same. -/
def SameRefusals (p q : Part) : Prop := ∀ a, ¬ Elsewhere a → q.count a = p.count a

namespace SameRefusals

variable {p q r : Part}

theorem refl (p : Part) : SameRefusals p p := fun _ _ => rfl

theorem trans (h : SameRefusals p q) (k : SameRefusals q r) : SameRefusals p r := fun a ha => (k a ha).trans (h a ha)

theorem bump (h : SameRefusals p q) {b : Nat} (apart : Elsewhere b) (m : Nat := 1) : SameRefusals p (q.bump b m) := fun a ha =>
  (Sparse.get_set_other _ _ _ _ _ (by rintro rfl; exact ha apart)).trans (h a ha)

theorem of_counts (same : q.counts = p.counts) : SameRefusals p q := fun a _ => by rw [Part.count, same, Part.count]

theorem then_ (h : SameRefusals p q) (same : r.counts = q.counts := by rfl) : SameRefusals p r := h.trans (of_counts same)

theorem of_within {l : List Unit_} (act : Within l p q) (apart : Unit_.counts ∉ l := by decide) : SameRefusals p q :=
  of_counts (act.units .counts apart)

theorem ite {c : Prop} [Decidable c] (h : SameRefusals p q) (k : SameRefusals p r) : SameRefusals p (if c then q else r) := by
  split
  · exact h
  · exact k

theorem foldl {α : Type} {f : Part → α → Part} (hf : ∀ p a, SameRefusals p (f p a)) (xs : List α) (p : Part) : SameRefusals p (xs.foldl f p) := by
  induction xs generalizing p with
  | nil => exact refl p
  | cons a r ih => exact (hf p a).trans (ih _)

end SameRefusals

/-! ### Records and notices (14 R372 to R390) -/

section
variable (p : Part)

theorem refusals_ringCopy (r : Rec) (t : Bool) : SameRefusals p (p.ringCopy r t) := by
  unfold Part.ringCopy
  extract_lets old copied logged lost
  have logged : SameRefusals p logged := fun _ _ => rfl
  have lost : SameRefusals p lost := .ite (fun _ _ => rfl) logged
  exact .ite (.bump (.ite (lost.bump (elsewhere_reg 0)) lost) (elsewhere_reg 0)) (.ite (lost.bump (elsewhere_reg 0)) lost)

theorem refusals_stored (r : Rec) : SameRefusals p (p.tookSeq.forwardLater r) :=
  ((SameRefusals.refl (p.setEvr _)).bump (elsewhere_reg 0)).trans (.ite (fun _ _ => rfl) (.refl _))

theorem refusals_copies (r : Rec) (kitty : Bool) : SameRefusals p ((if kitty = true then p.kittyCopy r else p).ringCopy r) := by
  have copied : SameRefusals p (p.kittyCopy r) := .ite (.refl p) ((SameRefusals.refl (p.setEvr _)).bump (elsewhere_reg 0))
  exact (SameRefusals.ite copied (.refl p)).trans (refusals_ringCopy _ r false)

theorem refusals_store (r : Rec) (kitty : Bool) : SameRefusals p (p.store r kitty) := by
  have taken := refusals_stored p r
  have copied {q : Part} (h : SameRefusals p q) (r : Rec) := h.trans (refusals_copies q r kitty)
  unfold Part.store
  simp only
  generalize p.tookSeq.forwardLater r = q at taken ⊢
  split
  · split
    · have pinned (e : EvrUnit) : SameRefusals p (q.setEvr e) := taken
      exact .ite ((copied (pinned _) _).trans ((refusals_stored _ _).trans (refusals_ringCopy _ _ _))) (copied (pinned _) _)
    · exact copied (taken.bump (elsewhere_reg 0)) r
  · exact copied taken r

theorem refusals_toApplets (hand : Nat) (n : Notice) : SameRefusals p (p.toApplets hand n) := by
  refine .ite (.foldl (fun p k => ?_) _ p) (.refl p)
  exact .ite (fun _ _ => rfl) ((SameRefusals.refl (p.setAppNotices _)).bump (elsewhere_reg k))

theorem refusals_raise (n : Notice) (l : List (BitVec 32)) : SameRefusals p (p.raise n l) := by
  have raised : SameRefusals p (p.bump (regAddr 0 winNTC 0x0100)) := (SameRefusals.refl p).bump (elsewhere_reg 0)
  unfold Part.raise
  simp only
  generalize p.bump (regAddr 0 winNTC 0x0100) = q at raised ⊢
  split
  · exact raised
  · have spoken {q : Part} (h : SameRefusals p q) (sel : Session → Bool) : SameRefusals p (q.toSessions sel n) := h
    have housed {q : Part} (h : SameRefusals p q) (e : EvrUnit) : SameRefusals p (q.setEvr e) := h
    have withheld := raised.bump (b := regAddr 0 winNTC 0x0108) (elsewhere_reg 0)
    refine .ite (.trans ?_ (refusals_toApplets _ _ _)) ?_ <;>
      exact .ite (housed (spoken (.ite withheld raised) _) _) (spoken (.ite withheld raised) _)

theorem refusals_notice (source : Nat) (code : BitVec 16) (sev hand : Nat) (b : Bytes) (l : List (BitVec 32)) :
    SameRefusals p (p.notice source code sev hand b l) := refusals_raise p _ l

theorem refusals_create (code : BitVec 16) (sev : Nat) (f : Byte) (d : Nat) (x y z : Word) (kitty : Bool) :
    SameRefusals p (p.create code sev f d x y z kitty) := by
  unfold Part.create
  simp only
  split
  · exact (SameRefusals.refl p).bump (elsewhere_reg 0)
  · have stored (e : EvrUnit) (r : Rec) : SameRefusals p ((p.setEvr e).store r kitty) :=
      (SameRefusals.of_counts (q := p.setEvr e) rfl).trans (refusals_store _ r kitty)
    exact .ite ((stored _ _).trans (refusals_notice _ _ _ _ _ _ _)) (stored _ _)

theorem refusals_record (code : BitVec 16) (sev d : Nat) (x y z : Word) : SameRefusals p (p.record code sev d x y z) := by
  have suppressed : SameRefusals p (p.suppress d code) := by
    unfold Part.suppress
    extract_lets byGlobal key _ kept counted
    have counted : SameRefusals p counted := (SameRefusals.of_counts (q := kept) rfl).bump (elsewhere_reg 0)
    exact .ite (counted.bump (elsewhere_reg 0)) counted
  have taken : SameRefusals p (p.takeTokens d code) := fun _ _ => rfl
  exact .ite (refusals_create _ _ _ _ _ _ _ _ _) (.ite (taken.trans (refusals_create _ _ _ _ _ _ _ _ _)) suppressed)

theorem refusals_event (source : Nat) (code : BitVec 16) (sev d hand x y z : Nat) : SameRefusals p (p.event source code sev d hand x y z) :=
  (refusals_record p code sev d _ _ _).trans (refusals_notice _ _ _ _ _ _ _)

/-! ### Answering and stopping work -/

theorem refusals_countAnswer (st : BitVec 16) : SameRefusals p (p.countAnswer st) :=
  have one (off : Nat) (apart : Elsewhere (regAddr 0 winXCT off)) : SameRefusals p (p.bump (regAddr 0 winXCT off)) := (SameRefusals.refl p).bump apart
  .ite (one _ (elsewhere_reg 0)) (.ite (one _ (elsewhere_reg 0)) (.ite (one _ (elsewhere_reg 0)) (.ite (one _ (elsewhere_reg 0)) (.refl p))))

/-- An outcome that a call's instance takes is its Seat's own. -/
theorem within_callOutcome (u n k : Nat) (d : BitVec 32) (st : BitVec 16) (b : Bytes) : Within [.power, .xct, .seats] p (p.deliverCall u n k d st b) := by
  have dropped : Within [.power, .xct, .seats] p ((p.closeStreams u).dropCmd u).noteDrain :=
    ((within_closeStreams p _).mono.next (within_dropCmd _ _)).next (within_noteDrain _)
  refine .ite ?_ dropped
  exact ((((((dropped.next (within_guardedWrite _ _ _ _ _ _)).next (within_touch _ _ _ _ _)).next (within_guardedWrite _ _ _ _ _ _)).next
    (within_guardedWrite _ _ _ _ _ _)).next (within_guardedWrite _ _ _ _ _ _)).next (within_updCore _ _ _ _)).next (HostTransport.within_exited _ _ _)

theorem refusals_deliverCall (u n k : Nat) (d : BitVec 32) (st : BitVec 16) (b : Bytes) : SameRefusals p (p.deliverCall u n k d st b) :=
  .of_within (within_callOutcome p u n k d st b)

theorem refusals_sendRetract (u : Nat) (st : BitVec 16) : SameRefusals p (p.sendRetract u st) := by
  unfold Part.sendRetract
  split
  · exact .refl p
  · split
    · exact .refl p
    · refine .ite (.refl p) ?_
      next r _ =>
        have counted : SameRefusals p ((p.updCmd u (fun c => { c with retract := none })).bump (regAddr r.seat (if r.lane = 0 then swinLANEA else swinLANEB) 0x0120)) :=
          (SameRefusals.refl (p.updCmd u _)).bump (by split <;> exact elsewhere_reg _)
        exact (counted.trans (refusals_record _ _ _ _ _ _ _)).trans (refusals_notice _ _ _ _ _ _ _)

theorem within_answered (u : Nat) (st : BitVec 16) (b : Bytes) :
    Within [.power, .xct] p (((p.updCmd u (fun c => { c with place := .xct, status := st, payload := b })).ordered u).noteDrain) :=
  ((within_updCmd p u _).mono.next (within_ordered _ u)).next (within_noteDrain _)

theorem refusals_answer (u : Nat) (st : BitVec 16) (b : Bytes) : SameRefusals p (p.answer u st b) := by
  have retracted := refusals_sendRetract p u st
  unfold Part.answer
  extract_lets gone
  split
  · exact retracted
  · split
    · have closed : SameRefusals gone (gone.closeStreams u) := .of_within (within_closeStreams gone u)
      have counted : SameRefusals (gone.closeStreams u) ((gone.closeStreams u).countAnswer st) := refusals_countAnswer _ st
      have said := SameRefusals.of_within (within_answered ((gone.closeStreams u).countAnswer st) u st b)
      exact ((retracted.trans closed).trans counted).trans said
    · exact retracted.trans (refusals_deliverCall _ _ _ _ _ _ _)

theorem refusals_seatAnswer (n u : Nat) (st : BitVec 16) (b : Bytes) : SameRefusals p (p.seatAnswer n u st b) := by
  have retracted := refusals_sendRetract p u st
  unfold Part.seatAnswer
  extract_lets gone
  split
  · exact retracted
  · split
    · exact retracted.trans (.of_within (((within_closeStreams gone u).next (within_updCmd _ u _)).next (within_ordered _ u)))
    · exact retracted.trans (refusals_deliverCall _ _ _ _ _ _ _)

theorem refusals_countScrub (n : Nat) (site : Site) (i : Nat) : SameRefusals p (p.countScrub n site i) := by
  cases site with
  | tu => exact (SameRefusals.refl p).bump (by unfold Elsewhere regAddr swinTU; omega)
  | pke => exact (SameRefusals.refl p).bump (by unfold Elsewhere regAddr swinPKE; omega)
  | digest => exact (SameRefusals.refl p).bump (by split <;> exact elsewhere_reg _)
  | lane => exact .refl p
  | core => exact .refl p

theorem refusals_endRegJob (n : Nat) (st : BitVec 16) : SameRefusals p (p.endRegJob n st) := by
  unfold Part.endRegJob
  extract_lets paid ended counted
  have paid : SameRefusals p paid := by
    unfold paid
    split <;> exact fun _ _ => rfl
  have ended : SameRefusals p ended := paid
  have counted : SameRefusals p counted := .ite (ended.bump (elsewhere_reg n)) ended
  exact counted

theorem refusals_releaseClaim (n : Nat) (st : BitVec 16) : SameRefusals p (p.releaseClaim n st) := by
  have freed (x : Dgst) : SameRefusals p (p.setDgst n 1 x) := fun _ _ => rfl
  exact .ite (((freed _).trans (refusals_countScrub _ _ _ _)).trans (refusals_endRegJob _ _ _)) (freed _)

theorem refusals_freed (n : Nat) (site : Site) (i u : Nat) : SameRefusals p (((p.forget u).freeEngine n site i u).countScrub n site i) :=
  (SameRefusals.of_within (l := [.vault, .seats]) ((within_forget p u).mono.next (within_freeEngine _ _ _ _ _))).trans (refusals_countScrub _ _ _ _)

theorem refusals_stopWork (u : Nat) (st : Option (BitVec 16)) (b : Bytes) : SameRefusals p (p.stopWork u st b) := by
  have forgot : SameRefusals p (p.forget u) := fun _ _ => rfl
  unfold Part.stopWork
  split
  · exact .refl p
  · simp only
    split
    · exact refusals_freed p _ _ _ u
    · exact refusals_freed p _ _ _ u
    · exact forgot
    · exact forgot
    · exact forgot.trans (refusals_answer _ _ _ _)
    · exact forgot

theorem refusals_endInstance (n k : Nat) (st : Option (BitVec 16)) (b : Bytes) (cause : Nat) : SameRefusals p (p.endInstance n k st b cause) := by
  unfold Part.endInstance
  extract_lets c answer stopped left released unclaimed idle recorded
  split
  · exact .refl p
  · have stopped : SameRefusals p stopped :=
      (SameRefusals.of_within (within_updCore p _ _ _)).trans (.foldl (fun p u => refusals_stopWork p u _ _) _ _)
    have released : SameRefusals p released := .ite (stopped.trans (refusals_releaseClaim _ _ _)) stopped
    have recorded : SameRefusals p recorded := (released.then_ (r := idle)).trans (refusals_event _ _ _ _ _ _ _ _ _)
    split
    · exact recorded
    · exact .ite (.ite (recorded.trans (refusals_seatAnswer _ _ _ _ _)) (recorded.trans (refusals_answer _ _ _ _))) recorded

theorem refusals_stopCommand (u : Nat) (st : Option (BitVec 16)) (b : Bytes) : SameRefusals p (p.stopCommand u st b) := by
  unfold Part.stopCommand
  split
  · exact .refl p
  · split
    · exact refusals_endInstance p _ _ _ _ _
    · exact refusals_stopWork p _ _ _

theorem refusals_loseSeat (n : Nat) (st : BitVec 16) : SameRefusals p (p.loseSeat n st) := by
  have worked : SameRefusals p ((p.xct.cmds.filter (fun c => c.onSeat n && !c.isCall)).foldl (fun p c =>
      if c.startMark = false then p.redeal n c
      else match c.place with
        | .scrubbing .. => p.updCmd c.uid (fun c => { c with status := st, payload := [] })
        | _ => p.stopCommand c.uid (some st)) p) := by
    refine .foldl (fun p c => .ite ?_ ?_) _ p
    · exact ((SameRefusals.refl (p.updCmd c.uid _)).bump (elsewhere_reg 0)).trans (refusals_event _ _ _ _ _ _ _ _ _)
    · split
      · exact fun _ _ => rfl
      · exact refusals_stopCommand p _ _ _
  exact worked.trans (refusals_releaseClaim _ _ _)

/-! ### Ceremonies, Holds, Sheds and Erase -/

theorem elsewhere_cer {port o : Nat} (low : o < 0x10000 := by decide) : Elsewhere (regAddr 0 (Part.cerWin port) o) := by
  unfold Elsewhere regAddr Part.cerWin winCERA winCERB
  split <;> omega

theorem refusals_voidCeremony (port : Nat) : SameRefusals p (p.voidCeremony port) := by
  have stepped : SameRefusals p (p.endStep port CerStatus.void) := by
    unfold Part.endStep
    split
    · exact .refl p
    · extract_lets timed unknown
      have timed : SameRefusals p timed := .ite ((SameRefusals.refl p).bump elsewhere_cer) (.refl p)
      have unknown : SameRefusals p unknown := .ite (timed.bump elsewhere_cer) timed
      exact (unknown.trans (.of_within ((within_updCer _ _ _).next (within_deactivate _ _)))).trans (refusals_answer _ _ _ _)
  unfold Part.voidCeremony
  simp only
  split
  · exact stepped
  · exact (stepped.trans (.of_within ((within_updCer _ _ _).next (within_deactivate _ _)))).trans (refusals_event _ _ _ _ _ _ _ _ _)

theorem refusals_lapseAuth (port : Nat) : SameRefusals p (p.lapseAuth port) := by
  unfold Part.lapseAuth
  split
  · exact .refl p
  · exact (SameRefusals.of_within (within_updCer p _ _)).trans (refusals_event _ _ _ _ _ _ _ _ _)

theorem refusals_voidSeatCeremonies (n : Nat) : SameRefusals p (p.voidSeatCeremonies n) := by
  refine .foldl (fun p port => ?_) _ p
  extract_lets voided
  have voided : SameRefusals p voided := by
    unfold voided
    split
    · exact .ite (refusals_voidCeremony p port) (.refl p)
    · exact .refl p
  split
  · exact .ite (voided.trans (refusals_lapseAuth _ port)) voided
  · exact voided

theorem refusals_relevel : SameRefusals p p.relevel := by
  unfold Part.relevel
  extract_lets old new
  have shown : Within [.power] p (p.setPower { p.power with level := new }) := within_setPower p _
  exact .ite (.refl p) ((SameRefusals.of_within shown).trans (refusals_event _ _ _ _ _ _ _ _ _))

theorem refusals_guardEvent (code : BitVec 16) (sev die cls wsev index p2 p3 : Nat) : SameRefusals p (p.guardEvent code sev die cls wsev index p2 p3) :=
  refusals_event p _ _ _ _ _ _ _ _

theorem refusals_holdSeat (n cls sev index : Nat) : SameRefusals p (p.holdSeat n cls sev index) := by
  unfold Part.holdSeat
  extract_lets holds held said
  have said : SameRefusals p said := ((SameRefusals.of_within (within_updSeat p n _)).bump (elsewhere_reg 0)).trans (refusals_guardEvent _ _ _ _ _ _ _ _ _)
  exact (said.trans (refusals_loseSeat _ _ _)).trans (refusals_relevel _)

theorem refusals_holdDealer (cls sev index : Nat) : SameRefusals p (p.holdDealer cls sev index) := by
  unfold Part.holdDealer
  extract_lets holds _ held said
  have said : SameRefusals p said := ((SameRefusals.of_within (within_setGuard p _)).bump (elsewhere_reg 0)).trans (refusals_guardEvent _ _ _ _ _ _ _ _ _)
  exact said.trans (.foldl (fun p _ => refusals_answer p _ _ _) _ _)

theorem refusals_wipeCache (sel : CacheEntry → Bool) : SameRefusals p (p.wipeCache sel) := by
  unfold Part.wipeCache
  extract_lets gone left
  have left : SameRefusals p left := .of_within (l := [.seats]) (within_seats p _)
  refine left.trans (.foldl (fun p c => ?_) _ _)
  exact (SameRefusals.refl p).bump (elsewhere_reg c.seat (w := swinKCACHE) (o := 0x0110))

theorem refusals_dropConfirm (n : Nat) : SameRefusals p (p.dropConfirm n) := by
  unfold Part.dropConfirm
  extract_lets ms due _ dropped
  have dropped : SameRefusals p dropped := fun _ _ => rfl
  refine dropped.trans (.foldl (fun p m => ?_) _ _)
  split
  · exact refusals_answer p _ _ _
  · exact .refl p

theorem refusals_shedSeat (n : Nat) (thermal : Bool) (cls sev index : Nat) : SameRefusals p (p.shedSeat n thermal cls sev index) := by
  unfold Part.shedSeat
  extract_lets old sheds shed noted wiped emptied clear _ left
  have shed : SameRefusals p shed := .of_within (within_updSeat p n _)
  have noted : SameRefusals p noted := (shed.bump (elsewhere_reg 0)).trans (refusals_guardEvent _ _ _ _ _ _ _ _ _)
  have wiped : SameRefusals p wiped := ((noted.trans (refusals_loseSeat _ _ _)).trans (refusals_voidSeatCeremonies _ _)).trans (refusals_wipeCache _ _)
  have emptied' : SameRefusals p emptied := (wiped.trans (.of_within (within_emptyEngines _ _))).trans (refusals_dropConfirm _ _)
  have left : SameRefusals emptied left := .of_counts rfl
  exact (emptied'.trans left).trans (refusals_relevel _)

theorem refusals_eraseNow (die cls sev index groups : Nat) : SameRefusals p (p.eraseNow die cls sev index groups) := by
  unfold Part.eraseNow
  extract_lets voided closed disarmed parkSeat parked bare _ _ _ _ _ _ _ cleared
  have closed : SameRefusals p closed := (refusals_voidCeremony p 0).trans (refusals_voidCeremony _ 1)
  have disarmed' : SameRefusals p disarmed :=
    .ite ((closed.trans (refusals_create _ _ _ _ _ _ _ _ _)).trans (refusals_notice _ _ _ _ _ _ _)) closed
  have parked' : SameRefusals disarmed parked :=
    .foldl (f := parkSeat) (fun p n => .of_within (((within_emptyEngines p n).mono (l := [.seats])).next (within_updSeat _ _ _))) _ _
  have cleared : SameRefusals parked (Part.wait cleared (usec 40)) := .of_counts rfl
  exact (((disarmed'.trans parked').trans cleared).trans (refusals_guardEvent _ _ _ _ _ _ _ _ _)).trans (refusals_relevel _)

theorem refusals_respond (die cls sev index r : Nat) (floor : Bool) : SameRefusals p (p.respond die cls sev index r floor) :=
  .ite (refusals_eraseNow p _ _ _ _ _) (.ite (refusals_shedSeat p _ _ _ _ _) (.ite
    (.ite (.ite (.refl p) (refusals_holdDealer p _ _ _)) (.ite (.refl p) (refusals_holdSeat p _ _ _ _)))
    ((SameRefusals.refl p).bump (elsewhere_reg 0))))

theorem refusals_witness (die cls index mag : Nat) : SameRefusals p (p.witness die cls index mag) := by
  unfold Part.witness
  extract_lets _ _ _ listed quiet
  refine .ite (.refl p) ?_
  split
  next taken up down _ =>
    extract_lets _ shown said doubted must
    have listed' : SameRefusals p listed := .of_within (within_setGuard p _)
    have quieted : SameRefusals p quiet := listed'.trans (.ite (.refl _) (.of_within (within_updSeat listed _ _)))
    have shown' : SameRefusals p shown := quieted.trans (.of_within (within_setGuard quiet _))
    have said' : SameRefusals p said := shown'.trans (refusals_guardEvent _ _ _ _ _ _ _ _ _)
    have doubted' : SameRefusals p doubted := .ite ((said'.bump (elsewhere_reg 0)).trans (refusals_guardEvent _ _ _ _ _ _ _ _ _)) said'
    exact doubted'.trans (refusals_respond _ _ _ _ _ _ _)

theorem refusals_latWitness (die cls index mag : Nat) : SameRefusals p (p.latWitness die cls index mag) := by
  have shown : SameRefusals p (shellShown p die cls index mag) := .of_within (within_updLat p die _)
  have counted : SameRefusals p (shellCounted p die cls index mag) := by
    unfold shellCounted
    have overrun : SameRefusals p ((shellShown p die cls index mag).bump (regAddr 0 winCLKPWR 0x0110)) := shown.bump (elsewhere_reg 0)
    refine (SameRefusals.ite overrun shown).bump ?_
    unfold witnessCount
    split <;> exact elsewhere_reg _
  rw [latWitness_eq]
  exact counted.trans (refusals_witness _ _ _ _ _)

theorem sensor_witness (die c i m : Nat) (d cls index : Nat) : (p.witness d c i m).sensor die cls index = p.sensor die cls index := by
  by_cases none : severity c m = 0
  · rw [witness_of_none p none]
  · exact sensor_of_lats ((witness_responds p none d i).units .lats (by decide))

theorem sensor_latWitness (die c i m : Nat) (cls index : Nat) : (p.latWitness die c i m).sensor die cls index = p.sensor die cls index := by
  rw [latWitness_eq, sensor_witness, sensor_of_lats (lats_shellCounted p die c i m), Part.sensor, Part.sensor, shellShown, lat_updLat_same]

/-! ### A refused slice (R313) -/

section
variable {p} {die cls i : Nat}

/-- A die's count of refused slices. -/
abbrev refusals (die : Nat) : Nat := regAddr die (Part.latWin die) 0x0120

theorem refusals_apart : ¬ Elsewhere (refusals die) := by
  unfold Elsewhere refusals regAddr Part.latWin winLAT swinLAT
  split <;> omega

theorem refusals_refusalNoted (want : Int) : (refusalNoted p die cls i want).count (refusals die) = p.count (refusals die) + 1 :=
  (refusals_record (p.latBump die 0x0120) _ _ _ _ _ _ _ refusals_apart).trans (Sparse.get_set_same _ _ _ _)

/-- A third refusal in a row retires the sensor, which keeps its trim (R313, R314). -/
theorem refuseTrim_retires {x : Sensor} (last : ¬ x.refusals < 2) (want : Int) : ∃ q : Part,
    SameRefusals ((refusalNoted p die cls i want).setSensor die cls i { x with refusals := 3, retired := true }) q ∧
    q.sensor die cls i = { x with refusals := 3, retired := true } ∧ p.refuseTrim die cls i x want = q := by
  unfold Part.refuseTrim
  extract_lets factory noted retired recorded seen
  refine ⟨_, ?_, ?_, if_neg (by omega)⟩
  · have told : SameRefusals retired seen := (refusals_record retired _ _ _ _ _ _).trans (refusals_latWitness recorded die 11 i i)
    have lost : SameRefusals seen ((seen.updLat die (fun l => { l with cover := true })).latWitness die 11 i 0xFFFF) :=
      (SameRefusals.of_within (within_updLat seen die _)).trans (refusals_latWitness _ _ _ _ _)
    exact told.trans (.ite lost (.refl seen))
  · have told : seen.sensor die cls i = { x with refusals := 3, retired := true } :=
      (sensor_latWitness recorded die 11 i i cls i).trans ((sensor_of_lats ((within_record retired _ _ _ _ _ _).units .lats (by decide))).trans
        (sensor_setSensor_same _))
    split
    · rw [sensor_latWitness, Part.sensor, lat_updLat_same]
      exact told
    · exact told

theorem refuseTrim_leaves (x : Sensor) (want : Int) : ((p.refuseTrim die cls i x want).sensor die cls i).trim = x.trim ∧
    (p.refuseTrim die cls i x want).count (refusals die) = p.count (refusals die) + 1 := by
  have moved (y : Sensor) : ((refusalNoted p die cls i want).setSensor die cls i y).count (refusals die) = p.count (refusals die) + 1 :=
    refusals_refusalNoted want
  by_cases few : x.refusals < 2
  · rw [refuseTrim_counts few]
    exact ⟨(congrArg Sensor.trim (sensor_setSensor_same _)).trans rfl, moved _⟩
  · obtain ⟨q, same, shown, act⟩ := refuseTrim_retires (p := p) (cls := cls) (i := i) few want
    rw [act, shown]
    exact ⟨rfl, (same _ refusals_apart).trans (moved _)⟩

end

end

/-- Settles O51: a slice beyond the bound is a refused one, which leaves the trim, counts and is recorded; a third one retires the sensor, and no
response of the guard moves either. -/
theorem trimStaysInBound : Obligations.TrimStaysInBound := by
  unfold Obligations.TrimStaysInBound
  intro s die cls i b d on hd hc hi inUse bound beyond
  refine ⟨_, slice_next on hd hc hi, ?_⟩
  rw [slice_outOfBound inUse bound beyond]
  obtain ⟨kept, counted⟩ := refuseTrim_leaves (p := s.latBump die 0x0118) (die := die) (cls := cls) (i := i) (s.sensor die cls i) (wanted s.toPart die cls i d)
  refine ⟨kept, counted.trans (congrArg (· + 1) (Sparse.get_set_other _ _ _ _ _ ?_)), fun few => ?_⟩
  · change ¬ regAddr die (Part.latWin die) 0x0120 = regAddr die (Part.latWin die) 0x0118
    unfold regAddr
    omega
  · rw [refuseTrim_counts few]
    exact ⟨(s.latBump die 0x0118).latBump die 0x0120, rfl, rfl⟩

end Sys2Proof.Refusals

/-! ## Modes of operation and format-preserving encryption undo themselves (06, 07) -/

namespace Sys2Proof.Modes

/- The proofs are checked one after the other: side by side, those of the whole text need more stacks than the check's memory holds. -/
set_option Elab.async false

open Sys2Proof.Machine Sys2Proof.Safety

/-! ### Blocks of a message -/

theorem chunksAux_enough {n : Nat} (pos : 0 < n) {fuel : Nat} {b : Bytes} (enough : b.length ≤ fuel) : chunksAux n fuel b = chunks n b := by
  suffices same : ∀ (k : Nat) {l : Nat} {b : Bytes}, b.length ≤ k → b.length ≤ l → chunksAux n k b = chunksAux n l b from same fuel enough le_rfl
  intro k
  induction k with
  | zero =>
    intro l b hk _
    obtain rfl := List.length_eq_zero_iff.1 (Nat.le_zero.1 hk)
    cases l <;> rfl
  | succ k ih =>
    intro l b hk hl
    cases b with
    | nil => cases l <;> rfl
    | cons x b =>
      obtain ⟨l, rfl⟩ : ∃ m, l = m + 1 := ⟨l - 1, by simp only [List.length_cons] at hl; omega⟩
      have shorter {j : Nat} (h : (x :: b).length ≤ j + 1) : ((x :: b).drop n).length ≤ j := by
        rw [List.length_drop]
        omega
      exact congrArg (_ :: ·) (ih (shorter hk) (shorter hl))

theorem chunks_of_ne_nil {n : Nat} (pos : 0 < n) {b : Bytes} (some : b ≠ []) : chunks n b = b.take n :: chunks n (b.drop n) := by
  cases b with
  | nil => exact absurd rfl some
  | cons x b =>
    have left : ((x :: b).drop n).length ≤ b.length := by
      rw [List.length_drop, List.length_cons]
      omega
    exact congrArg (_ :: ·) (chunksAux_enough pos left)

theorem chunks_append {n : Nat} (pos : 0 < n) {b : Bytes} (len : b.length = n) (r : Bytes) : chunks n (b ++ r) = b :: chunks n r := by
  rw [chunks_of_ne_nil pos (List.append_ne_nil_of_left_ne_nil (List.length_pos_iff.1 (len ▸ pos)) r), List.take_left' len, List.drop_left' len]

/-- What is masked twice with the same bytes comes back. -/
theorem xorBytes_cancel : ∀ {a k : Bytes}, a.length ≤ k.length → xorBytes (xorBytes a k) k = a
  | [], _, _ => rfl
  | x :: a, y :: k, h => by
    have rest := xorBytes_cancel (a := a) (k := k) (Nat.le_of_succ_le_succ h)
    have head : x ^^^ y ^^^ y = x := by rw [BitVec.xor_assoc, BitVec.xor_self, BitVec.xor_zero]
    exact congrArg₂ List.cons head rest

theorem xorBytes_comm (a b : Bytes) : xorBytes a b = xorBytes b a := List.zipWith_comm_of_comm BitVec.xor_comm

/-! ### CBC -/

section
variable {n : Nat} {f g : Bytes → Bytes} (pos : 0 < n) (inverse : ∀ b, b.length = n → (f b).length = n ∧ g (f b) = b)
include pos inverse

theorem cbc_inverts {iv m : Bytes} (len : iv.length = n) (whole : m.length % n = 0) :
    cbcDec n g iv (cbcEnc n f iv m) = m ∧ (cbcEnc n f iv m).length = m.length := by
  induction hl : m.length using Nat.strong_induction_on generalizing iv m with
  | _ l ih =>
  by_cases empty : m = []
  · subst empty
    exact ⟨rfl, hl⟩
  · have first : n ≤ m.length := Nat.le_of_dvd (List.length_pos_iff.2 empty) (Nat.dvd_of_mod_eq_zero whole)
    have taken : (m.take n).length = n := List.length_take_of_le first
    have masked : (xorBytes iv (m.take n)).length = n := by rw [xorBytes_length, len, taken, Nat.min_self]
    obtain ⟨blockLen, back⟩ := inverse _ masked
    have rest : (m.drop n).length = m.length - n := List.length_drop
    have wholeRest : (m.drop n).length % n = 0 := by rw [rest, ← Nat.mod_eq_sub_mod first, whole]
    obtain ⟨ihDec, ihLen⟩ := ih (m.drop n).length (by omega) blockLen wholeRest rfl
    have encrypted : cbcEnc n f iv m = f (xorBytes iv (m.take n)) ++ cbcEnc n f (f (xorBytes iv (m.take n))) (m.drop n) := by
      rw [cbcEnc, chunks_of_ne_nil pos empty]
      rfl
    have unmasked : xorBytes iv (xorBytes iv (m.take n)) = m.take n := by
      rw [xorBytes_comm iv, xorBytes_comm iv, xorBytes_cancel (by rw [taken, len])]
    constructor
    · rw [encrypted, cbcDec, chunks_append pos blockLen]
      change xorBytes iv (g _) ++ cbcDec n g _ (cbcEnc n f _ (m.drop n)) = m
      rw [back, ihDec, unmasked, List.take_append_drop]
    · rw [encrypted, List.length_append, blockLen, ihLen, rest]
      omega

end

/-! ### Counter mode -/

section
variable (f : Bytes → Bytes) (bits : Nat) (iv : Bytes)

/-- A message under the key stream from its `k`-th block on. -/
def ctrFrom (k : Nat) (m : Bytes) : Bytes := ((chunks 16 m).zipIdx k).flatMap (fun e => xorBytes e.1 (f (ctrBlock bits iv e.2)))

theorem ctrFrom_of_ne_nil {k : Nat} {m : Bytes} (some : m ≠ []) :
    ctrFrom f bits iv k m = xorBytes (m.take 16) (f (ctrBlock bits iv k)) ++ ctrFrom f bits iv (k + 1) (m.drop 16) := by
  rw [ctrFrom, chunks_of_ne_nil (by decide) some, List.zipIdx_cons, List.flatMap_cons, ← ctrFrom]

theorem ctrFrom_inverts (blocks : ∀ b, (f b).length = 16) (k : Nat) (m : Bytes) :
    ctrFrom f bits iv k (ctrFrom f bits iv k m) = m ∧ (ctrFrom f bits iv k m).length = m.length := by
  induction hl : m.length using Nat.strong_induction_on generalizing k m with
  | _ l ih =>
  by_cases empty : m = []
  · subst empty
    exact ⟨rfl, hl⟩
  · have some := List.length_pos_iff.2 empty
    have rest : (m.drop 16).length = m.length - 16 := List.length_drop
    obtain ⟨ihBack, ihLen⟩ := ih (m.drop 16).length (by omega) (k + 1) (m.drop 16) rfl
    have stream := blocks (ctrBlock bits iv k)
    have masked : (xorBytes (m.take 16) (f (ctrBlock bits iv k))).length = (m.take 16).length := by
      rw [xorBytes_length, stream, List.length_take]
      omega
    have len : (ctrFrom f bits iv k m).length = m.length := by
      rw [ctrFrom_of_ne_nil f bits iv empty, List.length_append, masked, ihLen, ← List.length_append, List.take_append_drop]
    refine ⟨?_, len.trans hl⟩
    have take : (ctrFrom f bits iv k m).take 16 = xorBytes (m.take 16) (f (ctrBlock bits iv k)) ∧
        (ctrFrom f bits iv k m).drop 16 = ctrFrom f bits iv (k + 1) (m.drop 16) := by
      rw [ctrFrom_of_ne_nil f bits iv empty]
      by_cases full : 16 ≤ m.length
      · have whole := masked.trans (List.length_take_of_le full)
        exact ⟨List.take_left' whole, List.drop_left' whole⟩
      · have last : m.drop 16 = [] := List.drop_eq_nil_of_le (by omega)
        rw [last, show ctrFrom f bits iv (k + 1) [] = [] from rfl, List.append_nil]
        have short : (xorBytes (m.take 16) (f (ctrBlock bits iv k))).length ≤ 16 := by
          rw [masked, List.length_take]
          omega
        exact ⟨List.take_of_length_le short, List.drop_eq_nil_of_le short⟩
    obtain ⟨head, tail⟩ := take
    rw [ctrFrom_of_ne_nil f bits iv (List.length_pos_iff.1 (len ▸ some)), head, tail, ihBack,
      xorBytes_cancel (by rw [stream, List.length_take]; omega), List.take_append_drop]

end

/-- Settles O53: block by block, the mask of CBC and of counter mode cancels. -/
theorem modesInvert : Obligations.ModesInvert := by
  unfold Obligations.ModesInvert
  exact ⟨fun n f g iv m pos inverse len whole => cbc_inverts pos inverse len whole,
    fun f bits iv m blocks => ctrFrom_inverts f bits iv blocks 0 m⟩

/-! ### FF1 (06, SP 800-38G) -/

theorem numOf_concat (d : List Nat) (x : Nat) : numOf (d ++ [x]) = 10 * numOf d + x := by
  rw [numOf, List.foldl_append]
  rfl

/-- `m` decimal digits. -/
def Digits (m : Nat) (d : List Nat) : Prop := d.length = m ∧ ∀ x ∈ d, x < 10

theorem digits_digitsOf (m v : Nat) : Digits m (digitsOf m v) := by
  induction m generalizing v with
  | zero => exact ⟨rfl, fun x hx => absurd hx List.not_mem_nil⟩
  | succ m ih =>
    obtain ⟨len, small⟩ := ih (v / 10)
    refine ⟨by simp [digitsOf, len], fun x hx => ?_⟩
    rcases List.mem_append.1 hx with hx | hx
    · exact small x hx
    · rw [List.mem_singleton.1 hx]
      exact Nat.mod_lt _ (by decide)

theorem numOf_digitsOf (m v : Nat) : numOf (digitsOf m v) = v % 10 ^ m := by
  induction m generalizing v with
  | zero => rw [pow_zero, Nat.mod_one]; rfl
  | succ m ih =>
    rw [digitsOf, numOf_concat, ih, Nat.pow_succ', Nat.mod_mul]
    omega

theorem digitsOf_numOf {m : Nat} {d : List Nat} (digits : Digits m d) : digitsOf m (numOf d) = d := by
  obtain ⟨rfl, small⟩ := digits
  induction d using List.reverseRecOn with
  | nil => rfl
  | append_singleton d x ih =>
    have last : x < 10 := small x (by simp)
    rw [List.length_append, List.length_singleton, digitsOf, numOf_concat, show (10 * numOf d + x) / 10 = numOf d by omega,
      show (10 * numOf d + x) % 10 = x by omega, ih (fun y hy => small y (List.mem_append_left _ hy))]

theorem numOf_lt {m : Nat} {d : List Nat} (digits : Digits m d) : numOf d < 10 ^ m := by
  have num := numOf_digitsOf m (numOf d)
  rw [digitsOf_numOf digits] at num
  rw [num]
  exact Nat.mod_lt _ (by positivity)

/-- The digits of the half that round `i` changes. -/
abbrev halfLen (n i : Nat) : Nat := if i % 2 = 0 then n / 2 else n - n / 2

/-- The halves as round `i` finds them. -/
def Halves (n i : Nat) (ab : List Nat × List Nat) : Prop := Digits (halfLen n i) ab.1 ∧ Digits (halfLen n (i + 1)) ab.2

section
variable (f : Bytes → Bytes) (n : Nat) (t : Bytes)

theorem halfLen_add_two (i : Nat) : halfLen n (i + 2) = halfLen n i := by
  unfold halfLen
  rw [Nat.add_mod_right]

/-- A round leaves the halves as the next finds them, and a round of decryption takes it back. -/
theorem ff1_round_inverts {i : Nat} {ab : List Nat × List Nat} (halves : Halves n i ab) :
    Halves n (i + 1) (ff1EncRounds f n t [i] ab) ∧ ff1DecRounds f n t [i] (ff1EncRounds f n t [i] ab) = ab := by
  obtain ⟨a, b⟩ := ab
  obtain ⟨left, right⟩ := halves
  refine ⟨⟨right, by rw [halfLen_add_two]; exact digits_digitsOf _ _⟩, Prod.ext ?_ rfl⟩
  change digitsOf (halfLen n i) ((numOf (digitsOf (halfLen n i) ((numOf a + ff1Round f n t i b) % 10 ^ halfLen n i)) +
    (10 ^ halfLen n i - ff1Round f n t i b % 10 ^ halfLen n i)) % 10 ^ halfLen n i) = a
  have num : numOf a < 10 ^ halfLen n i := numOf_lt left
  rw [numOf_digitsOf, Nat.mod_mod]
  have undone (x y z : Nat) (lt : x < z) : ((x + y) % z + (z - y % z)) % z = x := by
    have below : y % z ≤ z := (Nat.mod_lt y (by omega)).le
    rw [Nat.mod_add_mod, ← Nat.add_sub_assoc below]
    have split := Nat.mod_add_div y z
    rw [show x + y + z - y % z = x + z * (y / z + 1) by rw [Nat.mul_add]; omega, Nat.add_mul_mod_self_left, Nat.mod_eq_of_lt lt]
  rw [undone _ _ _ num, digitsOf_numOf left]

theorem ff1EncRounds_cons (i : Nat) (is : List Nat) (ab : List Nat × List Nat) :
    ff1EncRounds f n t (i :: is) ab = ff1EncRounds f n t is (ff1EncRounds f n t [i] ab) := rfl

theorem ff1DecRounds_append (is js : List Nat) (ab : List Nat × List Nat) :
    ff1DecRounds f n t (is ++ js) ab = ff1DecRounds f n t js (ff1DecRounds f n t is ab) := by
  induction is generalizing ab with
  | nil => rfl
  | cons i is ih => exact ih _

theorem ff1_rounds_invert (k : Nat) {i : Nat} {ab : List Nat × List Nat} (halves : Halves n i ab) :
    Halves n (i + k) (ff1EncRounds f n t (List.range' i k) ab) ∧
    ff1DecRounds f n t (List.range' i k).reverse (ff1EncRounds f n t (List.range' i k) ab) = ab := by
  induction k generalizing i ab with
  | zero => exact ⟨halves, rfl⟩
  | succ k ih =>
    obtain ⟨next, back⟩ := ff1_round_inverts f n t halves
    obtain ⟨last, undone⟩ := ih next
    rw [List.range'_succ, ff1EncRounds_cons, List.reverse_cons, ff1DecRounds_append, undone]
    exact ⟨by rwa [Nat.add_right_comm] at last, back⟩

end

/-- Settles O54: each round's sum is taken back by the round's difference, in the opposite order. -/
theorem ff1Inverts : Obligations.Ff1Inverts := by
  unfold Obligations.Ff1Inverts
  intro f tweak d small
  have halves : Halves d.length 0 (d.take (d.length / 2), d.drop (d.length / 2)) :=
    ⟨⟨List.length_take_of_le (Nat.div_le_self _ _), fun x hx => small x (List.mem_of_mem_take hx)⟩,
      ⟨List.length_drop, fun x hx => small x (List.mem_of_mem_drop hx)⟩⟩
  have encrypted : ff1Enc f tweak d = (ff1EncRounds f d.length tweak (List.range' 0 10) (d.take (d.length / 2), d.drop (d.length / 2))).1 ++
      (ff1EncRounds f d.length tweak (List.range' 0 10) (d.take (d.length / 2), d.drop (d.length / 2))).2 := rfl
  obtain ⟨last, back⟩ := ff1_rounds_invert f d.length tweak 10 halves
  generalize ff1EncRounds f d.length tweak (List.range' 0 10) (d.take (d.length / 2), d.drop (d.length / 2)) = e at encrypted last back
  obtain ⟨⟨lenA, smallA⟩, lenB, smallB⟩ := last
  have lenA : e.1.length = d.length / 2 := lenA
  have lenB : e.2.length = d.length - d.length / 2 := lenB
  have len : (ff1Enc f tweak d).length = d.length := by
    rw [encrypted, List.length_append, lenA, lenB]
    omega
  have decrypted : ff1Dec f tweak (ff1Enc f tweak d) =
      (ff1DecRounds f d.length tweak (List.range' 0 10).reverse e).1 ++ (ff1DecRounds f d.length tweak (List.range' 0 10).reverse e).2 := by
    unfold ff1Dec
    simp only [len]
    rw [encrypted, List.take_left' lenA, List.drop_left' lenA]
    rfl
  refine ⟨?_, len, fun x hx => ?_⟩
  · rw [decrypted, back, List.take_append_drop]
  · rw [encrypted] at hx
    exact (List.mem_append.1 hx).elim (smallA x) (smallB x)

end Sys2Proof.Modes

/-! ## The block's step, what acts without main power, and the status queries -/

namespace Sys2Proof.Block

/- The proofs are checked one after the other: side by side, those of the whole text need more stacks than the check's memory holds. -/
set_option Elab.async false

open Sys2Proof.Machine Sys2Proof.Safety Sys2Proof.Laws

/-- Settles O55: the queue's front is what a step runs. -/
theorem stepRunsFront : Obligations.StepRunsFront := by
  unfold Obligations.StepRunsFront
  refine ⟨fun c s => rfl, fun s empty => ?_⟩
  unfold step
  rw [empty]
  rfl

/-! ### Without main power (16 R408, 12 R340) -/

/-- A row that leaves the state of a part whose main power is off. -/
def Inert (s : State) (r : Result) : Prop := ∀ t, s.power.on = false → r = .next t → t = s

theorem powered_inert (s : State) (f : Part → Part) : Inert s (powered s f) := by
  intro t off act
  rw [powered_off off] at act
  exact (Host.Outcome.next.inj act).symm

theorem onUnit_inert (there : Bool) (s : State) (f : Part → Part) : Inert s (onUnit there s f) := by
  cases there with
  | true => exact powered_inert s f
  | false => exact fun t _ act => nomatch act

/-- The rows of the battery's domain, and the start. -/
def ofBattery : Instr → Bool
  | .powerUp _ | .offWitness _ _ _ | .osc32Fail | .osc32Restart | .vbatLoss | .vbatReturn _ | .batteryLow _ => true
  | _ => false

theorem exec_inert (c : Instr) (s : State) (other : ofBattery c = false) : Inert s (exec c s) := by
  cases c
  case powerUp | offWitness | osc32Fail | osc32Restart | vbatLoss | vbatReturn | batteryLow => cases other
  case linkFlitReceive | linkRetrain | linkRetrainComplete | seatDescriptorArrive | keyFetchComplete | keyInvalidate | keyEraseOrder |
      eraseConfirm | seatEpochFlip | privateSeatRelease | seatReadmit | seatSelfTestComplete | dgstbClaimGrant | dgstbClaimTimeout |
      dgstbBlockDone | keyImport | keyExport | keyComponent | pinTranslate | pinVerify | dukptPinTranslate | dukptMac | emvArqc |
      emvScript | macGenerate | macVerify | ff1Encrypt | ff1Decrypt | tdeaCbcEncrypt | tdeaCbcDecrypt | trickStart | trickComplete |
      laneCommandResident | laneCompareFail | laneReseedRequest | laneMaskReseed | laneEcb | laneCbc | laneCtr | laneGcm | laneXts |
      laneCmac | laneCtxExport | laneCtxImport | laneCtxDiscard | laneCommandComplete | keyGenerate | pkeEcdsaSign | pkeEcdsaVerify |
      pkeEd25519Sign | pkeEd25519Verify | pkeAgree | pkeRsaSign | pkeRsaPublic | pkeRsaUnwrap | pkeMldsaVerify | pkeJobStart |
      pkeJobComplete | pkeYieldPoint | pkeLongResume | keygenStepComplete | dgstHash | dgstCtxExport | dgstCtxImport | dgstCtxDiscard |
      digestJobStart | digestJobComplete | digestParityFault | appletInvoke | trngOutRead | trngOutTimeout | appletInstanceStart |
      appletEcall | appletException | appletBudgetExpired | coreDoorbell | ntcRaise | slotGuardStoreDrain | dgstbClaim | dgstbRelease |
      dgstbGo | dgstbData | dgstbLast | dgstbCmp | slotGuardViolation | tileWakeComplete | tileIdleEnter | tileGateEnter |
      tilePowerDownComplete | engineScrubComplete | anteTake | witnessReport | holdEnd | thermalReport | temperatureSample |
      tempRateCompute | drbgReseed | drbgStopped | anteWindowEnd | slowVoltageMean | trngSourceFail | trngSourceRestored |
      calibrationSlice | shieldResistanceCheck | cardInserted | cardRemoved | cardResponse | cardWaitTimeExpired | cardClockStop |
      cerStepCardTimeout | ceremonyIdleTimeout | authorisationLapse => exact onUnit_inert _ s _
  all_goals
    unfold exec
    exact powered_inert s _

/-- Settles O58: every other row is an act of main power. -/
theorem powerOffInert : Obligations.PowerOffInert := by
  unfold Obligations.PowerOffInert
  intro c s t off act notUp notWitness notLoss notReturn notLow notFail notRestart
  refine exec_inert c s ?_ t off act
  cases c
  case powerUp f => exact absurd rfl (notUp f)
  case offWitness k i m => exact absurd rfl (notWitness k i m)
  case vbatLoss => exact absurd rfl notLoss
  case vbatReturn v => exact absurd rfl (notReturn v)
  case batteryLow v => exact absurd rfl (notLow v)
  case osc32Fail => exact absurd rfl notFail
  case osc32Restart => exact absurd rfl notRestart
  all_goals rfl

/-! ### Status queries (16 R417, 02 R45, 13 R357, 03 R85) -/

section
variable {s : State} {o : Origin} {code : Nat} {b : Bytes} {c : Cmd} {q : Part}

/-- A ready command of the house hand acts as its row says. -/
theorem house_next (ready : HouseReady s o code b c) {f : Part → Cmd → Part → Part} (act : f s.toPart c s.toPart = q) :
    powered s (fun p => p.serve o code b (fun p c => p.houseOnly c (f p c))) = .next (after s q) := act ▸ powered_house ready f

/-- A ready command of any hand acts as its row says. -/
theorem ready_next (ready : Ready s o code b c) {f : Part → Cmd → Part} (act : f s.toPart c = q) :
    powered s (fun p => p.serve o code b f) = .next (after s q) := act ▸ powered_serve ready f

end

/-- Settles O1: a query without parameters answers its words. -/
theorem statusQueriesAnswer : Obligations.StatusQueriesAnswer := by
  unfold Obligations.StatusQueriesAnswer
  refine ⟨fun s o c ready => ?_, fun s o c ready => ?_, fun s o c ready => ?_, fun s o c x ready found => ?_⟩
  · exact house_next ready (if_neg (not_not_intro ready.block))
  · exact house_next ready (if_neg (not_not_intro ready.block))
  · exact ready_next ready (if_neg (not_not_intro ready.block))
  · refine ready_next ready ((if_neg (not_not_intro ready.block)).trans ?_)
    simp only [found, List.length_map]

end Sys2Proof.Block

/-! ## What acts that are not about power leave: the power state and the memories' canonical form -/

namespace Sys2Proof.Calms

/- The proofs are checked one after the other: side by side, those of the whole text need more stacks than the check's memory holds. -/
set_option Elab.async false

open Sys2Proof.Machine Sys2Proof.Safety Sys2Proof.Laws Sys2Proof.Architecture Sys2Proof.DealRows Sys2Proof.HostTransport Sys2Proof.Dispatching
  Sys2Proof.GuardRows

/-- Of the power state only the mark of a Fold's drain and the level shown may move; a memory in canonical form stays in it, and the owner's
registry stays; Shuffle is not armed. -/
structure Calm (p q : Part) : Prop where
  power : q.power = { p.power with drained := q.power.drained, level := q.power.level }
  app : Memory.wf p.vault.app = true → Memory.wf q.vault.app = true
  sram : Memory.wf p.seats.sram = true → Memory.wf q.seats.sram = true
  registry : q.registry = p.registry
  arms : q.shuffle.en = true → p.shuffle.en = true

namespace Calm

variable {p q r : Part}

theorem of_eq (power : q.power = p.power := by rfl) (app : q.vault.app = p.vault.app := by rfl) (sram : q.seats.sram = p.seats.sram := by rfl)
    (registry : q.registry = p.registry := by rfl) (armed : q.shuffle.en = p.shuffle.en := by rfl) : Calm p q :=
  ⟨by rw [power], fun h => app ▸ h, fun h => sram ▸ h, registry, fun h => armed ▸ h⟩

theorem refl (p : Part) : Calm p p := of_eq

theorem trans (h : Calm p q) (k : Calm q r) : Calm p r :=
  ⟨by rw [k.power, h.power], fun w => k.app (h.app w), fun w => k.sram (h.sram w), k.registry.trans h.registry, fun w => h.arms (k.arms w)⟩

theorem of_within {l : List Unit_} (act : Within l p q) (power : Unit_.power ∉ l := by decide) (vault : Unit_.vault ∉ l := by decide)
    (seats : Unit_.seats ∉ l := by decide) (shuffle : Unit_.shuffle ∉ l := by decide) (registry : q.registry = p.registry := by rfl) : Calm p q :=
  of_eq (act.units .power power) (congrArg VaultUnit.app (act.units .vault vault)) (congrArg SeatsUnit.sram (act.units .seats seats)) registry
    (congrArg Shuffle.en (act.units .shuffle shuffle))

theorem of_noted (h : Noted p q) : Calm p q := by
  rw [h.eq]
  exact of_eq

theorem ite {c : Prop} [Decidable c] (h : Calm p q) (k : Calm p r) : Calm p (if c then q else r) := by
  split
  · exact h
  · exact k

theorem foldl {α : Type} {f : Part → α → Part} (hf : ∀ p a, Calm p (f p a)) (xs : List α) (p : Part) : Calm p (xs.foldl f p) := by
  induction xs generalizing p with
  | nil => exact refl p
  | cons a r ih => exact (hf p a).trans (ih _)

theorem bump (h : Calm p q) (b : Nat) (n : Nat := 1) : Calm p (q.bump b n) := h.trans of_eq

theorem event (h : Calm p q) (a : Nat) (c : BitVec 16) (v d e x y z : Nat) : Calm p (q.event a c v d e x y z) :=
  h.trans (of_noted (event_noted q a c v d e x y z))

theorem notice (h : Calm p q) (a : Nat) (c : BitVec 16) (v e : Nat) (b : Bytes) (l : List (BitVec 32)) : Calm p (q.notice a c v e b l) :=
  h.trans (of_noted (notice_noted q a c v e b l))

theorem record (h : Calm p q) (c : BitVec 16) (v d : Nat) (x y z : Word) : Calm p (q.record c v d x y z) :=
  h.trans (of_noted (record_noted q c v d x y z))

theorem guardEvent (h : Calm p q) (c : BitVec 16) (v d k s i x y : Nat) : Calm p (q.guardEvent c v d k s i x y) := h.event _ _ _ _ _ _ _ _

end Calm

/-! ### Answering and stopping work (03 R85, 10 R277) -/

section
variable (p : Part)

theorem calm_xct (x : XctUnit) : Calm p { p with xct := x } := .of_eq
theorem calm_updCmd (u : Nat) (f : Cmd → Cmd) : Calm p (p.updCmd u f) := .of_eq
theorem calm_updCore (n k : Nat) (f : Core → Core) : Calm p (p.updCore n k f) := .of_eq
theorem calm_updSeat (n : Nat) (f : Seat → Seat) : Calm p (p.updSeat n f) := .of_eq
theorem calm_updTile (k : Nat) (f : Tile → Tile) : Calm p (p.updTile k f) := .of_eq
theorem calm_setDgst (n k : Nat) (x : Dgst) : Calm p (p.setDgst n k x) := .of_eq

theorem calm_noteDrain : Calm p p.noteDrain := by
  unfold Part.noteDrain
  exact .ite ⟨rfl, id, id, rfl, id⟩ (.refl p)

theorem calm_countAnswer (st : BitVec 16) : Calm p (p.countAnswer st) :=
  .of_within (within_countAnswer p st) (registry := by unfold Part.countAnswer; split_ifs <;> rfl)

theorem calm_writeSram (n k a : Nat) (b : Bytes) : Calm p (p.writeSram n k a b) := ⟨rfl, id, Memory.wf_writeBytes _ _ _, rfl, id⟩

theorem calm_zeroSram (n k a len : Nat) : Calm p (p.zeroSram n k a len) := ⟨rfl, id, Memory.wf_clear _ _ _, rfl, id⟩

theorem calm_guardedWrite (ws : List GuardWindow) (n k a : Nat) (b : Bytes) : Calm p (p.guardedWrite ws n k a b) := by
  induction b generalizing p a with
  | nil => exact .refl p
  | cons x r ih => exact (Calm.ite (calm_writeSram p n k a [x]) (.refl p)).trans (ih _ _)

theorem calm_touch (n k a len : Nat) : Calm p (p.touch n k a len) := by
  unfold Part.touch
  exact .ite (.refl p) (calm_updCore p _ _ _)

theorem calm_finishExit (n k : Nat) : Calm p (p.finishExit n k) := by
  unfold Part.finishExit
  extract_lets c
  split
  · exact .of_eq
  · exact .refl p

theorem calm_deliverCall (u n k : Nat) (d : BitVec 32) (st : BitVec 16) (b : Bytes) : Calm p (p.deliverCall u n k d st b) := by
  unfold Part.deliverCall
  extract_lets c dropped ws a cap fits out given told sized marked left
  have dropped' : Calm p dropped := (Calm.of_eq (q := (p.closeStreams u).dropCmd u)).trans (calm_noteDrain _)
  have given' : Calm p given := (dropped'.trans (calm_guardedWrite _ _ _ _ _ _)).trans (calm_touch _ _ _ _ _)
  have told' : Calm p told := given'.trans (calm_guardedWrite _ _ _ _ _ _)
  have sized' : Calm p sized := told'.trans (calm_guardedWrite _ _ _ _ _ _)
  have marked' : Calm p marked := sized'.trans (calm_guardedWrite _ _ _ _ _ _)
  exact .ite ((marked'.trans (calm_updCore _ _ _ _)).trans (calm_finishExit _ _ _)) dropped'

theorem calm_sendRetract (u : Nat) (st : BitVec 16) : Calm p (p.sendRetract u st) := by
  unfold Part.sendRetract
  split
  · exact .refl p
  · split
    · exact .refl p
    · exact .ite (.refl p) ((((calm_updCmd p u _).bump _).record _ _ _ _ _ _).notice _ _ _ _ _ _)

theorem calm_answered (u : Nat) (st : BitVec 16) (b : Bytes) :
    Calm p (((p.updCmd u (fun c => { c with place := .xct, status := st, payload := b })).ordered u).noteDrain) :=
  (Calm.of_eq (q := (p.updCmd u (fun c => { c with place := .xct, status := st, payload := b })).ordered u)).trans (calm_noteDrain _)

theorem calm_answer (u : Nat) (st : BitVec 16) (b : Bytes) : Calm p (p.answer u st b) := by
  have retracted := calm_sendRetract p u st
  unfold Part.answer
  extract_lets gone
  split
  · exact retracted
  · split
    · have counted : Calm p ((gone.closeStreams u).countAnswer st) := (retracted.trans (calm_xct gone _)).trans (calm_countAnswer _ st)
      exact counted.trans (calm_answered _ u st b)
    · exact retracted.trans (calm_deliverCall _ _ _ _ _ _ _)

theorem Calm.answer {p q : Part} (h : Calm p q) (u : Nat) (st : BitVec 16) (b : Bytes) : Calm p (q.answer u st b) := h.trans (calm_answer q u st b)

theorem calm_seatAnswer (n u : Nat) (st : BitVec 16) (b : Bytes) : Calm p (p.seatAnswer n u st b) := by
  have retracted := calm_sendRetract p u st
  unfold Part.seatAnswer
  extract_lets gone
  split
  · exact retracted
  · split
    · exact (retracted.trans (calm_xct gone _)).trans ((calm_updCmd _ u _).trans (calm_xct _ _))
    · exact retracted.trans (calm_deliverCall _ _ _ _ _ _ _)

theorem calm_payShare (n hand : Nat) (site : Site) (cycles : Nat) : Calm p (p.payShare n hand site cycles) := .of_eq

theorem calm_startScrub (k : Nat) : Calm p (p.startScrub k) := .of_eq

theorem calm_freeEngine (n : Nat) (site : Site) (i u : Nat) : Calm p (p.freeEngine n site i u) := by
  unfold Part.freeEngine
  cases site with
  | pke => exact .ite .of_eq .of_eq
  | _ => exact .of_eq

theorem calm_countScrub (n : Nat) (site : Site) (i : Nat) : Calm p (p.countScrub n site i) := by
  cases site <;> exact .of_eq

theorem calm_endRegJob (n : Nat) (st : BitVec 16) : Calm p (p.endRegJob n st) := by
  unfold Part.endRegJob
  extract_lets paid ended counted
  have paid' : Calm p paid := by
    unfold paid
    split
    · exact calm_payShare p _ _ _ _
    · exact .refl p
  have ended' : Calm p ended := paid'.trans (calm_setDgst _ _ _ _)
  exact (Calm.ite (ended'.bump _) ended').trans (calm_startScrub counted _)

theorem calm_releaseClaim (n : Nat) (st : BitVec 16) : Calm p (p.releaseClaim n st) := by
  unfold Part.releaseClaim
  extract_lets d freed
  have freed' : Calm p freed := calm_setDgst p _ _ _
  exact .ite ((freed'.trans (calm_countScrub _ _ _ _)).trans (calm_endRegJob _ _ _)) freed'

theorem calm_forget (u : Nat) : Calm p (p.forget u) := .of_eq

theorem calm_freed (n : Nat) (site : Site) (i u : Nat) : Calm p (((p.forget u).freeEngine n site i u).countScrub n site i) :=
  ((calm_forget p u).trans (calm_freeEngine _ _ _ _ _)).trans (calm_countScrub _ _ _ _)

theorem calm_stopWork (u : Nat) (st : Option (BitVec 16)) (b : Bytes) : Calm p (p.stopWork u st b) := by
  have forgot := calm_forget p u
  unfold Part.stopWork
  split
  · exact .refl p
  · extract_lets forgotten
    split
    · exact (calm_freed p _ _ _ u).trans (calm_updCmd _ _ _)
    · exact (calm_freed p _ _ _ u).trans ((calm_xct _ _).trans (calm_xct _ _))
    · exact forgot
    · exact forgot
    · exact forgot.trans (calm_answer _ _ _ _)
    · exact forgot.trans ((calm_xct _ _).trans (calm_xct _ _))

theorem calm_endInstance (n k : Nat) (st : Option (BitVec 16)) (b : Bytes) (cause : Nat) : Calm p (p.endInstance n k st b cause) := by
  unfold Part.endInstance
  extract_lets c answer stopped left released unclaimed idle recorded
  split
  · exact .refl p
  · have stopped' : Calm p stopped := (calm_updCore p _ _ _).trans (.foldl (fun p u => calm_stopWork p u _ _) _ _)
    have released' : Calm p released := .ite (stopped'.trans (calm_releaseClaim _ _ _)) stopped'
    have recorded' : Calm p recorded := ((released'.trans (calm_setDgst _ _ _ _)).trans (calm_updCore unclaimed _ _ _)).event _ _ _ _ _ _ _ _
    split
    · exact recorded'.trans (calm_xct _ _)
    · exact .ite (.ite (recorded'.trans (calm_seatAnswer _ _ _ _ _)) (recorded'.answer _ _ _)) (recorded'.trans (calm_updCmd _ _ _))

theorem calm_stopCommand (u : Nat) (st : Option (BitVec 16)) (b : Bytes) : Calm p (p.stopCommand u st b) := by
  unfold Part.stopCommand
  split
  · exact .refl p
  · split
    · exact calm_endInstance p _ _ _ _ _
    · exact calm_stopWork p _ _ _

theorem calm_redeal (n : Nat) (c : Cmd) : Calm p (p.redeal n c) := ((calm_updCmd p _ _).bump _).event _ _ _ _ _ _ _ _

theorem calm_loseSeat (n : Nat) (st : BitVec 16) : Calm p (p.loseSeat n st) := by
  unfold Part.loseSeat
  extract_lets work stopped
  have stopped' : Calm p stopped := by
    refine .foldl (fun p c => .ite (calm_redeal p _ _) ?_) _ p
    split
    · exact calm_updCmd p _ _
    · exact calm_stopCommand p _ _ _
  exact (stopped'.trans (calm_releaseClaim _ _ _)).trans (calm_setDgst _ _ _ _)

theorem calm_setCache (l : List CacheEntry) : Calm p (p.setCache l) := .of_eq

theorem calm_wipeCache (sel : CacheEntry → Bool) : Calm p (p.wipeCache sel) :=
  (calm_setCache p _).trans (.foldl (fun p _ => (Calm.refl p).bump _) _ _)

theorem calm_relevel : Calm p p.relevel := by
  unfold Part.relevel
  extract_lets old new
  have shown : Calm p (p.setPower { p.power with level := new }) := ⟨rfl, id, id, rfl, id⟩
  exact .ite (.refl p) (shown.event _ _ _ _ _ _ _ _)

theorem Calm.relevel {p q : Part} (h : Calm p q) : Calm p q.relevel := h.trans (calm_relevel q)

theorem calm_scrubbed (n u : Nat) : Calm p (p.scrubbed n u) := by
  unfold Part.scrubbed
  split
  · exact .refl p
  · split
    · exact .ite (calm_seatAnswer p _ _ _ _) (calm_answer p _ _ _)
    · exact calm_deliverCall p _ _ _ _ _ _

theorem calm_finishEnds (n : Nat) : Calm p (p.finishEnds n) := .foldl (fun p _ => calm_scrubbed p _ _) _ p

/-! ### Ceremony ports (15 R394, R402, R403) -/

theorem calm_setCer (port : Nat) (x : CerPort) : Calm p (p.setCer port x) :=
  .of_within (within_setCer p port x) (registry := by unfold Part.setCer; split <;> rfl)

theorem calm_updCer (port : Nat) (f : CerPort → CerPort) : Calm p (p.updCer port f) := calm_setCer p port _

theorem calm_deactivate (port : Nat) : Calm p (p.deactivate port) := calm_updCer p port _

theorem calm_ceremonyEnded (port : Nat) (c : Ceremony) (outcome : Nat) : Calm p (p.ceremonyEnded port c outcome) := (Calm.refl p).event _ _ _ _ _ _ _ _

theorem calm_endStep (port : Nat) (st : BitVec 16) (b : Bytes) : Calm p (p.endStep port st b) := by
  unfold Part.endStep
  split
  · exact .refl p
  · extract_lets timed unknown
    have timed' : Calm p timed := .ite ((Calm.refl p).bump _) (.refl p)
    have unknown' : Calm p unknown := .ite (timed'.bump _) timed'
    exact ((unknown'.trans (calm_updCer _ _ _)).trans (calm_deactivate _ _)).answer _ _ _

theorem calm_voidCeremony (port : Nat) : Calm p (p.voidCeremony port) := by
  have stepped := calm_endStep p port CerStatus.void []
  unfold Part.voidCeremony
  extract_lets ended
  split
  · exact stepped
  · exact ((stepped.trans (calm_updCer _ _ _)).trans (calm_deactivate _ _)).trans (calm_ceremonyEnded _ _ _ _)

theorem calm_lapseAuth (port : Nat) : Calm p (p.lapseAuth port) := by
  unfold Part.lapseAuth
  split
  · exact .refl p
  · exact (calm_updCer p _ _).trans (calm_ceremonyEnded _ _ _ _)

theorem calm_useAuth (port : Nat) : Calm p (p.useAuth port) := by
  unfold Part.useAuth
  split
  · exact .refl p
  · exact (calm_updCer p _ _).trans (calm_ceremonyEnded _ _ _ _)

theorem calm_voidSeatCeremonies (n : Nat) : Calm p (p.voidSeatCeremonies n) := by
  refine .foldl (fun p port => ?_) _ p
  extract_lets voided
  have voided' : Calm p voided := by
    unfold voided
    split
    · exact .ite (calm_voidCeremony p port) (.refl p)
    · exact .refl p
  split
  · exact .ite (voided'.trans (calm_lapseAuth _ port)) voided'
  · exact voided'

/-! ### Streams and Shuffle (03 R73, 17 R432) -/

theorem calm_setShuffle (x : Shuffle) (armed : x.en = p.shuffle.en := by rfl) : Calm p (p.setShuffle x) := .of_eq (armed := armed)

theorem calm_injected (a i s o : Nat) : Calm p (p.injected a i s o) := ((calm_setShuffle p _).bump _).event _ _ _ _ _ _ _ _

theorem calm_inject (f : ShufFrame) (session : Nat) : Calm p (p.inject f session).1 := by
  unfold Part.inject
  extract_lets _ counted idx _ kept now frame
  have counted' : Calm p counted := (calm_setShuffle p _).bump _
  split
  · exact counted'.trans (calm_injected _ _ _ _ _)
  · split
    next q late aged =>
      have aged' : Calm p q := by
        have := (counted'.trans (calm_setShuffle _ _)).trans (calm_setShuffle kept { kept.shuffle with
          held := (kept.shuffle.held.map (fun h => { h with left := h.left - 1 })).filter (fun h => !(h.left == 0)) })
        rwa [show kept.setShuffle _ = q from congrArg Prod.fst aged] at this
      extract_lets corrupted doubled
      have doubled' : Calm p doubled := (aged'.trans (.ite (calm_injected _ _ _ _ _) (.refl _))).trans (.ite (calm_injected _ _ _ _ _) (.refl _))
      split
      · exact (doubled'.trans (calm_setShuffle _ _)).trans (calm_injected _ _ _ _ _)
      · exact doubled'

theorem calm_putTx (l : List (ShufFrame × Bool)) : Calm p (p.putTx l) := .of_within (within_putTx p l)

theorem calm_emit (x : BitVec 32) (r : BitVec 64) (c : Nat) (st : BitVec 16) (b : Bytes) (w : Path) : Calm p (p.emit x r c st b w) := by
  unfold Part.emit
  split
  · exact .refl p
  · extract_lets seq key f numbered
    have numbered' : Calm p numbered := calm_xct p _
    split
    · exact (numbered'.trans (calm_inject _ _ _)).trans (calm_putTx _ _)
    · exact numbered'.trans (calm_putTx _ _)

theorem calm_pump (x id : BitVec 32) : Calm p (p.pump x id) := by
  unfold Part.pump
  split
  · exact .ite (.refl p) ((calm_xct p _).trans (.foldl (fun p b => calm_emit p _ _ _ _ _ _) _ _))
  · exact .refl p

theorem calm_pumpAll : Calm p p.pumpAll := .foldl (fun p _ => calm_pump p _ _) _ p

theorem calm_produce (x id : BitVec 32) (b : Bytes) (last : Bool) : Calm p (p.produce x id b last) := (calm_xct p _).trans (calm_pump _ _ _)

theorem calm_putOut (l : List (ShufFrame × Bool)) : Calm p (p.putOut l) := .of_eq

theorem calm_setPart (x : PartUnit) : Calm p (p.setPart x) := .of_eq

theorem calm_transmit (f : MirrorOut) : Calm p (p.transmit f) := by
  unfold Part.transmit
  extract_lets acked wired
  split
  · exact (calm_inject p _ _).trans (calm_putOut _ _)
  · exact calm_putOut p _

theorem calm_sendMirror (m : MirrorMsg) : Calm p (p.sendMirror m) := (calm_setPart p _).trans (calm_transmit _ _)

/-! ### The journal and what a record does (05 R145, R148) -/

theorem calm_setVault (v : VaultUnit) (app : v.app = p.vault.app := by rfl) : Calm p (p.setVault v) := .of_eq rfl app rfl

theorem calm_feedSink : Calm p p.feedSink := by
  unfold Part.feedSink
  split
  · exact .refl p
  · exact (calm_setVault p _).trans (calm_produce _ _ _ _ _)

theorem calm_writeJournal (h : Nat) (o : Bool) (e : Nat) (b : JBody) : Calm p (p.writeJournal h o e b).1 :=
  (calm_setVault p _).trans (calm_feedSink _)

theorem calm_cutRecord (h : Nat) (b : JBody) : Calm p (p.cutRecord h b) := (calm_setVault p _).trans (calm_writeJournal _ _ _ _ _)

theorem calm_writeLine (i : Nat) : Calm p (p.writeLine i) := .ite (calm_setVault p _) (calm_setVault p _)

theorem calm_writeLines (i n : Nat) : Calm p (p.writeLines i n) := by
  induction n generalizing p i with
  | zero => exact .refl p
  | succ n ih => exact (calm_writeLine p i).trans (ih _ _)

theorem calm_sweepLines (i n : Nat) : Calm p (p.sweepLines i n) := .ite (.refl p) (calm_setVault p _)

theorem calm_setSlot (i : Nat) (x : Slot) : Calm p (p.setSlot i x) := .of_eq

theorem calm_setCtr (i : Nat) (x : Counter) : Calm p (p.setCtr i x) := .of_eq

theorem calm_emptySlots (g : Option Nat) (i n : Nat) : Calm p (p.emptySlots g i n) := by
  induction n generalizing p i with
  | zero => exact .refl p
  | succ n ih =>
    unfold Part.emptySlots
    extract_lets g' old s
    exact ((calm_setSlot p _ _).trans (calm_writeLines _ _ _)).trans (ih _ _)

theorem calm_retireSlots (h i n : Nat) : Calm p (p.retireSlots h i n) := by
  induction n generalizing p i with
  | zero => exact .refl p
  | succ n ih =>
    rw [Part.retireSlots]
    exact ((calm_setSlot p _ _).trans (calm_writeLines _ _ _)).trans (ih _ _)

theorem calm_contSlots (s : Slot) (i n : Nat) : Calm p (p.contSlots s i n) := by
  induction n generalizing p i with
  | zero => exact .refl p
  | succ n ih =>
    rw [Part.contSlots]
    exact ((calm_setSlot p _ _).trans (calm_writeLines _ _ _)).trans (ih _ _)

theorem calm_placeKey (head : Nat) (s : Slot) : Calm p (p.placeKey head s) :=
  ((((calm_emptySlots p _ _ _).trans (calm_setPart _ _)).trans (calm_setSlot _ _ _)).trans (calm_writeLines _ _ _)).trans (calm_contSlots _ _ _ _)

theorem calm_writeApp (a : Nat) (d : Bytes) : Calm p (p.writeApp a d) := by
  have stored : Calm p (p.setVault { p.vault with app := Memory.writeBytes p.vault.app a d }) := ⟨rfl, Memory.wf_writeBytes _ _ _, id, rfl, id⟩
  exact stored.trans (calm_writeLines _ _ _)

theorem calm_zeroSlots (h : Option Nat) (i n : Nat) : Calm p (p.zeroSlots h i n) := by
  unfold Part.zeroSlots
  extract_lets inside raise cached counted _ wiped
  have counted' : Calm p counted := .foldl (fun p _ => (Calm.refl p).bump _) _ p
  have wiped' : Calm counted wiped := .of_eq
  exact ((counted'.trans wiped').trans (calm_setVault _ _)).trans (calm_sweepLines _ _ _)

theorem calm_abandon (i : Nat) : Calm p (p.abandon i) := .ite (calm_setVault p _) ((calm_setVault p _).bump _ _)

theorem calm_endWaiters (i : Nat) (st : BitVec 16) (b : Bytes) : Calm p (p.endWaiters i st b) :=
  (calm_setVault p _).trans (.foldl (fun p _ => calm_answer p _ _ _) _ _)

theorem calm_zeroCtrs (i n : Nat) : Calm p (p.zeroCtrs i n) := by
  unfold Part.zeroCtrs
  extract_lets inside held abandoned waits ended
  have abandoned' : Calm p abandoned := .foldl (fun p _ => calm_abandon p _) _ p
  have ended' : Calm p ended := abandoned'.trans (.foldl (fun p _ => calm_endWaiters p _ _ _) _ _)
  exact (ended'.trans (calm_setVault _ _)).trans (calm_sweepLines _ _ _)

theorem calm_zeroCtxs (h : Nat) (sel : Ctx → Bool) : Calm p (p.zeroCtxs h sel) :=
  (Calm.foldl (fun p _ => calm_writeLines p _ _) _ p).trans (calm_setVault _ _)

theorem calm_zeroRanges (h : Option Nat) (s n c m a k : Nat) : Calm p (p.zeroRanges h s n c m a k) := by
  unfold Part.zeroRanges
  extract_lets torn
  have torn' : Calm p torn := (calm_zeroSlots p _ _ _).trans (calm_zeroCtrs _ _ _)
  have cleared : Calm torn (torn.setVault { torn.vault with app := Memory.clear torn.vault.app (a * 1048576) (k * 1048576) }) :=
    ⟨rfl, Memory.wf_clear _ _ _, id, rfl, id⟩
  exact (torn'.trans cleared).trans (calm_sweepLines _ _ _)

theorem calm_tearRanges (e : HandEntry) (whole : Bool) : Calm p (p.tearRanges e whole) :=
  .ite ((calm_zeroRanges p _ _ _ _ _ _ _).trans (calm_zeroCtxs _ _ _)) (calm_zeroRanges p _ _ _ _ _ _ _)

theorem calm_returnSlots (l : List (Nat × Slot)) : Calm p (p.returnSlots l) := .foldl (fun p _ => calm_setSlot p _ _) l p

theorem calm_setCounter (i : Nat) (st : CtrState) (hw : Nat) : Calm p (p.setCounter i st hw) := (calm_setCtr p _ _).trans (calm_writeLines _ _ _)

theorem calm_raiseCounters : Calm p p.raiseCounters := calm_setVault p _

theorem calm_tearUnheld (hands : List HandEntry) : Calm p (p.tearUnheld hands) := by
  unfold Part.tearUnheld
  extract_lets slotHeld slotsGone gone emptied ctrsGone
  have slotsGone' : Calm p slotsGone := .foldl (fun p _ => calm_zeroSlots p _ _ _) _ p
  have emptied' : Calm p emptied := slotsGone'.trans (.foldl (fun p _ => calm_emptySlots p _ _ _) _ _)
  have ctrsGone' : Calm p ctrsGone := emptied'.trans (.foldl (fun p _ => calm_zeroCtrs p _ _) _ _)
  exact ctrsGone'.trans (.foldl (fun p _ => calm_zeroRanges p _ _ _ _ _ _ _) _ _)

theorem calm_cutApplied (serial : Nat) : Calm p (p.cutApplied serial) := by
  unfold Part.cutApplied
  extract_lets torn
  refine Calm.trans ?_ (calm_setVault torn _)
  unfold torn
  split
  · exact (Calm.foldl (fun p e => .foldl (fun p x => calm_tearRanges p _ _) _ _) _ p).trans (calm_returnSlots _ _)
  · split
    · exact .ite ((calm_tearUnheld p _).trans (calm_returnSlots _ _)) (.refl p)
    · exact .refl p

theorem calm_applyBody (hand : Nat) (b : JBody) : Calm p (p.applyBody hand b) := by
  cases b with
  | slotWrite head s => exact calm_placeKey p head s
  | slotErase head run gen => exact calm_emptySlots p _ _ _
  | slotRetire head run => exact calm_retireSlots p _ _ _
  | counter i st hw => exact calm_setCounter p _ _ _
  | allowance head uses tdea => exact (calm_setSlot p _ _).trans (calm_writeLines _ _ _)
  | appData off d => exact calm_writeApp p _ _
  | cut serial => exact calm_cutApplied p serial
  | teardown => exact calm_zeroRanges p _ _ _ _ _ _ _
  | promote => exact calm_raiseCounters p
  | pairing => exact .refl p
  | partnerLost => exact .refl p
  | rejoin => exact .refl p

/-! ### Mutations (05 R133, R134) -/

theorem calm_arbServe (resource source : Nat) : Calm p (p.arbServe resource source) := .of_eq

theorem calm_updMut (id : Nat) (f : Mutation → Mutation) : Calm p (p.updMut id f) := calm_setVault p _

theorem calm_dropMut (id : Nat) : Calm p (p.dropMut id) := calm_setVault p _

theorem calm_answerOwner (owner : Option Nat) (st : BitVec 16) (b : Bytes) : Calm p (match owner with
    | some u => p.answer u st b
    | none => p) := by
  cases owner with
  | some u => exact calm_answer p u st b
  | none => exact .refl p

theorem calm_tryForm (id : Nat) : Calm p (p.tryForm id) := by
  unfold Part.tryForm
  split
  · exact .refl p
  next m found =>
    extract_lets usage follows dropped body remote fromPartner
    split
    · exact .refl p
    · split
      · exact (calm_dropMut p id).trans (calm_answerOwner dropped _ _ _)
      · split
        · exact .refl p
        · split
          next q r formed =>
            have formed' : Calm p q := by
              have := (calm_arbServe p 0 m.source).trans (calm_writeJournal _ m.hand fromPartner p.leadEpoch body)
              rwa [formed] at this
            split
            · exact (formed'.trans (calm_sendMirror _ _)).trans (calm_updMut _ _ _)
            · extract_lets _ noted
              have noted' : Calm p noted := by
                unfold noted
                split
                · exact .ite (formed'.trans (calm_setPart _ _)) formed'
                · exact formed'
              exact noted'.trans (calm_updMut _ _ _)

theorem calm_formReady : Calm p p.formReady := .foldl calm_tryForm _ p

theorem calm_mutate (kind : MutKind) (hand : Nat) (owner : Option Nat) (objs : List Obj) (own : Bool) (pub : Bytes) :
    Calm p (p.mutate kind hand owner objs own pub) := (calm_setVault p _).trans (calm_tryForm _ _)

theorem calm_hostMutation (kind : MutKind) (hand owner : Nat) (objs : List Obj) (pub : Bytes) : Calm p (p.hostMutation kind hand owner objs pub) :=
  .ite ((calm_setVault p _).trans (calm_sendMirror _ _)) (calm_mutate p _ _ _ _ _ _)

theorem calm_zeroKeyCtxs (slot hand : Nat) : Calm p (p.zeroKeyCtxs slot hand) := calm_zeroCtxs p _ _

theorem calm_dropConfirm (n : Nat) : Calm p (p.dropConfirm n) := by
  unfold Part.dropConfirm
  extract_lets ms due dropped
  exact (calm_setVault p _).trans (.foldl (fun p m => calm_answerOwner p _ _ _) _ _)

theorem calm_cutoffs (slot : Nat) (old : Slot) : Calm p (p.cutoffs slot old) := calm_setCache p _

theorem calm_commitErase (m : Mutation) (slot : Nat) (b : JBody) : Calm p (p.commitErase m slot b) := by
  unfold Part.commitErase
  extract_lets old applied zeroed waits
  have applied' : Calm p applied := calm_applyBody p _ _
  have zeroed' : Calm p zeroed := .ite (applied'.trans (calm_zeroKeyCtxs _ _ _)) applied'
  exact (zeroed'.trans (calm_updMut _ _ _)).trans (calm_dropConfirm _ _)

end

end Sys2Proof.Calms

/-! ## What the partner's frames may change (13 R353 to R367) -/

namespace Sys2Proof.Mirroring

/- The proofs are checked one after the other: side by side, those of the whole text need more stacks than the check's memory holds. -/
set_option Elab.async false

open Sys2Proof.Machine Sys2Proof.Safety Sys2Proof.Laws Sys2Proof.Architecture Sys2Proof.DealRows Sys2Proof.HostTransport Sys2Proof.Dispatching
  Sys2Proof.KeyVault Sys2Proof.GuardRows Sys2Proof.Calms

/-- q is p after an act that a frame of the mirror order may have: it takes no time, and it leaves the fuses, the Deal, the host ports, the sensors,
the noise sources, the guard, the ceremony ports, the debug session, and power but for a drain's mark and the level. -/
structure Delivers (p q : Part) : Prop where
  within : Within formUnits p q
  calm : Calm p q

namespace Delivers

variable {p q r : Part}

theorem refl (p : Part) : Delivers p p := ⟨.refl, .refl p⟩

theorem trans (h : Delivers p q) (k : Delivers q r) : Delivers p r := ⟨h.within.next k.within, h.calm.trans k.calm⟩

theorem of {l : List Unit_} (h : Within l p q) (c : Calm p q) (sub : l ⊆ formUnits := by decide) : Delivers p q := ⟨h.mono sub, c⟩

theorem ite {c : Prop} [Decidable c] (h : Delivers p q) (k : Delivers p r) : Delivers p (if c then q else r) := ⟨.ite h.within k.within, .ite h.calm k.calm⟩

theorem foldl {α : Type} {f : Part → α → Part} (hf : ∀ p a, Delivers p (f p a)) (xs : List α) (p : Part) : Delivers p (xs.foldl f p) :=
  ⟨.foldl (fun p a => (hf p a).within) xs p, .foldl (fun p a => (hf p a).calm) xs p⟩

theorem setPart (h : Delivers p q) (x : PartUnit) : Delivers p (q.setPart x) := h.trans (.of (within_setPart q x) (calm_setPart q x))

theorem event (h : Delivers p q) (a : Nat) (c : BitVec 16) (v d e x y z : Nat) : Delivers p (q.event a c v d e x y z) :=
  h.trans (.of (within_event q a c v d e x y z) (.of_noted (event_noted q a c v d e x y z)))

theorem bump (h : Delivers p q) (b : Nat) (n : Nat := 1) : Delivers p (q.bump b n) := h.trans (.of (within_bump q b n) .of_eq)

theorem answer (h : Delivers p q) (u : Nat) (st : BitVec 16) (b : Bytes) : Delivers p (q.answer u st b) :=
  h.trans (.of (within_answer q u st b) (calm_answer q u st b))

theorem sendMirror (h : Delivers p q) (m : MirrorMsg) : Delivers p (q.sendMirror m) := h.trans (.of (within_sendMirror q m) (calm_sendMirror q m))

theorem formReady (h : Delivers p q) : Delivers p q.formReady := h.trans ⟨(formed_formReady q).within, calm_formReady q⟩

theorem mutate (h : Delivers p q) (kind : MutKind) (hand : Nat) (owner : Option Nat) (objs : List Obj) (own : Bool) (pub : Bytes := []) :
    Delivers p (q.mutate kind hand owner objs own pub) := h.trans (.of (CipherLanes.within_mutate q kind hand owner objs own pub) (calm_mutate q _ _ _ _ _ _))

end Delivers

/-! ### Records applied to the vault (05 R148) -/

section
variable (p : Part)

theorem within_emptySlots (g : Option Nat) (i n : Nat) : Within [.vault] p (p.emptySlots g i n) := by
  induction n generalizing p i with
  | zero => exact .refl
  | succ n ih =>
    unfold Part.emptySlots
    extract_lets g' old s
    exact ((within_setSlot p _ _).next (within_writeLines _ _ _)).next (ih _ _)

theorem within_retireSlots (h i n : Nat) : Within [.vault] p (p.retireSlots h i n) := by
  induction n generalizing p i with
  | zero => exact .refl
  | succ n ih =>
    unfold Part.retireSlots
    exact ((within_setSlot p _ _).next (within_writeLines _ _ _)).next (ih _ _)

theorem within_contSlots (s : Slot) (i n : Nat) : Within [.vault] p (p.contSlots s i n) := by
  induction n generalizing p i with
  | zero => exact .refl
  | succ n ih =>
    unfold Part.contSlots
    exact ((within_setSlot p _ _).next (within_writeLines _ _ _)).next (ih _ _)

theorem within_placeKey (head : Nat) (s : Slot) : Within [.vault, .part] p (p.placeKey head s) :=
  (((((within_emptySlots p _ _ _).mono (l := [.vault, .part])).next (within_setPart _ _)).next (within_setSlot _ _ _)).next
    (within_writeLines _ _ _)).next (within_contSlots _ _ _ _)

theorem within_writeApp (a : Nat) (d : Bytes) : Within [.vault] p (p.writeApp a d) := (within_vault p _).next (within_writeLines _ _ _)

theorem within_tearUnheld (hands : List HandEntry) : Within tearUnits p (p.tearUnheld hands) := by
  unfold Part.tearUnheld
  extract_lets slotHeld slotsGone gone emptied ctrsGone
  have slotsGone' : Within tearUnits p slotsGone := .foldl (fun p _ => within_zeroSlots p _ _ _) _ p
  have emptied' : Within tearUnits p emptied := slotsGone'.next (.foldl (fun p _ => (within_emptySlots p _ _ _).mono) _ _) (m := tearUnits)
  have ctrsGone' : Within tearUnits p ctrsGone := emptied'.next (.foldl (fun p _ => within_zeroCtrs p _ _) _ _)
  exact ctrsGone'.next (.foldl (fun p _ => within_zeroRanges p _ _ _ _ _ _ _) _ _)

theorem within_cutApplied (serial : Nat) : Within tearUnits p (p.cutApplied serial) := by
  unfold Part.cutApplied
  extract_lets torn
  refine Within.next ?_ (within_vault torn _)
  unfold torn
  split
  · exact (Within.foldl (l := tearUnits) (fun p e => .foldl (fun p x => within_tearRanges p _ _) _ _) _ p).next (within_returnSlots _ _)
  · split
    · exact .ite ((within_tearUnheld p _).next (within_returnSlots _ _)) .refl
    · exact .refl

theorem within_applyBody (hand : Nat) (b : JBody) : Within tearUnits p (p.applyBody hand b) := by
  cases b with
  | slotWrite head s => exact (within_placeKey p head s).mono
  | slotErase head run gen => exact (within_emptySlots p _ _ _).mono
  | slotRetire head run => exact (within_retireSlots p _ _ _).mono
  | counter i st hw => exact (within_setCounter p _ _ _).mono
  | allowance head uses tdea => exact (within_setSlot p _ _).mono.next (within_writeLines _ _ _)
  | appData off d => exact (within_writeApp p _ _).mono
  | cut serial => exact within_cutApplied p serial
  | teardown => exact within_zeroRanges p _ _ _ _ _ _ _
  | promote => exact (within_vault p _).mono
  | pairing => exact .refl
  | partnerLost => exact .refl
  | rejoin => exact .refl

theorem delivers_applyBody (hand : Nat) (b : JBody) : Delivers p (p.applyBody hand b) := .of (within_applyBody p hand b) (calm_applyBody p hand b)

theorem delivers_zeroKeyCtxs (slot hand : Nat) : Delivers p (p.zeroKeyCtxs slot hand) := .of (within_zeroCtxs p _ _) (calm_zeroKeyCtxs p _ _)

theorem delivers_dropConfirm (n : Nat) : Delivers p (p.dropConfirm n) := .of (within_dropConfirm p n) (calm_dropConfirm p n)

theorem delivers_updMut (id : Nat) (f : Mutation → Mutation) : Delivers p (p.updMut id f) := .of (within_vault p _) (calm_updMut p id f)

theorem delivers_commitErase (m : Mutation) (slot : Nat) (b : JBody) : Delivers p (p.commitErase m slot b) := by
  refine ⟨?_, calm_commitErase p m slot b⟩
  unfold Part.commitErase
  extract_lets old applied zeroed waits
  have applied' : Within formUnits p applied := (within_applyBody p _ _).mono
  have zeroed' : Within formUnits p zeroed := .ite (applied'.next (within_zeroCtxs _ _ _)) applied'
  exact (zeroed'.next (within_vault _ _)).next (within_dropConfirm _ _)

theorem delivers_setVault (v : VaultUnit) (app : v.app = p.vault.app := by rfl) : Delivers p (p.setVault v) := .of (within_vault p v) (calm_setVault p v app)

/-! ### What the partner commits, and its own mutations that come back (R359, R364) -/

theorem delivers_answerOwner (owner : Option Nat) (st : BitVec 16) (b : Bytes) : Delivers p (match owner with
    | some u => p.answer u st b
    | none => p) := by
  cases owner with
  | some u => exact (Delivers.refl p).answer u st b
  | none => exact .refl p

theorem delivers_abandon (i : Nat) : Delivers p (p.abandon i) := .of (within_abandon p i) (calm_abandon p i)

theorem delivers_abandonShared (b : JBody) : Delivers p (p.abandonShared b) := by
  unfold Part.abandonShared
  split
  · exact .ite (delivers_abandon p _) (.refl p)
  · exact .refl p

theorem delivers_applyShared (hand : Nat) (b : JBody) : Delivers p (p.applyShared hand b) := by
  unfold Part.applyShared
  split
  next head s =>
    extract_lets old applied
    have applied' : Delivers p applied := delivers_applyBody p _ _
    have cut : Delivers applied (applied.cutoffs head old) := .of (l := [.seats]) (within_seats applied _) (calm_cutoffs applied _ _)
    exact .ite ((applied'.trans cut).trans (delivers_zeroKeyCtxs _ _ _)) applied'
  · extract_lets old id m
    exact .ite ((delivers_setVault p _).trans (delivers_commitErase _ _ _ _)) (delivers_applyBody p _ _)
  · exact (delivers_applyBody p _ _).trans (delivers_setVault _ _)
  · exact .refl p
  · exact .refl p
  · exact delivers_applyBody p _ _

theorem delivers_journalShared (hand seq : Nat) (b : JBody) : Delivers p (p.journalShared hand seq b) :=
  (delivers_setVault p _).trans ⟨(formed_tryForm _ _).within, calm_tryForm _ _⟩

theorem delivers_writeJournal (h : Nat) (o : Bool) (e : Nat) (b : JBody) : Delivers p (p.writeJournal h o e b).1 :=
  .of (within_writeJournal p h o e b) (calm_writeJournal p h o e b)

theorem delivers_formOwn (m : Mutation) (seq : Nat) (b : JBody) : Delivers p (p.formOwn m seq b) :=
  ((delivers_writeJournal p _ _ _ _).setPart _).trans (delivers_updMut _ _ _)

theorem delivers_dropImpossible : Delivers p p.dropImpossible := by
  refine .foldl (fun p m => .ite ?_ (.refl p)) _ p
  split
  · exact (delivers_setVault p _).trans (delivers_answerOwner _ _ _ _)
  · exact .refl p

/-! ### Frames by their type (R353) -/

theorem delivers_takeMutation (seq : Nat) (b : Bytes) : Delivers p (p.takeMutation seq b) := by
  unfold Part.takeMutation
  extract_lets hand back
  refine .ite (.refl p) ?_
  split
  · exact .refl p
  · refine .ite ((Delivers.refl p).setPart _) ?_
    split
    · exact delivers_formOwn p _ _ _
    · exact (((delivers_abandonShared p _).trans (delivers_applyShared _ _ _)).trans (delivers_journalShared _ _ _ _)).trans (delivers_dropImpossible _)

theorem delivers_takeForward (b : Bytes) : Delivers p (p.takeForward b) := by
  unfold Part.takeForward
  extract_lets rest hand
  refine .ite (.refl p) ?_
  split
  · exact .refl p
  · extract_lets noted
    have noted' : Delivers p noted := by
      unfold noted
      split
      · exact ((Delivers.refl p).setPart _).trans (delivers_applyShared _ _ _)
      · exact (Delivers.refl p).setPart _
    exact noted'.mutate _ _ _ _ _

theorem delivers_takeLeaseRequest (b : Bytes) : Delivers p (p.takeLeaseRequest b) := .ite (.refl p) ((Delivers.refl p).mutate _ _ _ _ _)

theorem delivers_takeRepairRequest (b : Bytes) : Delivers p (p.takeRepairRequest b) := .ite (.refl p) ((Delivers.refl p).sendMirror _)

theorem delivers_setSlot (i : Nat) (x : Slot) : Delivers p (p.setSlot i x) := .of (within_setSlot p i x) (calm_setSlot p i x)

theorem delivers_loadSlot (hands : List HandEntry) (raw : Bytes) (i : Nat) : Delivers p (p.loadSlot hands raw i) := by
  unfold Part.loadSlot
  extract_lets st head other
  refine .ite (delivers_setVault p _) (.ite ?_ (delivers_setSlot p _ _))
  clear_value head
  cases head with
  | some s => exact delivers_setSlot p _ _
  | none => exact .refl p

theorem delivers_loadCtrs (n : Nat) (raw : Bytes) (i : Nat) : Delivers p (p.loadCtrs n raw i) := by
  induction n generalizing p raw i with
  | zero => exact .refl p
  | succ n ih =>
    unfold Part.loadCtrs
    exact (delivers_setVault p _).trans (ih _ _ _)

theorem delivers_writeLine (i : Nat) : Delivers p (p.writeLine i) := .of (within_writeLine p i) (calm_writeLine p i)

theorem delivers_takeRepairData (b : Bytes) : Delivers p (p.takeRepairData b) := by
  unfold Part.takeRepairData
  extract_lets line data key i h raw at_ loaded
  have loaded' : Delivers p loaded := .ite (delivers_loadSlot p _ _ _) (delivers_loadCtrs p _ _ _)
  exact .ite (.refl p) (((loaded'.trans (delivers_writeLine _ _)).bump _).event _ _ _ _ _ _ _ _)

theorem delivers_sendObjects (n : Nat) : Delivers p (Part.sendObjects n p) := by
  induction n generalizing p with
  | zero => exact .refl p
  | succ n ih =>
    unfold Part.sendObjects
    split
    · exact .refl p
    · extract_lets _ left sent
      have left' : Delivers p left := (Delivers.refl p).setPart _
      have sent' : Delivers p sent := by
        unfold sent
        split
        · exact left'.sendMirror _
        · exact left'
      exact .ite (.refl p) (sent'.trans (ih _))

theorem delivers_feedResync : Delivers p p.feedResync := delivers_sendObjects p _

theorem delivers_takeMap (b : Bytes) : Delivers p (p.takeMap b) := .ite (.refl p) (((Delivers.refl p).setPart _).trans (delivers_feedResync _))

theorem delivers_conflict (hand slot gen : Nat) (current : Bytes) : Delivers p (p.conflict hand slot gen current) := by
  unfold Part.conflict
  extract_lets old to_ v _ voided
  have counted : Delivers p (voided.bump (regAddr 0 winPART 0x0128)) := ((Delivers.refl p).setPart _).bump _
  exact counted.trans (.of (.of_noted (notice_noted _ _ _ _ _ _ _)) (.of_noted (notice_noted _ _ _ _ _ _ _)))

theorem delivers_settleSlot (head : Nat) (theirs : JBody) : Delivers p (p.settleSlot head theirs).1 := by
  unfold Part.settleSlot
  extract_lets mine
  split
  next gTheirs retired _ =>
    extract_lets gw gl g body current void applied
    have applied' : Delivers p applied := delivers_applyShared p _ _
    exact .ite (applied'.trans (delivers_conflict _ _ _ _ _)) applied'

/-- What a Resync object's body brings here, and what of it is journaled (R364). -/
def objectTaken (p : Part) (hand : Nat) (both : Bool) : JBody → Part × Option JBody
  | .counter i st hw =>
    let c := p.ctr i
    let x : JBody := .counter i (if st = .exhausted ∨ c.st = .exhausted then .exhausted else if c.st = .live then .live else st) (max hw c.hw)
    (p.applyShared hand x, some x)
  | .slotWrite head s => if both then p.settleSlot head (.slotWrite head s) else (p.applyShared hand (.slotWrite head s), some (.slotWrite head s))
  | .slotErase head run gen =>
    if both then p.settleSlot head (.slotErase head run gen) else (p.applyShared hand (.slotErase head run gen), some (.slotErase head run gen))
  | .slotRetire head run =>
    if both then p.settleSlot head (.slotRetire head run) else (p.applyShared hand (.slotRetire head run), some (.slotRetire head run))
  | body => if both ∧ p.winsSettlement = true then (p, none) else (p.applyShared hand body, some body)

theorem delivers_settledOr {c : Prop} [Decidable c] {x : Part × Option JBody} {r : Part} {out : Option JBody} (h : Delivers p x.1)
    (k : Delivers p r) : Delivers p (if c then x else (r, out)).1 := by
  split
  · exact h
  · exact k

theorem delivers_objectTaken (hand : Nat) (both : Bool) (body : JBody) : Delivers p (objectTaken p hand both body).1 := by
  have applied := delivers_applyShared p hand
  cases body with
  | counter i st hw => exact applied (.counter i _ (max hw (p.ctr i).hw))
  | slotWrite => exact delivers_settledOr p (delivers_settleSlot p _ _) (applied _)
  | slotErase => exact delivers_settledOr p (delivers_settleSlot p _ _) (applied _)
  | slotRetire => exact delivers_settledOr p (delivers_settleSlot p _ _) (applied _)
  | _ => exact delivers_settledOr p (x := (p, none)) (.refl p) (applied _)

theorem delivers_takeObject (seq : Nat) (b : Bytes) : Delivers p (p.takeObject seq b) := by
  unfold Part.takeObject
  extract_lets hand
  refine .ite (.refl p) ?_
  split
  · exact .refl p
  next body _ =>
    extract_lets own objs both
    split
    next q out taken =>
      have taken' : Delivers p q := by
        have := delivers_objectTaken p hand both own
        rwa [show objectTaken p hand both own = (q, out) by rw [← taken]; cases own <;> rfl] at this
      extract_lets journaled
      have journaled' : Delivers p journaled := by
        unfold journaled
        split
        · exact taken'.trans (delivers_journalShared _ _ _ _)
        · exact taken'
      exact (journaled'.setPart _).formReady

theorem delivers_takeEvent (b : Bytes) : Delivers p (p.takeEvent b) :=
  .ite (.refl p) (.of (.of_noted (store_noted p _ _)) (.of_noted (store_noted p _ _)))

theorem delivers_deliverMirror (seq type : Nat) (b : Bytes) : Delivers p (p.deliverMirror seq type b) := by
  unfold Part.deliverMirror
  split
  · exact delivers_takeMutation p _ _
  · exact delivers_takeForward p _
  · exact delivers_takeLeaseRequest p _
  · exact .ite (delivers_takeRepairRequest p _) (delivers_takeRepairData p _)
  · exact delivers_takeMap p _
  · exact delivers_takeObject p _ _
  · exact delivers_takeEvent p _
  · exact .refl p

theorem delivers_drainEarly (n : Nat) : Delivers p (Part.drainEarly n p) := by
  induction n generalizing p with
  | zero => exact .refl p
  | succ n ih =>
    unfold Part.drainEarly
    split
    · exact .refl p
    · exact .ite (.refl p) ((((Delivers.refl p).setPart _).trans (delivers_deliverMirror _ _ _ _)).trans (ih _))

end

end Sys2Proof.Mirroring

/-! ## The partner link, its heartbeats and its frames in order (13 R349 to R367, 17 R437) -/

namespace Sys2Proof.PartnerRows

open Sys2Proof.Machine Sys2Proof.Safety Sys2Proof.Laws Sys2Proof.Architecture Sys2Proof.DealRows Sys2Proof.HostTransport Sys2Proof.Dispatching
  Sys2Proof.KeyVault Sys2Proof.GuardRows Sys2Proof.Calms Sys2Proof.Mirroring

/-! ### What sending leaves of the state toward the partner (R354) -/

/-- Of the state toward the partner only what is sent, what its frames' records are, and the records to forward may differ. -/
def SentOnly (p q : Part) : Prop :=
  q.part = { p.part with sendSeq := q.part.sendSeq, sentMsgs := q.part.sentMsgs, applied := q.part.applied, evOut := q.part.evOut }

namespace SentOnly

variable {p q r : Part}

theorem of_part (same : q.part = p.part := by rfl) : SentOnly p q := by
  unfold SentOnly
  rw [same]

theorem refl (p : Part) : SentOnly p p := of_part

theorem trans (h : SentOnly p q) (k : SentOnly q r) : SentOnly p r := by
  unfold SentOnly at h k ⊢
  rw [k, h]

theorem of_within {l : List Unit_} (act : Within l p q) (apart : Unit_.part ∉ l := by decide) : SentOnly p q := of_part (act.units .part apart)

theorem of_noted (h : Noted p q) : SentOnly p q := by
  rw [h.eq]
  rfl

theorem ite {c : Prop} [Decidable c] (h : SentOnly p q) (k : SentOnly p r) : SentOnly p (if c then q else r) := by
  split
  · exact h
  · exact k

theorem foldl {α : Type} {f : Part → α → Part} (hf : ∀ p a, SentOnly p (f p a)) (xs : List α) (p : Part) : SentOnly p (xs.foldl f p) := by
  induction xs generalizing p with
  | nil => exact refl p
  | cons a r ih => exact (hf p a).trans (ih _)

theorem event (h : SentOnly p q) (a : Nat) (c : BitVec 16) (v d e x y z : Nat) : SentOnly p (q.event a c v d e x y z) :=
  h.trans (of_noted (event_noted q a c v d e x y z))

end SentOnly

section
variable (p : Part)

theorem sent_sendRetract (u : Nat) (st : BitVec 16) : SentOnly p (p.sendRetract u st) := by
  unfold Part.sendRetract
  split
  · exact .refl p
  · split
    · exact .refl p
    · refine .ite (.refl p) ?_
      have counted (n w : Nat) : SentOnly p ((p.updCmd u (fun c => { c with retract := none })).bump (regAddr n w 0x0120)) := .of_part
      exact ((counted _ _).trans (.of_noted (record_noted _ _ _ _ _ _ _))).trans (.of_noted (notice_noted _ _ _ _ _ _ _))

theorem sent_answer (u : Nat) (st : BitVec 16) (b : Bytes) : SentOnly p (p.answer u st b) := by
  have retracted := sent_sendRetract p u st
  unfold Part.answer
  extract_lets gone
  split
  · exact retracted
  · split
    · have counted : Within [.power, .xct, .counts] gone ((gone.closeStreams u).countAnswer st) :=
        (within_closeStreams gone u).mono.next (within_countAnswer _ st)
      exact (retracted.trans (.of_within counted)).trans (.of_within (Refusals.within_answered _ u st b))
    · exact retracted.trans (.of_within (Refusals.within_callOutcome _ _ _ _ _ _ _))

theorem sent_answerOwner (owner : Option Nat) (st : BitVec 16) (b : Bytes) : SentOnly p (match owner with
    | some u => p.answer u st b
    | none => p) := by
  cases owner with
  | some u => exact sent_answer p u st b
  | none => exact .refl p

theorem sent_injected (a i s o : Nat) : SentOnly p (p.injected a i s o) :=
  (SentOnly.of_part (q := (p.setShuffle { p.shuffle with injected := p.shuffle.injected + 1 }).bump (regAddr 0 winSHUF o))).event _ _ _ _ _ _ _ _

theorem sent_inject (f : ShufFrame) (session : Nat) : SentOnly p (p.inject f session).1 := by
  unfold Part.inject
  extract_lets _ counted idx _ kept now frame
  have counted' : SentOnly p counted := .of_part
  split
  · exact counted'.trans (sent_injected _ _ _ _ _)
  · split
    next q late aged =>
      have aged' : SentOnly p q := .of_part (congrArg (fun e => e.1.part) aged).symm
      extract_lets corrupted doubled
      have doubled' : SentOnly p doubled := (aged'.trans (.ite (sent_injected _ _ _ _ _) (.refl _))).trans (.ite (sent_injected _ _ _ _ _) (.refl _))
      split
      · exact (doubled'.trans .of_part).trans (sent_injected (doubled.setShuffle _) _ _ _ _)
      · exact doubled'

theorem sent_emit (x : BitVec 32) (r : BitVec 64) (c : Nat) (st : BitVec 16) (b : Bytes) (w : Path) : SentOnly p (p.emit x r c st b w) := by
  unfold Part.emit
  split
  · exact .refl p
  · extract_lets seq key f numbered
    have numbered' : SentOnly p numbered := .of_part
    split
    · exact (numbered'.trans (sent_inject _ _ _)).trans (.of_within (within_putTx _ _))
    · exact numbered'.trans (.of_within (within_putTx _ _))

theorem sent_pump (x id : BitVec 32) : SentOnly p (p.pump x id) := by
  unfold Part.pump
  split
  · refine .ite (.refl p) ?_
    extract_lets segs moved
    have moved' : SentOnly p moved := .of_part
    exact moved'.trans (.foldl (fun p b => sent_emit p _ _ _ _ _ _) _ _)
  · exact .refl p

theorem sent_updStream (x id : BitVec 32) (f : Stream → Stream) : SentOnly p (p.updStream x id f) := .of_part

theorem sent_produce (x id : BitVec 32) (b : Bytes) (last : Bool) : SentOnly p (p.produce x id b last) :=
  (sent_updStream p x id _).trans (sent_pump _ _ _)

theorem sent_setJournal (j : Journal) : SentOnly p (p.setJournal j) := .of_part

theorem sent_feedSink : SentOnly p p.feedSink := by
  unfold Part.feedSink
  split
  · exact .refl p
  · exact (sent_setJournal p _).trans (sent_produce _ _ _ _ _)

theorem sent_writeJournal (h : Nat) (o : Bool) (e : Nat) (b : JBody) : SentOnly p (p.writeJournal h o e b).1 :=
  (sent_setJournal p _).trans (sent_feedSink _)

theorem sent_transmit (f : MirrorOut) : SentOnly p (p.transmit f) := by
  unfold Part.transmit
  extract_lets acked wired
  split
  · exact (sent_inject p _ _).trans .of_part
  · exact .of_part

theorem sent_sendMirror (m : MirrorMsg) : SentOnly p (p.sendMirror m) := by
  have numbered : SentOnly p (p.setPart { p.part with
      sendSeq := p.part.sendSeq + 1, sentMsgs := p.part.sentMsgs ++ [(p.part.sendSeq + 1, m, p.now)] }) := rfl
  exact numbered.trans (sent_transmit _ _)

theorem sent_updMut (id : Nat) (f : Mutation → Mutation) : SentOnly p (p.updMut id f) := .of_part

theorem sent_tryForm (id : Nat) : SentOnly p (p.tryForm id) := by
  unfold Part.tryForm
  split
  · exact .refl p
  next m found =>
    extract_lets usage follows dropped body remote fromPartner
    split
    · exact .refl p
    · split
      · have dropped' : SentOnly p dropped := .of_part
        exact dropped'.trans (sent_answerOwner dropped _ _ _)
      · split
        · exact .refl p
        · split
          next q r formed =>
            have served : SentOnly p (p.arbServe 0 m.source) := .of_part
            have formed' : SentOnly p q := by
              have := served.trans (sent_writeJournal _ m.hand fromPartner p.leadEpoch body)
              rwa [formed] at this
            split
            · exact (formed'.trans (sent_sendMirror _ _)).trans (sent_updMut _ _ _)
            · extract_lets _ noted
              have noted' : SentOnly p noted := by
                unfold noted
                split
                · exact .ite (formed'.trans rfl) formed'
                · exact formed'
              exact noted'.trans (sent_updMut _ _ _)

theorem sent_formReady : SentOnly p p.formReady := .foldl sent_tryForm _ p

theorem sent_mutate (kind : MutKind) (hand : Nat) (owner : Option Nat) (objs : List Obj) (own : Bool) (pub : Bytes := []) :
    SentOnly p (p.mutate kind hand owner objs own pub) := by
  unfold Part.mutate
  extract_lets id
  split
  extract_lets m
  exact SentOnly.trans .of_part (sent_tryForm (p.setVault _) _)

theorem sent_endLeaseWaits : SentOnly p p.endLeaseWaits := by
  refine .foldl (fun p i => ?_) _ p
  unfold Part.endWaiters
  split
  exact SentOnly.trans .of_part (.foldl (fun p _ => sent_answer p _ _ _) _ (p.setVault _))

theorem sent_takeHeader (h : MirrorHdr) : SentOnly p (p.takeHeader h) := by
  unfold Part.takeHeader
  extract_lets ack held cover _ covered
  have acked : SentOnly p (covered.setPart { covered.part with sentMsgs := covered.part.sentMsgs.filter (fun e => ack < e.1) }) := rfl
  exact acked.trans (sent_formReady _)

/-! ### States of the pair (R358, R361) -/

theorem delivers_takeHeader (h : MirrorHdr) : Delivers p (p.takeHeader h) :=
  ((delivers_setVault p _).setPart _).formReady

theorem delivers_partnerState (new : PairSt) : Delivers p (p.partnerState new) :=
  .ite (.refl p) (((Delivers.refl p).setPart _).event _ _ _ _ _ _ _ _)

/-- A change of state is told of; nothing else of the state toward the partner moves. -/
theorem partnerState_part (new : PairSt) : ∃ out, (p.partnerState new).part = { p.part with st := new, evOut := out } := by
  unfold Part.partnerState
  extract_lets old
  by_cases same : old = new
  · rw [if_pos same, ← same]
    exact ⟨_, rfl⟩
  · rw [if_neg same]
    refine ⟨_, (congrArg Part.part (event_noted (p.setPart { p.part with st := new }) 14 0x0811 2 0 0 _ _ _).eq).trans rfl⟩

theorem delivers_leaveResync : Delivers p p.leaveResync := (Delivers.refl p).setPart _

theorem delivers_toLinking : Delivers p p.toLinking := (delivers_leaveResync p).trans (delivers_partnerState _ _)

theorem delivers_sendMapKind (kind : Nat) : Delivers p (p.sendMapKind kind) :=
  .ite ((Delivers.refl p).sendMirror _) (.foldl (fun p _ => (Delivers.refl p).sendMirror _) _ p)

theorem sent_sendMapKind (kind : Nat) : SentOnly p (p.sendMapKind kind) :=
  .ite (sent_sendMirror p _) (.foldl (fun p _ => sent_sendMirror p _) _ p)

theorem delivers_enterResync : Delivers p p.enterResync :=
  (((((Delivers.refl p).setPart _).trans (delivers_partnerState _ _)).trans (delivers_sendMapKind _ _)).trans (delivers_sendMapKind _ _)).trans
    (delivers_sendMapKind _ _)

theorem delivers_tryResync (b : Beat) : Delivers p (p.tryResync b) := .ite (((Delivers.refl p).setPart _).trans (delivers_enterResync _)) (.refl p)

theorem delivers_firstRoles (b : Beat) : Delivers p (p.firstRoles b).1 := by
  unfold Part.firstRoles
  split
  · split
    · exact .refl p
    · split
      · exact .ite (.refl p) ((Delivers.refl p).event _ _ _ _ _ _ _ _)
      · exact (Delivers.refl p).setPart _
  · exact .refl p

theorem delivers_endLeaseWaits : Delivers p p.endLeaseWaits :=
  .foldl (fun p _ => .of (within_endWaiters p _ _ _) (calm_endWaiters p _ _ _)) _ p

/-- q is p after what a heartbeat may do: what a frame may, and what the part knows of its partner's Deal. -/
structure Beats (p q : Part) : Prop where
  within : Within (.deal :: formUnits) p q
  calm : Calm p q

namespace Beats

variable {p q r : Part}

theorem of (h : Delivers p q) : Beats p q := ⟨h.within.mono, h.calm⟩

theorem next (h : Beats p q) (k : Delivers q r) : Beats p r := ⟨h.within.next k.within, h.calm.trans k.calm⟩

theorem trans (h : Beats p q) (k : Beats q r) : Beats p r := ⟨h.within.next k.within, h.calm.trans k.calm⟩

theorem deal (p : Part) (x : DealUnit) : Beats p { p with deal := x } := ⟨(within_deal p x).mono, .of_eq⟩

theorem keeps {s : State} {q : Part} (h : Beats s.toPart q) : Keeps [.fuses, .ports, .lats, .trngs, .guard, .cers, .joker] s (after s q) :=
  h.within.units.keeps (by decide)

end Beats

theorem beats_notePeer (b : Beat) : Beats p (p.notePeer b) := by
  unfold Part.notePeer
  split
  · exact .of (.refl p)
  next d _ =>
    extract_lets match_ clash seen _ known
    have known' : Beats p known := .deal p _
    split
    · exact known'.next ((Delivers.refl known).event _ _ _ _ _ _ _ _)
    · exact known'

theorem sent_notePeer (b : Beat) : SentOnly p (p.notePeer b) := by
  unfold Part.notePeer
  split
  · exact .refl p
  next d _ =>
    extract_lets match_ clash seen _ known
    have known' : SentOnly p known := .of_part
    split
    · exact known'.event _ _ _ _ _ _ _ _
    · exact known'

/-- A part that enters Solo: what it is once it has told of it, before it settles what waited (R361). -/
structure SoloEntered (p q : Part) : Prop where
  st : q.part.st = .solo
  oneWay : q.part.oneWay = p.part.oneWay
  missed : q.part.missed = p.part.missed
  leadInSolo : q.part.leadInSolo = p.part.lead
  peerKnown : q.deal.peerKnown = false
  act : Beats p q

theorem enterSolo_enters : SoloEntered p p.enterSolo := by
  unfold Part.enterSolo
  extract_lets lead left held pending _ told _ unknown dirty gone _ kept ended waited
  obtain ⟨out, part⟩ := partnerState_part (left.setPart { left.part with
    sentMsgs := [], early := [], fresh := true, leadInSolo := lead, exchanged := false, evOut := [] }) .solo
  have told' : Beats p told := .of (((delivers_leaveResync p).setPart _).trans (delivers_partnerState _ _))
  have dirty' : Beats p dirty := (told'.trans (.deal told _)).next (((Delivers.refl unknown).bump _).setPart _)
  have ended' : Delivers dirty ended := (delivers_setVault dirty _).trans (.foldl (fun p m => delivers_answerOwner p _ _ _) _ _)
  have endedSent : SentOnly dirty ended := SentOnly.trans (q := kept) .of_part (.foldl (fun p m => sent_answerOwner p _ _ _) _ _)
  have waited' : Delivers dirty waited := .ite ended' (ended'.trans (delivers_endLeaseWaits _))
  have waitedSent : SentOnly dirty waited := .ite endedSent (endedSent.trans (sent_endLeaseWaits _))
  have last : Delivers dirty _ := (waited'.mutate (.note (.partnerLost waited.leadEpoch held)) 0 none [] true).formReady
  have lastSent : SentOnly dirty _ := (waitedSent.trans (sent_mutate waited (.note (.partnerLost waited.leadEpoch held)) 0 none [] true)).trans
    (sent_formReady _)
  have dirtyPart : dirty.part = { told.part with soloMap := dirty.part.soloMap } := rfl
  rw [show told.part = _ from part] at dirtyPart
  unfold SentOnly at lastSent
  rw [dirtyPart] at lastSent
  refine ⟨?_, ?_, ?_, ?_, ?_, dirty'.next last⟩
  · rw [lastSent]
  · rw [lastSent]
    rfl
  · rw [lastSent]
    rfl
  · rw [lastSent]
    rfl
  · exact (congrArg DealUnit.peerKnown (last.within.deal)).trans rfl

end

end Sys2Proof.PartnerRows

namespace Sys2Proof.PartnerRows

/- The proofs are checked one after the other: side by side, those of the whole text need more stacks than the check's memory holds. -/
set_option Elab.async false

open Sys2Proof.Machine Sys2Proof.Safety Sys2Proof.Laws Sys2Proof.Architecture Sys2Proof.DealRows Sys2Proof.HostTransport Sys2Proof.Dispatching
  Sys2Proof.KeyVault Sys2Proof.GuardRows Sys2Proof.Calms Sys2Proof.Mirroring

/-! ### A frame that arrives (R353, R354) -/

section
variable {s : State} {h : MirrorHdr}

theorem partnerFrame_arrives (a : MirrorArrives s h) (m : MirrorIn) : s.toPart.partnerFrame h m = s.toPart.mirrorIn h m false := by
  unfold Part.partnerFrame
  rw [if_neg (by simp [a.link, a.enabled, a.paired]), if_neg (by simp [a.clear])]

theorem partnerFrame_beat (a : MirrorArrives s h) (b : Beat) : s.toPart.partnerFrame h (.beat b) = s.toPart.takeBeat h b := by
  rw [partnerFrame_arrives a]
  unfold Part.mirrorIn
  exact if_neg (by simp [a.version, a.reserved, a.tag, a.pairing])

theorem partnerFrame_order (a : MirrorArrives s h) (type : Nat) (b : Bytes) :
    s.toPart.partnerFrame h (.frame type b) = (s.toPart.takeHeader h).orderFrame h type b := by
  rw [partnerFrame_arrives a]
  unfold Part.mirrorIn
  exact if_neg (by simp [a.version, a.reserved, a.tag, a.pairing])

theorem drainEarly_one {p : Part} {n type : Nat} {b : Bytes} (early : p.part.early = [(n, h, type, b)]) (next : p.part.recvSeq + 1 = n)
    (awake : p.folding = false) :
    Part.drainEarly 1 p = (p.setPart { p.part with recvSeq := n, early := [] }).deliverMirror n type b := by
  have found : p.part.early.find? (fun e => e.1 = p.part.recvSeq + 1) = some (n, h, type, b) := by
    rw [early, next]
    simp
  have rest : p.part.early.filter (fun e => !(e.1 == n)) = [] := by
    rw [early]
    simp
  unfold Part.drainEarly
  simp only [found, awake, Bool.false_eq_true, false_and, if_false, rest, Part.drainEarly]

/-- The next frame of the order is delivered on the state its header and its number leave (R354). -/
theorem orderFrame_next (a : NextFrame s h) (type : Nat) (b : Bytes) :
    (s.toPart.takeHeader h).orderFrame h type b = (framed s h).deliverMirror h.seq.toNat type b := by
  obtain ⟨_, next, early, awake⟩ := a
  have kept := sent_takeHeader s.toPart h
  have seq : (s.toPart.takeHeader h).part.recvSeq + 1 = h.seq.toNat := by
    rw [kept]
    exact next
  have none : (s.toPart.takeHeader h).part.early = [] := by
    rw [kept]
    exact early
  have running : (s.toPart.takeHeader h).folding = false := by
    unfold Part.folding
    rw [(delivers_takeHeader s.toPart h).calm.power]
    exact awake
  have whole : Safety.framed s h = (s.toPart.takeHeader h).setPart { (s.toPart.takeHeader h).part with recvSeq := h.seq.toNat, early := [], fresh := false } := rfl
  generalize s.toPart.takeHeader h = p at *
  unfold Part.orderFrame
  extract_lets n _ begun _ held woken
  have begun' : begun = p.setPart { p.part with early := [], fresh := false } := by
    unfold begun
    split
    next opens => rw [show n - 1 = p.part.recvSeq by omega]
    next opens =>
      have settled : p.part.fresh = false := by
        cases flag : p.part.fresh with
        | false => rfl
        | true => exact absurd ⟨flag, by omega⟩ opens
      rw [← settled, ← none]
      rfl
  have held' : held = begun.setPart { begun.part with early := begun.part.early ++ [(n, h, type, b)] } := rfl
  have last : begun.part.recvSeq + 1 = n := by
    rw [begun']
    exact seq
  have empty : begun.part.early = [] := by rw [begun']; rfl
  rw [if_neg (by simp only [empty, List.any_nil, Bool.false_eq_true, or_false]; omega)]
  have woken' : woken = held := if_neg (by
    rintro ⟨-, folds⟩
    have still : held.folding = p.folding := by rw [held', begun']; rfl
    rw [still, running] at folds
    exact absurd folds (by decide))
  have one : woken.part.early = [(n, h, type, b)] := by rw [woken']; rw [held', begun']; rfl
  have at_ : woken.part.recvSeq + 1 = n := by rw [woken']; exact last
  have folds : woken.folding = false := by
    rw [← running, woken', held', begun']
    rfl
  rw [show woken.part.early.length = 1 by rw [one]; rfl, drainEarly_one one at_ folds, whole, woken']
  rw [held', begun']
  rfl

theorem frame_next (a : NextFrame s h) (type : Nat) (b : Bytes) :
    powered s (fun p => p.partnerFrame h (.frame type b)) = .next (after s ((framed s h).deliverMirror h.seq.toNat type b)) := by
  rw [powered_on a.on, partnerFrame_order a.toMirrorArrives, orderFrame_next a]

theorem heartbeat_takes (a : MirrorArrives s h) (b : Beat) : exec (.heartbeat h b) s = .next (after s (s.toPart.takeBeat h b))  := by
  exact (powered_on a.on (fun p => p.partnerFrame h (.beat b))).trans (congrArg (fun q => Host.Outcome.next (after s q)) (partnerFrame_beat a b))

end

/-! ### A heartbeat that counts (R355 to R358, R437) -/

/-- The state toward the partner once a heartbeat is taken. -/
def beaten (p : Part) (h : MirrorHdr) (b : Beat) : PartUnit :=
  let cycle := p.now / 2
  let trip := (cycle % 2 ^ 64 + 2 ^ 64 - b.echo.toNat + 2 ^ 64 - b.delay.toNat) % 2 ^ 64 / 150
  { p.part with
    beatIn := h.seq.toNat, missed := 0, beatAt := p.now, beatSent := b.sent, peerSt := b.state.toNat, peerEpoch := b.epoch.toNat
    rtt := if b.echo = 0 then p.part.rtt else BitVec.ofNat 16 (min trip 0xFFFF) }

/-- The part once it has taken what a heartbeat says. -/
def heard (p : Part) (h : MirrorHdr) (b : Beat) : Part := ((p.takeHeader h).setPart (beaten (p.takeHeader h) h b)).notePeer b

section
variable (p : Part) (h : MirrorHdr) (b : Beat)

theorem beats_heard : Beats p (heard p h b) :=
  (Beats.of ((delivers_takeHeader p h).setPart _)).trans (beats_notePeer _ b)

theorem heard_part : ∃ x : PartUnit, (heard p h b).part = { p.part with
    sendSeq := x.sendSeq, sentMsgs := x.sentMsgs, applied := x.applied, evOut := x.evOut, rtt := x.rtt, beatIn := h.seq.toNat, missed := 0
    beatAt := p.now, beatSent := b.sent, peerSt := b.state.toNat, peerEpoch := b.epoch.toNat } := by
  obtain ⟨sent, taken⟩ : ∃ x : PartUnit, (p.takeHeader h).part = { p.part with
      sendSeq := x.sendSeq, sentMsgs := x.sentMsgs, applied := x.applied, evOut := x.evOut } := ⟨_, sent_takeHeader p h⟩
  have now : (p.takeHeader h).now = p.now := (delivers_takeHeader p h).within.now
  have noted : heard p h b = ((p.takeHeader h).setPart (beaten (p.takeHeader h) h b)).notePeer b := rfl
  refine ⟨{ (heard p h b).part with rtt := (beaten (p.takeHeader h) h b).rtt }, ?_⟩
  have told := sent_notePeer ((p.takeHeader h).setPart (beaten (p.takeHeader h) h b)) b
  rw [← noted] at told
  refine Eq.trans told ?_
  simp only [Part.setPart_part, beaten, taken, now]

theorem takeBeat_counted (fresh : p.part.beatIn < h.seq.toNat) : ∃ clash : Bool, p.takeBeat h b = match (heard p h b).part.st with
    | .unpaired => heard p h b
    | .solo =>
      if (heard p h b).part.oneWay ∧ b.state ≠ 1 then heard p h b
      else ((heard p h b).setPart { (heard p h b).part with oneWay := false, exchanged := true }).toLinking
    | .linking =>
      let (p, ok) := (heard p h b).firstRoles b
      let p := p.setPart { p.part with exchanged := true }
      if ok then p.tryResync b else p
    | .mirrored =>
      if b.state = 4 then ((heard p h b).setPart { (heard p h b).part with oneWay := true }).enterSolo
      else if clash then (heard p h b).enterSolo
      else heard p h b
    | .resync =>
      if b.state = 4 then ((heard p h b).setPart { (heard p h b).part with oneWay := true }).enterSolo
      else if (heard p h b).deal.peerMatch then (heard p h b).feedResync
      else (heard p h b).toLinking := by
  refine ⟨(heard p h b).deal.active.any (fun d => d.serial == b.serial.toNat && !(d.digest == b.digest)), ?_⟩
  unfold Part.takeBeat
  rw [if_neg (by omega)]
  extract_lets taken cycle trip _ timed noted clash
  have same : noted = heard p h b := rfl
  clear_value noted
  subst same
  rfl

theorem heard_st : (heard p h b).part.st = p.part.st := by
  obtain ⟨x, part⟩ := heard_part p h b
  rw [part]

theorem heard_oneWay : (heard p h b).part.oneWay = p.part.oneWay := by
  obtain ⟨x, part⟩ := heard_part p h b
  rw [part]

theorem heard_missed : (heard p h b).part.missed = 0 := by
  obtain ⟨x, part⟩ := heard_part p h b
  rw [part]

/-- Back in Linking a part has left its resync, and told of it (R358). -/
theorem toLinking_part : ∃ x : PartUnit, p.toLinking.part = { p.part with
    st := .linking, soloMap := x.soloMap, settled := [], peerMap := [], maps := [], todo := [], evOut := x.evOut } := by
  obtain ⟨out, part⟩ := partnerState_part p.leaveResync .linking
  exact ⟨{ p.leaveResync.part with evOut := out }, part⟩

theorem sendObjects_missed (n : Nat) : (Part.sendObjects n p).part.missed = p.part.missed := by
  induction n generalizing p with
  | zero => rfl
  | succ n ih =>
    unfold Part.sendObjects
    split
    · rfl
    · extract_lets _ shifted sent
      have sent' : SentOnly shifted sent := by
        unfold sent
        split
        · exact sent_sendMirror _ _
        · exact .refl _
      split
      · rfl
      · rw [ih, sent']
        rfl

theorem enterResync_missed : p.enterResync.part.missed = p.part.missed := by
  unfold Part.enterResync
  extract_lets _ begun
  obtain ⟨out, told⟩ := partnerState_part begun .resync
  have sent := ((sent_sendMapKind (begun.partnerState .resync) 0).trans (sent_sendMapKind _ 1)).trans (sent_sendMapKind _ 2)
  rw [sent, told]
  rfl

theorem tryResync_missed : (p.tryResync b).part.missed = p.part.missed := by
  unfold Part.tryResync
  split
  · exact enterResync_missed _
  · rfl

theorem firstRoles_missed : (p.firstRoles b).1.part.missed = p.part.missed := by
  unfold Part.firstRoles
  split
  · split
    · rfl
    · split
      · split
        · rfl
        · rw [(event_noted p 14 0x0812 3 0 0 _ _ _).eq]
      · rfl
  · rfl

theorem takeBeat_missed (fresh : p.part.beatIn < h.seq.toNat) : (p.takeBeat h b).part.missed = 0 := by
  obtain ⟨clash, taken⟩ := takeBeat_counted p h b fresh
  have zero := heard_missed p h b
  rw [taken]
  generalize heard p h b = q at *
  split
  · exact zero
  · split
    · exact zero
    · obtain ⟨x, part⟩ := toLinking_part (q.setPart { q.part with oneWay := false, exchanged := true })
      rw [part]
      exact zero
  · split
    next r ok roles =>
      have same : r.part.missed = 0 := by
        have := firstRoles_missed q b
        rw [roles] at this
        exact this.trans zero
      split
      · rw [tryResync_missed]
        exact same
      · exact same
  · split
    · exact (enterSolo_enters _).missed.trans zero
    · split
      · exact (enterSolo_enters _).missed.trans zero
      · exact zero
  · split
    · exact (enterSolo_enters _).missed.trans zero
    · split
      · exact (sendObjects_missed q _).trans zero
      · obtain ⟨x, part⟩ := toLinking_part q
        rw [part]
        exact zero

theorem beats_takeBeat : Beats p (p.takeBeat h b) := by
  by_cases fresh : p.part.beatIn < h.seq.toNat
  · obtain ⟨clash, taken⟩ := takeBeat_counted p h b fresh
    have heard' := beats_heard p h b
    rw [taken]
    generalize heard p h b = q at *
    split
    · exact heard'
    · split
      · exact heard'
      · exact heard'.next (((Delivers.refl q).setPart _).trans (delivers_toLinking _))
    · split
      next r ok roles =>
        have granted : Delivers q r := by
          have := delivers_firstRoles q b
          rwa [roles] at this
        split
        · exact heard'.next ((granted.setPart _).trans (delivers_tryResync _ b))
        · exact heard'.next (granted.setPart _)
    · split
      · exact (heard'.next ((Delivers.refl q).setPart _)).trans (enterSolo_enters _).act
      · split
        · exact heard'.trans (enterSolo_enters _).act
        · exact heard'
    · split
      · exact (heard'.next ((Delivers.refl q).setPart _)).trans (enterSolo_enters _).act
      · split
        · exact heard'.next (delivers_feedResync _)
        · exact heard'.next (delivers_toLinking _)
  · unfold Part.takeBeat
    rw [if_pos (by omega)]
    exact .of (.refl p)

/-- A heartbeat that reports Solo to a part in step with its partner is the loss of the partner (R437). -/
theorem takeBeat_oneWay (fresh : p.part.beatIn < h.seq.toNat) (st : p.part.st = .mirrored ∨ p.part.st = .resync) (lost : b.state = 4) :
    p.takeBeat h b = ((heard p h b).setPart { (heard p h b).part with oneWay := true }).enterSolo := by
  obtain ⟨clash, taken⟩ := takeBeat_counted p h b fresh
  rw [taken, heard_st]
  obtain st | st := st <;> rw [st] <;> exact if_pos lost

theorem takeBeat_solo (fresh : p.part.beatIn < h.seq.toNat) (st : p.part.st = .solo) : p.takeBeat h b =
    if (heard p h b).part.oneWay ∧ b.state ≠ 1 then heard p h b
    else ((heard p h b).setPart { (heard p h b).part with oneWay := false, exchanged := true }).toLinking := by
  obtain ⟨clash, taken⟩ := takeBeat_counted p h b fresh
  rw [taken, heard_st, st]

end

/-- Settles O49, by what a heartbeat does in Mirrored, Resync and Solo. -/
theorem oneWayLoss : Obligations.OneWayLoss := by
  unfold Obligations.OneWayLoss
  refine ⟨fun s h b a fresh st lost => ?_, fun s h b a fresh st one other => ?_, fun s h b a fresh st one back => ?_⟩
  · have enters := enterSolo_enters ((heard s.toPart h b).setPart { (heard s.toPart h b).part with oneWay := true })
    refine ⟨_, heartbeat_takes a b, ?_, ?_, (beats_takeBeat s.toPart h b).keeps⟩
    · exact (congrArg (fun q => q.part.st) (takeBeat_oneWay s.toPart h b fresh st lost)).trans enters.st
    · exact (congrArg (fun q => q.part.oneWay) (takeBeat_oneWay s.toPart h b fresh st lost)).trans enters.oneWay
  · have stays : s.toPart.takeBeat h b = heard s.toPart h b := by
      rw [takeBeat_solo _ h b fresh st, if_pos ⟨(heard_oneWay s.toPart h b).trans one, other⟩]
    refine ⟨_, heartbeat_takes a b, ?_, ?_, (beats_takeBeat s.toPart h b).keeps⟩
    · exact (congrArg (fun q => q.part.st) stays).trans ((heard_st s.toPart h b).trans st)
    · exact (congrArg (fun q => q.part.oneWay) stays).trans ((heard_oneWay s.toPart h b).trans one)
  · have links : s.toPart.takeBeat h b = ((heard s.toPart h b).setPart { (heard s.toPart h b).part with oneWay := false, exchanged := true }).toLinking := by
      rw [takeBeat_solo _ h b fresh st, if_neg (fun same => same.2 back)]
    obtain ⟨x, part⟩ := toLinking_part ((heard s.toPart h b).setPart { (heard s.toPart h b).part with oneWay := false, exchanged := true })
    refine ⟨_, heartbeat_takes a b, ?_, ?_, (beats_takeBeat s.toPart h b).keeps⟩
    · refine (congrArg (fun q => q.part.st) links).trans ?_
      rw [part]
    · refine (congrArg (fun q => q.part.oneWay) links).trans ?_
      rw [part]
      rfl

end Sys2Proof.PartnerRows

namespace Sys2Proof.PartnerRows

-- As in the other files of proofs: one theorem at a time.
set_option Elab.async false

open Sys2Proof.Machine Sys2Proof.Safety Sys2Proof.Laws Sys2Proof.Architecture Sys2Proof.DealRows Sys2Proof.HostTransport Sys2Proof.Dispatching
  Sys2Proof.KeyVault Sys2Proof.GuardRows Sys2Proof.Calms Sys2Proof.Mirroring

/-! ### The link and its heartbeats (R349 to R356) -/

section
variable {s : State}

theorem within_ptx (p : Part) (l : List MirrorOut) : Within [] p { p with ptx := l } := ⟨fun u _ => by cases u <;> simp [Unit_.Same, after], rfl⟩

/-- A frame that Shuffle does not take stands at the front of what has left. -/
theorem transmit_clear {p : Part} (clear : p.shufflesPartner 1 = false) (f : MirrorOut) : p.transmit f =
    { p with ptx := { f with ack := p.part.recvSeq, held := p.part.heldSeq, corrupt := false
                             wire := p.mirrorWire { f with ack := p.part.recvSeq, held := p.part.heldSeq } } :: p.ptx } := by
  unfold Part.transmit
  rw [if_neg (by simp [clear])]
  rfl

/-- A missed heartbeat is counted once its 10 µs are over (R356). -/
def beatMissed (p : Part) : Part :=
  (p.atTime (p.part.beatAt + usec 10 * (p.part.missed + 1))).setPart { p.part with missed := min (p.part.missed + 1) 30 }

theorem missed_counts (on : s.power.on = true) (paired : s.toPart.paired = true) (few : s.part.missed < 29) :
    exec .heartbeatMissed s = .next (after s (beatMissed s.toPart)) := by
  show execHeartbeatMissed s = _
  unfold execHeartbeatMissed
  rw [powered_on on]
  rw [if_neg (by simp [paired])]
  have lessThan30 : s.toPart.part.missed + 1 < 30 := by omega
  exact congrArg (fun q => Host.Outcome.next (after s q)) (if_pos lessThan30)

theorem beatMissed_part (few : s.part.missed < 29) : (beatMissed s.toPart).part = { s.part with missed := s.part.missed + 1 } := by
  unfold beatMissed
  rw [show min (s.toPart.part.missed + 1) 30 = s.part.missed + 1 from Nat.min_eq_left (by omega)]
  rfl

theorem beatMissed_keeps : Keeps [.fuses, .power, .deal, .ports, .xct, .disp, .vault, .seats, .lats, .trngs, .guard, .evr, .cers, .joker, .shuffle,
    .counts] s (after s (beatMissed s.toPart)) :=
  keeps_timed (within_setPart _ _) (by decide)

/-- The thirtieth heartbeat missed in a row is the loss of the partner (R356, R361). -/
theorem missed_loses (on : s.power.on = true) (many : 29 ≤ s.part.missed) (st : s.part.st = .mirrored ∨ s.part.st = .resync) :
    exec .heartbeatMissed s = .next (after s (beatMissed s.toPart).enterSolo) := by
  have paired : s.toPart.paired = true := by
    unfold Part.paired
    obtain st | st := st <;> rw [show s.toPart.part.st = _ from st] <;> rfl
  show execHeartbeatMissed s = _
  unfold execHeartbeatMissed
  rw [powered_on on]
  rw [if_neg (by simp [paired])]
  have atLeast30 : ¬s.toPart.part.missed + 1 < 30 := by
    have : s.toPart.part.missed = s.part.missed := rfl
    omega
  refine congrArg (fun q => Host.Outcome.next (after s q)) ?_
  exact (if_neg atLeast30).trans (if_pos st.symm)

theorem missed_entered (many : 29 ≤ s.part.missed) : SoloEntered (beatMissed s.toPart) (beatMissed s.toPart).enterSolo ∧
    (beatMissed s.toPart).part.missed = 30 ∧ Keeps [.fuses, .ports, .lats, .trngs, .guard, .cers, .joker] s (after s (beatMissed s.toPart).enterSolo) := by
  have enters := enterSolo_enters (beatMissed s.toPart)
  have thirty : min (s.toPart.part.missed + 1) 30 = 30 := Nat.min_eq_right (by
    have : s.toPart.part.missed = s.part.missed := rfl
    omega)
  have timed : Within (.deal :: formUnits) (s.toPart.atTime (s.part.beatAt + usec 10 * (s.part.missed + 1))) (beatMissed s.toPart).enterSolo :=
    (within_setPart _ _).mono.next enters.act.within
  exact ⟨enters, thirty, keeps_timed timed (by decide)⟩

theorem missed_now (many : 29 ≤ s.part.missed) : (beatMissed s.toPart).enterSolo.now = max s.now (s.part.beatAt + usec 10 * (s.part.missed + 1)) :=
  (missed_entered many).1.act.within.now

/-- A heartbeat is due: its number is taken (R355). -/
def beatDue (p : Part) : Part :=
  (p.atTime p.part.beatDue).setPart { p.part with beatDue := max p.now p.part.beatDue + usec 10, beatOut := p.part.beatOut + 1 }

/-- The heartbeat that is due leaves (R355). -/
def beatSent (p : Part) : Part := (beatDue p).transmit { seq := (beatDue p).part.beatOut, msg := none, beat := some (beatDue p).ownBeat }

theorem send_beats (on : s.power.on = true) (paired : s.toPart.paired = true) (link : s.part.link = 3) (enabled : s.part.enabled = true)
    (clear : s.shufflesPartner 1 = false) (resync : s.part.st ≠ .resync) (mirrored : s.part.st ≠ .mirrored) :
    exec .heartbeatSend s = .next (after s (beatSent s.toPart)) := by
  show execHeartbeatSend s = _
  unfold execHeartbeatSend
  rw [powered_on on, if_neg (by simp [paired, link, enabled])]
  have apart : ¬((beatSent s.toPart).part.st = .resync ∨ (beatSent s.toPart).part.st = .mirrored) := by
    unfold beatSent
    rw [transmit_clear (p := beatDue s.toPart) clear]
    rintro (st | st)
    · exact resync st
    · exact mirrored st
  exact congrArg (fun q => Host.Outcome.next (after s q)) (if_neg apart)

/-- A frame the partner has not acknowledged in time is due again (R354). -/
def resending (p : Part) (n : Nat) (m : MirrorMsg) (sent : Nat) : Part :=
  let p := p.atTime (sent + 300 * p.part.rtt.toNat + usec 20)
  let again := p.part.sentMsgs.map (fun e => if e.1 = n then (n, m, p.now) else e)
  (p.setPart { p.part with sentMsgs := again }).bump (regAddr 0 winPART 0x0108)

def resent (p : Part) (n : Nat) (m : MirrorMsg) (sent : Nat) : Part := (resending p n m sent).transmit { seq := n, msg := some m }

theorem resend_sends {seq : BitVec 64} {n sent : Nat} {m : MirrorMsg} (on : s.power.on = true) (paired : s.toPart.paired = true)
    (link : s.part.link = 3) (kept : s.part.sentMsgs.find? (fun e => e.1 = seq.toNat) = some (n, m, sent)) :
    exec (.mirrorFrameResend seq) s = .next (after s (resent s.toPart n m sent)) := by
  show execMirrorFrameResend seq s = _
  unfold execMirrorFrameResend
  have found : (if s.toPart.paired && s.toPart.part.link == 3 then s.toPart.part.sentMsgs.find? (fun e => e.1 = seq.toNat) else none) =
      some (n, m, sent) := by
    rw [paired, show s.toPart.part.link = 3 from link]
    exact kept
  rw [powered_on on]
  simp only [found]
  rfl

end

/-- Settles O44, by what the link, a heartbeat and a missed heartbeat do. -/
theorem partnerLinkActs : Obligations.PartnerLinkActs := by
  unfold Obligations.PartnerLinkActs
  refine ⟨fun s on enabled down live => ?_, fun s on idle => ?_, fun s on up => ?_, fun s on paired link enabled clear resync mirrored => ?_,
    fun s h b a fresh st one => ?_, fun s h b a old => ?_, fun s on paired few => ?_, fun s on many st => ?_,
    fun s seq n m at_ on paired link clear kept => ?_, fun s on paired few => ?_, fun s on last st => ?_, fun s h b a fresh => ?_⟩
  · show execPartnerLinkUp s = _
    unfold execPartnerLinkUp
    rw [powered_on on, if_pos ⟨enabled, down, live⟩]
    rfl
  · show execPartnerLinkDown s = _
    unfold execPartnerLinkDown
    rw [powered_on on]
    have none : (({ s.toPart with ppAssocs := [] } : Part).setPart { s.part with link := if s.part.enabled then 1 else 0 }).part.exchange = none := idle
    simp only [none]
    rfl
  · refine ⟨after s ((s.toPart.bump (regAddr 0 winPPORT 0x0120)).bump (regAddr 0 winPPORT 0x0110)), ?_, rfl, ?_, ?_⟩
    · show execPartnerPortFrame .fcs s = _
      unfold execPartnerPortFrame
      rw [powered_on on, if_neg (by show ¬s.part.link.toNat < 2; omega)]
    · refine (Sparse.get_set_same _ _ _ _).trans (congrArg (· + 1) (Sparse.get_set_other _ _ _ _ _ (by decide)))
    · exact (Sparse.get_set_other _ _ _ _ _ (by decide)).trans (Sparse.get_set_same _ _ _ _)
  · refine ⟨_, send_beats on paired link enabled clear resync mirrored, ?_⟩
    unfold beatSent
    rw [transmit_clear (p := beatDue s.toPart) clear]
    have sent (l : List MirrorOut) : Within [.part] (s.toPart.atTime s.part.beatDue) { beatDue s.toPart with ptx := l } :=
      (within_setPart _ _).next (within_ptx (beatDue s.toPart) l)
    exact ⟨rfl, rfl, ⟨_, rfl, rfl, rfl, rfl, rfl, rfl, rfl, rfl⟩, keeps_timed (sent _) (by decide)⟩
  · have links : s.toPart.takeBeat h b = ((heard s.toPart h b).setPart { (heard s.toPart h b).part with oneWay := false, exchanged := true }).toLinking := by
      rw [takeBeat_solo _ h b fresh st, if_neg (fun same => absurd (same.1.symm.trans ((heard_oneWay s.toPart h b).trans one)) (by decide))]
    obtain ⟨x, told⟩ := toLinking_part ((heard s.toPart h b).setPart { (heard s.toPart h b).part with oneWay := false, exchanged := true })
    obtain ⟨y, taken⟩ := heard_part s.toPart h b
    have part := (congrArg Part.part links).trans told
    rw [Part.setPart_part, taken] at part
    refine ⟨_, heartbeat_takes a b, ?_, ?_, ?_, ?_, ?_, (beats_takeBeat s.toPart h b).keeps⟩
    · exact congrArg (fun x : PartUnit => x.st) part
    · exact congrArg (fun x : PartUnit => x.missed) part
    · exact congrArg (fun x : PartUnit => x.beatIn) part
    · exact congrArg (fun x : PartUnit => x.beatAt) part
    · exact congrArg (fun x : PartUnit => x.peerEpoch) part
  · have same : s.toPart.takeBeat h b = s.toPart := by
      unfold Part.takeBeat
      rw [if_pos old]
    exact (heartbeat_takes a b).trans (by rw [same]; rfl)
  · refine ⟨_, missed_counts on paired few, beatMissed_part few, Nat.le_max_right _ _, beatMissed_keeps⟩
  · obtain ⟨enters, -, keeps⟩ := missed_entered many
    exact ⟨_, missed_loses on many st, enters.st, enters.leadInSolo, enters.peerKnown, keeps⟩
  · refine ⟨_, resend_sends on paired link kept, ?_⟩
    unfold resent
    rw [transmit_clear (p := resending s.toPart n m at_) clear]
    have counted : Within [.part, .counts] (s.toPart.atTime (at_ + 300 * s.part.rtt.toNat + usec 20)) (resending s.toPart n m at_) :=
      (within_setPart _ _).mono.next (within_bump _ _ _)
    have sent (l : List MirrorOut) : Within [.part, .counts] (s.toPart.atTime (at_ + 300 * s.part.rtt.toNat + usec 20))
        { resending s.toPart n m at_ with ptx := l } := counted.next (within_ptx (resending s.toPart n m at_) l)
    exact ⟨⟨_, rfl, rfl, rfl, rfl, rfl, rfl, rfl, rfl⟩, Nat.le_max_right _ _,
      keeps_timed (sent _) (by decide)⟩
  · refine ⟨_, missed_counts on paired few, ?_, ?_, Nat.le_max_right _ _, fun u mem => beatMissed_keeps u (by revert u; decide)⟩
    · exact congrArg PartUnit.missed (beatMissed_part few)
    · show (beatMissed s.toPart).part.st = _
      rw [beatMissed_part few]
  · obtain ⟨enters, thirty, keeps⟩ := missed_entered (le_of_eq last.symm)
    refine ⟨_, missed_loses on last.ge st, enters.st, enters.missed.trans thirty, ?_, keeps⟩
    have ended : (beatMissed s.toPart).enterSolo.now = max s.now (s.part.beatAt + usec 10 * (s.part.missed + 1)) := missed_now last.ge
    rw [last] at ended
    exact (Nat.le_max_right _ _).trans ended.ge
  · exact ⟨_, heartbeat_takes a b, takeBeat_missed s.toPart h b fresh, (beats_takeBeat s.toPart h b).keeps⟩

end Sys2Proof.PartnerRows

namespace Sys2Proof.PartnerRows

-- As in the other files of proofs: one theorem at a time.
set_option Elab.async false

open Sys2Proof.Machine Sys2Proof.Safety Sys2Proof.Laws Sys2Proof.Architecture Sys2Proof.DealRows Sys2Proof.HostTransport Sys2Proof.Dispatching
  Sys2Proof.KeyVault Sys2Proof.GuardRows Sys2Proof.Calms Sys2Proof.Mirroring

/-! ### Frames of the mirror order (R353, R359, R363, R364) -/

section
variable {s : State} {h : MirrorHdr}

/-- Of the state toward the partner the frame moves what sending moves, its own number, and what waited behind it. -/
theorem framed_part : ∃ x : PartUnit, (Safety.framed s h).part = { s.part with
    sendSeq := x.sendSeq, sentMsgs := x.sentMsgs, applied := x.applied, evOut := x.evOut, recvSeq := h.seq.toNat, early := [], fresh := false } := by
  obtain ⟨x, taken⟩ : ∃ x : PartUnit, (s.toPart.takeHeader h).part = { s.part with
      sendSeq := x.sendSeq, sentMsgs := x.sentMsgs, applied := x.applied, evOut := x.evOut } := ⟨_, sent_takeHeader s.toPart h⟩
  refine ⟨x, ?_⟩
  unfold Safety.framed
  rw [Part.setPart_part, taken]

theorem delivers_framed : Delivers s.toPart (Safety.framed s h) := (delivers_takeHeader s.toPart h).setPart _

theorem delivered_keeps {q : Part} (act : Delivers s.toPart q) : Keeps [.fuses, .deal, .ports, .lats, .trngs, .guard, .cers, .joker] s (after s q) :=
  act.within.units.keeps (by decide)

/-- A frame that fails its checks only counts (R353). -/
theorem partnerFrame_fails (link : s.part.link = 3) (enabled : s.part.enabled = true) (paired : s.toPart.paired = true)
    (clear : s.toPart.shufflesPartner 0 = false) (bad : h.version ≠ 1 ∨ h.reserved = true ∨ h.tagOk = false) (m : MirrorIn) :
    s.toPart.partnerFrame h m = s.toPart.bump (regAddr 0 winPART 0x0110) := by
  have reached : s.toPart.partnerFrame h m = s.toPart.mirrorIn h m false := by
    unfold Part.partnerFrame
    rw [if_neg (by simp [link, enabled, paired]), if_neg (by simp [clear])]
  rw [reached]
  unfold Part.mirrorIn
  exact if_pos (by
    obtain version | reserved | tag := bad
    · exact .inr (.inl version)
    · exact .inr (.inr (.inl reserved))
    · exact .inr (.inr (.inr (.inl tag))))

/-- A map frame of a kind already told adds its objects to the partner's map (R363). -/
theorem takeMap_again {p : Part} {b : Bytes} (st : p.part.st = .resync) (todo : p.part.todo = []) (len : 8 ≤ b.length) (kind : field b 0 1 ≤ 2)
    (small : (b.drop 8).length ≤ 8192) (told : p.part.maps.contains (field b 0 1) = true) : p.takeMap b = p.setPart { p.part with
      peerMap := p.part.peerMap ++ ((List.range (8 * (b.drop 8).length)).filter (fun i => (byteAt (b.drop 8) (i / 8)).getLsbD (7 - i % 8))).map
        (fun i => Part.objAt (field b 0 1) (field b 4 4 + i)) } := by
  unfold Part.takeMap
  extract_lets k first bitmap set maps whole
  have unfit : ¬(p.part.st ≠ .resync ∨ b.length < 8 ∨ 2 < k ∨ 8192 < bitmap.length) := by
    rintro (other | short | past | long)
    · exact other st
    · omega
    · exact absurd past (Nat.not_lt.2 kind)
    · exact absurd long (Nat.not_lt.2 small)
  have maps' : maps = p.part.maps := if_pos told
  have whole' : whole = false := by
    unfold whole
    rw [maps']
    by_cases three : p.part.maps.length = 3 <;> simp [three]
  rw [if_neg unfit, maps', whole']
  have none : (p.setPart { p.part with
      peerMap := p.part.peerMap ++ set.map (fun i => Part.objAt k (first + i)), maps := p.part.maps
      todo := if false then p.part.soloMap else p.part.todo }).part.todo = [] := todo
  unfold Part.feedResync
  rw [none]
  rfl

theorem within_dropUnsent (p : Part) : Within [.vault, .seats, .counts] p p.dropUnsent := by
  unfold Part.dropUnsent
  split
  · exact .refl
  · extract_lets keep slots emptied
    have wiped : Within [.vault, .seats, .counts] p (p.wipeCache (fun c => slots.contains c.slot)) := (within_wipeCache p _).mono
    have emptied' : Within [.vault, .seats, .counts] p emptied :=
      wiped.next (.foldl (l := [.vault]) (fun p i => within_emptySlots p none i 1) slots (p.wipeCache (fun c => slots.contains c.slot)))
    exact emptied'.next (within_vault emptied _)

theorem dropUnsent_part (p : Part) : p.dropUnsent.part = p.part := (within_dropUnsent p).units .part (by decide)

theorem calm_dropUnsent (p : Part) : Calm p p.dropUnsent := by
  unfold Part.dropUnsent
  split
  · exact .refl p
  · extract_lets keep slots emptied
    have emptied' : Calm p emptied := (calm_wipeCache p _).trans (.foldl (fun p i => calm_emptySlots p none i 1) slots _)
    exact emptied'.trans ⟨rfl, Memory.wf_filter _ _, id, rfl, id⟩

theorem delivers_dropUnsent (p : Part) : Delivers p p.dropUnsent := .of (within_dropUnsent p) (calm_dropUnsent p)

/-- The rejoin ends mirrored, in the pair's higher epoch, with nothing left to settle (R364). -/
theorem endRejoin_ends (p : Part) : Delivers p p.endRejoin ∧ p.endRejoin.part.st = .mirrored ∧ p.endRejoin.part.soloMap = [] ∧
    p.endRejoin.part.settled = [] ∧ p.endRejoin.part.full = false ∧
    p.endRejoin.part.pairing = p.part.pairing.map (fun x => { x with epoch := max p.leadEpoch p.part.peerEpoch
                                                                     lead := p.endRejoin.part.lead }) := by
  unfold Part.endRejoin
  extract_lets epoch lead dropped full n _ ended told
  have ended' : Delivers p ended := (delivers_dropUnsent p).setPart _
  have told' : Delivers p told := (ended'.bump (regAddr 0 winPART 0x0120)).trans (delivers_partnerState _ _)
  obtain ⟨out, part⟩ := partnerState_part (ended.bump (regAddr 0 winPART 0x0120)) .mirrored
  split
  next written r journal =>
    have written' : Delivers told written := by
      have := delivers_writeJournal told 0 false epoch (.rejoin epoch n full)
      rwa [journal] at this
    have sent : SentOnly told written := by
      have := sent_writeJournal told 0 false epoch (.rejoin epoch n full)
      rwa [journal] at this
    have kept : SentOnly told written.formReady := sent.trans (sent_formReady written)
    have toldPart : told.part = { ended.part with st := .mirrored, evOut := out } := part
    rw [SentOnly, toldPart] at kept
    refine ⟨(told'.trans written').formReady, ?_⟩
    rw [kept]
    refine ⟨rfl, rfl, rfl, rfl, ?_⟩
    show dropped.part.pairing.map _ = _
    rw [show dropped.part = p.part from dropUnsent_part p]
    rfl

end

/-- Settles O45, by what the next frame of the order is delivered as. -/
theorem mirrorFramesAct : Obligations.MirrorFramesAct := by
  unfold Obligations.MirrorFramesAct
  refine ⟨fun s h b a => frame_next a 2 b, fun s h b a => frame_next a 3 b, fun s h b a => frame_next a 4 b, fun s h b a len => ?_,
    fun s h b a len => ?_, fun s h b a => frame_next a 6 b, fun s h b a => frame_next a 7 b, fun s h b a => frame_next a 8 b,
    fun s h b on link enabled paired clear bad => ?_, fun s h b a st todo len kind small told => ?_, fun s h b a len lead st => ?_,
    fun s on done => ?_⟩
  · refine (frame_next a 5 b).trans (congrArg (fun q => Host.Outcome.next (after s q)) ?_)
    exact if_pos len
  · refine (frame_next a 5 b).trans (congrArg (fun q => Host.Outcome.next (after s q)) ?_)
    exact if_neg (by omega)
  · show execMutation h b s = _
    unfold execMutation
    rw [powered_on on, partnerFrame_fails link enabled paired clear bad]
  · obtain ⟨x, part⟩ := framed_part (s := s) (h := h)
    have resync : (Safety.framed s h).part.st = .resync := by rw [part]; exact st
    have idle : (Safety.framed s h).part.todo = [] := by rw [part]; exact todo
    have known : (Safety.framed s h).part.maps.contains (field b 0 1) = true := by rw [part]; exact told
    have taken := takeMap_again resync idle len kind small known
    refine ⟨_, frame_next a 6 b, fun i inside set => ?_, ?_, fun u mem =>
      delivered_keeps (delivers_framed.trans (delivers_takeMap _ b)) u (by revert u; decide)⟩
    · show _ ∈ ((Safety.framed s h).takeMap b).part.peerMap
      rw [taken]
      exact List.mem_append_right _ (List.mem_map.2 ⟨i, List.mem_filter.2 ⟨List.mem_range.2 inside, set⟩, rfl⟩)
    · show ((Safety.framed s h).takeMap b).part.recvSeq = _
      rw [taken, Part.setPart_part, part]
  · refine (frame_next a 4 b).trans (congrArg (fun q => Host.Outcome.next (after s q)) ?_)
    obtain ⟨x, part⟩ := framed_part (s := s) (h := h)
    refine if_neg ?_
    rw [part]
    rintro (other | follow | ⟨apart, away⟩)
    · exact other len
    · exact absurd (lead.symm.trans follow) (by decide)
    · obtain st | st := st
      · exact apart st
      · exact away st
  · obtain ⟨act, st, solo, settled, full, pairing⟩ := endRejoin_ends s.toPart
    refine ⟨after s s.toPart.endRejoin, ?_, st, solo, settled, full, ?_, delivered_keeps act⟩
    · show execResyncComplete s = _
      unfold execResyncComplete
      rw [powered_on on, if_pos done]
    · show s.toPart.endRejoin.leadEpoch = _
      generalize max s.toPart.leadEpoch s.toPart.part.peerEpoch = epoch at pairing ⊢
      unfold Part.leadEpoch
      rw [pairing]
      cases s.toPart.part.pairing <;> rfl

end Sys2Proof.PartnerRows

/-! ## Fold, and the system commands (16 R417 to R426) -/

namespace Sys2Proof.FoldRows

-- As in the other files of proofs: one theorem at a time.
set_option Elab.async false

open Sys2Proof.Machine Sys2Proof.Safety Sys2Proof.Laws Sys2Proof.Architecture Sys2Proof.DealRows Sys2Proof.HostTransport Sys2Proof.Dispatching
  Sys2Proof.KeyVault Sys2Proof.GuardRows Sys2Proof.Calms Sys2Proof.Mirroring

/-! ### The rows of Fold (R419, R422) -/

section
variable (p : Part)

theorem calm_fold {p q : Part} (h : Calm p q) : q.power.fold = p.power.fold := by rw [h.power]

theorem calm_exitUid {p q : Part} (h : Calm p q) : q.power.exitUid = p.power.exitUid := by rw [h.power]

theorem calm_foldUid {p q : Part} (h : Calm p q) : q.power.foldUid = p.power.foldUid := by rw [h.power]

theorem within_updTrng (die : Nat) (f : Trng → Trng) : Within [.trngs] p (p.updTrng die f) := ⟨changes_trngs p _, rfl⟩

theorem within_foldSeat (n : Nat) : Within [.seats, .trngs] p (p.foldSeat n) := by
  unfold Part.foldSeat
  extract_lets emptied mine _ gone rested
  have emptied' : Within [.seats, .trngs] p emptied := (within_seats p _).mono.next (within_seats _ _)
  have rested' : Within [.seats, .trngs] p rested := (emptied'.next (within_seats emptied _)).next (within_updTrng gone _ _)
  exact rested'.next (within_seats rested _)

theorem calm_foldSeat (n : Nat) : Calm p (p.foldSeat n) := ⟨rfl, id, Memory.wf_filter _ _, rfl, id⟩

theorem within_postAnte (die group i : Nat) : Within [.xct, .disp, .counts] p (p.postAnte die group i) := by
  refine ⟨(anted_postAnte p die group i).units, ?_⟩
  unfold Part.postAnte
  extract_lets d open_
  split
  extract_lets posted
  split
  · rfl
  · split <;> rfl

theorem calm_postAnte (die group i : Nat) : Calm p (p.postAnte die group i) :=
  .of_within (within_postAnte p die group i) (registry := by unfold Part.postAnte; extract_lets d open_; split; extract_lets posted; split_ifs <;> rfl)

theorem within_holdAntes (group : Nat) (l : List HalfSt) : Within [.xct, .disp, .counts] p (p.holdAntes group l) :=
  .foldl (fun p i => .ite (within_postAnte p 0 group i) .refl) _ p

theorem within_wakeSeat (n : Nat) (failed : Bool) : Within [.seats, .trngs, .lats] p (p.wakeSeat n failed) := by
  unfold Part.wakeSeat
  extract_lets x
  refine .ite (.ite (within_updSeat p _ _).mono ?_) (within_updSeat p _ _).mono
  exact ((within_updSeat p _ _).mono.next (within_updTrng _ _ _)).next (within_updLat _ _ _)

theorem calm_updLat (die : Nat) (f : Machine.Lat → Machine.Lat) : Calm p (p.updLat die f) := .of_eq

theorem calm_wakeSeat (n : Nat) (failed : Bool) : Calm p (p.wakeSeat n failed) := by
  unfold Part.wakeSeat
  extract_lets x
  exact .ite (.ite .of_eq .of_eq) .of_eq

/-- Commands that are stopped one after the other (R419 step 2). -/
def allStopped (p : Part) (late : List Cmd) : Part := late.foldl (fun p c => p.stopCommand c.uid (some Status.abortedScrubbed)) p

theorem within_allStopped (late : List Cmd) : Within stopUnits p (allStopped p late) :=
  .foldl (f := fun p (c : Cmd) => p.stopCommand c.uid (some Status.abortedScrubbed)) (fun p (c : Cmd) => within_stopCommand p c.uid _ _) late p

theorem calm_allStopped (late : List Cmd) : Calm p (allStopped p late) :=
  .foldl (f := fun p (c : Cmd) => p.stopCommand c.uid (some Status.abortedScrubbed)) (fun p (c : Cmd) => calm_stopCommand p c.uid _ _) late p

/-- The commands that the drain limit finds. -/
def lateCmds (p : Part) : List Cmd := p.draining.filter (fun c => !(p.formedFor c.uid))

theorem drainLimit_ends (fold : p.power.fold = .entering) (drained : p.power.drained = none) :
    Within stopUnits (p.atTime (p.power.foldAt + msec p.power.foldLimit)) p.drainLimit ∧
    p.drainLimit.power.aborted = p.power.aborted + (lateCmds (p.atTime (p.power.foldAt + msec p.power.foldLimit))).length := by
  have open_ : p.power.fold = .entering ∧ p.power.drained.isNone = true := ⟨fold, by rw [drained]; rfl⟩
  unfold Part.drainLimit
  rw [if_pos open_]
  extract_lets timed late stopped
  have stopped' : Within stopUnits timed stopped := within_allStopped timed late
  have aborted : stopped.power.aborted = p.power.aborted := (congrArg Power.aborted (calm_allStopped timed late).power).trans rfl
  obtain ⟨ended, noted⟩ := noteDrain_eq (stopped.setPower { stopped.power with aborted := stopped.power.aborted + late.length })
  refine ⟨(stopped'.next (within_setPower stopped _)).next (within_noteDrain _), ?_⟩
  rw [noted]
  exact congrArg (· + late.length) aborted

theorem within_wakeTrigger (why : Nat) : Within [.power] p (p.wakeTrigger why) := by
  unfold Part.wakeTrigger
  split
  · exact within_setPower p _
  · exact within_setPower p _
  · exact .refl

theorem within_answerOwner (owner : Option Nat) (st : BitVec 16) (b : Bytes) : Within answerUnits p (match owner with
    | some u => p.answer u st b
    | none => p) := by
  cases owner with
  | some u => exact within_answer p u st b
  | none => exact .refl

theorem entryDone_ends {td : Nat} (fold : p.power.fold = .entering) (drained : p.power.drained = some td) (none : p.power.retained = none) :
    Within [.power, .xct, .seats, .part, .evr, .counts, .trngs, .cers] (p.atTime (td + usec 200)) p.entryDone ∧
    p.entryDone.power.fold = .folded ∧ p.entryDone.power.foldUid = Option.none := by
  unfold Part.entryDone
  simp -zeta only [fold, drained]
  extract_lets timed _ gated closed told answered why _ cleared
  have seats : Within [.power, .xct, .seats, .part, .evr, .counts, .trngs, .cers] timed (timed.seatNums.foldl (fun p n => p.foldSeat n) timed) :=
    (Within.foldl within_foldSeat _ timed).mono
  have gated' : Within [.power, .xct, .seats, .part, .evr, .counts, .trngs, .cers] timed gated := seats.next (within_setPower _ _)
  have closed' : Within [.power, .xct, .seats, .part, .evr, .counts, .trngs, .cers] timed closed :=
    (gated'.next (within_deactivate _ 0)).next (within_deactivate _ 1)
  have told' : Within [.power, .xct, .seats, .part, .evr, .counts, .trngs, .cers] timed told :=
    (closed'.next (within_bump _ _ _)).next (within_event _ _ _ _ _ _ _ _ _)
  have toldCalm : Calm gated told := (((calm_deactivate gated 0).trans (calm_deactivate _ 1)).bump _).event _ _ _ _ _ _ _ _
  have answered' : Within [.power, .xct, .seats, .part, .evr, .counts, .trngs, .cers] timed answered := told'.next (within_answerOwner told _ _ _)
  have answeredCalm : Calm gated answered := toldCalm.trans (calm_answerOwner told _ _ _)
  have cleared' : Within [.power, .xct, .seats, .part, .evr, .counts, .trngs, .cers] timed cleared :=
    (answered'.next (within_setPower _ _)).next (within_relevel _)
  have levelled : Calm (answered.setPower { answered.power with foldUid := Option.none, retained := Option.none, drained := Option.none }) cleared :=
    calm_relevel _
  have still : why = Option.none := (congrArg Power.retained answeredCalm.power).trans none
  rw [still]
  refine ⟨cleared', ?_, ?_⟩
  · exact (calm_fold levelled).trans (calm_fold answeredCalm)
  · exact calm_foldUid levelled

theorem exitsAnswered : (p.setPower { p.power with exitUid := [] }).relevel.power.fold = p.power.fold ∧
    (p.setPower { p.power with exitUid := [] }).relevel.power.exitUid = [] :=
  ⟨(calm_fold (calm_relevel _)).trans rfl, (calm_exitUid (calm_relevel _)).trans rfl⟩

/-- At the end of the wake the exits that waited for it are answered (R422). -/
def exitsReleased (p : Part) : Part :=
  let p := p.power.exitUid.foldl (fun p u => p.answer u Status.done) p
  (p.setPower { p.power with exitUid := [] }).relevel

theorem exitsReleased_ends : Within formUnits p (exitsReleased p) ∧ (exitsReleased p).power.fold = p.power.fold ∧
    (exitsReleased p).power.exitUid = [] := by
  unfold exitsReleased
  have answered : Within formUnits p (p.power.exitUid.foldl (fun p u => p.answer u Status.done) p) :=
    (Within.foldl (fun p u => within_answer p u Status.done []) p.power.exitUid p).mono
  have calm : Calm p (p.power.exitUid.foldl (fun p u => p.answer u Status.done) p) :=
    .foldl (fun p u => calm_answer p u Status.done []) p.power.exitUid p
  generalize p.power.exitUid.foldl (fun p u => p.answer u Status.done) p = q at answered calm ⊢
  obtain ⟨still, none⟩ := exitsAnswered q
  exact ⟨(answered.next (within_setPower _ _)).next (within_relevel _), still.trans (calm_fold calm), none⟩

theorem wakeDone_ends (failed : BitVec 8) (fold : p.power.fold = .waking) :
    Within (.lats :: .trngs :: formUnits) (p.atTime (p.power.wakeAt + usec 1500)) (p.wakeDone failed) ∧ (p.wakeDone failed).power.fold = .running ∧
    (p.wakeDone failed).power.exitUid = [] := by
  unfold Part.wakeDone
  rw [if_pos fold]
  extract_lets timed anted woken _ counted told answered _ ended
  have anted' : Within (.lats :: .trngs :: formUnits) timed anted :=
    (((within_postAnte timed 0 2 0).mono.next (within_holdAntes _ _ _)).next (within_holdAntes _ _ _))
  have woken' : Within (.lats :: .trngs :: formUnits) timed woken :=
    anted'.next (.foldl (fun p n => within_wakeSeat p n (failed.getLsbD n)) anted.seatNums anted)
  have counted' : Within (.lats :: .trngs :: formUnits) timed counted := (woken'.next (within_setPower _ _)).next (within_bump _ _ _)
  have told' : Within (.lats :: .trngs :: formUnits) timed told := counted'.next (within_event counted _ _ _ _ _ _ _ _)
  have toldCalm : Calm counted told := (Calm.refl counted).event _ _ _ _ _ _ _ _
  have same : told.power.exitUid.foldl (fun p u => p.answer u Status.done) told = answered := rfl
  have released : ended = exitsReleased told := by
    unfold exitsReleased
    rw [same]
  obtain ⟨act, still, none⟩ := exitsReleased_ends told
  have runs : counted.power.fold = .running := rfl
  rw [released]
  have early := delivers_drainEarly (exitsReleased told) (exitsReleased told).part.early.length
  exact ⟨(told'.next act).next early.within, (calm_fold early.calm).trans (still.trans ((calm_fold toldCalm).trans runs)),
    (calm_exitUid early.calm).trans none⟩

end

/-- Settles O8, by what the drain limit, the end of entry and the end of the wake leave. -/
theorem foldRowsAct : Obligations.FoldRowsAct := by
  unfold Obligations.FoldRowsAct
  refine ⟨fun s on fold drained => ?_, fun s td on fold drained none => ?_, fun s failed on fold => ?_⟩
  · obtain ⟨act, aborted⟩ := drainLimit_ends s.toPart fold drained
    exact ⟨_, powered_on on (fun p => p.drainLimit), due_timed act, aborted, keeps_timed act (by decide)⟩
  · obtain ⟨act, folded, answered⟩ := entryDone_ends s.toPart fold drained none
    exact ⟨_, powered_on on (fun p => p.entryDone), folded, due_timed act, answered, keeps_timed act (by decide)⟩
  · obtain ⟨act, running, exited⟩ := wakeDone_ends s.toPart failed fold
    exact ⟨_, powered_on on (fun p => p.wakeDone failed), running, due_timed act, exited, keeps_timed act (by decide)⟩

end Sys2Proof.FoldRows

namespace Sys2Proof.SystemCommands

-- As in the other files of proofs: one theorem at a time.
set_option Elab.async false

open Sys2Proof.Machine Sys2Proof.Safety Sys2Proof.Laws Sys2Proof.Architecture Sys2Proof.DealRows Sys2Proof.HostTransport Sys2Proof.Dispatching
  Sys2Proof.KeyVault Sys2Proof.GuardRows Sys2Proof.Calms Sys2Proof.Mirroring Sys2Proof.FoldRows

/-! ### What the close of a session leaves (03 R77, R79; 15 R403) -/

/-- q is p after sessions have closed: the vault is as it was but for its journal's sink. -/
structure Closes (p q : Part) : Prop where
  within : Within leaveUnits p q
  calm : Calm p q
  vault : q.vault = { p.vault with journal := q.vault.journal }

namespace Closes

variable {p q r : Part}

theorem of {l : List Unit_} (act : Within l p q) (calm : Calm p q) (sub : l ⊆ leaveUnits := by decide) (apart : Unit_.vault ∉ l := by decide) :
    Closes p q := ⟨act.mono sub, calm, by rw [show q.vault = p.vault from act.units .vault apart]⟩

theorem refl (p : Part) : Closes p p := ⟨.refl, .refl p, rfl⟩

theorem trans (h : Closes p q) (k : Closes q r) : Closes p r := ⟨h.within.next k.within, h.calm.trans k.calm, by rw [k.vault, h.vault]⟩

theorem ite {c : Prop} [Decidable c] (h : Closes p q) (k : Closes p r) : Closes p (if c then q else r) := by
  split
  · exact h
  · exact k

theorem foldl {α : Type} {f : Part → α → Part} (hf : ∀ p a, Closes p (f p a)) (xs : List α) (p : Part) : Closes p (xs.foldl f p) := by
  induction xs generalizing p with
  | nil => exact refl p
  | cons a r ih => exact (hf p a).trans (ih _)

theorem answer (h : Closes p q) (u : Nat) (st : BitVec 16) (b : Bytes) : Closes p (q.answer u st b) :=
  h.trans (of (within_answer q u st b) (calm_answer q u st b))

end Closes

section
variable (p : Part)

theorem closes_setJournal (j : Journal) : Closes p (p.setJournal j) := ⟨(within_setJournal p j).mono, .of_eq, rfl⟩

theorem closes_updStream (x id : BitVec 32) (f : Stream → Stream) : Closes p (p.updStream x id f) := .of (within_updStream p x id f) .of_eq

theorem closes_detachSink (st : BitVec 16) : Closes p (p.detachSink st) := by
  unfold Part.detachSink
  split
  · exact .refl p
  · exact ((closes_setJournal p _).trans (closes_updStream _ _ _ _)).answer _ _ _

theorem calm_endCeremonies (session : BitVec 32) : Calm p (p.endCeremonies session) := by
  refine .foldl (fun p port => ?_) _ p
  extract_lets voided
  have voided' : Calm p voided := by
    unfold voided
    split
    · exact .ite (calm_voidCeremony p port) (.refl p)
    · exact .refl p
  split
  · exact .ite (voided'.trans (calm_lapseAuth _ port)) voided'
  · exact voided'

theorem calm_stranger (a : Arrival) : Calm p (p.stranger a) := ((Calm.refl p).bump _).event _ _ _ _ _ _ _ _

theorem calm_disarmed (cause : Nat) : Calm p (p.disarmed cause) :=
  ((Calm.of_noted (create_noted p _ _ _ _ _ _ _ _)).notice _ _ _ _ _ _).trans ⟨rfl, id, id, rfl, fun on => absurd on Bool.false_ne_true⟩

theorem calm_shuffleClose (id : BitVec 32) : Calm p (p.shuffleClose id) := by
  unfold Part.shuffleClose
  refine .ite (((calm_disarmed p 3).trans (calm_putTx _ _)).trans (.foldl (fun q e => ?_) _ _)) (.refl p)
  split
  · exact calm_stranger q _
  · exact .refl q

theorem closes_closeSession (id : BitVec 32) : Closes p (p.closeSession id) := by
  unfold Part.closeSession
  extract_lets shut here _ detached
  have shut' : Closes p shut := .of (within_shuffleClose p id) (calm_shuffleClose p id)
  have detached' : Closes p detached := .ite (shut'.trans (closes_setJournal _ _)) shut'
  exact detached'.trans (.of (within_xct detached _) .of_eq)

theorem closes_settleSession (id : BitVec 32) : Closes p (p.settleSession id) := by
  unfold Part.settleSession
  split
  · exact .refl p
  · exact .ite (closes_closeSession p id) (.refl p)

theorem closes_startClosing (id : BitVec 32) : Closes p (p.startClosing id) := by
  unfold Part.startClosing
  split
  · exact .refl p
  · split
    · exact .refl p
    · extract_lets marked ended detached
      have marked' : Closes p marked := .of (within_updSession p id _) .of_eq
      have ended' : Closes p ended := marked'.trans (.of (within_endCeremonies marked id) (calm_endCeremonies marked id))
      have detached' : Closes p detached := .ite (ended'.trans (closes_detachSink ended _)) ended'
      exact detached'.trans (closes_settleSession detached id)

theorem closes_relevel : Closes p p.relevel := .of (within_relevel p) (calm_relevel p)

/-! ### Debug and pairing end (10 R292 to R294; 13 R350) -/

theorem calm_tearEntry (e : HandEntry) (whole : Bool) : Calm p (p.tearEntry e whole) := by
  unfold Part.tearEntry
  extract_lets before lease _ kept torn
  have torn' : Calm p torn := (calm_setVault p _).trans (calm_tearRanges kept e whole)
  exact torn'.trans (.foldl (fun p i => calm_writeJournal p e.hand false p.leadEpoch (.slotRetire i 1)) _ torn)

theorem delivers_tearEntry (e : HandEntry) (whole : Bool) : Delivers p (p.tearEntry e whole) :=
  .of (within_tearEntry p e whole) (calm_tearEntry p e whole)

theorem delivers_ownRecord (hand : Nat) (b : JBody) (objs : List Obj) : Delivers p (p.ownRecord hand b objs) := by
  unfold Part.ownRecord
  split
  · exact (delivers_setVault p _).sendMirror _
  · exact (Delivers.refl p).mutate _ _ _ _ _

theorem delivers_endInstance (n k : Nat) (st : Option (BitVec 16)) (b : Bytes) (cause : Nat) : Delivers p (p.endInstance n k st b cause) :=
  .of (within_endInstance p n k st b cause) (calm_endInstance p n k st b cause)

theorem delivers_zeroizeHand (hand : Nat) : Delivers p (p.zeroizeHand hand) := by
  unfold Part.zeroizeHand
  extract_lets ended
  have ended' : Delivers p ended := .foldl (fun p (e : Nat × Nat) => delivers_endInstance p e.1 e.2 _ _ _) _ p
  split
  · exact ended'
  · exact (ended'.trans (delivers_tearEntry _ _ _)).trans (delivers_ownRecord _ _ _ _)

/-- q is p after the part's own work has ended: neither a sensor, a noise source, a port nor a fuse has moved. -/
structure Ends (p q : Part) : Prop where
  within : Within [.power, .deal, .xct, .disp, .vault, .seats, .guard, .part, .evr, .cers, .joker, .shuffle, .counts] p q
  calm : Calm p q

namespace Ends

variable {p q r : Part}

theorem of {l : List Unit_} (act : Within l p q) (calm : Calm p q)
    (sub : l ⊆ [.power, .deal, .xct, .disp, .vault, .seats, .guard, .part, .evr, .cers, .joker, .shuffle, .counts] := by decide) : Ends p q :=
  ⟨act.mono sub, calm⟩

theorem delivered (act : Delivers p q) : Ends p q := .of act.within act.calm

theorem refl (p : Part) : Ends p p := ⟨.refl, .refl p⟩

theorem trans (h : Ends p q) (k : Ends q r) : Ends p r := ⟨h.within.next k.within, h.calm.trans k.calm⟩

theorem ite {c : Prop} [Decidable c] (h : Ends p q) (k : Ends p r) : Ends p (if c then q else r) := ⟨.ite h.within k.within, .ite h.calm k.calm⟩

theorem foldl {α : Type} {f : Part → α → Part} (hf : ∀ p a, Ends p (f p a)) (xs : List α) (p : Part) : Ends p (xs.foldl f p) :=
  ⟨.foldl (fun p a => (hf p a).within) xs p, .foldl (fun p a => (hf p a).calm) xs p⟩

end Ends

theorem ends_setJoker (x : Joker) : Ends p (p.setJoker x) := .of (JokerPort.within_setJoker p x) .of_eq

theorem calm_unhalt (n k : Nat) : Calm p (p.unhalt n k) := .ite .of_eq (.refl p)

theorem ends_unhalt (n k : Nat) : Ends p (p.unhalt n k) := .of (JokerPort.within_unhalt p n k) (calm_unhalt p n k)

theorem calm_returnSeat (n : Nat) : Calm p (p.returnSeat n) := by
  unfold Part.returnSeat
  extract_lets unhalted
  have unhalted' : Calm p unhalted := .foldl (fun p k => calm_unhalt p n k) _ p
  exact .ite (unhalted'.trans (calm_updSeat _ _ _)) unhalted'

theorem ends_returnSeat (n : Nat) : Ends p (p.returnSeat n) := .of (JokerPort.within_returnSeat p n) (calm_returnSeat p n)

theorem ends_closeJoker : Ends p p.closeJoker := by
  unfold Part.closeJoker
  extract_lets j shut
  refine .ite (.refl p) (.ite ?_ (.ite ?_ (.ite (ends_setJoker p _) (ends_setJoker p _))))
  · have back : Ends p ((p.maskedSeats j.seats).foldl (fun p n => p.returnSeat n) p) := .foldl (fun p n => ends_returnSeat p n) _ p
    exact (back.trans (ends_setJoker _ _)).trans (.of (within_relevel _) (calm_relevel _))
  · have back : Ends p ((p.maskedSeats j.seats).foldl (fun p n => p.unhalt n 3) p) := .foldl (fun p n => ends_unhalt p n 3) _ p
    exact (back.trans (ends_setJoker _ _)).trans (.delivered (delivers_zeroizeHand _ _))

theorem ends_unpair : Ends p p.unpair := by
  unfold Part.unpair
  extract_lets gone _ kept ended unpaired _ alone
  have kept' : Delivers p kept := delivers_setVault p _
  have ended' : Delivers p ended := kept'.trans (.foldl (fun p m => delivers_answerOwner p m.owner _ _) gone kept)
  have alone' : Delivers p alone := (ended'.trans ((PartnerRows.delivers_leaveResync ended).trans (PartnerRows.delivers_partnerState _ _))).setPart _
  have unknown : Ends alone (alone.setDeal { alone.deal with peerKnown := false, peerMatch := false, peerSerial := 0 }) :=
    .of (within_deal alone _) .of_eq
  exact ((Ends.delivered alone').trans unknown).trans (.delivered (Delivers.formReady (.refl _)))

/-! ### RETIRE (R416) -/

/-- The part as its keys and its Deal are gone. -/
def retired (p : Part) : Part :=
  { p.setVault { incarnation := p.vault.incarnation, st := .erased } with
    deal := { p.deal with st := .noDeal, banks := ({}, {}), mirror := false, active := none, staged := none, verdict := none, stagingUid := none
                          cut := none, key := none, olds := [] }
    registry := none
    guard := { p.guard with tamperLow := true }
    power := { p.power with life := 3 } }

/-- The part tells of it, answers, and closes the sessions Retired does not serve. -/
def retireTold (p : Part) (uid : Nat) : Part :=
  let p := p.event 0 0x0B08 4 0 0 0 0 0
  let lost := p.xct.sessions.filter (fun x => x.hand != 0 || !(p.xct.tamperList.contains x.cert))
  let p := p.answer uid Status.done
  (lost.foldl (fun p x => if x.st = .offered then p.closeSession x.id else p.startClosing x.id) p).relevel

theorem closes_retireTold (uid : Nat) : Closes p (retireTold p uid) := by
  unfold retireTold
  extract_lets told lost answered
  have told' : Closes p told := .of (within_event p _ _ _ _ _ _ _ _) ((Calm.refl p).event _ _ _ _ _ _ _ _)
  exact ((told'.answer uid Status.done []).trans
    (.foldl (fun p x => .ite (closes_closeSession p x.id) (closes_startClosing p x.id)) lost answered)).trans (closes_relevel _)

/-- Nothing that the part does goes on into Retired. -/
theorem ends_retireNow (uid : Nat) : ∃ q, Ends p q ∧ p.retireNow uid = retireTold (retired q) uid := by
  unfold Part.retireNow
  extract_lets voided lapsed work stopped alone
  have voided' : Ends p voided :=
    ((ends_closeJoker p).trans (.of (within_voidCeremony _ 0) (calm_voidCeremony _ 0))).trans (.of (within_voidCeremony _ 1) (calm_voidCeremony _ 1))
  have lapsed' : Ends p lapsed := voided'.trans
    (.foldl (fun p port => .ite (.of (within_lapseAuth p port) (calm_lapseAuth p port)) (.refl p)) [0, 1] voided)
  have stopped' : Ends p stopped := lapsed'.trans
    (.foldl (fun p c => .of (within_stopCommand p c.uid _ _) (calm_stopCommand p c.uid _ _)) work lapsed)
  have alone' : Ends p alone := (stopped'.trans (.of (within_wipeCache stopped _) (calm_wipeCache stopped _))).trans (ends_unpair _)
  exact ⟨alone, alone', rfl⟩

end

end Sys2Proof.SystemCommands

namespace Sys2Proof.Receiving

-- As in the other files of proofs: one theorem at a time.
set_option Elab.async false

open Sys2Proof.Machine Sys2Proof.Safety Sys2Proof.Laws Sys2Proof.Architecture Sys2Proof.DealRows Sys2Proof.HostTransport Sys2Proof.Dispatching
  Sys2Proof.KeyVault Sys2Proof.GuardRows Sys2Proof.Calms Sys2Proof.Mirroring Sys2Proof.FoldRows Sys2Proof.SystemCommands

/-! ### What frames of a host leave (03 R65 to R87) -/

/-- The units that a frame may change, of a host or of the partner. -/
abbrev hearUnits : List Unit_ := [.power, .deal, .xct, .disp, .vault, .seats, .trngs, .part, .evr, .cers, .shuffle, .counts]

/-- q is p after frames: a memory in canonical form stays in it, and Shuffle is not armed. -/
structure Hears (p q : Part) : Prop where
  within : Within hearUnits p q
  app : Memory.wf p.vault.app = true → Memory.wf q.vault.app = true
  sram : Memory.wf p.seats.sram = true → Memory.wf q.seats.sram = true
  arms : q.shuffle.en = true → p.shuffle.en = true

namespace Hears

variable {p q r : Part}

theorem of {l : List Unit_} (act : Within l p q) (calm : Calm p q) (sub : l ⊆ hearUnits := by decide) : Hears p q :=
  ⟨act.mono sub, calm.app, calm.sram, calm.arms⟩

theorem refl (p : Part) : Hears p p := ⟨.refl, id, id, id⟩

theorem trans (h : Hears p q) (k : Hears q r) : Hears p r :=
  ⟨h.within.next k.within, fun w => k.app (h.app w), fun w => k.sram (h.sram w), fun w => h.arms (k.arms w)⟩

theorem ite {c : Prop} [Decidable c] (h : Hears p q) (k : Hears p r) : Hears p (if c then q else r) := by
  split
  · exact h
  · exact k

theorem foldl {α : Type} {f : Part → α → Part} (hf : ∀ p a, Hears p (f p a)) (xs : List α) (p : Part) : Hears p (xs.foldl f p) := by
  induction xs generalizing p with
  | nil => exact refl p
  | cons a r ih => exact (hf p a).trans (ih _)

theorem bump (h : Hears p q) (b : Nat) (n : Nat := 1) : Hears p (q.bump b n) := h.trans (of (within_bump q b n) .of_eq)

theorem power (p : Part) (x : Power) : Hears p { p with power := x } := ⟨(within_setPower p x).mono, id, id, id⟩

end Hears

section
variable (p : Part)

theorem hears_reply (r : Reply) : Hears p (p.reply r) := .of (within_xct p _) .of_eq

theorem hears_countAnswer (st : BitVec 16) : Hears p (p.countAnswer st) := .of (within_countAnswer p st) (calm_countAnswer p st)

theorem hears_answer (u : Nat) (st : BitVec 16) (b : Bytes) : Hears p (p.answer u st b) := .of (within_answer p u st b) (calm_answer p u st b)

theorem hears_stranger (a : Arrival) : Hears p (p.stranger a) := .of (within_stranger p a) (calm_stranger p a)

theorem hears_closeSession (id : BitVec 32) : Hears p (p.closeSession id) :=
  .of (within_closeSession p id) (closes_closeSession p id).calm

theorem hears_updSession (id : BitVec 32) (f : Session → Session) : Hears p (p.updSession id f) := .of (within_updSession p id f) .of_eq

theorem hears_updStream (x id : BitVec 32) (f : Stream → Stream) : Hears p (p.updStream x id f) := .of (within_updStream p x id f) .of_eq

theorem hears_wakeTrigger (why : Nat) : Hears p (p.wakeTrigger why) := by
  unfold Part.wakeTrigger
  split
  · exact .power p _
  · exact .power p _
  · exact .refl p

theorem hears_openStreams (x : Session) (uid : Nat) (l : List (Nat × Bool × Option Nat)) : Hears p (p.openStreams x uid l) := by
  obtain ⟨streams, opened⟩ := openStreams_eq (p := p) (x := x) uid l
  rw [opened]
  exact .of (within_xct p _) .of_eq

theorem hears_enter (o : Origin) (hand code : Nat) (params : Bytes) (ordered : Bool) (path : Path) :
    Hears p (p.enter o hand code params ordered path).1 := .of (within_xct p _) .of_eq

/-- One command of a frame is answered at once, replied to, or entered (R82 to R87, R107). -/
theorem hears_accept (x : Session) (hand : Nat) (ordered : Bool) (path : Path) (code : Nat) (request : BitVec 64) (params : Bytes) :
    Hears p (p.accept x hand ordered path code request params) := by
  have back (st : BitVec 16) (r : Reply) : Hears p ((p.countAnswer st).reply r) := (hears_countAnswer p st).trans (hears_reply _ r)
  unfold Part.accept
  extract_lets req back_
  refine .ite (back _ _) (.ite (back _ _) (.ite (back _ _) (.ite (back _ _) (.ite (back _ _) (.ite (back _ _) ?_)))))
  split
  next why left =>
    extract_lets replied
    have replied' : Hears p replied := hears_reply p _
    exact .ite (replied'.trans (.power replied _)) (.ite (replied'.trans (hears_wakeTrigger replied 2)) replied')
  · split
    next entered uid e =>
      rename_i first high marked _ _ _
      have named : (marked.enter (.host x.id request) x.hand code params ordered path).1 = entered := congrArg Prod.fst e
      have entered' : Hears p entered := named ▸ (hears_updSession p x.id _).trans (hears_enter marked (.host x.id request) x.hand code params ordered path)
      clear_value first
      cases first with
      | some first => exact entered'.trans (hears_answer entered _ _ _)
      | none => exact entered'.trans (hears_openStreams entered x uid _)

theorem hears_shakeOut (r : Reply) (hand : Nat) : Hears p (p.shakeOut r hand) :=
  .ite (.of (within_tx p _) .of_eq) (hears_reply p _)

theorem hears_helloFail (path : Path) (request : BitVec 64) (st : BitVec 16) : Hears p (p.helloFail path request st) :=
  (hears_countAnswer p st).trans (hears_reply _ _)

theorem hears_trimOffered : Hears p p.trimOffered := by
  unfold Part.trimOffered
  extract_lets off oldest
  split
  · exact .refl p
  · clear_value oldest
    cases oldest with
    | none => exact .refl p
    | some y => exact (hears_closeSession p _).bump _

theorem hears_drbgTakes (die n : Nat) : Hears p (p.drbgTakes die n) := .of (within_drbgTakes p die n) .of_eq

theorem hears_hello (a : Arrival) (request : BitVec 64) (fault : Bool) (payload : Bytes) : Hears p (p.hello a request fault payload) := by
  unfold Part.hello
  extract_lets cert
  split
  next e key _ _ =>
    rename_i hellos flags _ counted eph rand nonce k drawn own _ _ _ _ _
    refine .ite (hears_stranger p a) (.ite ((Hears.refl p).bump _) ?_)
    extract_lets mine
    have counted' : Hears p counted := .of (within_xct p _) .of_eq
    have fails (st : BitVec 16) : Hears p (counted.helloFail (Part.pathOf a) request st) := counted'.trans (hears_helloFail counted _ _ _)
    refine .ite (fails _) (.ite (fails _) (.ite (fails _) ?_))
    split
    · exact fails _
    · next i inc _ =>
      have drawn' : Hears p drawn := counted'.trans (hears_drbgTakes counted _ _)
      have offered (x : XctUnit) : Hears p { drawn with xct := x } := drawn'.trans (.of (within_xct drawn x) .of_eq)
      exact (offered _).trans ((hears_trimOffered _).trans (hears_shakeOut _ _ _))
  · exact hears_stranger p a

theorem hears_prove (a : Arrival) (x : Session) (request : BitVec 64) (payload : Bytes) : Hears p (p.prove a x request payload) := by
  unfold Part.prove
  extract_lets sig fin out opened
  have opened' : Hears p opened := hears_updSession p _ _
  exact .ite ((opened'.bump _).trans (hears_shakeOut _ _ _))
    (((hears_closeSession p x.id).trans (hears_countAnswer _ _)).trans (hears_shakeOut _ _ _))

theorem hears_sendAck (session id : BitVec 32) : Hears p (p.sendAck session id) := by
  unfold Part.sendAck
  split
  · exact .ite (.refl p) ((hears_updStream p _ _ _).trans (.of (within_emit _ _ _ _ _ _ _) (calm_emit _ _ _ _ _ _ _)))
  · exact .refl p

theorem hears_streamDrop (n : Nat) : Hears p (p.streamDrop n) := .ite (.refl p) ((Hears.refl p).bump _ _)

theorem hears_takeSegment (x : Session) (b : Bytes) : Hears p (p.takeSegment x b) := by
  unfold Part.takeSegment
  extract_lets data id off
  split
  · exact hears_streamDrop p _
  refine .ite (hears_streamDrop p _) ?_
  extract_lets bad limit lo hi piece fresh dropped segs got acked taken
  refine .ite (.ite (hears_updStream p _ _ _) (.of (within_stopCommand p _ _ _) (calm_stopCommand p _ _ _))) ?_
  have taken' : Hears p taken := (hears_streamDrop p _).trans (hears_updStream dropped _ _ _)
  exact .ite (taken'.trans (hears_sendAck taken _ _)) taken'

theorem hears_takeAckEntry (x : Session) (b : Bytes) : Hears p (p.takeAckEntry x b) := by
  unfold Part.takeAckEntry
  extract_lets id off
  split
  · exact .refl p
  rename_i acked pumped _ _ _
  refine .ite (.refl p) ?_
  have pumped' : Hears p pumped := (hears_updStream p _ _ _).trans (.of (within_pump acked _ _) (calm_pump acked _ _))
  exact .ite (pumped'.trans (.of (within_xct pumped _) .of_eq)) pumped'

theorem hears_takeAck (x : Session) (b : Bytes) : Hears p (p.takeAck x b) := .foldl (fun p e => hears_takeAckEntry p x e) _ p

theorem hears_takeFrame (x : Session) (h : Header) (path : Path) (body : Bytes) : Hears p (p.takeFrame x h path body) := by
  unfold Part.takeFrame
  extract_lets mismatch
  have mismatched (q : Part) (request : BitVec 64) (code : Nat) : Hears q (mismatch q request code) := (hears_countAnswer q _).trans (hears_reply _ _)
  have accepted (q : Part) (code : Nat) (request : BitVec 64) (params : Bytes) : Hears q (match q.findSession x.id with
      | some y => q.accept y h.hand h.ordered path code request params
      | none => q) := by
    split
    · exact hears_accept q _ _ _ _ _ _ _
    · exact .refl q
  refine .ite (mismatched p _ _) (.ite (.ite (hears_takeSegment p x body) (hears_streamDrop p _)) (.ite (hears_takeAck p x body)
    (.ite (mismatched p _ _) (.ite ?_ (accepted p _ _ _)))))
  split
  · exact mismatched p _ _
  · exact .foldl (fun p e => .ite (mismatched p _ _) (accepted p _ _ _)) _ p

theorem hears_sessionFrame (a : Arrival) (x : Session) (h : Header) (frame : Bytes) : Hears p (p.sessionFrame a x h frame) := by
  unfold Part.sessionFrame
  split
  · exact ((Hears.refl p).bump _).trans (hears_stranger _ a)
  refine .ite (((Hears.refl p).bump _).trans (hears_stranger _ a)) ?_
  extract_lets high marked taken
  have taken' : Hears p taken := (hears_updSession p _ _).trans (hears_takeFrame marked x h _ _)
  exact .ite (taken'.trans (.of (closes_startClosing taken x.id).within (closes_startClosing taken x.id).calm)) taken'

theorem hears_hpCount (h : Half) (offset n : Nat) : Hears p (p.hpCount h offset n) := .of (within_hpCount p h offset n) .of_eq

theorem hears_xctFrame (a : Arrival) (frame : Bytes) : Hears p (p.xctFrame a frame) := by
  unfold Part.xctFrame
  extract_lets h body
  refine .ite (hears_stranger p a) ?_
  refine .ite (hears_hpCount p _ _ _) (.ite (.ite (hears_hello p a _ _ _) (hears_stranger p a)) ?_)
  split
  · exact .ite (hears_reply p _) (hears_stranger p a)
  · exact .ite (.ite ((hears_countAnswer p _).trans (hears_reply _ _)) (hears_prove p a _ _ _)) (hears_sessionFrame p a _ h frame)

theorem hears_delivered (e : ShufFrame × Bool) : Hears p (p.delivered e) := by
  unfold Part.delivered
  split
  · exact .ite (hears_xctFrame p _ _) (.ite (((Hears.refl p).bump _).trans (hears_stranger _ _)) (hears_hpCount p _ _ _))
  · exact .refl p

/-! ### What frames of the partner leave (13 R353, R354) -/

theorem hears_beats {q : Part} (act : PartnerRows.Beats p q) : Hears p q := ⟨act.within.mono, act.calm.app, act.calm.sram, act.calm.arms⟩

theorem hears_delivers {q : Part} (act : Delivers p q) : Hears p q := ⟨act.within.mono, act.calm.app, act.calm.sram, act.calm.arms⟩

theorem hears_orderFrame (h : MirrorHdr) (type : Nat) (b : Bytes) : Hears p (p.orderFrame h type b) := by
  unfold Part.orderFrame
  extract_lets n _ begun _ held woken
  have begun' : Hears p begun := .ite (hears_delivers p ((Delivers.refl p).setPart _)) (.refl p)
  have held' : Hears p held := begun'.trans (hears_delivers begun ((Delivers.refl begun).setPart _))
  have woken' : Hears p woken := .ite (held'.trans (hears_wakeTrigger held 3)) held'
  exact .ite begun' (woken'.trans (hears_delivers woken (delivers_drainEarly woken _)))

theorem hears_mirrorIn (h : MirrorHdr) (m : MirrorIn) (corrupt : Bool) : Hears p (p.mirrorIn h m corrupt) := by
  unfold Part.mirrorIn
  refine .ite ((Hears.refl p).bump _) ?_
  cases m with
  | beat b => exact hears_beats p (PartnerRows.beats_takeBeat p h b)
  | frame type b => exact (hears_delivers p (PartnerRows.delivers_takeHeader p h)).trans (hears_orderFrame _ h type b)

theorem hears_deliverPartner (e : ShufFrame × Bool) : Hears p (p.deliverPartner e) := by
  unfold Part.deliverPartner
  split
  · exact hears_mirrorIn p _ _ _
  · exact .refl p

/-! ### Shuffle lets its held frames go (17 R436) -/

theorem hears_putOut (l : List (ShufFrame × Bool)) : Hears p (p.putOut l) := .of (PartnerRows.within_ptx p _) .of_eq

theorem hears_releaseHeld (l : List HeldFrame) : Hears p (p.releaseHeld l) := by
  unfold Part.releaseHeld
  extract_lets out
  have sent : Hears p ((p.putTx out).putOut out) := (Hears.of (within_putTx p out) (calm_putTx p out)).trans (hears_putOut _ out)
  exact sent.trans (.foldl (fun p e => (hears_delivered p e).trans (hears_deliverPartner _ e)) out _)

theorem hears_disarmed (cause : Nat) : Hears p (p.disarmed cause) :=   .of (HostTransport.within_disarmed p cause) (calm_disarmed p cause)

theorem hears_shuffleOff (cause : Nat) : Hears p (p.shuffleOff cause) :=
  .ite ((hears_disarmed p cause).trans (hears_releaseHeld _ _)) (.refl p)

/-- Once it has disarmed, Shuffle is off. -/
theorem shuffleOff_off (cause : Nat) : (p.shuffleOff cause).shuffle.en = false := by
  unfold Part.shuffleOff
  split
  · have released := (hears_releaseHeld (p.disarmed cause) p.shuffle.held).arms
    exact Bool.eq_false_of_not_eq_true fun on => absurd (released on) Bool.false_ne_true
  next off => exact Bool.eq_false_of_not_eq_true off

end

end Sys2Proof.Receiving

namespace Sys2Proof.SystemCommands

-- As in the other files of proofs: one theorem at a time.
set_option Elab.async false

open Sys2Proof.Machine Sys2Proof.Safety Sys2Proof.Laws Sys2Proof.Architecture Sys2Proof.DealRows Sys2Proof.HostTransport Sys2Proof.Dispatching
  Sys2Proof.KeyVault Sys2Proof.GuardRows Sys2Proof.Calms Sys2Proof.Mirroring Sys2Proof.FoldRows Sys2Proof.Receiving Sys2Proof.Block

/-! ### The system commands (12 R337, 16 R417 to R426) -/

section
variable (p : Part)

theorem beginFold_begins (uid limit : Nat) : (p.beginFold uid limit).power.fold = .entering ∧ (p.beginFold uid limit).power.foldUid = some uid ∧
    (p.beginFold uid limit).shuffle.en = false := by
  unfold Part.beginFold
  extract_lets off
  obtain ⟨drained, noted⟩ := noteDrain_eq (off.setPower { off.power with
    fold := .entering, foldUid := some uid, foldAt := off.now, foldLimit := limit, drained := none, aborted := 0, retained := none })
  rw [noted]
  exact ⟨rfl, rfl, shuffleOff_off (p.parkCmd uid) 4⟩

theorem wakeTrigger_folded (why : Nat) (folded : p.power.fold = .folded) :
    p.wakeTrigger why = { p with power := { p.power with fold := .waking, wakeAt := p.now, wakeBy := why } } := by
  unfold Part.wakeTrigger
  rw [folded]

/-- A half that is enabled and not the last drains towards disabled (R425). -/
theorem halfCtl_drains {uid port : Nat} (idle : (p.half (halfOf port)).draining = none) (enabled : (p.half (halfOf port)).enabled = true)
    (others : p.othersEnabled (halfOf port) = true) : p.halfCtl uid port false =
      ((p.setHalf (halfOf port) { p.half (halfOf port) with enabled := false, draining := some p.now, retained := false }).portState port 0).answer uid
        Status.done := by
  unfold Part.halfCtl
  extract_lets h x
  rw [show x.draining = none from idle]
  exact (if_neg (by simp [x, h, enabled])).trans (if_neg (by simp [h, others]))

/-- A half that is disabled comes back (R425). -/
theorem halfCtl_returns {uid port : Nat} (idle : (p.half (halfOf port)).draining = none) (off : (p.half (halfOf port)).enabled = false) :
    p.halfCtl uid port true = ((p.setHalf (halfOf port) { p.half (halfOf port) with
      enabled := true, link := if p.halfExists (halfOf port) then 1 else 0 }).portState port 1).answer uid Status.done := by
  unfold Part.halfCtl
  extract_lets h x
  rw [show x.draining = none from idle]
  exact if_neg (by simp [x, h, off])

/-- What PORT_CTL sets of a half it tells of, and answers. -/
theorem half_told (h : Half) (x : HalfSt) (port action uid : Nat) (st : BitVec 16) :
    (((p.setHalf h x).portState port action).answer uid st).half h = x ∧
    Within (.ports :: answerUnits) p (((p.setHalf h x).portState port action).answer uid st) := by
  have told : Within answerUnits (p.setHalf h x) (((p.setHalf h x).portState port action).answer uid st) :=
    (within_portState _ _ _).mono.next (within_answer _ _ _ _)
  exact ⟨(half_of_within told h (by decide)).trans (Part.setHalf_half p h x), (within_setHalf p h x).mono.next told⟩

/-- An image that verifies takes the bank that does not run (R418). -/
theorem loadFirmware_loads {uid : Nat} {image : Bytes} {v : Word} (verified : p.firmwareVersion image = some v) :
    Within answerUnits p (p.loadFirmware uid image) ∧ (p.loadFirmware uid image).power.fw = p.power.fw ∧
    (p.loadFirmware uid image).power.fwBanks = (if !p.power.fwBank then (p.power.fwBanks.1, some v) else (some v, p.power.fwBanks.2)) ∧
    (p.loadFirmware uid image).power.fwImages = (if !p.power.fwBank then (p.power.fwImages.1, image) else (image, p.power.fwImages.2)) := by
  unfold Part.loadFirmware
  extract_lets bank found _ loaded
  have some_ : found = some v := verified
  have loaded' : Within answerUnits p loaded := (within_setPower p _).mono
  have banks : loaded.power.fwBanks = if !p.power.fwBank then (p.power.fwBanks.1, some v) else (some v, p.power.fwBanks.2) := by
    rw [← some_]
    rfl
  have images : loaded.power.fwImages = if !p.power.fwBank then (p.power.fwImages.1, image) else (image, p.power.fwImages.2) := rfl
  have running : loaded.power.fw = p.power.fw := rfl
  clear_value found loaded
  subst some_
  have told : Within answerUnits loaded _ := (within_event loaded 0 0x0B07 2 0 0 (if bank then 1 else 0) v.toNat 0).mono.next
    (within_answer _ uid Status.done (toBE 1 (if bank then 1 else 0) ++ zeros 3 ++ toBE 4 v.toNat))
  have calm : Calm loaded _ := ((Calm.refl loaded).event 0 0x0B07 2 0 0 (if bank then 1 else 0) v.toNat 0).trans
    (calm_answer _ uid Status.done (toBE 1 (if bank then 1 else 0) ++ zeros 3 ++ toBE 4 v.toNat))
  refine ⟨loaded'.next told, ?_, ?_, ?_⟩
  · rw [calm.power]
    exact running
  · rw [calm.power]
    exact banks
  · rw [calm.power]
    exact images

/-- A part retires (R416, R426): its keys, its Deal and its devices' registry are gone. -/
theorem retireNow_retires (uid : Nat) : (p.retireNow uid).power.life = 3 ∧ (p.retireNow uid).vault.st = .erased ∧ (p.retireNow uid).vault.slots = [] ∧
    (p.retireNow uid).deal.active = none ∧ (p.retireNow uid).registry = none ∧
    Within [.power, .deal, .xct, .disp, .vault, .seats, .guard, .part, .evr, .cers, .joker, .shuffle, .counts] p (p.retireNow uid) := by
  obtain ⟨q, ends, told⟩ := ends_retireNow p uid
  have closes : Closes (retired q) (p.retireNow uid) := told ▸ closes_retireTold (retired q) uid
  have gone : Within [.power, .deal, .vault, .guard] q (retired q) := by
    refine ⟨fun u other => ?_, rfl⟩
    cases u <;> simp [Unit_.Same, after, retired, Part.setVault] at other ⊢
  refine ⟨?_, ?_, ?_, ?_, ?_, (ends.within.next gone).next closes.within⟩
  · rw [closes.calm.power]
    rfl
  · rw [closes.vault]
    rfl
  · rw [closes.vault]
    rfl
  · exact (congrArg DealUnit.active (closes.within.units .deal (by decide))).trans rfl
  · exact closes.calm.registry.trans rfl

end

/-- A part in Fold takes FOLD_EXIT: it parks the command and begins to wake (R421). -/
theorem foldExit_wakes {s : State} {o : Origin} {c : Cmd} (ready : HouseReady s o 0x1302 [] c) (life : s.power.life = 1)
    (folded : s.power.fold = .folded) : exec (.foldExit o []) s = .next (after s (((s.toPart.parkCmd c.uid).setPower { s.power with
      exitUid := s.power.exitUid ++ [c.uid] }).wakeTrigger 1)) := by
  refine house_next ready ?_
  exact (if_neg (not_not_intro ready.block)).trans ((if_neg (not_not_intro life)).trans (if_neg (by rw [folded]; decide)))

/-- A well-formed PORT_CTL before Retired goes to its port (R424). -/
theorem portCtl_reaches {s : State} {o : Origin} {c : Cmd} {b : Bytes} (ready : HouseReady s o 0x1303 b c) (len : b.length = 8)
    (port : field b 0 1 ≤ 4) (action : field b 1 1 ≤ 1) (zero : allZero (b.drop 2) = true) (life : s.power.life ≠ 3) :
    exec (.portCtl o b) s = .next (after s (if field b 0 1 = 4 then s.toPart.partnerCtl c.uid (field b 1 1 = 1)
      else s.toPart.halfCtl c.uid (field b 0 1) (field b 1 1 = 1))) := by
  refine house_next ready ?_
  rw [ready.block]
  exact (if_neg (by simp [len, zero]; omega)).trans (if_neg life)

/-- What the row sets of a half, in the words of the statement. -/
theorem half_after {s : State} (h : Half) (x : HalfSt) (port action uid : Nat) (st : BitVec 16) :
    (after s (((s.setHalf h x).portState port action).answer uid st)).half h = x ∧
    Keeps [.fuses, .deal, .vault, .lats, .trngs, .guard, .cers, .joker, .shuffle] s (after s (((s.setHalf h x).portState port action).answer uid st)) := by
  obtain ⟨half, act⟩ := half_told s.toPart h x port action uid st
  exact ⟨half, act.units.keeps (by decide)⟩

/-- Settles O7: each command passes the checks of its row, and does what its last branch does. -/
theorem systemCommandsAct : Obligations.SystemCommandsAct := by
  unfold Obligations.SystemCommandsAct
  refine ⟨fun s o c b ready len zero there idle parked => readmit_releases ready len zero there idle parked,
    fun s o c b ready len least most zero running life opened cutting teardown => ?_, fun s o c ready life folded => ?_,
    fun s o c b ready len port action zero life idle enabled others => ?_, fun s o c b ready len port action zero life idle off => ?_,
    fun s o c b ready len port action zero life idle enabled => ?_, fun s o c b ready len port action zero life idle off => ?_,
    fun s o c b image v ready whole life verified => ?_, fun s o c b ready len quorum => ?_⟩
  · obtain ⟨entering, parked, closed⟩ := beginFold_begins s.toPart c.uid (field b 0 4)
    refine ⟨_, house_next ready ?_, rfl, entering, parked, closed⟩
    rw [ready.block]
    exact (if_neg (by simp [len, zero]; omega)).trans ((if_neg (by rw [running]; decide)).trans ((if_neg (by simp [life, opened])).trans
      (if_neg (by simp [cutting, teardown]))))
  · refine ⟨_, foldExit_wakes ready life folded, ?_⟩
    rw [wakeTrigger_folded ((s.toPart.parkCmd c.uid).setPower { s.power with exitUid := s.power.exitUid ++ [c.uid] }) 1 folded]
    have act : Within [.xct, .power] s.toPart ((s.toPart.parkCmd c.uid).setPower { s.power with
        exitUid := s.power.exitUid ++ [c.uid], fold := .waking, wakeAt := s.now, wakeBy := 1 }) :=
      (within_updCmd s.toPart c.uid _).mono.next (within_setPower _ _)
    exact ⟨rfl, rfl, rfl, act.units.keeps (by decide)⟩
  · refine ⟨_, portCtl_reaches ready len (by omega) (by omega) zero life, ?_⟩
    rw [if_neg (by omega), action, show decide ((0 : Nat) = 1) = false from rfl, halfCtl_drains s.toPart idle enabled others]
    obtain ⟨half, kept⟩ := half_after (s := s) (halfOf (field b 0 1)) { s.half (halfOf (field b 0 1)) with
      enabled := false, draining := some s.now, retained := false } (field b 0 1) 0 c.uid Status.done
    exact ⟨congrArg HalfSt.enabled half, congrArg HalfSt.draining half, kept⟩
  · refine ⟨_, portCtl_reaches ready len (by omega) (by omega) zero life, ?_⟩
    rw [if_neg (by omega), action, show decide ((1 : Nat) = 1) = true from rfl, halfCtl_returns s.toPart idle off]
    obtain ⟨half, kept⟩ := half_after (s := s) (halfOf (field b 0 1)) { s.half (halfOf (field b 0 1)) with
      enabled := true, link := if s.halfExists (halfOf (field b 0 1)) then 1 else 0 } (field b 0 1) 1 c.uid Status.done
    exact ⟨congrArg HalfSt.enabled half, kept⟩
  · rw [portCtl_reaches ready len (by omega) (by omega) zero life, if_pos port, action]
    unfold Part.partnerCtl
    simp [idle, enabled]
    rfl
  · rw [portCtl_reaches ready len (by omega) (by omega) zero life, if_pos port, action]
    unfold Part.partnerCtl
    simp [idle, off]
    rfl
  · obtain ⟨act, same, banks, images⟩ := loadFirmware_loads s.toPart (uid := c.uid) verified
    refine ⟨_, house_next ready ((whenStreamed_whole whole _).trans (if_neg (not_not_intro life))), ?_, same, act.units.keeps (by decide)⟩
    cases bank : s.power.fwBank <;> simp only [bank] at banks images
    · exact ⟨banks, images⟩
    · exact ⟨banks, images⟩
  · obtain ⟨life, erased, slots, deal, registry, act⟩ := retireNow_retires s.toPart c.uid
    refine ⟨_, house_next ready ?_, life, erased, slots, deal, registry, act.units.keeps (by decide)⟩
    rw [ready.block, quorum]
    exact if_neg (by omega)

end Sys2Proof.SystemCommands

namespace Sys2Proof.Recording

-- As in the other files of proofs: one theorem at a time.
set_option Elab.async false

open Sys2Proof.Machine Sys2Proof.Safety Sys2Proof.Laws Sys2Proof.Architecture Sys2Proof.DealRows Sys2Proof.HostTransport Sys2Proof.Dispatching
  Sys2Proof.Block

/-! ### What a record leaves of the recorder (14 R372, R374, R377, R378) -/

/-- The recorder in e' has taken records since e: the power cycle and a freeze stand, and in a freeze the ring is as it was. -/
structure Logs (e e' : EvrUnit) : Prop where
  pcycle : e'.pcycle = e.pcycle
  thawAt : e'.thawAt = e.thawAt
  ring : e.thawAt.isSome = true → e'.ring = e.ring

namespace Logs

variable {e e' e'' : EvrUnit}

theorem refl (e : EvrUnit) : Logs e e := ⟨rfl, rfl, fun _ => rfl⟩

theorem of_eq (h : e' = e) : Logs e e' := h ▸ refl e

theorem trans (h : Logs e e') (k : Logs e' e'') : Logs e e'' :=
  ⟨k.pcycle.trans h.pcycle, k.thawAt.trans h.thawAt, fun frozen => (k.ring (by rwa [h.thawAt])).trans (h.ring frozen)⟩

/-- Of the recorder only what its records do not concern has moved on. -/
theorem moved (k : Logs e' e'') (pcycle : e'.pcycle = e.pcycle := by rfl) (thawAt : e'.thawAt = e.thawAt := by rfl)
    (ring : e'.ring = e.ring := by rfl) : Logs e e'' := trans ⟨pcycle, thawAt, fun _ => ring⟩ k

theorem ite {c : Prop} [Decidable c] {q r : Part} (h : Logs e q.evr) (k : Logs e r.evr) : Logs e (if c then q else r).evr := by
  split
  · exact h
  · exact k

theorem foldl {α : Type} {f : Part → α → Part} (hf : ∀ p a, Logs p.evr (f p a).evr) (xs : List α) (p : Part) : Logs p.evr (xs.foldl f p).evr := by
  induction xs generalizing p with
  | nil => exact refl _
  | cons a r ih => exact (hf p a).trans (ih _)

end Logs

section
variable (p : Part)

theorem logs_kittyWrite (e : EvrUnit) (r : Rec) : Logs e (kittyWrite e r) := by
  unfold kittyWrite
  split
  · exact .refl e
  · exact ⟨rfl, rfl, fun _ => rfl⟩

/-- In a freeze a ring copy waits, is lost, or has no ring block to go to. -/
theorem logs_ringOrHold (e : EvrUnit) (r : Rec) : Logs e (ringOrHold e r) := by
  unfold ringOrHold
  split
  next thawed =>
    unfold ringWrite
    split
    · exact ⟨rfl, rfl, fun frozen => absurd frozen (by simp [thawed])⟩
    · exact (logs_kittyWrite { e with kittyOn := true } r).moved
  · split
    next unusable =>
      rw [Option.isNone_iff_eq_none] at unusable
      unfold ringWrite
      rw [unusable]
      exact (logs_kittyWrite { e with kittyOn := true } r).moved
    · split
      · exact ⟨rfl, rfl, fun _ => rfl⟩
      · exact ⟨rfl, rfl, fun _ => rfl⟩

theorem logs_ringCopy (r : Rec) (late : Bool) : Logs p.evr (p.ringCopy r late).evr := by
  unfold Part.ringCopy
  extract_lets lost kitty held copied counted
  have held' : Logs p.evr held.evr := logs_ringOrHold p.evr r
  have copied' : Logs p.evr copied.evr := .ite (held'.trans ⟨rfl, rfl, fun _ => rfl⟩) held'
  have counted' : Logs p.evr counted.evr := .ite copied' copied'
  exact .ite counted' counted'

theorem logs_copies (r : Rec) (k : Bool) : Logs p.evr ((if k = true then p.kittyCopy r else p).ringCopy r).evr :=
  (Logs.ite (.ite (.refl _) (logs_kittyWrite p.evr r)) (.refl _)).trans (logs_ringCopy _ r _)

theorem logs_tookSeq (r : Rec) : Logs p.evr (p.tookSeq.forwardLater r).evr := by
  rw [evr_forwardLater]
  exact ⟨rfl, rfl, fun _ => rfl⟩

theorem logs_store (r : Rec) (k : Bool) : Logs p.evr (p.store r k).evr := by
  unfold Part.store
  extract_lets q copies r' _
  have numbered : Logs p.evr q.evr := logs_tookSeq p r
  refine .ite ?_ (numbered.trans (logs_copies q r k))
  split
  next slot _ =>
    extract_lets e full copied
    have copied' : Logs p.evr copied.evr := numbered.trans (logs_copies (q.setEvr { e with pinFull := full }) r' k).moved
    exact .ite ((copied'.trans (logs_tookSeq copied _)).trans (logs_ringCopy _ _ _)) copied'
  · exact (numbered.trans (.refl _)).trans (logs_copies (q.bump (regAddr 0 winEVR 0x0118)) r k)

theorem logs_notice (source : Nat) (code : BitVec 16) (sev hand : Nat) (body : Bytes) (to_ : List (BitVec 32)) :
    Logs p.evr (p.notice source code sev hand body to_).evr := by
  obtain ⟨house, e⟩ := evr_notice p source code sev hand body to_
  rw [e]
  exact ⟨rfl, rfl, fun _ => rfl⟩

theorem logs_create (code : BitVec 16) (sev : Nat) (flags : Byte) (die : Nat) (p1 p2 p3 : Word) (k : Bool) :
    Logs p.evr (p.create code sev flags die p1 p2 p3 k).evr := by
  unfold Part.create
  extract_lets _ r _ q
  have stored : Logs p.evr q.evr := (logs_store (p.setEvr { p.evr with supp := Sparse.erase p.evr.supp (Part.bucketKey die code) }) r k).moved
  exact .ite (.refl _) (.ite (stored.trans (logs_notice q _ _ _ _ _ _)) stored)

theorem logs_record (code : BitVec 16) (sev die : Nat) (p1 p2 p3 : Word) : Logs p.evr (p.record code sev die p1 p2 p3).evr := by
  unfold Part.record
  refine .ite (logs_create p _ _ _ _ _ _ _ _) (.ite ?_ ?_)
  · exact (logs_create (p.takeTokens die code) _ _ _ _ _ _ _ _).moved
  · unfold Part.suppress
    exact .ite ⟨rfl, rfl, fun _ => rfl⟩ ⟨rfl, rfl, fun _ => rfl⟩

theorem logs_event (source : Nat) (code : BitVec 16) (sev die hand p1 p2 p3 : Nat) :
    Logs p.evr (p.event source code sev die hand p1 p2 p3).evr :=
  (logs_record p _ _ _ _ _ _).trans (logs_notice _ _ _ _ _ _ _)

theorem logs_sendRetract (u : Nat) (st : BitVec 16) : Logs p.evr (p.sendRetract u st).evr := by
  unfold Part.sendRetract
  split
  · exact .refl _
  · split
    · exact .refl _
    · extract_lets marked counted told _ _
      have marked' : Logs p.evr marked.evr := .refl _
      have counted' : Logs p.evr counted.evr := .refl _
      exact .ite (.refl _) (counted'.trans ((logs_record counted _ _ _ _ _ _).trans (logs_notice told _ _ _ _ _ _)))

/-- A call's completion reaches the Seat, the command's place, and a drain's end. -/
theorem within_deliverCall_seats (u n k : Nat) (d : BitVec 32) (st : BitVec 16) (b : Bytes) :
    Within [.power, .xct, .seats] p (p.deliverCall u n k d st b) := by
  have exited (q : Part) : Within [.power, .xct, .seats] q (q.finishExit n k) := by
    unfold Part.finishExit
    extract_lets c
    split
    · exact ((Within.refl.next (within_updCmd q _ _)).next (within_ordered _ _)).next (within_seats _ _)
    · exact .refl
  unfold Part.deliverCall
  extract_lets c dropped ws a cap fits out given told sized marked left
  have dropped' : Within [.power, .xct, .seats] p dropped :=
    ((Within.refl.next (within_closeStreams p _)).next (within_dropCmd _ _)).next (within_noteDrain _)
  have marked' : Within [.power, .xct, .seats] p marked := ((((dropped'.next (within_guardedWrite _ _ _ _ _ _)).next (within_touch _ _ _ _ _)).next
    (within_guardedWrite _ _ _ _ _ _)).next (within_guardedWrite _ _ _ _ _ _)).next (within_guardedWrite _ _ _ _ _ _)
  exact .ite ((marked'.next (within_updCore _ _ _ _)).next (exited _)) dropped'

theorem logs_answer (u : Nat) (st : BitVec 16) (b : Bytes) : Logs p.evr (p.answer u st b).evr := by
  have retracted := logs_sendRetract p u st
  unfold Part.answer
  extract_lets gone
  split
  · exact retracted
  · split
    · have done : Within [.xct, .counts, .power] gone ((((gone.closeStreams u).countAnswer st).updCmd u
          (fun c => { c with place := .xct, status := st, payload := b })).ordered u).noteDrain :=
        ((((Within.refl.next (within_closeStreams gone _)).next (within_countAnswer _ st)).next (within_updCmd _ _ _)).next (within_ordered _ _)).next
          (within_noteDrain _)
      exact retracted.trans (.of_eq (done.units .evr (by decide)))
    · exact retracted.trans (.of_eq ((within_deliverCall_seats gone _ _ _ _ _ _).units .evr (by decide)))

/-- After a thaw no freeze is in force. -/
theorem thawAt_thaw (by_ : Nat) : (p.thaw by_).evr.thawAt = none := by
  cases frozen : p.evr.thawAt with
  | some t0 => exact (thawed_thaw frozen by_).free
  | none =>
    unfold Part.thaw
    rw [frozen]
    exact frozen

end

/-- The recorder's timeout, with or without a freeze. -/
theorem freezeTimeout_thaws {s : State} (on : s.power.on = true) : ∃ t, exec .freezeTimeout s = .next t ∧ t.evr.thawAt = none ∧
    (∀ t0, s.evr.thawAt = some t0 → t0 ≤ t.now) ∧
    Keeps [.fuses, .power, .deal, .ports, .disp, .vault, .lats, .trngs, .guard, .cers, .joker, .shuffle] s t := by
  cases frozen : s.evr.thawAt with
  | none =>
    refine ⟨after s s.toPart, ?_, frozen, nofun, (ChangesOnly.refl s.toPart).keeps (by decide)⟩
    show execFreezeTimeout s = _
    rw [execFreezeTimeout, powered_on on]
    simp only [frozen]
  | some t0 =>
    have noted := thaw_noted (s.toPart.atTime t0) 1
    refine ⟨_, freezeTimeout_next on frozen, thawAt_thaw _ _, fun t due => ?_, ((changes_now _ _).trans (changes_of_noted noted)).keeps (by decide)⟩
    obtain rfl := Option.some.inj due
    exact (Nat.le_max_right _ _).trans noted.now.ge

/-- Settles O48: requests set and clear the freeze, which no record ends; in it a record's ring copy waits. -/
theorem freezeStopsRing : Obligations.FreezeStopsRing := by
  unfold Obligations.FreezeStopsRing
  refine ⟨fun p code sev flags die p1 p2 p3 frozen => (logs_create p code sev flags die p1 p2 p3 false).ring frozen, fun s o c ready => ?_,
    fun s on => ?_, fun s o c ready => ?_, fun s on => ?_, fun s on => freezeTimeout_thaws on, fun s orderly on => ?_⟩
  · refine ⟨_, house_next ready (if_neg (not_not_intro ready.block)), ?_, ?_⟩
    · exact (logs_answer _ _ _ _).thawAt.trans (thawAt_freeze _ _)
    · exact ((Within.refl.next (.of_noted (freeze_noted s.toPart _))).next (within_answer _ _ _ _)).units.keeps (l := answerUnits) (by decide)
  · exact ⟨_, powered_on on (fun p => p.freeze 0), thawAt_freeze _ _, (changes_of_noted (freeze_noted _ _)).keeps (by decide)⟩
  · refine ⟨_, house_next ready (if_neg (not_not_intro ready.block)), ?_, ?_⟩
    · exact (logs_answer _ _ _ _).thawAt.trans (thawAt_thaw _ _)
    · exact ((Within.refl.next (.of_noted (thaw_noted s.toPart _))).next (within_answer _ _ _ _)).units.keeps (l := answerUnits) (by decide)
  · exact ⟨_, powered_on on (fun p => p.thaw 2), thawAt_thaw _ _, (changes_of_noted (thaw_noted _ _)).keeps (by decide)⟩
  · exact ⟨_, powered_on on (fun p => p.off.setPower { p.off.power with lastOrderly := orderly, firstVbat := false }), rfl⟩

end Sys2Proof.Recording

namespace Sys2Proof.PowerRows

-- As in the other files of proofs: one theorem at a time.
set_option Elab.async false

open Sys2Proof.Machine Sys2Proof.Safety Sys2Proof.Laws Sys2Proof.Architecture Sys2Proof.DealRows Sys2Proof.HostTransport Sys2Proof.Dispatching
  Sys2Proof.KeyVault Sys2Proof.GuardRows Sys2Proof.Calms Sys2Proof.FoldRows Sys2Proof.Recording

/-! ### What a step of start-up leaves (16 R413, R414) -/

/-- The units that start-up may change. -/
abbrev startUnits : List Unit_ := [.power, .deal, .ports, .xct, .vault, .seats, .trngs, .guard, .part, .evr, .joker, .counts]

/-- q is p some steps of start-up later: its supply, its firmware, its lifecycle and its count of power cycles stand. -/
structure Boots (p q : Part) : Prop where
  units : ChangesOnly startUnits p q
  on : q.power.on = p.power.on
  fw : q.power.fw = p.power.fw
  fwBank : q.power.fwBank = p.power.fwBank
  fwMin : q.power.fwMin = p.power.fwMin
  life : q.power.life = p.power.life
  pcycle : q.evr.pcycle = p.evr.pcycle

namespace Boots

variable {p q r : Part}

/-- An act that neither the supply, the firmware, the lifecycle nor the power cycle concerns. -/
theorem of {l : List Unit_} (act : ChangesOnly l p q) (sub : l ⊆ startUnits := by decide) (on : q.power.on = p.power.on := by rfl)
    (fw : q.power.fw = p.power.fw := by rfl) (fwBank : q.power.fwBank = p.power.fwBank := by rfl) (fwMin : q.power.fwMin = p.power.fwMin := by rfl)
    (life : q.power.life = p.power.life := by rfl) (pcycle : q.evr.pcycle = p.evr.pcycle := by rfl) : Boots p q :=
  ⟨act.mono sub, on, fw, fwBank, fwMin, life, pcycle⟩

theorem refl (p : Part) : Boots p p := of (ChangesOnly.refl p)

theorem trans (h : Boots p q) (k : Boots q r) : Boots p r :=
  ⟨(h.units.trans k.units).mono (List.append_subset.2 ⟨List.Subset.refl _, List.Subset.refl _⟩), k.on.trans h.on, k.fw.trans h.fw,
    k.fwBank.trans h.fwBank, k.fwMin.trans h.fwMin, k.life.trans h.life, k.pcycle.trans h.pcycle⟩

theorem ite {c : Prop} [Decidable c] (h : Boots p q) (k : Boots p r) : Boots p (if c then q else r) := by
  split
  · exact h
  · exact k

theorem foldl {α : Type} {f : Part → α → Part} (hf : ∀ p a, Boots p (f p a)) (xs : List α) (p : Part) : Boots p (xs.foldl f p) := by
  induction xs generalizing p with
  | nil => exact refl p
  | cons a r ih => exact (hf p a).trans (ih _)

/-- An act on other units. -/
theorem apart {l : List Unit_} (act : Within l p q) (sub : l ⊆ startUnits := by decide) (power : Unit_.power ∉ l := by decide)
    (evr : Unit_.evr ∉ l := by decide) : Boots p q := by
  have same : q.power = p.power := act.units .power power
  exact of act.units sub (by rw [same]) (by rw [same]) (by rw [same]) (by rw [same]) (by rw [same]) (congrArg EvrUnit.pcycle (act.units .evr evr))

/-- Records and notices. -/
theorem of_noted (h : Noted p q) (logs : Logs p.evr q.evr) : Boots p q :=
  of (changes_of_noted h) (by decide) (by rw [h.power]) (by rw [h.power]) (by rw [h.power]) (by rw [h.power]) (by rw [h.power]) logs.pcycle

end Boots

section
variable (p : Part)

theorem boots_now (t : Nat) : Boots p (p.atTime t) := .of (changes_now p _)

theorem boots_event (a : Nat) (c : BitVec 16) (v d h x y z : Nat) : Boots p (p.event a c v d h x y z) :=
  .of_noted (event_noted _ _ _ _ _ _ _ _ _) (logs_event _ _ _ _ _ _ _ _ _)

theorem boots_create (c : BitVec 16) (v : Nat) (f : Byte) (d : Nat) (x y z : Word) (k : Bool) : Boots p (p.create c v f d x y z k) :=
  .of_noted (create_noted _ _ _ _ _ _ _ _ _) (logs_create _ _ _ _ _ _ _ _ _)

theorem boots_setDeal (x : DealUnit) : Boots p (p.setDeal x) := .of (within_setDeal p x).units

theorem boots_setVault (x : VaultUnit) : Boots p (p.setVault x) := .of (within_vault p x).units

theorem boots_setEvr (e : EvrUnit) (pcycle : e.pcycle = p.evr.pcycle := by rfl) : Boots p (p.setEvr e) :=
  .of (within_setEvr p e).units (pcycle := pcycle)

theorem boots_setPower (x : Power) (on : x.on = p.power.on := by rfl) (fw : x.fw = p.power.fw := by rfl) (fwBank : x.fwBank = p.power.fwBank := by rfl)
    (fwMin : x.fwMin = p.power.fwMin := by rfl) (life : x.life = p.power.life := by rfl) : Boots p (p.setPower x) :=
  .of (within_setPower p x).units (by decide) on fw fwBank fwMin life

theorem boots_updSeat (n : Nat) (f : Seat → Seat) : Boots p (p.updSeat n f) := .of (changes_updSeat p n f)

theorem boots_setPart (x : PartUnit) : Boots p (p.setPart x) := .of (within_setPart p x).units

theorem boots_badBlock (pinned : Bool) (block : Nat) : Boots p (p.badBlock pinned block) := by
  unfold Part.badBlock
  extract_lets area gone kept lowest e marked
  have marked' : Boots p marked := boots_setEvr p _ (by split <;> rfl)
  exact marked'.trans (boots_create marked _ _ _ _ _ _ _ _)

theorem boots_offRecords (seconds : Nat) : Boots p (p.offRecords seconds) := by
  unfold Part.offRecords
  extract_lets slots first all
  have all' : Boots p all := (boots_create p _ _ _ _ _ _ _ _).trans (.foldl (fun q _ => boots_create q _ _ _ _ _ _ _ _) slots first)
  exact all'.trans (.of (within_setGuard all _).units)

theorem boots_kittyFail : Boots p p.kittyFail := by
  unfold Part.kittyFail
  extract_lets _ failed houses
  have failed' : Boots p failed := boots_setEvr p _
  exact (failed'.trans (boots_create failed _ _ _ _ _ _ _ _)).trans (.of_noted (notice_noted _ _ _ _ _ _ _) (logs_notice _ _ _ _ _ _ _))

theorem boots_ecc (die errors location address : Nat) : Boots p (p.ecc die errors location address) := by
  have counted : Boots p (p.setEcc die errors (Part.satIncr (p.eccCount die errors))) := by
    unfold Part.setEcc
    split
    · split
      · exact .of (changes_power p _)
      · split
        · exact .of (changes_power p _)
        · exact .of (changes_power p _)
    · exact boots_updSeat p _ _
  unfold Part.ecc
  extract_lets old new q
  have said : Boots p q := counted.trans (.ite (boots_event _ _ _ _ _ _ _ _ _) (.refl _))
  exact .ite said (.ite (said.trans (boots_event q _ _ _ _ _ _ _ _)) (said.trans (boots_event q _ _ _ _ _ _ _ _)))

theorem boots_badWords (f : BootFindings) : Boots p (p.badWords f) := by
  unfold Part.badWords
  extract_lets banks read logs
  have logs' : Boots p logs := (Boots.foldl (fun q _ => boots_ecc q _ _ _ _) banks p).trans
    (.foldl (fun q (e : Bool × Nat) => boots_ecc q 0 3 Part.locMram e.2) f.badLogBlocks read)
  exact .ite (logs'.trans (boots_ecc logs _ _ _ _)) logs'

theorem boots_startFail (die cause : Nat) : Boots p (p.startFail die cause) := boots_event p _ _ _ _ _ _ _ _

theorem boots_startTrng (die : Nat) (ok : Bool) : Boots p (p.startTrng die ok) := .apart (within_updTrng p die _)

theorem boots_mirrorBank : Boots p p.mirrorBank := by
  obtain ⟨banks, mirror, h⟩ := mirrorBank_eq p
  rw [h]
  exact boots_setDeal p _

theorem boots_loadDeal : Boots p p.loadDeal := by
  unfold Part.loadDeal
  extract_lets a one
  refine .ite (boots_setDeal p _) ?_
  split
  · exact .ite (boots_setDeal p _) ((boots_setDeal p _).trans (boots_mirrorBank _))
  · have copied : Boots p (p.setDealBank a { role := .active, image := (p.dealBank (!a)).image }) := .apart (within_deal p _)
    exact (copied.trans (boots_setDeal _ _)).trans (boots_mirrorBank _)
  · exact (boots_setDeal p _).trans (boots_event _ _ _ _ _ _ _ _ _)

theorem boots_partnerState (new : PairSt) : Boots p (p.partnerState new) := by
  unfold Part.partnerState
  exact .ite (.refl p) ((boots_setPart p _).trans (boots_event _ _ _ _ _ _ _ _ _))

theorem boots_startPair : Boots p p.startPair := by
  unfold Part.startPair
  split
  · exact (boots_setPart p _).trans (boots_partnerState _ _)
  · exact .refl p

theorem boots_startSeats (f : BootFindings) : Boots p (p.startSeats f) :=
  .foldl (fun p n => .ite ((boots_startTrng p n true).trans (boots_updSeat _ _ _))
    (.ite ((boots_updSeat p n _).trans (boots_startFail _ _ _)) ((boots_startTrng p n true).trans (boots_updSeat _ _ _)))) _ p

theorem boots_startPorts : Boots p p.startPorts := by
  unfold Part.startPorts
  extract_lets trained
  have trained' : Boots p trained := .foldl (fun p (h : Half) => .apart (within_updHalf p h _)) _ p
  exact .ite (trained'.trans (boots_setPart trained _)) trained'

theorem power_startPorts : p.startPorts.power = p.power := by
  unfold Part.startPorts
  extract_lets trained
  have trained' : Within [.ports] p trained := .foldl (fun p (h : Half) => within_updHalf p h _) _ p
  split
  · exact trained'.units .power (by decide)
  · exact trained'.units .power (by decide)

theorem boots_newChallenge : Boots p p.newChallenge :=
  (Boots.apart (JokerPort.within_setJoker p _)).trans (.apart (within_drbgTakes _ _ _))

/-- Steps 4 to 8 of R413 end with the ports in training. -/
theorem startUnits_boots (f : BootFindings) : Boots p (p.startUnits f) ∧ (p.startUnits f).power.stage = 6 := by
  unfold Part.startUnits
  extract_lets life woken _ dealt _ drawn tested _ seated later _ _ stacked keys _ opened _
  have dealt' : Boots p dealt := (boots_now p _).trans (.ite ((boots_loadDeal woken).trans (boots_startPair _)) (boots_setDeal _ _))
  have drawn' : Boots p drawn := (dealt'.trans (boots_setPower dealt _)).trans (boots_startTrng _ _ _)
  have tested' : Boots p tested := .ite drawn' (drawn'.trans (boots_startFail drawn _ _))
  have seated' : Boots p seated := .ite dealt' ((tested'.trans (boots_startSeats tested f)).trans (boots_setPower _ _))
  have later' : Boots p later := seated'.trans (boots_now seated _)
  have stacked' : Boots p stacked := later'.trans (boots_setPower later _)
  have keyed : Boots p (stacked.drbgTakes 0 64) := stacked'.trans (.apart (within_drbgTakes stacked 0 64))
  have opened' : Boots p opened := .ite (later'.trans (boots_setVault later _))
    (.ite (keyed.trans (boots_setVault _ _)) (stacked'.trans (boots_startFail stacked _ _)))
  have trained : Boots p (opened.setPower { opened.power with stage := 6 }).startPorts :=
    (opened'.trans (boots_setPower opened _)).trans (boots_startPorts _)
  exact ⟨trained.trans (boots_newChallenge _), (congrArg Power.stage (power_startPorts _)).trans rfl⟩

/-- Which firmware a start runs hangs on the banks that verify and on the minimum version (R418). -/
theorem bootBank_of {p q : Part} (least : q.power.fwMin = p.power.fwMin) (banks : q.power.fwBanks = p.power.fwBanks) : q.bootBank = p.bootBank := by
  unfold Part.bootBank
  rw [least, banks]

/-- A part with its firmware and its root starts (R408, R413): it is powered by the time boot ROM runs, and training when it ends. -/
theorem start_boots (f : BootFindings) {bank : Bool} {v : Word} (off : p.power.on = false) (rail : f.railLow = false)
    (boots : (p.badBanks f).bootBank = some (bank, v)) (root : p.rootCheck = none) :
    ∃ q, ChangesOnly [.power, .evr, .vault, .deal] p q ∧ q.power.on = true ∧ q.power.fw = v ∧ q.power.fwBank = bank ∧ q.power.fwMin = v ∧
      q.power.life = p.power.life ∧ q.evr.pcycle = min (p.evr.pcycle + 1) 0xFFFFFF ∧ Boots q (p.start f) ∧ (p.start f).power.stage = 6 := by
  unfold Part.start
  rw [if_neg (by simp [off]), if_neg (by simp [rail])]
  extract_lets woken cause low _ lit _ cycled erase _ checked banked _ timed _
  have kept : erase = none := root
  clear_value erase
  subst kept
  have boots' : banked.bootBank = some (bank, v) := (bootBank_of rfl rfl).trans boots
  have lit' : ChangesOnly [.power, .evr, .vault, .deal] p banked := by
    have act : Within [.power, .evr, .vault, .deal] woken banked := ((((Within.refl.next (within_setPower woken _)).next (within_setEvr lit _)).next
      (within_vault cycled _)).next (within_setPower checked _)).next (within_deal _ _)
    exact (changes_now p _).trans act.units
  have on : banked.power.on = true := rfl
  have life : banked.power.life = p.power.life := rfl
  have cycle : banked.evr.pcycle = min (p.evr.pcycle + 1) 0xFFFFFF := rfl
  clear_value banked
  simp -zeta only [boots']
  extract_lets run scanned read noted copied worded said failed told
  have read' : Boots run read := (boots_now run _).trans (.foldl (fun q (e : Bool × Nat) => boots_badBlock q e.1 e.2) f.badLogBlocks scanned)
  have noted' : Boots run noted := read'.trans (boots_offRecords read _)
  have copied' : Boots run copied := .ite (noted'.trans (boots_kittyFail noted)) noted'
  have said' : Boots run said := (copied'.trans (boots_badWords copied f)).trans (boots_event worded _ _ _ _ _ _ _ _)
  have told' : Boots run told := .ite (said'.trans (boots_startFail said _ _)) said'
  obtain ⟨units, stage⟩ := startUnits_boots told f
  have run' : ChangesOnly [.power, .evr, .vault, .deal] p run :=
    ((lit'.trans (changes_now banked _)).trans (within_setPower timed _).units).mono (by decide)
  exact ⟨run, run', on, rfl, rfl, rfl, life, cycle, told'.trans units, stage⟩

/-! ### Off (12 R340, R341; 16 R411) -/

theorem setPower_setGuard (g : GuardUnit) (x : Power) : (p.setGuard g).setPower x = { p with guard := g, power := x } := rfl

theorem offEvent_guard (code : BitVec 16) (sev p1 p2 : Nat) : ∃ slots lost, p.offEvent code sev p1 p2 =
    { p with guard := { p.guard with offSlots := slots, offLost := lost } } := by
  unfold Part.offEvent
  extract_lets g
  split
  · exact ⟨_, p.guard.offLost, rfl⟩
  · exact ⟨p.guard.offSlots, _, rfl⟩

theorem within_offEvent (code : BitVec 16) (sev p1 p2 : Nat) : Within [.guard] p (p.offEvent code sev p1 p2) := by
  obtain ⟨slots, lost, h⟩ := offEvent_guard p code sev p1 p2
  rw [h]
  exact within_guard p _

/-- A witness in Off, of a sensor that is watched there, erases the root (R341). -/
theorem offWitness_erases {cls index mag : Nat} (off : p.power.on = false) (battery : p.guard.vbatOk = true) (virgin : p.power.life ≠ 0)
    (retired : p.power.life ≠ 3) (watched : Part.watchedOff cls index = true) (severe : severity cls mag ≠ 0) :
    ∃ q, Within [.guard] p q ∧ p.offWitness cls index mag = q.setVault { p.vault with root := none, rootTag := false, offErase := true } := by
  unfold Part.offWitness
  extract_lets n
  rw [if_neg (by simp [off, battery, watched, n, severe]; exact ⟨virgin, retired⟩)]
  exact ⟨_, within_offEvent p _ _ _ _, rfl⟩

/-- An oscillator's note goes to the recorder, or in Off to the battery's slots. -/
theorem within_oscNote (what : Nat) : Within [.guard, .evr, .counts, .part, .xct, .seats] p
    (if p.power.on = true then p.event 16 0x0B04 3 0 0 what 0 0 else p.offEvent 0x0B04 3 what 0) :=
  .ite (within_event p _ _ _ _ _ _ _ _).mono (within_offEvent p _ _ _ _).mono

end

/-- What an oscillator's rows change beside its state. -/
theorem osc_keeps {s : State} (x : Power) (what : Nat) : Keeps [.fuses, .deal, .vault, .disp, .lats, .trngs] s (after s
      (if x.on = true then (s.toPart.setPower x).event 16 0x0B04 3 0 0 what 0 0 else (s.toPart.setPower x).offEvent 0x0B04 3 what 0)) ∧
    (after s (if x.on = true then (s.toPart.setPower x).event 16 0x0B04 3 0 0 what 0 0 else (s.toPart.setPower x).offEvent 0x0B04 3 what 0)).power = x := by
  have noted := within_oscNote (s.toPart.setPower x) what
  exact ⟨((within_setPower s.toPart x).units.trans noted.units).keeps (by decide), noted.units .power (by decide)⟩

/-- The part as it is without its battery (R341). -/
def unbattered (p : Part) : Part :=
  let p := p.setGuard { p.guard with vbatOk := false, tamperLow := false }
  let p := p.setGuard { p.guard with vbat := 0, vbatLow := true }
  let p := (p.setVault { p.vault with root := none, rootTag := false }).setGuard { p.guard with offSlots := [], offLost := 0 }
  let p := p.setEvr { p.evr with regfile := [], regPtr := 0 }
  p.setPower { p.power with firstVbat := true, slowOk := false, xtalOk := false }

theorem within_unbattered (p : Part) : Within [.guard, .vault, .evr, .power] p (unbattered p) := by
  unfold unbattered
  extract_lets _ lost _ empty _ _ erased _ cleared _
  have erased' : Within [.guard, .vault, .evr, .power] p erased :=
    (((Within.refl.next (within_setGuard p _)).next (within_setGuard lost _)).next (within_vault empty _)).next (within_setGuard _ _)
  exact (erased'.next (within_setEvr erased _)).next (within_setPower cleared _)

theorem vbatLoss_off {s : State} (off : s.power.on = false) : exec .vbatLoss s = .next (after s (unbattered s.toPart)) :=
  congrArg Host.Outcome.next (congrArg (after s) (if_neg (ne_true_of_eq_false off)))

/-- Without main power a reading of the battery stands, and goes to a slot where it has fallen too low (R341). -/
theorem batteryLow_off {s : State} {mv : BitVec 16} (off : s.power.on = false) (battery : s.guard.vbatOk = true) : ∃ q : Part,
    exec (.batteryLow mv) s = .next (after s q) ∧ q.guard.vbat = mv ∧ q.guard.vbatLow = decide (mv.toNat < 2500) ∧
    Keeps [.fuses, .power, .deal, .xct, .vault, .seats, .evr] s (after s q) := by
  have read := within_setGuard s.toPart { s.guard with vbat := mv, vbatLow := decide (mv.toNat < 2500) }
  obtain ⟨slots, lost, told⟩ := offEvent_guard (s.toPart.setGuard { s.guard with vbat := mv, vbatLow := decide (mv.toNat < 2500) })
    0x0715 3 (2 * 2 ^ 28 + 6) mv.toNat
  have row : exec (.batteryLow mv) s = .next (after s (if (decide (mv.toNat < 2500) && !s.guard.vbatLow) = true
      then (s.toPart.setGuard { s.guard with vbat := mv, vbatLow := decide (mv.toNat < 2500) }).offEvent 0x0715 3 (2 * 2 ^ 28 + 6) mv.toNat
      else s.toPart.setGuard { s.guard with vbat := mv, vbatLow := decide (mv.toNat < 2500) })) :=
    congrArg Host.Outcome.next (congrArg (after s) ((if_neg (ne_true_of_eq_false off)).trans (if_neg (ne_false_of_eq_true battery))))
  refine ⟨_, row, ?_, ?_, ?_⟩
  · split
    · rw [told]
      rfl
    · rfl
  · split
    · rw [told]
      rfl
    · rfl
  · have told' := read.next (within_offEvent (s.toPart.setGuard { s.guard with vbat := mv, vbatLow := decide (mv.toNat < 2500) })
      0x0715 3 (2 * 2 ^ 28 + 6) mv.toNat)
    exact (Within.ite (c := (decide (mv.toNat < 2500) && !s.guard.vbatLow) = true) told' read).units.keeps (by decide)

/-- Settles O10: a start passes its checks one after another; in Off only what the battery holds moves. -/
theorem powerRowsAct : Obligations.PowerRowsAct := by
  unfold Obligations.PowerRowsAct
  refine ⟨fun s f bank v off rail boots root => ?_, fun s orderly on => ?_, fun s cls index mag off battery virgin retired watched severe => ?_,
    fun s off => ?_, fun s mv lost => ?_, fun s mv off battery => ?_, fun s runs => ?_, fun s stopped supplied => ?_⟩
  · obtain ⟨q, lit, on, fw, fwBank, fwMin, life, cycle, rest, stage⟩ := start_boots s.toPart f off rail boots root
    have act := (lit.trans rest.units).keeps (s := s) (m := [.fuses, .disp, .lats, .cers, .shuffle]) (by decide)
    exact ⟨after s (s.toPart.start f), rfl, rest.on.trans on, stage, rest.fw.trans fw, rest.fwBank.trans fwBank, rest.fwMin.trans fwMin,
      rest.life.trans life, rest.pcycle.trans cycle, act .fuses (by decide), act⟩
  · exact ⟨_, powered_on on (fun p => p.off.setPower { p.off.power with lastOrderly := orderly, firstVbat := false }), rfl, rfl, rfl, rfl, rfl, rfl,
      rfl, rfl, rfl, rfl⟩
  · obtain ⟨q, told, erases⟩ := offWitness_erases s.toPart off battery virgin retired watched severe
    refine ⟨after s (s.toPart.offWitness cls index mag.toNat), rfl, ?_, ?_⟩
    · rw [erases]
      rfl
    · rw [erases]
      exact (told.units.trans (within_vault q _).units).keeps (by decide)
  · refine ⟨_, vbatLoss_off off, rfl, rfl, rfl, rfl, (within_unbattered s.toPart).units.keeps (by decide)⟩
  · have row : exec (.vbatReturn mv) s = .next (after s ((s.toPart.setGuard { s.guard with
        vbat := mv, vbatOk := true, vbatLow := decide (mv.toNat < 2500), tamperLow := decide (2 ≤ s.power.life) }).setPower { s.power with slowOk := true })) :=
      congrArg Host.Outcome.next (congrArg (after s) (if_neg (ne_true_of_eq_false lost)))
    exact row.trans (congrArg (fun q => Host.Outcome.next (after s q)) (setPower_setGuard s.toPart _ _))
  · obtain ⟨x, next, act⟩ := batteryLow_off (mv := mv) off battery
    exact ⟨_, next, act⟩
  · refine ⟨_, congrArg Host.Outcome.next (congrArg (after s) (if_neg (by simp [runs]))), ?_⟩
    obtain ⟨kept, power⟩ := osc_keeps (s := s) { s.power with xtalOk := false } 0
    exact ⟨power, kept⟩
  · refine ⟨_, congrArg Host.Outcome.next (congrArg (after s) (if_neg (by cases on : s.power.on <;> simp_all))), ?_⟩
    obtain ⟨kept, power⟩ := osc_keeps (s := s) { s.power with xtalOk := true } 1
    exact ⟨power, kept⟩

end Sys2Proof.PowerRows

namespace Sys2Proof.ShuffleRows

-- As in the other files of proofs: one theorem at a time.
set_option Elab.async false

open Sys2Proof.Machine Sys2Proof.Safety Sys2Proof.Laws Sys2Proof.Architecture Sys2Proof.DealRows Sys2Proof.HostTransport Sys2Proof.Dispatching
  Sys2Proof.KeyVault Sys2Proof.GuardRows Sys2Proof.Calms Sys2Proof.Mirroring Sys2Proof.Receiving

/-! ### Arming and disarming (17 R432 to R438) -/

section
variable (p : Part)

/-- The units that Shuffle's own records may change, and its stages. -/
abbrev noteUnits : List Unit_ := [.shuffle, .evr, .counts, .part, .xct, .seats]

/-- A record and a notice of Shuffle leave its stages. -/
theorem told_shuffle (code : BitVec 16) (p1 p2 p3 : Word) (body : Bytes) :
    Noted p ((p.create code 2 0 0 p1 p2 p3).notice 15 code 2 0 body) :=
  (create_noted p _ _ _ _ _ _ _ _).trans (notice_noted _ _ _ _ _ _ _)

/-- With nothing held a disarming only takes Shuffle down (R436). -/
theorem shuffleOff_disarms (armed : p.shuffle.en = true) (empty : p.shuffle.held = []) (cause : Nat) :
    Within noteUnits p (p.shuffleOff cause) ∧ (p.shuffleOff cause).shuffle = { p.shuffle with en := false, expiry := 0 } := by
  unfold Part.shuffleOff
  rw [if_pos armed, empty]
  have down : Within noteUnits p ((p.disarmed cause).releaseHeld []) :=
    (((Within.refl.next (.of_noted (told_shuffle p _ _ _ _ _))).next (within_shuffle _ _)).next (within_putTx _ [])).next (within_putOut _ [])
  have told : (p.disarmed cause).shuffle = { p.shuffle with en := false, expiry := 0, held := [] } := by
    unfold Part.disarmed
    extract_lets s w said
    have same : said.shuffle = p.shuffle := (Within.of_noted (told_shuffle p _ _ _ _ _)).units .shuffle (by decide)
    exact congrArg (fun s : Shuffle => { s with en := false, expiry := 0, held := [] }) same
  refine ⟨down, told.trans ?_⟩
  rw [← empty]

/-- A write that the drill section does not permit is refused and recorded (R438). -/
theorem writeShufCtl_refused {v : Word} (arms : v.getLsbD 31 = true) (barred : p.shufflePermitted (v.toNat / 2 ^ 24 % 8) (v.toNat / 2 ^ 12 % 16)
      (v.toNat % 2 ^ 12) (p.deal.active.bind (·.drill)) = false) :
    Within noteUnits p (p.writeShufCtl v) ∧ (p.writeShufCtl v).shuffle = { p.shuffle with refused := true } := by
  unfold Part.writeShufCtl
  extract_lets target actions duration fields
  rw [if_neg (by simp [arms]), if_pos barred]
  have noted := told_shuffle (p.setShuffle { p.shuffle with refused := true }) 0x0D04 v 0 0 (toBE 4 v.toNat ++ zeros 8)
  have marked : Within noteUnits p (p.setShuffle { p.shuffle with refused := true }) := (within_shuffle p _).mono
  exact ⟨marked.next (.of_noted noted), (Within.of_noted noted).units .shuffle (by decide)⟩

/-- A write that the drill section permits arms Shuffle (R432); what it still held goes on first. -/
theorem writeShufCtl_arms {v : Word} (arms : v.getLsbD 31 = true) (permitted : p.shufflePermitted (v.toNat / 2 ^ 24 % 8) (v.toNat / 2 ^ 12 % 16)
      (v.toNat % 2 ^ 12) (p.deal.active.bind (·.drill)) = true) :
    Within hearUnits p (p.writeShufCtl v) ∧ ∃ s : Shuffle, (p.writeShufCtl v).shuffle = s ∧ s.en = true ∧
      s.target = BitVec.ofNat 3 (v.toNat / 2 ^ 24 % 8) ∧ s.actions = BitVec.ofNat 4 (v.toNat / 2 ^ 12 % 16) ∧
      s.expiry = p.now + sec (v.toNat % 2 ^ 12) ∧ s.frames = 0 ∧ s.injected = 0 := by
  unfold Part.writeShufCtl
  extract_lets target actions duration fields _ _ held seed drawn _ armed _ released set_ sess what
  rw [if_neg (by simp [arms]), if_neg (ne_false_of_eq_true permitted)]
  have drawn' : Within hearUnits p drawn := .ite (within_drbgTakes p 0 4).mono .refl
  have released' : Within hearUnits p released := (drawn'.next (within_shuffle drawn _)).next (hears_releaseHeld _ held).within
  have set' : Within hearUnits p set_ := released'.next (within_shuffle released _)
  have noted := told_shuffle set_ 0x0D01 what sess (BitVec.ofNat 32 duration) (toBE 4 what.toNat ++ toBE 4 sess.toNat ++ toBE 4 duration)
  refine ⟨set'.next (.of_noted noted), armed, (Within.of_noted noted).units .shuffle (by decide), rfl, rfl, rfl, ?_, rfl, rfl⟩
  exact congrArg (· + sec duration) drawn'.now

end

/-- Settles O40: each write and each end of Shuffle is one act on its stages, told of by a record and a notice. -/
theorem shuffleRowsAct : Obligations.ShuffleRowsAct := by
  unfold Obligations.ShuffleRowsAct
  refine ⟨fun s v on arms permitted _ => ?_, fun s v on arms barred => ?_, fun s on armed empty => ?_, fun s on armed empty => ?_⟩
  · obtain ⟨act, x, set_, en, target, actions, expiry, frames, injected⟩ := writeShufCtl_arms s.toPart arms permitted
    refine ⟨_, powered_on on (fun p => p.writeShufCtl v), ?_⟩
    subst set_
    exact ⟨en, target, actions, expiry, frames, injected, act.units.keeps (by decide)⟩
  · obtain ⟨act, refused⟩ := writeShufCtl_refused s.toPart arms barred
    exact ⟨_, powered_on on (fun p => p.writeShufCtl v), refused, act.units.keeps (by decide)⟩
  · obtain ⟨act, down⟩ := shuffleOff_disarms s.toPart armed empty 0
    exact ⟨_, powered_on on (fun p => p.shuffleOff 0), down, act.units.keeps (by decide)⟩
  · obtain ⟨act, down⟩ := shuffleOff_disarms (s.toPart.atTime s.shuffle.expiry) armed empty 1
    exact ⟨_, (powered_on on (fun p => if p.shuffle.en = true then (p.atTime p.shuffle.expiry).shuffleOff 1 else p)).trans
      (congrArg (fun q => Host.Outcome.next (after s q)) (if_pos armed)), down, act.now, keeps_timed act (by decide)⟩

end Sys2Proof.ShuffleRows

namespace Sys2Proof.CeremonyRows

-- As in the other files of proofs: one theorem at a time.
set_option Elab.async false

open Sys2Proof.Machine Sys2Proof.Safety Sys2Proof.Laws Sys2Proof.Architecture Sys2Proof.DealRows Sys2Proof.HostTransport Sys2Proof.Dispatching
  Sys2Proof.KeyVault Sys2Proof.GuardRows Sys2Proof.Calms Sys2Proof.JokerPort Sys2Proof.Block

/-! ### The identity's certificate (15 R401) -/

/-- q has the identity certificate of p. -/
structure SameCert (p q : Part) : Prop where
  idCert : q.idCert = p.idCert

namespace SameCert

variable {p q r : Part}

theorem refl (p : Part) : SameCert p p := ⟨rfl⟩

theorem trans (h : SameCert p q) (k : SameCert q r) : SameCert p r := ⟨k.idCert.trans h.idCert⟩

theorem ite {c : Prop} [Decidable c] (h : SameCert p q) (k : SameCert p r) : SameCert p (if c then q else r) := by
  split
  · exact h
  · exact k

theorem of_noted (h : Noted p q) : SameCert p q := ⟨by rw [h.eq]⟩

end SameCert

section
variable (p : Part)

theorem cert_noteDrain : SameCert p p.noteDrain := .ite ⟨rfl⟩ ⟨rfl⟩

theorem cert_guardedWrite (ws : List GuardWindow) (n k a : Nat) (b : Bytes) : SameCert p (p.guardedWrite ws n k a b) := by
  induction b generalizing p a with
  | nil => exact .refl p
  | cons x r ih =>
    have written : SameCert p (if guardAllows ws .write a then p.writeSram n k a [x] else p) := .ite ⟨rfl⟩ ⟨rfl⟩
    exact written.trans (ih _ _)

theorem cert_finishExit (n k : Nat) : SameCert p (p.finishExit n k) := by
  unfold Part.finishExit
  extract_lets c
  split
  · exact ⟨rfl⟩
  · exact ⟨rfl⟩

theorem cert_deliverCall (u n k : Nat) (d : BitVec 32) (st : BitVec 16) (b : Bytes) : SameCert p (p.deliverCall u n k d st b) := by
  unfold Part.deliverCall
  extract_lets c dropped ws a cap fits out given told sized marked left
  have dropped' : SameCert p dropped := SameCert.trans (q := (p.closeStreams u).dropCmd u) ⟨rfl⟩ (cert_noteDrain _)
  have touched (q : Part) (a len : Nat) : SameCert q (q.touch n k a len) := by
    unfold Part.touch
    exact .ite ⟨rfl⟩ ⟨rfl⟩
  have given' : SameCert p given := (dropped'.trans (cert_guardedWrite _ _ _ _ _ _)).trans (touched _ _ _)
  have marked' : SameCert p marked :=
    ((given'.trans (cert_guardedWrite _ _ _ _ _ _)).trans (cert_guardedWrite _ _ _ _ _ _)).trans (cert_guardedWrite _ _ _ _ _ _)
  have left' : SameCert p left := marked'.trans ⟨rfl⟩
  exact .ite (left'.trans (cert_finishExit left n k)) dropped'

theorem cert_sendRetract (u : Nat) (st : BitVec 16) : SameCert p (p.sendRetract u st) := by
  unfold Part.sendRetract
  split
  · exact .refl p
  · split
    · exact .refl p
    · extract_lets marked counted told _ _
      have counted' : SameCert p counted := ⟨rfl⟩
      have told' : SameCert p told := counted'.trans (.of_noted (record_noted counted _ _ _ _ _ _))
      exact .ite (.refl p) (told'.trans (.of_noted (notice_noted told _ _ _ _ _ _)))

theorem cert_answer (u : Nat) (st : BitVec 16) (b : Bytes) : SameCert p (p.answer u st b) := by
  unfold Part.answer
  extract_lets gone
  have retracted : SameCert p gone := cert_sendRetract p u st
  clear_value gone
  split
  · exact retracted
  · split
    · obtain ⟨counts, counted⟩ := countAnswer_eq (gone.closeStreams u) st
      have placed : SameCert gone ((((gone.closeStreams u).countAnswer st).updCmd u
          (fun c => { c with place := .xct, status := st, payload := b })).ordered u) := by
        rw [counted]
        exact ⟨rfl⟩
      exact (retracted.trans placed).trans (cert_noteDrain _)
    · exact retracted.trans (cert_deliverCall _ _ _ _ _ _ _)

theorem cert_relevel : SameCert p p.relevel := by
  unfold Part.relevel
  extract_lets old new
  have shown : SameCert p (p.setPower { p.power with level := new }) := ⟨rfl⟩
  exact .ite (.refl p) (shown.trans (.of_noted (event_noted _ _ _ _ _ _ _ _ _)))

end

/-! ### The commands (15 R397 to R402) -/

section
variable {p : Part}

/-- The ceremony that an ID names runs on its port. -/
theorem cer_of_cerOf {id port : Nat} {y : Ceremony} (named : p.cerOf id = some (port, y)) : (p.cerPort port).cer = some y := by
  unfold Part.cerOf at named
  split at named
  next c first =>
    obtain ⟨rfl, rfl⟩ := Prod.mk.inj (Option.some.inj named)
    exact (Option.filter_eq_some_iff.1 first).1
  next =>
    obtain ⟨c, second, eq⟩ := Option.map_eq_some_iff.1 named
    obtain ⟨rfl, rfl⟩ := Prod.mk.inj eq
    exact (Option.filter_eq_some_iff.1 second).1

theorem withCeremony_free {uid id port : Nat} {x : BitVec 32} {y : Ceremony} (named : p.cerOf id = some (port, y)) (own : y.session = x)
    (free : (p.cerPort port).step = none) (f : Part → Nat → Ceremony → Part) : p.withCeremony uid x id f = f p port y := by
  unfold Part.withCeremony
  rw [named]
  exact if_neg (by simp [own, free])

/-- What a lapse leaves: all but the port, and what its record changes. -/
theorem lapseOld_lapses (port : Nat) : ∃ x, Noted (p.setCer port x) (p.lapseOld port) ∧ x.cer = (p.cerPort port).cer := by
  have kept : Noted (p.setCer port (p.cerPort port)) p := by
    have same : p.setCer port (p.cerPort port) = p := by
      unfold Part.setCer Part.cerPort
      split <;> rfl
    rw [same]
    exact .refl p
  unfold Part.lapseOld
  split
  · split
    · unfold Part.lapseAuth
      split
      · exact ⟨_, kept, rfl⟩
      · exact ⟨_, event_noted _ _ _ _ _ _ _ _ _, rfl⟩
    · exact ⟨_, kept, rfl⟩
  · exact ⟨_, kept, rfl⟩

theorem within_cerNext (p : Part) (n : BitVec 32) : Within [] p { p with cerNext := n } :=
  ⟨fun u _ => by cases u <;> simp [Unit_.Same, after], rfl⟩

/-- A ceremony opens on its port, under the next ID and a fresh challenge (R397, R402). -/
theorem openCeremony_opens (uid port : Nat) (c : Ceremony) : ∃ q : Part,
    p.openCeremony uid port c = q.answer uid Status.done (toBE 4 p.cerNext.toNat ++ toBE 1 c.seat ++ zeros 3 ++ p.drawn 32) ∧
    (q.cerPort port).cer = some { c with challenge := p.drawn 32, id := p.cerNext, lastStep := p.now } ∧
    Within [.cers, .counts, .trngs, .evr, .part, .xct, .seats] p q := by
  unfold Part.openCeremony
  extract_lets ch y _ drawn opened
  have taken : Within [.cers, .counts, .trngs, .evr, .part, .xct, .seats] p (p.drbgTakes 0 32) := (within_drbgTakes p 0 32).mono
  have drawn' : Within [.cers, .counts, .trngs, .evr, .part, .xct, .seats] p drawn := taken.next (within_cerNext _ _)
  have set_ := cerPort_updCer_same drawn port (fun x => { x with cer := some y })
  have noted : Within _ _ opened := within_cerEvent (drawn.updCer port (fun x => { x with cer := some y })) port 0x0A13 2 0xFF c.kind y.id.toNat
  exact ⟨opened, rfl, congrArg CerPort.cer ((cerPort_of_within noted (by decide) port).trans set_), (drawn'.next (within_updCer drawn port _)).next noted⟩

/-- A lapse draws nothing, and names no ceremony. -/
theorem lapseOld_frees (port : Nat) : (p.lapseOld port).cerNext = p.cerNext ∧ (p.lapseOld port).draws = p.draws ∧
    Within [.cers, .counts, .trngs, .evr, .part, .xct, .seats] p (p.lapseOld port) := by
  obtain ⟨x, noted, -⟩ := lapseOld_lapses (p := p) port
  have set_ : (p.setCer port x).cerNext = p.cerNext ∧ (p.setCer port x).draws = p.draws := by
    unfold Part.setCer
    split
    · exact ⟨rfl, rfl⟩
    · exact ⟨rfl, rfl⟩
  have cerNext : (p.lapseOld port).cerNext = (p.setCer port x).cerNext := by rw [noted.eq]
  have lapsed : Within [.cers, .counts, .trngs, .evr, .part, .xct, .seats] p (p.setCer port x) := (within_setCer p port x).mono
  exact ⟨cerNext.trans set_.1, noted.draws.trans set_.2, lapsed.next (.of_noted noted)⟩

/-- The ceremony that CER_BEGIN asks for, of the kinds 1 to 3. -/
def begun (session : BitVec 32) (b : Bytes) : Ceremony :=
  { id := 0, session := session, kind := field b 1 1, m := field b 2 1, digest := slice b 8 48, context := slice b 56 (field b 3 1), challenge := []
    registry := none, ownerX := [], ownerKem := [] }

theorem cerBegin_opens {uid : Nat} {x : BitVec 32} {b : Bytes} (len : b.length = 72) (port : field b 0 1 ≤ 1) (least : 1 ≤ field b 1 1)
    (most : field b 1 1 ≤ 3) (context : field b 3 1 ≤ 16) (reserved : allZero (slice b 4 4) = true)
    (padded : allZero (slice b (56 + field b 3 1) (16 - field b 3 1)) = true) (unlocked : (p.lapseOld (field b 0 1)).cerLocked (field b 0 1) = false)
    (permitted : (p.lapseOld (field b 0 1)).cerPermitted (field b 1 1) (slice b 56 (field b 3 1)) none = true) :
    p.cerBegin uid x b = (p.lapseOld (field b 0 1)).openCeremony uid (field b 0 1) (begun x b) := by
  have kind : (field b 1 1 == 5) = false := by
    rw [beq_eq_false_iff_ne]
    omega
  have other : field b 1 1 ≠ 4 := by omega
  unfold Part.cerBegin
  simp only [kind, len, reserved, padded, unlocked, permitted, other, Bool.false_and, Bool.false_eq_true, if_false, beq_self_eq_true]
  rw [if_neg (by simp; omega)]
  rfl

/-- The part as a step of a ceremony has begun on a port, before a card (R399). -/
def stepped (p : Part) (port uid : Nat) : Part :=
  (p.updCer port (fun y => { y with
    step := some { uid := uid, started := p.now, stage := .awaiting }
    cer := y.cer.map (fun z => { z with steps := z.steps + 1, lastStep := p.now }) })).parkCmd uid

theorem within_stepped (port uid : Nat) : Within [.cers, .xct] p (stepped p port uid) :=
  (within_updCer p port _).mono.next (within_updCmd _ _ _)

theorem cerPort_stepped {port uid : Nat} {y : Ceremony} (runs : (p.cerPort port).cer = some y) : (stepped p port uid).cerPort port =
    { p.cerPort port with
      step := some { uid := uid, started := p.now, stage := .awaiting }, cer := some { y with steps := y.steps + 1, lastStep := p.now } } := by
  refine (cerPort_of_within (within_updCmd _ uid _) (by decide) port).trans ((cerPort_updCer_same p port _).trans ?_)
  rw [runs]
  rfl

/-- Without a card a step waits. -/
theorem startCard_waits {port : Nat} (absent : (p.cerPort port).present = false) : p.startCard port = p := by
  unfold Part.startCard
  extract_lets c
  split
  · exact if_neg (by simp [c, absent])
  · rfl

/-- A card that is present, and off, is activated and selected (R392, R399). -/
theorem startCard_selects {port : Nat} {s : CardStep} (step : (p.cerPort port).step = some s) (waits : s.stage = .awaiting)
    (present : (p.cerPort port).present = true) (off : (p.cerPort port).active = false) (normal : p.extesting = false) :
    ((p.startCard port).cerPort port).step = some { s with stage := .selecting } ∧ ((p.startCard port).cerPort port).active = true ∧
    Within [.cers] p (p.startCard port) := by
  unfold Part.startCard
  extract_lets c
  have step' : c.step = some s := step
  simp -zeta only [step']
  rw [if_pos ⟨waits, present, off, normal⟩]
  have drawn : Within [.cers] p (p.draw 2) := ⟨(changes_draws p _).mono (by decide), rfl⟩
  refine ⟨?_, ?_, drawn.next (within_updCer _ _ _)⟩
  · rw [cerPort_updCer_same]
  · rw [cerPort_updCer_same]

end

theorem cerStep_begins {s : State} {o : Origin} {c : Cmd} {b : Bytes} {x : BitVec 32} {port : Nat} {y : Ceremony} (ready : HouseReady s o 0xA002 b c)
    (session : c.session? = some x) (len : b.length = 8) (zero : allZero (b.drop 4) = true) (named : s.cerOf (field b 0 4) = some (port, y))
    (own : y.session = x) (free : (s.cerPort port).step = none) :
    exec (.cerStep o b) s = .next (after s ((stepped s.toPart port c.uid).startCard port)) := by
  refine house_next ready ?_
  simp only [session, ready.block]
  exact (if_neg (by simp [len, zero])).trans (withCeremony_free named own free _)

theorem cerEnd_ends {s : State} {o : Origin} {c : Cmd} {b : Bytes} {x : BitVec 32} {port : Nat} {y : Ceremony} (ready : HouseReady s o 0xA003 b c)
    (session : c.session? = some x) (len : b.length = 8) (zero : allZero (b.drop 4) = true) (named : s.cerOf (field b 0 4) = some (port, y))
    (own : y.session = x) (free : (s.cerPort port).step = none) : exec (.cerEnd o b) s = .next (after s (s.toPart.cerEnd c.uid x port y)) := by
  refine house_next ready ?_
  simp only [session, ready.block]
  exact (if_neg (by simp [len, zero])).trans (withCeremony_free named own free _)

section
variable {p : Part}

/-- The units that an owner claim may change. -/
abbrev claimUnits : List Unit_ := [.power, .deal, .xct, .vault, .seats, .trngs, .guard, .part, .evr, .cers, .counts]

/-- What the owner claim has made of the part (R401): it is in service, with a new root, its owner's Deal key, and its certificate. -/
structure Claimed (p q : Part) (port : Nat) (cert : Bytes) : Prop where
  life : q.power.life = 1
  noDeal : q.deal.st = .noDeal
  key : q.deal.key.isSome = true
  deck : q.vault.st = .awaitingDeck
  root : q.vault.root = some (p.drawn 32)
  tag : q.vault.rootTag = true
  incarnation : q.vault.incarnation = p.vault.incarnation + 1
  idCert : q.idCert = some cert
  ended : (q.cerPort port).cer = none
  units : Within claimUnits p q

theorem cert_updCer (p : Part) (port : Nat) (f : CerPort → CerPort) : SameCert p (p.updCer port f) := .ite ⟨rfl⟩ ⟨rfl⟩

theorem within_claim (p : Part) (r : Option Registry) (i : Option Bytes) (x : Power) (g : GuardUnit) (d : DealUnit) (y : XctUnit) (v : VaultUnit) :
    Within claimUnits p { p with registry := r, idCert := i, power := x, guard := g, deal := d, xct := y, vault := v } :=
  ⟨fun u other => by cases u <;> simp [Unit_.Same, after] at other ⊢, rfl⟩

/-- The claim takes effect on everything at once, ends its ceremony, and answers. -/
theorem claimNow_claims (uid port : Nat) (c : Ceremony) (session : BitVec 32) (cert : Bytes) (counted : Nat) : ∃ q answer,
    p.claimNow uid port c session cert counted = (q.answer uid Status.done answer).relevel ∧ Claimed p q port cert := by
  unfold Part.claimNow
  extract_lets root ktk eph rand k drawn fingerprint
  cases Kem.encaps c.ownerKem rand with
  | mk ct kss =>
    simp -zeta only
    extract_lets dealKey set_ closed body told
    have taken : Within claimUnits p drawn := (within_drbgTakes p 0 176).mono
    have act : Within claimUnits p set_ := taken.next (within_claim drawn _ _ _ _ _ _ _)
    have noted : Within [.evr, .counts, .part, .xct, .seats] (closed.deactivate port) told := within_cerEvent _ _ _ _ _ _ _
    have ended : Within [.cers, .evr, .counts, .part, .xct, .seats] set_ told :=
      ((Within.refl.next (within_updCer set_ port _)).next (within_deactivate closed port)).next noted
    have cert' : SameCert set_ told := ((cert_updCer set_ port _).trans (cert_updCer closed port _)).trans (.of_noted (event_noted _ _ _ _ _ _ _ _ _))
    have off : told.cerPort port = _ := (cerPort_of_within noted (by decide) port).trans (cerPort_updCer_same closed port _)
    have closes : (told.cerPort port).cer = none :=
      (congrArg CerPort.cer off).trans (congrArg CerPort.cer (cerPort_updCer_same set_ port _))
    have power : told.power = set_.power := ended.units .power (by decide)
    have deal : told.deal = set_.deal := ended.units .deal (by decide)
    have vault : told.vault = set_.vault := ended.units .vault (by decide)
    refine ⟨told, _, rfl, ⟨?_, ?_, ?_, ?_, ?_, ?_, ?_, cert'.idCert, closes, act.next ended⟩⟩
    · rw [power]
    · rw [deal]
    · rw [deal]
      rfl
    · rw [vault]
    · rw [vault]
    · rw [vault]
    · rw [vault]
      rfl

/-- A ceremony of the kinds 2 to 4 that has its quorum ends with an authorisation (R398). -/
theorem cerEnd_authorises {uid port : Nat} {x : BitVec 32} {c : Ceremony} (least : 2 ≤ c.kind) (most : c.kind ≤ 4)
    (met : p.cerQuorum c ≤ c.counted.length) : ∃ q,
    p.cerEnd uid x port c = q.answer uid Status.done (toBE 2 (c.counted.foldl (fun m i => m ||| 2 ^ i) 0) ++ zeros 6) ∧
    q.cerPort port = { p.cerPort port with
      cer := none, unknown := none, active := false, cls := 0, proto := 0, div := 0, clkstop := false, auth := some { cer := c, granted := p.now } } ∧
    Within [.cers] p q := by
  unfold Part.cerEnd
  extract_lets counted quorum off ended
  rw [if_neg (by omega)]
  have closed : Within [.cers] p (p.updCer port (fun x => { x with cer := none, unknown := none })) := within_updCer p port _
  have off' : Within [.cers] p off := closed.next (within_deactivate _ port)
  have granted : ended = off.updCer port (fun x => { x with auth := some { cer := c, granted := off.now } }) :=
    (if_neg (by omega)).trans (if_pos (by simp [quorum, met]))
  refine ⟨ended, rfl, ?_, ?_⟩
  · rw [granted, cerPort_updCer_same, off'.now]
    exact congrArg (fun x : CerPort => { x with auth := some { cer := c, granted := p.now } })
      ((cerPort_updCer_same _ port _).trans (congrArg (fun x : CerPort => { x with active := false, cls := 0, proto := 0, div := 0, clkstop := false })
        (cerPort_updCer_same p port _)))
  · rw [granted]
    exact off'.next (within_updCer off port _)

/-- A claim that lacks a custodian stays open. -/
theorem cerEnd_short {uid port : Nat} {x : BitVec 32} {c : Ceremony} (claim : c.kind = 5) (short : c.counted.length < p.cerQuorum c) :
    p.cerEnd uid x port c = p.answer uid CerStatus.quorumNotMet :=
  (if_pos claim).trans (if_pos (decide_eq_false (by omega)))

/-- A claim with every custodian and its certificate, of a whole part, takes effect (R401). -/
theorem cerEnd_claims {uid port : Nat} {x : BitVec 32} {c : Ceremony} {cert : Bytes} (claim : c.kind = 5) (met : p.cerQuorum c ≤ c.counted.length)
    (given : c.cert = some cert) (whole : p.shieldWhole = true) :
    p.cerEnd uid x port c = p.claimNow uid port c x cert (c.counted.foldl (fun m i => m ||| 2 ^ i) 0) := by
  unfold Part.cerEnd
  extract_lets counted quorum off ended
  rw [if_pos claim, if_neg (by simp [quorum, met])]
  simp -zeta only [given]
  exact if_pos whole

end

/-- CER_CERT keeps a certificate over the part's identity (R401). -/
theorem cerCert_keeps {s : State} {o : Origin} {c : Cmd} {b : Bytes} {x : BitVec 32} {port : Nat} {y : Ceremony} (ready : HouseReady s o 0xA004 b c)
    (session : c.session? = some x) (len : 8 ≤ b.length) (declared : field b 4 4 = (b.drop 8).length) (bound : (b.drop 8).length ≤ 4096)
    (named : s.cerOf (field b 0 4) = some (port, y)) (own : y.session = x) (free : (s.cerPort port).step = none) (claim : y.kind = 5)
    (identity : Config.certKey (b.drop 8) = some identityPub) : exec (.cerCert o b) s = .next (after s ((s.toPart.setCer port
      { s.cerPort port with cer := some { y with cert := some (b.drop 8) } }).answer c.uid Status.done)) := by
  refine house_next ready ?_
  simp only [session, ready.block]
  refine (if_neg (by omega)).trans ((withCeremony_free named own free _).trans ((if_pos ⟨claim, identity⟩).trans ?_))
  have kept : s.toPart.updCer port (fun z => { z with cer := z.cer.map (fun w => { w with cert := some (b.drop 8) }) }) =
      s.toPart.setCer port { s.cerPort port with cer := some { y with cert := some (b.drop 8) } } :=
    congrArg (fun e => s.toPart.setCer port { s.cerPort port with cer := Option.map (fun w : Ceremony => { w with cert := some (b.drop 8) }) e }) (cer_of_cerOf named)
  rw [kept]

/-- Settles O41: each command passes the checks of its row; its act is one on its port, and an owner claim's is one on the whole part. -/
theorem ceremonyCommandsAct : Obligations.CeremonyCommandsAct := by
  unfold Obligations.CeremonyCommandsAct
  refine ⟨fun s o c b x ready session len port least most context reserved padded unlocked permitted => ?_,
    fun s o c b x port y ready session len zero named own free absent => ?_,
    fun s o c b x port y ready session len zero named own free present off normal => ?_,
    fun s o c b x port y ready session len zero named own free least most met => ?_,
    fun s o c b x port y ready session len zero named own free claim short => ?_,
    fun s o c b x port y cert ready session len zero named own free claim met given whole => ?_,
    fun s o c b x port y ready session len declared bound named own free claim identity =>
      cerCert_keeps ready session len declared bound named own free claim identity⟩
  · obtain ⟨next, draws, lapsed⟩ := lapseOld_frees (p := s.toPart) (field b 0 1)
    obtain ⟨q, opens, cer, act⟩ := openCeremony_opens (p := s.toPart.lapseOld (field b 0 1)) c.uid (field b 0 1) (begun x b)
    have drawn : (s.toPart.lapseOld (field b 0 1)).drawn 32 = s.drawn 32 := by
      unfold Part.drawn
      rw [draws]
    refine ⟨q, _, house_next ready ?_, cer, next, rfl, rfl, rfl, drawn, (lapsed.next act).units.keeps (by decide)⟩
    simp only [session, ready.block]
    rw [cerBegin_opens len port least most context reserved padded unlocked permitted, opens, next]
    exact congrArg (fun l => q.answer c.uid Status.done (l ++ _)) (List.append_assoc _ _ _)
  · have step := cerPort_stepped (uid := c.uid) (cer_of_cerOf named)
    have waits : (stepped s.toPart port c.uid).startCard port = stepped s.toPart port c.uid :=
      startCard_waits ((congrArg CerPort.present step).trans absent)
    refine ⟨_, cerStep_begins ready session len zero named own free, ?_⟩
    rw [waits]
    refine ⟨congrArg CerPort.step step, congrArg CerPort.cer step, fun d found => ?_, (within_stepped port c.uid).units.keeps (by decide)⟩
    have parked := findCmd_updCmd_same (s.toPart.updCer port (fun y => { y with
      step := some { uid := c.uid, started := s.now, stage := .awaiting }
      cer := y.cer.map (fun z => { z with steps := z.steps + 1, lastStep := s.now }) })) (u := c.uid) (f := fun c => { c with place := .waiting })
    obtain ⟨e, -, rfl⟩ := Option.map_eq_some_iff.1 (parked.symm.trans found)
    rfl
  · have step := cerPort_stepped (uid := c.uid) (cer_of_cerOf named)
    obtain ⟨selecting, active, act⟩ := startCard_selects (congrArg CerPort.step step) rfl ((congrArg CerPort.present step).trans present)
      ((congrArg CerPort.active step).trans off) ((congrArg (fun j : Joker => j.ir == 0) ((within_stepped port c.uid).units .joker (by decide))).trans normal)
    exact ⟨_, cerStep_begins ready session len zero named own free, selecting, active, ((within_stepped port c.uid).next act).units.keeps (by decide)⟩
  · obtain ⟨q, ends, port', act⟩ := cerEnd_authorises (uid := c.uid) (port := port) (x := x) least most met
    refine ⟨q, (cerEnd_ends ready session len zero named own free).trans (by rw [ends]), ?_, ?_, ?_, act.units.keeps (by decide)⟩
    · rw [port']
    · rw [port']
    · rw [port']
  · exact (cerEnd_ends ready session len zero named own free).trans (by rw [cerEnd_short claim short])
  · obtain ⟨q, answer, claims, done⟩ := claimNow_claims (p := s.toPart) c.uid port y x cert (y.counted.foldl (fun m i => m ||| 2 ^ i) 0)
    have calm : Calm q ((q.answer c.uid Status.done answer).relevel) := (calm_answer q _ _ _).trans (calm_relevel _)
    have told : Within answerUnits q ((q.answer c.uid Status.done answer).relevel) := (within_answer q _ _ _).next (within_relevel _)
    have cert' : SameCert q ((q.answer c.uid Status.done answer).relevel) := (cert_answer q _ _ _).trans (cert_relevel _)
    have vault : ((q.answer c.uid Status.done answer).relevel).vault = q.vault := told.units .vault (by decide)
    have deal : ((q.answer c.uid Status.done answer).relevel).deal = q.deal := told.units .deal (by decide)
    have row : exec (.cerEnd o b) s = .next (after s ((q.answer c.uid Status.done answer).relevel)) :=
      (cerEnd_ends ready session len zero named own free).trans (by rw [cerEnd_claims claim met given whole, claims])
    refine ⟨_, row, ?_, ?_, ?_, ?_, ?_, ?_, ?_, cert'.idCert.trans done.idCert, ?_, (done.units.next told).units.keeps (by decide)⟩
    · exact (congrArg Power.life calm.power).trans done.life
    · exact (congrArg DealUnit.st deal).trans done.noDeal
    · exact (congrArg (fun d : DealUnit => d.key.isSome) deal).trans done.key
    · exact (congrArg VaultUnit.st vault).trans done.deck
    · exact (congrArg VaultUnit.root vault).trans done.root
    · exact (congrArg VaultUnit.rootTag vault).trans done.tag
    · exact (congrArg VaultUnit.incarnation vault).trans done.incarnation
    · exact (congrArg CerPort.cer (cerPort_of_within told (by decide) port)).trans done.ended

end Sys2Proof.CeremonyRows
